-- ==== Sys2Proof/Word.lean ====
section
/-! DEFINITION. The bit-vector widths the manual uses (R12: bit 0 is the least significant bit), and the sparse table in
which the model keeps every memory and every large register array. -/

namespace Sys2Proof

abbrev Byte := BitVec 8
abbrev U16 := BitVec 16
abbrev U32 := BitVec 32
abbrev U48 := BitVec 48
abbrev U64 := BitVec 64
abbrev U128 := BitVec 128
abbrev U256 := BitVec 256
abbrev U512 := BitVec 512
abbrev U1024 := BitVec 1024

/-- A sparse array: entries in strictly ascending key order, none equal to what an unlisted key reads as. The operations
and the canonical form are in Machine/Table.lean. A memory is a table of bytes, so each entry is a Host.Cell. -/
abbrev Table (α : Type) := List (Nat × α)

end Sys2Proof
end

