-- ==== Sys2Proof/Machine/Table.lean ====
section
/-! DEFINITION. The operations on a sparse table (Word.lean): read, write, and the byte ranges of a memory. A write keeps
keys strictly rising and stores no entry that equals what an unlisted key reads as, so equal arrays are equal data. -/

namespace Sys2Proof

/-- The value at a key; `d` is what an unlisted key reads as. -/
def Table.get {α : Type} (t : Table α) (k : Nat) (d : α) : α :=
  match t with
  | [] => d
  | (j, v) :: r => if j = k then v else Table.get r k d

/-- The entry at a key, if it is listed. -/
def Table.find {α : Type} (t : Table α) (k : Nat) : Option α :=
  match t with
  | [] => none
  | (j, v) :: r => if j = k then some v else Table.find r k

/-- Remove a key. -/
def Table.drop {α : Type} (t : Table α) (k : Nat) : Table α := t.filter fun e => e.1 ≠ k

/-- List a key with a value, in key order. -/
def Table.insert {α : Type} (t : Table α) (k : Nat) (v : α) : Table α :=
  match t with
  | [] => [(k, v)]
  | (j, w) :: r => if j < k then (j, w) :: Table.insert r k v else if j = k then (k, v) :: r else (k, v) :: (j, w) :: r

/-- Write a key: the unlisted value removes the entry. -/
def Table.put {α : Type} [DecidableEq α] (t : Table α) (k : Nat) (v d : α) : Table α :=
  if v = d then t.drop k else t.insert k v

/-- The canonical form. -/
def Table.wf {α : Type} [DecidableEq α] (t : Table α) (d : α) : Bool :=
  decide ((t.map Prod.fst).Pairwise (· < ·)) && t.all fun e => decide (e.2 ≠ d)

/-- One byte of a memory; an unlisted address reads 0. -/
def Table.byte (m : Table Byte) (a : Nat) : Byte := m.get a 0

/-- `n` bytes from address `a`. -/
def Table.bytes (m : Table Byte) (a n : Nat) : List Byte :=
  let seg := m.filter fun e => a ≤ e.1 && e.1 < a + n
  (List.range n).map fun i => Table.byte seg (a + i)

/-- Write a list of bytes at address `a`. -/
def Table.putBytes (m : Table Byte) (a : Nat) (bs : List Byte) : Table Byte :=
  (m.filter fun e => decide (e.1 < a)) ++
  ((List.range bs.length).zip bs |>.map (fun e => (a + e.1, e.2)) |>.filter fun e => e.2 ≠ 0) ++
  (m.filter fun e => decide (a + bs.length ≤ e.1))

/-- The memory form of a memory of bytes. -/
def Memory.wf (m : Table Byte) : Bool := m.wf 0

/-- Little-endian value of bytes (R12). -/
def leNat : List Byte → Nat
  | [] => 0
  | b :: r => b.toNat + 256 * leNat r

/-- `n` little-endian bytes of a value. -/
def leBytes : Nat → Nat → List Byte
  | 0, _ => []
  | n + 1, v => BitVec.ofNat 8 v :: leBytes n (v / 256)

/-- Bits [hi:lo] of a value (R12). -/
def bits (v hi lo : Nat) : Nat := v / 2 ^ lo % 2 ^ (hi + 1 - lo)

/-- Bit i of a value. -/
def bit (v i : Nat) : Bool := v / 2 ^ i % 2 = 1

/-- A value with a field [.. : lo] placed at bit lo. -/
def fld (v lo : Nat) : Nat := v * 2 ^ lo

/-- A Bool as a bit. -/
def b2n (b : Bool) : Nat := if b then 1 else 0

/-- The signed value of the low w bits. -/
def sext (w v : Nat) : Int := if v % 2 ^ w < 2 ^ (w - 1) then ((v % 2 ^ w : Nat) : Int) else ((v % 2 ^ w : Nat) : Int) - (2 ^ w : Nat)

/-- Put an element before the first that it is not after. -/
def insertBy {α : Type} (le : α → α → Bool) (x : α) : List α → List α
  | [] => [x]
  | y :: r => if le x y then x :: y :: r else y :: insertBy le x r

/-- A list in the order of `le`; equal elements keep their order. -/
def sortBy {α : Type} (le : α → α → Bool) (l : List α) : List α := l.foldr (insertBy le) []

/-- Replace element i of a list. -/
def setAt {α : Type} (l : List α) (i : Nat) (v : α) : List α := l.set i v

end Sys2Proof
end

