-- ==== Sys2Proof/Machine/Fields.lean ====
section
/-! DEFINITION. The fields of an instruction word (R54, R68, R91, R92). -/

namespace Sys2Proof.Machine

/-- Bits [hi:lo] of a word. -/
def wbits (w : U32) (hi lo : Nat) : Nat := bits w.toNat hi lo

/-- OPC [31:26], PG [25:23], PN [22]. -/
def wOpc (w : U32) : Nat := wbits w 31 26
def wPg (w : U32) : Nat := wbits w 25 23
def wPn (w : U32) : Bool := w.getLsbD 22

/-- Format R: SD [21:17], SA [16:12], SB [11:7], FN [6:0]. -/
def wSd (w : U32) : Nat := wbits w 21 17
def wSa (w : U32) : Nat := wbits w 16 12
def wSb (w : U32) : Nat := wbits w 11 7
def wFn (w : U32) : Nat := wbits w 6 0

/-- Format I: the signed immediate IMM [11:0], as 64 bits. -/
def wImm (w : U32) : U64 := (BitVec.ofNat 12 w.toNat).signExtend 64

/-- Format B: the signed word offset OFF [21:0]. -/
def wOff (w : U32) : Int := sext 22 w.toNat

/-- The opcodes with a row of their own and no function field. -/
def isOp (op : Nat) (w : U32) : Bool := wOpc w = op

/-- ALU, CMP and SYS select by FN (R93). -/
def isAlu (fn : Nat) (w : U32) : Bool := wOpc w = 0x00 && wFn w = fn
def isCmp (fn : Nat) (w : U32) : Bool := wOpc w = 0x0C && wFn w = fn
def isSys (fn : Nat) (w : U32) : Bool := wOpc w = 0x14 && wFn w = fn

/-- The ALU functions that exist (Scalar functions). -/
def aluFns : List Nat := [0, 1, 2, 3, 4, 5, 6, 7, 8, 9, 10, 11, 12, 13, 0x10, 0x11, 0x12, 0x13, 0x14, 0x15]

/-- The CMP functions that exist. -/
def cmpFns : List Nat := [0, 1, 2, 3, 4, 5, 0x10, 0x11, 0x12, 0x13, 0x14, 0x15]

/-- The opcodes that exist beside ALU, CMP and SYS (Major opcodes). -/
def plainOps : List Nat :=
  [1, 2, 3, 4, 5, 6, 7, 8, 9, 0x0A, 0x10, 0x11, 0x12, 0x18, 0x19, 0x1A, 0x1B, 0x1C, 0x1D, 0x20, 0x21]

/-- A word with a reserved OPC or FN (R91, R93). -/
def isIllegal (w : U32) : Bool :=
  if wOpc w = 0x00 then !aluFns.contains (wFn w)
  else if wOpc w = 0x0C then !cmpFns.contains (wFn w)
  else if wOpc w = 0x14 then decide (5 < wFn w)
  else !plainOps.contains (wOpc w)

/-- The words that the row HALT covers: SYS HALT, and a reserved OPC or FN, which halts its thread (R91). -/
def isHaltRow (w : U32) : Bool := isSys 1 w || isIllegal w

end Sys2Proof.Machine
end

