-- ==== Sys2Proof/Syntax.lean ====
section
/-! DEFINITION. The commands of the module: one constructor of Instr for each row of spec/opcode_table.json, with the
row's operands. An operand that comes from outside the module (what a sensor reads, what a peer sends, what an image
declares) is a plain structure of this file. -/

namespace Sys2Proof

/-- One watch slot that an image declares (R187). `cls` 0 to 4, `source` 0 DERIVED, 1 SUPPLIED, 2 UNIT. -/
structure WatchDecl where
  tensor : U32
  cls : Nat
  source : Nat
  entry : Nat
  fmt : Nat
  blk : Nat
deriving DecidableEq, Repr, Inhabited

/-- The code of one core of a segment variant (R80): its words and the entry address of each thread it starts. `core` is
counted within the partition, in ascending hall order. -/
structure CoreCode where
  core : Nat
  words : List U32
  entries : List (Nat × Nat)
deriving DecidableEq, Repr, Inhabited

/-- The entry addresses of a layer for one widening level and one accumulation mode (R201): (core, thread, word index). -/
structure LayerEntry where
  level : Nat
  a16 : Bool
  entries : List (Nat × Nat × Nat)
deriving DecidableEq, Repr, Inhabited

/-- A layer record of an image (R201): the span of words of each core that lies in the layer, the slots of its narrow
outputs, its declared accumulation mode, its marks with their values relative to the segment's snapshot, its entries. -/
structure LayerRec where
  spans : List (Nat × Nat × Nat)
  outputs : List U32
  a16 : Bool
  marks : List (Nat × Nat)
  entries : List LayerEntry
deriving DecidableEq, Repr, Inhabited

/-- One segment variant (R80). -/
structure Variant where
  cores : List CoreCode
  layers : List LayerRec
deriving DecidableEq, Repr, Inhabited

/-- One segment of an image: its variants and its collective schedule (R239), the addresses of exchange group records. -/
structure SegDecl where
  num : Nat
  variants : List Variant
  schedule : List Nat
deriving DecidableEq, Repr, Inhabited

/-- One stage queue that an image declares (R262): slots, tiles a slot, base address, its four marks, and which of its two
stages lie on this module. -/
structure StageQueueDecl where
  slots : Nat
  tiles : Nat
  base : Nat
  sent : Nat
  full : Nat
  done : Nat
  free : Nat
  producer : Bool := true
  consumer : Bool := true
deriving DecidableEq, Repr, Inhabited

/-- What the segment of a serving image declares (R328): batch table, context slots, buckets as (size, variant), and the
feed limit of a slot. -/
structure ServeDecl where
  batchTable : Nat
  ctxSlots : Nat
  tokenBuckets : List (Nat × Nat)
  feedBuckets : List (Nat × Nat)
  feedLimit : Nat
deriving DecidableEq, Repr, Inhabited

/-- What a program image states, as the module reads it at a RUN, and how many bytes it has in memory. The Kalsyn container's own
byte layout is not in the manual, so the RUN command carries what the image states (assumption log 2). -/
structure Image where
  shapes : List (List Nat)
  watch : List WatchDecl
  ledger : Nat
  vstages : Nat
  stageQueues : List StageQueueDecl
  mirrorFactor : Nat
  mirrors : List (U32 × List Nat)
  channelLossRecovery : Bool
  segments : List SegDecl
  serve : Option ServeDecl
  bytes : Nat := 64
deriving DecidableEq, Repr, Inhabited

/-- A mover of tile frames: spring `k` of a core (R120), or a command mover of an I/O die (R308). -/
inductive MoverRef where
  | spring (core k : Nat)
  | command (die idx : Nat)
deriving DecidableEq, Repr, Inhabited

/-- What a read of one 64-bit pond word finds (R118): a single-bit error, or a double-bit error. -/
structure WordError where
  word : Nat
  double : Bool
deriving DecidableEq, Repr, Inhabited

/-- What a read of one 64-byte lake granule finds (R158). -/
inductive GranuleError where
  | clean
  | corrected (device : Nat)
  | uncorrectable
deriving DecidableEq, Repr, Inhabited

/-- Where a frame that arrives in a landing came from (R127). Fabric arrivals have rows of their own. -/
inductive ArrivalSource where
  | flash (obj tile : Nat) (decodes headerOk : Bool)
  | host (m : MoverRef)
  | hostPayload (m : MoverRef)
  | importSource (s q tile : Nat)
deriving DecidableEq, Repr, Inhabited

/-- An arbiter of frames (R138). -/
inductive ArbiterRef where
  | channel (stack ch : Nat)
  | bridge (a b : Nat)
  | ioLink (die hall : Nat)
deriving DecidableEq, Repr, Inhabited

/-- A piece of the translation layer's background work (R166, R167): blocks retired, relocations, bytes they wrote, and
the spare area left as a percentage of its initial size. -/
structure FlashWork where
  retired : Nat
  relocations : Nat
  bytes : Nat
  sparePercent : Nat
deriving DecidableEq, Repr, Inhabited

/-- An extent as a recovery source delivers it (R179): its 128-byte header and its frames. -/
structure ExtentData where
  header : List Byte
  frames : List (List Byte)
deriving DecidableEq, Repr, Inhabited

/-- The end of one source of the recovery ladder (R179). -/
inductive RecoveryOutcome where
  | failed
  | delivered (x : ExtentData)
deriving DecidableEq, Repr, Inhabited

/-- What a mirror sends in a digest compare (R234): its position, its digest, and its frames of the record. -/
structure MirrorCopy where
  pos : Nat
  digest : U64
  frames : List (List Byte)
deriving DecidableEq, Repr, Inhabited

/-- What the mirrors send for a replica recovery (R367): frames by their address here, and the digest of each record by its index. -/
structure ReplicaFrames where
  tiles : List (Nat × List Byte)
  digests : List (Nat × U64)
deriving DecidableEq, Repr, Inhabited

/-- A flit (R269): 80-bit header, 242 data bytes, CRC. -/
structure Flit where
  header : BitVec 80
  data : List Byte
  crc : U32
deriving DecidableEq, Repr, Inhabited

/-- What the forward error correction found in a flit's codewords (R267): symbols corrected, or codewords beyond correction. -/
structure FecResult where
  corrected : Nat := 0
  uncorrectable : Nat := 0
deriving DecidableEq, Repr, Inhabited

/-- A flit as it arrives: what the correction found in it, and the flit. -/
structure ReceivedFlit where
  fec : FecResult
  flit : Flit
deriving DecidableEq, Repr, Inhabited

/-- A gain of a stage queue (R262): that of DONE or of SENT, and the mark's value where the end that gained it lies on another
module. -/
structure StageGain where
  done : Bool
  told : Option U32
deriving DecidableEq, Repr, Inhabited

/-- What names an unanswered request of a partition (R276): its lane and PSN. -/
structure LanePsn where
  vl : Nat
  psn : Nat
deriving DecidableEq, Repr, Inhabited

/-- A packet (R272): route header and body. -/
structure Packet where
  route : U256
  body : List Byte
deriving DecidableEq, Repr, Inhabited

/-- An input of the module switch (R278). -/
inductive PacketSource where
  | port (port vl : Nat) (cls : Bool)
  | landing (die : Nat)
deriving DecidableEq, Repr, Inhabited

/-- How port training ended (R282, R287). `lanes` is the bitmap of lanes that passed; `credits` the flits of buffer that the
peer grants to each lane and class (R271), by lane * 2 + class; `down` the pairs of other modules whose
direct link the Link Manager knows to be down (R283). -/
structure TrainResult where
  lanes : BitVec 4
  peerModule : Nat
  peerPort : Nat
  peerExtents : U32
  credits : List Nat := []
  down : List (Nat × Nat) := []
deriving DecidableEq, Repr, Inhabited

/-- One sample of the power sensors (R431): input power, and the draw of each of the 96 domains, in watts. -/
structure PowerReading where
  millivolts : Nat
  milliamps : Nat
  inputWatts : Nat
  domainWatts : List Nat
deriving DecidableEq, Repr, Inhabited

/-- One sample of the temperature sensors (R433), in units of 0.01 degrees: eight junctions a hall, the stacks, two a
die, and the coolant. -/
structure ThermalReading where
  junctions : List Int
  stackTemps : List Int
  dies : List Int
  inlet : Int
  outlet : Int
deriving DecidableEq, Repr, Inhabited

/-- The wake triggers of R440. -/
inductive WakeTrigger where
  | commandAccepted
  | attached
  | lakePacket
  | exchangeFrame
  | sleepWrittenZero
  | activateWritten
deriving DecidableEq, Repr, Inhabited

/-- What a start finds (R444): the halls whose self-test fails, the hold-up tail measured, the time the start took, and
whether every sensor reads below 95 degrees (R435). -/
structure StartReading where
  failedHalls : List Nat
  holdupBytes : Nat
  micros : Nat
  cool : Bool
deriving DecidableEq, Repr, Inhabited

/-- What the march test of one stack finds (R454): failing granules with the device each is traced to, and whether the parked contents
came back at all; of what came back, the frames that are other than they were sent, by lake address; and whether the park module refused
the parking, for a small lend region or by its Fabric.PeerPartitions. -/
structure LakeTestResult where
  failing : List (Nat × Nat)
  parkedBack : Bool
  changed : List (Nat × List Byte) := []
  refused : Bool := false
deriving DecidableEq, Repr, Inhabited

/-- The commands, in the order of spec/opcode_table.json. Each docstring names the rule the table gives for the row. -/
inductive Instr where
  /-- R93. The ALU instruction with FN ADD writes sA + sB, modulo 2^64, to sD. -/
  | aluAdd (c t : Nat) (w : U32)
  /-- R93. The ALU instruction with FN SUB writes sA − sB, modulo 2^64, to sD. -/
  | aluSub (c t : Nat) (w : U32)
  /-- R93. The ALU instruction with FN AND writes the bitwise AND of sA and sB to sD. -/
  | aluAnd (c t : Nat) (w : U32)
  /-- R93. The ALU instruction with FN OR writes the bitwise OR of sA and sB to sD. -/
  | aluOr (c t : Nat) (w : U32)
  /-- R93. The ALU instruction with FN XOR writes the bitwise XOR of sA and sB to sD. -/
  | aluXor (c t : Nat) (w : U32)
  /-- R93. The ALU instruction with FN SHL shifts sA left by sB[5:0]. -/
  | aluShl (c t : Nat) (w : U32)
  /-- R93. The ALU instruction with FN SHR shifts sA right logically by sB[5:0]. -/
  | aluShr (c t : Nat) (w : U32)
  /-- R93. The ALU instruction with FN SRA shifts sA right arithmetically by sB[5:0]. -/
  | aluSra (c t : Nat) (w : U32)
  /-- R93. The ALU instruction with FN MUL writes the low 64 bits of the product to sD. -/
  | aluMul (c t : Nat) (w : U32)
  /-- R93. The ALU instruction with FN MULHU writes the high 64 bits of the unsigned product to sD. -/
  | aluMulhu (c t : Nat) (w : U32)
  /-- R93. The ALU instruction with FN DIVU writes the unsigned quotient to sD, which is 0 when dividing by zero. -/
  | aluDivu (c t : Nat) (w : U32)
  /-- R93. The ALU instruction with FN REMU writes the unsigned remainder to sD, which is the dividend when dividing by zero. -/
  | aluRemu (c t : Nat) (w : U32)
  /-- R93. The ALU instruction with FN MIN writes the signed minimum of sA and sB to sD. -/
  | aluMin (c t : Nat) (w : U32)
  /-- R93. The ALU instruction with FN MAX writes the signed maximum of sA and sB to sD. -/
  | aluMax (c t : Nat) (w : U32)
  /-- R93. The ALU instruction with FN FADD adds the FP32 operands with RNE and writes the result zero-extended to sD. -/
  | aluFadd (c t : Nat) (w : U32)
  /-- R93. The ALU instruction with FN FSUB subtracts the FP32 operands with RNE. -/
  | aluFsub (c t : Nat) (w : U32)
  /-- R93. The ALU instruction with FN FMUL multiplies the FP32 operands with RNE. -/
  | aluFmul (c t : Nat) (w : U32)
  /-- R93. The ALU instruction with FN FDIV divides the FP32 operands with RNE. -/
  | aluFdiv (c t : Nat) (w : U32)
  /-- R93. The ALU instruction with FN FMIN writes the FP32 minimum of the operands under R51. -/
  | aluFmin (c t : Nat) (w : U32)
  /-- R93. The ALU instruction with FN FMAX writes the FP32 maximum of the operands under R51. -/
  | aluFmax (c t : Nat) (w : U32)
  /-- R91. ADDI writes sA plus the sign-extended immediate to sD. -/
  | addi (c t : Nat) (w : U32)
  /-- R91. ANDI writes sA AND the sign-extended immediate to sD. -/
  | andi (c t : Nat) (w : U32)
  /-- R91. ORI writes sA OR the sign-extended immediate to sD. -/
  | ori (c t : Nat) (w : U32)
  /-- R91. XORI writes sA XOR the sign-extended immediate to sD. -/
  | xori (c t : Nat) (w : U32)
  /-- R91. SHLI shifts sA left by IMM[5:0]. -/
  | shli (c t : Nat) (w : U32)
  /-- R91. SHRI shifts sA right logically by IMM[5:0]. -/
  | shri (c t : Nat) (w : U32)
  /-- R91. SRAI shifts sA right arithmetically by IMM[5:0]. -/
  | srai (c t : Nat) (w : U32)
  /-- R91. LIS shifts sD left by 16 bits and ORs in IMM16. -/
  | lis (c t : Nat) (w : U32)
  /-- R83. LD issues a 64-bit pond load into sD, which delivers its result 4 cycles later. -/
  | ld (c t : Nat) (w : U32)
  /-- R83. A pond load delivers its result 4 cycles after issue, and its thread becomes READY again. -/
  | pondLoadResult (c t : Nat)
  /-- R88. ST stores sD as 64 bits into the pond, ordered with the core's other scalar accesses. -/
  | st (c t : Nat) (w : U32)
  /-- R93. CMP with FN EQ sets pD to the result of sA equal to sB. -/
  | cmpEq (c t : Nat) (w : U32)
  /-- R93. CMP with FN NE sets pD to the result of sA not equal to sB. -/
  | cmpNe (c t : Nat) (w : U32)
  /-- R93. CMP with FN LT sets pD to the signed less-than of sA and sB. -/
  | cmpLt (c t : Nat) (w : U32)
  /-- R93. CMP with FN LTU sets pD to the unsigned less-than of sA and sB. -/
  | cmpLtu (c t : Nat) (w : U32)
  /-- R93. CMP with FN GE sets pD to the signed greater-or-equal of sA and sB. -/
  | cmpGe (c t : Nat) (w : U32)
  /-- R93. CMP with FN GEU sets pD to the unsigned greater-or-equal of sA and sB. -/
  | cmpGeu (c t : Nat) (w : U32)
  /-- R50. CMP with FN FEQ compares the FP32 operands for equality and counts an unordered pair. -/
  | cmpFeq (c t : Nat) (w : U32)
  /-- R50. CMP with FN FNE compares the FP32 operands for inequality. -/
  | cmpFne (c t : Nat) (w : U32)
  /-- R50. CMP with FN FLT compares the FP32 operands with less-than. -/
  | cmpFlt (c t : Nat) (w : U32)
  /-- R50. CMP with FN FLE compares the FP32 operands with less-or-equal. -/
  | cmpFle (c t : Nat) (w : U32)
  /-- R50. CMP with FN FGT compares the FP32 operands with greater-than. -/
  | cmpFgt (c t : Nat) (w : U32)
  /-- R50. CMP with FN FGE compares the FP32 operands with greater-or-equal. -/
  | cmpFge (c t : Nat) (w : U32)
  /-- R83. BR adds OFF to PC when its guard is true, and a taken branch makes its thread wait 2 cycles. -/
  | br (c t : Nat) (w : U32)
  /-- R83. The 2-cycle shadow of a taken branch expires, and the thread becomes READY. -/
  | branchShadowEnd (c t : Nat)
  /-- R94. JR sets PC to sA, and a target outside a loop body ends that loop level and every level inside it. -/
  | jr (c t : Nat) (w : U32)
  /-- R94. LOOP starts a hardware loop that runs the next LEN words sC times. -/
  | loop (c t : Nat) (w : U32)
  /-- R81. SYS END makes the thread IDLE. -/
  | endThread (c t : Nat) (w : U32)
  /-- R109. SYS HALT halts the thread with code SB[4:0] + 0x80. -/
  | halt (c t : Nat) (w : U32)
  /-- R89. BAR holds its thread WAITING until every thread in the mask has reached a BAR with the same mask. -/
  | bar (c t : Nat) (w : U32)
  /-- R89. The last thread of a BAR mask arrives or becomes IDLE or HALTED, and every waiting thread of the mask is released. -/
  | barRelease (c : Nat) (mask : Byte)
  /-- R89. WAITQ holds its thread until every engine instruction the thread has issued has completed. -/
  | waitq (c t : Nat) (w : U32)
  /-- R89. The last outstanding engine instruction of a thread in WAITQ completes, and the thread is released. -/
  | waitqRelease (c t : Nat)
  /-- R87. CSRR reads a special register into sD. -/
  | csrr (c t : Nat) (w : U32)
  /-- R96. TTAG sets the TENSOR, BASE and STRIDE tags of a tile register from three scalar registers. -/
  | ttag (c t : Nat) (w : U32)
  /-- R96. TLD loads a pond tile frame into a tile register after verifying its check value, and sets the register's tags. -/
  | tld (c t : Nat) (w : U32)
  /-- R96. TST writes a tile register into a pond frame and fills the frame's format, block size and check value. -/
  | tst (c t : Nat) (w : U32)
  /-- R100. A format V vector instruction is queued to the vector engine with tile register operands. -/
  | vop (c t : Nat) (w : U32)
  /-- R103. A format D vector instruction is queued to the vector engine with a pond descriptor. -/
  | vdesc (c t : Nat) (w : U32)
  /-- R121. SPR reads a transfer descriptor, checks it and queues it on a spring. -/
  | spr (c t : Nat) (w : U32)
  /-- R98. MWAIT holds its thread until a partition mark reaches a target. -/
  | mwait (c t : Nat) (w : U32)
  /-- R136. A mark value applied by the mark unit reaches the target of a waiting MWAIT, and the thread resumes. -/
  | mwaitRelease (c t : Nat)
  /-- R54. MMA queues one panel multiply-accumulate on an accumulator, and with CLR set it loads the accumulator's key. -/
  | mma (c t : Nat) (w : U32)
  /-- R59. The matrix unit executes a queued MMA and adds its products exactly, closing a chunk under R63 or R64 when one completes. -/
  | mmaExecute (c : Nat)
  /-- R68. EPI queues an epilogue of an accumulator into destination tile registers. -/
  | epi (c t : Nat) (w : U32)
  /-- R69. The epilogue reads the accumulator and applies scales, bias, activation and conversion into the destination registers. -/
  | epiExecute (c : Nat)
  /-- R79. A parity error in an accumulator halts its owner thread, discards the contents and drops the queued instructions on it. -/
  | accParityError (c acc : Nat)
  /-- R84. A slot frees in a full engine or spring queue, and the waiting thread's instruction is accepted. -/
  | engineQueueAccept (c t : Nat)
  /-- R60. An engine finishes with a locked tile register, and the access waiting on the lock proceeds. -/
  | tileLockRelease (c t : Nat)
  /-- R102. The vector engine computes a + b for each element. -/
  | vecAdd (c : Nat)
  /-- R102. The vector engine computes a − b for each element. -/
  | vecSub (c : Nat)
  /-- R102. The vector engine computes a × b for each element. -/
  | vecMul (c : Nat)
  /-- R102. The vector engine computes a × b + c with one rounding for each element. -/
  | vecFma (c : Nat)
  /-- R102. The vector engine computes the correctly rounded a / b for each element. -/
  | vecDiv (c : Nat)
  /-- R102. The vector engine computes MAX for each element under R51. -/
  | vecMax (c : Nat)
  /-- R102. The vector engine computes MIN for each element under R51. -/
  | vecMin (c : Nat)
  /-- R102. The vector engine computes |a| for each element. -/
  | vecAbs (c : Nat)
  /-- R102. The vector engine computes −a for each element. -/
  | vecNeg (c : Nat)
  /-- R102. The vector engine computes the correctly rounded square root for each element. -/
  | vecSqrt (c : Nat)
  /-- R102. The vector engine computes the correctly rounded reciprocal square root for each element. -/
  | vecRsqrt (c : Nat)
  /-- R102. The vector engine computes the correctly rounded reciprocal for each element. -/
  | vecRecip (c : Nat)
  /-- R102. The vector engine computes e^a for each element. -/
  | vecExp (c : Nat)
  /-- R102. The vector engine computes 2^a for each element. -/
  | vecExp2 (c : Nat)
  /-- R102. The vector engine computes ln a for each element. -/
  | vecLog (c : Nat)
  /-- R102. The vector engine computes log2 a for each element. -/
  | vecLog2 (c : Nat)
  /-- R102. The vector engine computes the correctly rounded tanh for each element. -/
  | vecTanh (c : Nat)
  /-- R102. The vector engine computes the correctly rounded sigmoid for each element. -/
  | vecSigmoid (c : Nat)
  /-- R102. The vector engine computes rne(v × SIGMOID(v)) for each element. -/
  | vecSilu (c : Nat)
  /-- R102. The vector engine computes GELU_TANH for each element in the rounded step order that R102 defines. -/
  | vecGeluTanh (c : Nat)
  /-- R102. The vector engine computes MAX(v, +0) for each element. -/
  | vecRelu (c : Nat)
  /-- R102. The vector engine writes 1 or +0 for a == b, and counts unordered pairs. -/
  | vecCmpeq (c : Nat)
  /-- R102. The vector engine writes 1 or +0 for a != b. -/
  | vecCmpne (c : Nat)
  /-- R102. The vector engine writes 1 or +0 for a < b. -/
  | vecCmplt (c : Nat)
  /-- R102. The vector engine writes 1 or +0 for a <= b. -/
  | vecCmple (c : Nat)
  /-- R102. The vector engine writes 1 or +0 for a > b. -/
  | vecCmpgt (c : Nat)
  /-- R102. The vector engine writes 1 or +0 for a >= b. -/
  | vecCmpge (c : Nat)
  /-- R102. The vector engine selects a where c is non-zero and not NaN, and b otherwise. -/
  | vecSel (c : Nat)
  /-- R100. The vector engine converts each element to the target format. -/
  | vecCvt (c : Nat)
  /-- R106. The vector engine sums each logical row in ascending column order into an FP32 array. -/
  | vecRsum (c : Nat)
  /-- R106. The vector engine reduces each logical row by maximum into an FP32 array. -/
  | vecRmax (c : Nat)
  /-- R106. The vector engine reduces each logical row by minimum into an FP32 array. -/
  | vecRmin (c : Nat)
  /-- R107. The vector engine performs the attention block update of row state m, l and alpha, and writes p. -/
  | vecAblk (c : Nat)
  /-- R107. The vector engine recomputes the normalised probabilities from the final m and l. -/
  | vecAblkFinal (c : Nat)
  /-- R102. The vector engine adds integers with wrap-around. -/
  | vecIadd (c : Nat)
  /-- R102. The vector engine subtracts integers with wrap-around. -/
  | vecIsub (c : Nat)
  /-- R102. The vector engine multiplies integers with wrap-around. -/
  | vecImul (c : Nat)
  /-- R102. The vector engine takes the signed integer maximum. -/
  | vecImax (c : Nat)
  /-- R102. The vector engine takes the signed integer minimum. -/
  | vecImin (c : Nat)
  /-- R80. A Hall Scheduler launches a RUN's segment once its cores are free, loads the instruction stores and starts the named threads. -/
  | runLaunch (p s q : Nat)
  /-- R131. Every thread of a segment is IDLE or HALTED and every spring queue is empty, so the segment ends and its RUN completes. -/
  | segmentEnd (p s q : Nat)
  /-- R110. Every core of a halted segment has stopped, and the Hall Scheduler ends the RUN FAULT with the first halt record. -/
  | segmentFaultStopped (p s q : Nat)
  /-- R118. Every 4,096 gallery cycles the scrubber reads one pond beat and corrects single-bit errors. -/
  | pondScrub (c : Nat) (found : List WordError)
  /-- R137. A spring starts or resumes a queued descriptor at its highest non-empty priority level. -/
  | springDescriptorStart (m : MoverRef)
  /-- R125. A spring or command mover translates, reads, verifies and writes one tile of a descriptor. -/
  | springTileMove (m : MoverRef)
  /-- R126. A failed source frame is read a second time, after the lake-copy repair where one applies, and the descriptor stops if this read also fails. -/
  | springSourceReread (m : MoverRef)
  /-- R130. A tile's whole frame is written at its destination, and its mark is counted once every earlier tile has been delivered. -/
  | springTileDelivered (m : MoverRef)
  /-- R146. A descriptor stays parked beyond the fault timeout and ends with its cursor. -/
  | springFaultTimeout (p recordId : Nat)
  /-- R320. A waiting fault record is posted to the fault queue when the queue has room, and the queue's vector is signalled. -/
  | faultRecordPost (p : Nat)
  /-- R127. A frame arrives in a landing and is checked according to its source before it moves on. -/
  | landingFrameArrival (die p : Nat) (src : ArrivalSource) (frame : List Byte)
  /-- R138. A lake channel, bridge or I/O link arbiter grants one frame by priority and wait, with the borrower queue served separately. -/
  | arbiterGrant (a : ArbiterRef) (pend : Byte) (borrower : Bool)
  /-- R140. A stair member writes a frame into its pond and forwards it to the next member once that member's skid buffer has room. -/
  | stairForward (m : MoverRef) (k : Nat)
  /-- R142. A member that stays the blocking member beyond the stair lag limit is detached and fetches its remaining tiles by unicast. -/
  | stairDetach (m : MoverRef) (k : Nat)
  /-- R161. The Tier Manager rewrites a poisoned frame of a RESIDENT lake copy from the object's current extent. -/
  | lakeCopyRepair (p obj tile : Nat)
  /-- R162. The stack controller scrubs lake granules at priority 7, each once per Tier.LakeScrubHours. -/
  | lakeScrub (granule : Nat) (found : GranuleError)
  /-- R166. The translation layer relocates or retires flash blocks within its bandwidth bounds. -/
  | flashBackgroundWork (die : Nat) (w : FlashWork)
  /-- R177. The flash array reads of an extent complete, and its frames move to the landing. -/
  | flashReadComplete (p obj ext : Nat) (bad : Bool)
  /-- R172. A frame of a promotion fill is written into the lake copy, and the PROMOTE's mark gains 1. -/
  | fillFrameDelivered (p obj : Nat)
  /-- R173. The last frame of a fill is delivered, and the object becomes RESIDENT or DEMOTING and releases its held requests. -/
  | fillDone (p obj : Nat)
  /-- R175. The drain of a DEMOTING object ends, the object becomes ABSENT, and its DEMOTEs complete OK. -/
  | releaseDone (p obj : Nat)
  /-- R176. The translation layer records a new object version after its last extent is programmed, and the object changes state. -/
  | tierCommit (p obj : Nat)
  /-- R176. Old extents are retired once no fill that began before the commit still reads them. -/
  | extentRetire (p obj : Nat)
  /-- R179. A source of the recovery ladder fails or its bound passes, and the Tier Manager moves to the next source. -/
  | recoverySourceTimeout (p obj : Nat) (out : RecoveryOutcome)
  /-- R179. Tier.HostRecoveryTimeout passes without a matching IMPORT, and the object is poisoned. -/
  | hostRecoveryTimeout (p obj : Nat)
  /-- R191. Watch.ServeInterval passes in a serving partition and the watch evaluates the period. -/
  | watchPeriodEnd (p : Nat)
  /-- R203. Once every core has stopped, the Hall Scheduler restores marks, writes scale entries and restarts the layer in the chosen attempt. -/
  | layerRestart (p s q : Nat)
  /-- R222. A sweep unit updates one sweep block, commits it through the shadow slot and cursor, and writes it home. -/
  | sweepBlock (p stack : Nat)
  /-- R224. After a fault interrupts the sweep, the unit resumes from its cursor. -/
  | sweepResume (p stack : Nat)
  /-- R226. Every sweep unit finishes its records, the step becomes SWEPT and SWEEP completes. -/
  | sweepEnd (p : Nat)
  /-- R234. After STEP_COMMIT at a digest interval, the mirrors compare shard digests and repair the tiles that differ. -/
  | digestExchange (p rec : Nat) (mirrors : List MirrorCopy)
  /-- R234. A mirror's digest does not arrive within Part.DigestTimeout, and nothing is repaired. -/
  | digestTimeout (p rec : Nat)
  /-- R239. A scheduled exchange record's TRIG_MARK reaches TRIG_VALUE, and the record starts. -/
  | exchangeRecordTrigger (p x : Nat)
  /-- R256. An exchange record starts once every frame of the previous record has been sent. -/
  | exchangeRecordStart (p x : Nat)
  /-- R245. The compression unit encodes a source tile with error feedback and sends its frames. -/
  | exchangeTileCompress (p x tile : Nat)
  /-- R253. The owner adds a rank's contribution once all lower ranks have been added, and writes the sum when the last rank arrives. -/
  | reduceContribution (p x tile : Nat)
  /-- R257. Every frame is acknowledged and every destination and residual tile is written, so the record completes. -/
  | exchangeRecordComplete (p x : Nat)
  /-- R259. No frame or acknowledgement comes from a needed member for Exch.PeerTimeout, and the record ends. -/
  | exchangePeerTimeout (p x member : Nat)
  /-- R260. A member that stays blocking beyond Exch.MulticastLagLimit is detached from the tree and fetches its tiles by unicast. -/
  | multicastDetach (p x member : Nat)
  /-- R262. A gain of SENT or DONE is propagated to FULL or FREE at the other end of a stage queue. -/
  | stageQueueMarkForward (p sq : Nat) (gain : StageGain)
  /-- R270. A receiver checks a flit's CRC and sequence, takes its data and credits, and drops it if it is bad or out of order. -/
  | flitReceive (port : Nat) (f : ReceivedFlit)
  /-- R270. A received NAK makes the transmitter resend from ACK + 1, and the port goes down after 16 replays. -/
  | flitNakReplay (port ack : Nat)
  /-- R270. 10 µs pass without any ACK progress, and the port is declared down. -/
  | ackProgressTimeout (port : Nat)
  /-- R278. A switch checks a packet's route header and forwards it cut-through, dropping it for a bad HCHECK, a lane violation or the hop limit. -/
  | packetForward (src : PacketSource)
  /-- R276. A WRITE packet is checked at its destination landing, written to the lake and acknowledged, or dropped as a duplicate. -/
  | fabricWrite (die : Nat) (pk : Packet)
  /-- R274. A READ_REQ is translated at the peer and answered by READ_DATA or NAK_FAULT. -/
  | readReq (die : Nat) (pk : Packet)
  /-- R276. A READ_DATA frame is checked in the landing and written at the local destination. -/
  | readData (die : Nat) (pk : Packet)
  /-- R276. An ACK marks a WRITE delivered for its spring. -/
  | fabricAck (die : Nat) (pk : Packet)
  /-- R252. An exchange frame arrives at the owner's landing and is checked before it enters the reduction. -/
  | xframe (die : Nat) (pk : Packet)
  /-- R254. A multicast tile is checked and written at its position in DST_ADDR. -/
  | mcast (die : Nat) (pk : Packet)
  /-- R259. A peer's cancel ends the record with cause PEER_CANCELLED. -/
  | fabricCancel (die : Nat) (pk : Packet)
  /-- R275. A remote translation fault parks the issuing descriptor with the remote KIND. -/
  | nakFault (die : Nat) (pk : Packet)
  /-- R276. A remote access is unanswered for Fabric.PacketTimeout, so it is resent once and stops the descriptor with SPRING_PEER on a second timeout. -/
  | packetTimeout (p : Nat) (r : LanePsn)
  /-- R285. A lane has lost signal or FEC lock for 1 µs, and the port goes down, reroutes and retrains. -/
  | laneSignalLoss (port lane : Nat)
  /-- R287. Port training ends with identity checked and credits granted, and primary routes return to the port. -/
  | linkTrainingComplete (port : Nat) (r : TrainResult)
  /-- R463. CBL_PRSNT_N changes, and cable power is switched accordingly. -/
  | cablePresenceChange (port : Nat) (present : Bool)
  /-- R463. A short on a cable-power contact switches that contact off, and the port reports DOWN. -/
  | cablePowerShort (port : Nat)
  /-- R299. A write of D permits acceptance of commands up to D − 1, or is refused and counted. -/
  | cmdDoorbell (p s : Nat) (d : U64) (hostWrites : List (Nat × List Byte))
  /-- R316. A write of A aborts every command up to A that has not reached its commit point, and writes an abort record. -/
  | abortDoorbell (p s : Nat) (a : U64)
  /-- R310. Host software reports records consumed, and held records are written as ring space allows. -/
  | cplHead (p s : Nat) (h : U64)
  /-- R294. A write sets the partition's page-table root for walks that begin afterwards. -/
  | ptRoot (p : Nat) (v : U64)
  /-- R321. A write starts, resumes or renews a session according to its token and the partition state, or is refused. -/
  | attach (p : Nat) (v : U64)
  /-- R322. A write of the current token renews the lease, and a write of any other value is ignored and counted. -/
  | lease (p : Nat) (v : U64)
  /-- R320. Host software consumes fault records, which makes room for faults waiting to be posted. -/
  | fqHead (p : Nat) (v : U64)
  /-- R145. A RESUME response makes the spring translate again from the cursor of the parked descriptor. -/
  | faultRespResume (p : Nat) (recordId : U32)
  /-- R145. A FATAL response ends the parked descriptor at its cursor. -/
  | faultRespFatal (p : Nat) (recordId : U32)
  /-- R297. Setting EN loads ACCEPT from START_SEQ, clears CPL_TAIL and makes the stream IDLE. -/
  | streamEnable (p s : Nat)
  /-- R297. Clearing EN disables a stream that has no uncompleted command and removes its pins, and is otherwise ignored. -/
  | streamDisable (p s : Nat)
  /-- R393. A write starts a mailbox request, which the module answers in MB_RSP. -/
  | mbCtrl (v : U64)
  /-- R293. A write to any other BAR register stores its value, and a misaligned or non-64-bit access is discarded and counted. -/
  | registerWrite (p bar offset size : Nat) (v : U64)
  /-- R300. The System Supervisor journals a command entry and advances ACCEPT, which is the acceptance. -/
  | commandAccept (p s : Nat)
  /-- R308. RUN is checked and then hands a segment to the Hall Schedulers. -/
  | run (p s q : Nat) (img : Image)
  /-- R328. A serving RUN installs a segment that runs as a sequence of batched passes. -/
  | runServe (p s q : Nat) (img : Image)
  /-- R331. At a pass boundary, or when a request becomes fed or ready, the Hall Scheduler chooses a batch, writes the batch slots and launches a variant. -/
  | servePassStart (p s : Nat)
  /-- R332. A pass ends, and each token pass writes one token record per slot and ends the requests that finish. -/
  | servePassEnd (p s : Nat)
  /-- R308. MOVE runs one transfer descriptor on a command mover. -/
  | move (p s q : Nat)
  /-- R136. MARK_SET writes a value to a mark through the mark unit. -/
  | markSet (p s q : Nat)
  /-- R308. MARK_WAIT completes OK when its mark reaches TARGET. -/
  | markWait (p s q : Nat)
  /-- R308. The TIMEOUT of a MARK_WAIT passes first, and the command completes FAULT with cause TIMEOUT. -/
  | markWaitTimeout (p s q : Nat)
  /-- R226. STEP_OPEN opens step n with its seed and writes the tensor-scale entries. -/
  | stepOpen (p s q : Nat)
  /-- R194. STEP_SEAL evaluates the watch and seals the step, or stops it on a non-finite value. -/
  | stepSeal (p s q : Nat)
  /-- R219. SWEEP validates every record and starts the sweep units, which is the step's commit point. -/
  | sweep (p s q : Nat)
  /-- R229. STEP_COMMIT sets the version, clears the sweep cursors, releases the gather ledger and evaluates the watch. -/
  | stepCommit (p s q : Nat)
  /-- R226. STEP_DISCARD returns the step state to IDLE. -/
  | stepDiscard (p s q : Nat)
  /-- R241. EXCHANGE validates a list of exchange records and runs it in list order. -/
  | exchange (p s q : Nat)
  /-- R169. TIER_PROMOTE requests a lake copy of an object at an address. -/
  | tierPromote (p s q : Nat)
  /-- R173. TIER_DEMOTE requests the release of an object's lake copy. -/
  | tierDemote (p s q : Nat)
  /-- R171. TIER_PIN adds 1 to the stream's pin count on an object. -/
  | tierPin (p s q : Nat)
  /-- R171. TIER_UNPIN subtracts 1 from the stream's pin count, and a total of 0 with D set starts demotion. -/
  | tierUnpin (p s q : Nat)
  /-- R308. EXPORT writes shard records for the selected roles in list order. -/
  | exportState (p s q : Nat)
  /-- R308. IMPORT mode 0 writes a new object version from verified frames and clears poison. -/
  | importObject (p s q : Nat)
  /-- R179. IMPORT mode 1 answers an outstanding host recovery request with one extent. -/
  | importRepair (p s q : Nat)
  /-- R308. IMPORT mode 2 verifies shard records and restores sweep and residual state. -/
  | importShard (p s q : Nat)
  /-- R329. REQUEST_OPEN takes a context slot of its SERVICE stream and stays running until the request ends. -/
  | requestOpen (p s q : Nat)
  /-- R329. REQUEST_FEED supplies prompt tokens that feed passes consume. -/
  | requestFeed (p s q : Nat)
  /-- R329. REQUEST_CLOSE frees the request's context slot. -/
  | requestClose (p s q : Nat)
  /-- R319. A FENCE with ACTION WAIT completes when every earlier command in its scope has completed. -/
  | fenceWait (p s q : Nat)
  /-- R319. A FENCE with ACTION STOP ends MOVEs, MARK_WAITs and serving RUNs in its scope, then waits. -/
  | fenceStop (p s q : Nat)
  /-- R323. The lease expires, the partition becomes ORPHAN and acceptance pauses. -/
  | leaseExpiry (p : Nat)
  /-- R323. An ORPHAN partition with no running command and no open request becomes PARKED. -/
  | partitionPark (p : Nat)
  /-- R325. Part.OrphanHold passes for a PARKED partition, which writes an orphan export and becomes EXPORTED. -/
  | orphanHoldExpiry (p : Nat)
  /-- R327. A Function Level Reset resets the function's configuration and MSI-X table and expires its partition's lease. -/
  | functionLevelReset (p : Nat)
  /-- R349. The 60 s window passes with one submission, which is discarded. -/
  | protectionWindowExpiry
  /-- R349. The 600 s lockout after three digest mismatches ends. -/
  | protectionLockoutExpiry
  /-- R351. A component has not signalled its watchdog for 2 ms, is declared hung and is restarted. -/
  | watchdogExpiry (proc : Nat) (hung : List Nat)
  /-- R350. A component breaches its memory protection or executes an invalid instruction, and is stopped and restarted. -/
  | protectionBreach (proc comp : Nat)
  /-- R352. A restarted component or processor has rebuilt its state and serves requests again. -/
  | processorRestartComplete (proc : Nat)
  /-- R359. The standby Supervisor takes control, reads the journal and context tables, and resumes acceptance. -/
  | supervisorFailover
  /-- R362. A lost journal or tier table copy is rebuilt from the other copy. -/
  | journalCopyRebuild
  /-- R365. A lake channel is lost, and its granules are remapped poisoned into the spare area. -/
  | channelLoss (stack ch : Nat)
  /-- R366. A stack is lost, and the affected partition's work stops. -/
  | stackLoss (stack : Nat)
  /-- R366. A hall is lost with its stacks, and the affected partition's work stops. -/
  | hallLoss (hall : Nat)
  /-- R367. The lost records have been fetched from the mirrors, verified and written, and queued commands start. -/
  | replicaRecoveryComplete (p : Nat) (frames : ReplicaFrames)
  /-- R370. The input stays below 43 V for 20 µs, and acceptance stops, clocks halt and the journal tail is flushed. -/
  | powerFail (flushed : Bool)
  /-- R372. A fatal cause stops all work, and a sealed dump is written, followed by a warm reset if Fault.AutoReset is 1. -/
  | fatalError (cause proc : Nat)
  /-- R381. A DTLS handshake on the management port opens a session or is refused. -/
  | dtlsHandshake (sess : Nat) (chains : Bool)
  /-- R382. Three heartbeat periods pass without a frame, and the session ends. -/
  | sessionHeartbeatTimeout (sess : Nat)
  /-- R379. An Ndoit READ returns one object value. -/
  | ndoitRead (sess : Nat) (frame : List Byte)
  /-- R398. An Ndoit WRITE acts as a change set of one entry. -/
  | ndoitWrite (sess : Nat) (frame : List Byte)
  /-- R385. READ_BLOCK reads a segment of a BLOB, taking a snapshot at offset 0. -/
  | readBlock (sess : Nat) (frame : List Byte)
  /-- R385. WRITE_BLOCK stages a BLOB segment, and the segment with LAST set writes the whole value. -/
  | writeBlock (sess : Nat) (frame : List Byte)
  /-- R385. A BLOB snapshot is released after 60 s. -/
  | blockSnapshotExpiry (sess : Nat)
  /-- R398. CHANGESET_OPEN opens an ordinary or protection change set and returns its CSID. -/
  | changesetOpen (sess : Nat) (frame : List Byte)
  /-- R398. CHANGESET_ADD adds checked entries to the open set. -/
  | changesetAdd (sess : Nat) (frame : List Byte)
  /-- R398. CHANGESET_COMMIT checks constraints and queues the set, or submits a protection change. -/
  | changesetCommit (sess : Nat) (frame : List Byte)
  /-- R402. CHANGESET_ABORT discards a set before its decision, or withdraws a protection submission. -/
  | changesetAbort (sess : Nat) (frame : List Byte)
  /-- R401. Every affected partition has reached a step boundary, so the set's decision is journalled and its values apply under its class. -/
  | changesetDecision (csid : Nat)
  /-- R402. ChangeSet.Timeout passes without a decision, and the set is rolled back. -/
  | changesetTimeout (csid : Nat)
  /-- R391. SUBSCRIBE starts or ends the delivery of event records to the session. -/
  | subscribe (sess : Nat) (frame : List Byte)
  /-- R396. HEARTBEAT fixes the session's agreed feature mask and returns the module state. -/
  | heartbeat (sess : Nat) (frame : List Byte)
  /-- R391. Once per heartbeat period the module sends a HEARTBEAT response to every subscribed session. -/
  | subscriberHeartbeatTick (sess : Nat)
  /-- R410. A TCP connection on the service port delivers a package for staging. -/
  | servicePortConnect (request package : List Byte)
  /-- R410. No package data arrives for 30 s, and staging ends with SIZE. -/
  | servicePortDataTimeout
  /-- R411. A staged package is read back and checked, and the slot becomes STAGED or INVALID. -/
  | packageStagingComplete (written : Bool)
  /-- R413. A write of Fw.Activate starts activation of a staged image in the selected mode. -/
  | fwActivate (sess : Nat) (version : U32)
  /-- R415. Once its new code is loaded and checked, a processor pauses, hands its state to the new code and resumes. -/
  | handoverProcessor (ok : Bool) (pauseMicros : Nat)
  /-- R418. Every partition is held, so all processors restart from the new slot and the partitions resume. -/
  | activateRestart (pauseMicros : Nat)
  /-- R419. Not every partition is held within ChangeSet.Timeout, and the update is abandoned. -/
  | updateAbandon
  /-- R421. Fw.ConfirmSeconds passes without a rollback trigger, and the image is confirmed. -/
  | confirmTimeout
  /-- R421. A write of 1 to Fw.Confirm confirms the PROVISIONAL image. -/
  | fwConfirm
  /-- R422. A write of 1 to Fw.Rollback rolls the PROVISIONAL image back. -/
  | fwRollback
  /-- R376. A write of 1 to Dump.Release discards both dumps. -/
  | dumpRelease
  /-- R423. The input lies between 43 and 45 V, and the effective cap is lowered. -/
  | inputVoltageLow (millivolts : Nat)
  /-- R423. The input stays above 57 V for 1 ms, and an event is raised. -/
  | inputVoltageHigh (millivolts : Nat)
  /-- R423. The input stays above 58.5 V for 20 µs, and POWER_FAIL is asserted. -/
  | inputOvervoltage (millivolts : Nat)
  /-- R426. A regulator fault switches its domain off, with the outcome for the domain kind. -/
  | domainFault (d : Nat)
  /-- R426. 10 ms after a domain fault, the Power Manager switches the domain on once more. -/
  | domainRetry (d : Nat) (regulates : Bool)
  /-- R426. A retried domain stays in regulation for 1 s, and an event is raised. -/
  | domainRestored (d : Nat)
  /-- R429. A gallery clock raise of up to 100 MHz completes once the domain voltage has followed. -/
  | clockRaiseStep (hall gallery mhz : Nat)
  /-- R432. Every 100 µs each partition's cap clock is lowered or raised by 25 MHz against its budget. -/
  | powerCapTick (r : PowerReading)
  /-- R357. During a Power Manager restart, the fallback governor lowers clocks every 100 µs while power or temperature exceeds its limit. -/
  | fallbackGovernorTick (inputWatts : Nat) (junctions : List Int)
  /-- R434. Every 100 µs the sensors are sampled, and junction and stack throttling and the coolant check are applied. -/
  | thermalSample (r : ThermalReading)
  /-- R435. A sensor at 105 °C or above trips the hardware comparator, which asserts POWER_FAIL. -/
  | thermalTrip (sensor : Nat)
  /-- R437. At start and every 24 hours the hold-up energy is measured and the journal tail bound is set. -/
  | holdupCheck (bytes : Nat)
  /-- R438. A write of 1 to Power.Sleep enters SLEEP once every partition is idle, or is rolled back after ChangeSet.Timeout. -/
  | powerSleepEnter
  /-- R438. Every partition has been idle for Power.SleepIdleSeconds, and the module enters SLEEP. -/
  | sleepIdleTimeout
  /-- R438. The sleep conditions are still unmet at ChangeSet.Timeout, and the write is rolled back. -/
  | sleepWaitTimeout
  /-- R440. A wake trigger in SLEEP starts the wake sequence. -/
  | wake (trigger : WakeTrigger)
  /-- R441. The wake sequence ends, and the first waiting command starts. -/
  | wakeComplete
  /-- R443. The input rises through 45 V, the boot ROM loads a slot and the module brings itself up to RUNNING. -/
  | coldStart (r : StartReading)
  /-- R447. PERST_N or a hot reset resets the host port and expires every partition's lease. -/
  | perstN (low : Bool)
  /-- R447. A write of 1 to Device.WarmReset starts a warm reset. -/
  | deviceWarmReset
  /-- R447. MOD_RESET_N held low for at least 10 µs starts a warm reset. -/
  | modResetN
  /-- R449. The warm reset ends, interrupted commands are settled and the partitions resume. -/
  | warmResetComplete (lostHalls : List Nat)
  /-- R453. The EXTEST TAP instruction drives and samples the boundary register while the module is held in reset. -/
  | extest
  /-- R453. The IDCODE TAP instruction selects the IDCODE register. -/
  | idcode
  /-- R452. The SAMPLE/PRELOAD TAP instruction samples or preloads the boundary register. -/
  | samplePreload
  /-- R452. The EXTEST_PULSE TAP instruction runs the IEEE 1149.6 pulse test on AC-coupled lanes. -/
  | extestPulse
  /-- R452. The EXTEST_TRAIN TAP instruction runs the IEEE 1149.6 train test on AC-coupled lanes. -/
  | extestTrain
  /-- R452. The CLAMP TAP instruction holds the outputs and selects bypass. -/
  | clamp
  /-- R452. The HIGHZ TAP instruction places the outputs in high impedance. -/
  | highz
  /-- R453. The BYPASS TAP instruction, or any instruction whose condition is unmet, selects the bypass register. -/
  | bypass (code : Byte)
  /-- R452. A private TAP instruction acts only while Prot.DebugUnlock is 1. -/
  | sarolberPrivate (code : Byte)
  /-- R453. The TAP returns to Test-Logic-Reset, which starts a warm reset as MOD_RESET_N rises. -/
  | tapTestLogicReset
  /-- R454. A write of 1 to Diag.LakeTestStart holds the owning partitions and starts the lake test. -/
  | lakeTestStart
  /-- R454. Parking, march test and restore of one stack complete, and the test moves to the next stack or ends. -/
  | lakeTestStackDone (r : LakeTestResult)
  /-- R455. A write to Diag.LinkTestStart starts a PRBS31 test on a disabled port. -/
  | linkTestStart (port : Nat)
  /-- R455. Diag.LinkTestSeconds passes, and the link test reports its bit error ratio. -/
  | linkTestEnd (port bits errors : Nat)
  /-- R285. A write of 1 to Port.Enable enables the port, starts its training and ends any link test. -/
  | portEnable (port : Nat)
  /-- R285. A write of 0 to Port.Enable takes the port down. -/
  | portDisable (port : Nat)
  /-- R438. Entry to SLEEP completes within 50 ms, Power.State passes from ENTERING to SLEEP and event 0x2401 is raised. -/
  | sleepEntered
  /-- R443. The cold start reaches Module RUNNING, MOD_READY goes high, latched doorbells are acted on and event 0x1701 is raised. -/
  | moduleRunning
  /-- R448. MOD_RESET_N rises after being held low, and the warm reset held at its second row continues. -/
  | modResetNRelease
  /-- R301. Part of the stream journal tail has been mirrored to flash, which lifts an acceptance pause on the 4 MiB bound, or releases an acceptance waiting under R437. -/
  | journalTailMirrored (bytes : Nat)
  /-- R352. A firmware processor's instruction or data memory reports an uncorrectable error, and the whole processor restarts. -/
  | processorMemoryUncorrectable (proc : Nat)
  /-- R454. The hold of the owning partitions for a lake test does not come within ChangeSet.Timeout, and the test is refused with CONSTRAINT. -/
  | lakeTestHoldTimeout
  /-- R344. While Prot.DebugUnlock is 1, an hour passes and event 0x7006 Debug unlocked is raised again. -/
  | debugUnlocked
  /-- R423. The input returns from 43–45 V to 45 V or above, and the effective cap returns to Power.Cap. -/
  | inputVoltageInRange (millivolts : Nat)
deriving DecidableEq, Repr

end Sys2Proof
end

