-- ==== Sys2Proof/WellFormed.lean ====
section
/-! DEFINITION. When a command is well formed: its numbers name a core, thread, partition, stream, port or other position
that the manual numbers (R6, R295, R399), a SEQ has 48 bits, and the word of a thread's row is a word of that row. -/

namespace Sys2Proof

/-- The check, row by row. -/
def Instr.wf : Instr → Bool
  | .aluAdd c t w => decide (c < 6144) && decide (t < 8) && Machine.isAlu 0x00 w
  | .aluSub c t w => decide (c < 6144) && decide (t < 8) && Machine.isAlu 0x01 w
  | .aluAnd c t w => decide (c < 6144) && decide (t < 8) && Machine.isAlu 0x02 w
  | .aluOr c t w => decide (c < 6144) && decide (t < 8) && Machine.isAlu 0x03 w
  | .aluXor c t w => decide (c < 6144) && decide (t < 8) && Machine.isAlu 0x04 w
  | .aluShl c t w => decide (c < 6144) && decide (t < 8) && Machine.isAlu 0x05 w
  | .aluShr c t w => decide (c < 6144) && decide (t < 8) && Machine.isAlu 0x06 w
  | .aluSra c t w => decide (c < 6144) && decide (t < 8) && Machine.isAlu 0x07 w
  | .aluMul c t w => decide (c < 6144) && decide (t < 8) && Machine.isAlu 0x08 w
  | .aluMulhu c t w => decide (c < 6144) && decide (t < 8) && Machine.isAlu 0x09 w
  | .aluDivu c t w => decide (c < 6144) && decide (t < 8) && Machine.isAlu 0x0A w
  | .aluRemu c t w => decide (c < 6144) && decide (t < 8) && Machine.isAlu 0x0B w
  | .aluMin c t w => decide (c < 6144) && decide (t < 8) && Machine.isAlu 0x0C w
  | .aluMax c t w => decide (c < 6144) && decide (t < 8) && Machine.isAlu 0x0D w
  | .aluFadd c t w => decide (c < 6144) && decide (t < 8) && Machine.isAlu 0x10 w
  | .aluFsub c t w => decide (c < 6144) && decide (t < 8) && Machine.isAlu 0x11 w
  | .aluFmul c t w => decide (c < 6144) && decide (t < 8) && Machine.isAlu 0x12 w
  | .aluFdiv c t w => decide (c < 6144) && decide (t < 8) && Machine.isAlu 0x13 w
  | .aluFmin c t w => decide (c < 6144) && decide (t < 8) && Machine.isAlu 0x14 w
  | .aluFmax c t w => decide (c < 6144) && decide (t < 8) && Machine.isAlu 0x15 w
  | .addi c t w => decide (c < 6144) && decide (t < 8) && Machine.isOp 0x01 w
  | .andi c t w => decide (c < 6144) && decide (t < 8) && Machine.isOp 0x02 w
  | .ori c t w => decide (c < 6144) && decide (t < 8) && Machine.isOp 0x03 w
  | .xori c t w => decide (c < 6144) && decide (t < 8) && Machine.isOp 0x04 w
  | .shli c t w => decide (c < 6144) && decide (t < 8) && Machine.isOp 0x05 w
  | .shri c t w => decide (c < 6144) && decide (t < 8) && Machine.isOp 0x06 w
  | .srai c t w => decide (c < 6144) && decide (t < 8) && Machine.isOp 0x07 w
  | .lis c t w => decide (c < 6144) && decide (t < 8) && Machine.isOp 0x08 w
  | .ld c t w => decide (c < 6144) && decide (t < 8) && Machine.isOp 0x09 w
  | .pondLoadResult c t => decide (c < 6144) && decide (t < 8)
  | .st c t w => decide (c < 6144) && decide (t < 8) && Machine.isOp 0x0A w
  | .cmpEq c t w => decide (c < 6144) && decide (t < 8) && Machine.isCmp 0x00 w
  | .cmpNe c t w => decide (c < 6144) && decide (t < 8) && Machine.isCmp 0x01 w
  | .cmpLt c t w => decide (c < 6144) && decide (t < 8) && Machine.isCmp 0x02 w
  | .cmpLtu c t w => decide (c < 6144) && decide (t < 8) && Machine.isCmp 0x03 w
  | .cmpGe c t w => decide (c < 6144) && decide (t < 8) && Machine.isCmp 0x04 w
  | .cmpGeu c t w => decide (c < 6144) && decide (t < 8) && Machine.isCmp 0x05 w
  | .cmpFeq c t w => decide (c < 6144) && decide (t < 8) && Machine.isCmp 0x10 w
  | .cmpFne c t w => decide (c < 6144) && decide (t < 8) && Machine.isCmp 0x11 w
  | .cmpFlt c t w => decide (c < 6144) && decide (t < 8) && Machine.isCmp 0x12 w
  | .cmpFle c t w => decide (c < 6144) && decide (t < 8) && Machine.isCmp 0x13 w
  | .cmpFgt c t w => decide (c < 6144) && decide (t < 8) && Machine.isCmp 0x14 w
  | .cmpFge c t w => decide (c < 6144) && decide (t < 8) && Machine.isCmp 0x15 w
  | .br c t w => decide (c < 6144) && decide (t < 8) && Machine.isOp 0x10 w
  | .branchShadowEnd c t => decide (c < 6144) && decide (t < 8)
  | .jr c t w => decide (c < 6144) && decide (t < 8) && Machine.isOp 0x11 w
  | .loop c t w => decide (c < 6144) && decide (t < 8) && Machine.isOp 0x12 w
  | .endThread c t w => decide (c < 6144) && decide (t < 8) && Machine.isSys 0x00 w
  | .halt c t _ => decide (c < 6144) && decide (t < 8)
  | .bar c t w => decide (c < 6144) && decide (t < 8) && Machine.isSys 0x02 w
  | .barRelease c _ => decide (c < 6144)
  | .waitq c t w => decide (c < 6144) && decide (t < 8) && Machine.isSys 0x03 w
  | .waitqRelease c t => decide (c < 6144) && decide (t < 8)
  | .csrr c t w => decide (c < 6144) && decide (t < 8) && Machine.isSys 0x04 w
  | .ttag c t w => decide (c < 6144) && decide (t < 8) && Machine.isSys 0x05 w
  | .tld c t w => decide (c < 6144) && decide (t < 8) && Machine.isOp 0x18 w
  | .tst c t w => decide (c < 6144) && decide (t < 8) && Machine.isOp 0x19 w
  | .vop c t w => decide (c < 6144) && decide (t < 8) && Machine.isOp 0x1A w
  | .vdesc c t w => decide (c < 6144) && decide (t < 8) && Machine.isOp 0x1B w
  | .spr c t w => decide (c < 6144) && decide (t < 8) && Machine.isOp 0x1C w
  | .mwait c t w => decide (c < 6144) && decide (t < 8) && Machine.isOp 0x1D w
  | .mwaitRelease c t => decide (c < 6144) && decide (t < 8)
  | .mma c t w => decide (c < 6144) && decide (t < 8) && Machine.isOp 0x20 w
  | .mmaExecute c => decide (c < 6144)
  | .epi c t w => decide (c < 6144) && decide (t < 8) && Machine.isOp 0x21 w
  | .epiExecute c => decide (c < 6144)
  | .accParityError c acc => decide (c < 6144) && decide (acc < 4)
  | .engineQueueAccept c t => decide (c < 6144) && decide (t < 8)
  | .tileLockRelease c t => decide (c < 6144) && decide (t < 8)
  | .vecAdd c => decide (c < 6144)
  | .vecSub c => decide (c < 6144)
  | .vecMul c => decide (c < 6144)
  | .vecFma c => decide (c < 6144)
  | .vecDiv c => decide (c < 6144)
  | .vecMax c => decide (c < 6144)
  | .vecMin c => decide (c < 6144)
  | .vecAbs c => decide (c < 6144)
  | .vecNeg c => decide (c < 6144)
  | .vecSqrt c => decide (c < 6144)
  | .vecRsqrt c => decide (c < 6144)
  | .vecRecip c => decide (c < 6144)
  | .vecExp c => decide (c < 6144)
  | .vecExp2 c => decide (c < 6144)
  | .vecLog c => decide (c < 6144)
  | .vecLog2 c => decide (c < 6144)
  | .vecTanh c => decide (c < 6144)
  | .vecSigmoid c => decide (c < 6144)
  | .vecSilu c => decide (c < 6144)
  | .vecGeluTanh c => decide (c < 6144)
  | .vecRelu c => decide (c < 6144)
  | .vecCmpeq c => decide (c < 6144)
  | .vecCmpne c => decide (c < 6144)
  | .vecCmplt c => decide (c < 6144)
  | .vecCmple c => decide (c < 6144)
  | .vecCmpgt c => decide (c < 6144)
  | .vecCmpge c => decide (c < 6144)
  | .vecSel c => decide (c < 6144)
  | .vecCvt c => decide (c < 6144)
  | .vecRsum c => decide (c < 6144)
  | .vecRmax c => decide (c < 6144)
  | .vecRmin c => decide (c < 6144)
  | .vecAblk c => decide (c < 6144)
  | .vecAblkFinal c => decide (c < 6144)
  | .vecIadd c => decide (c < 6144)
  | .vecIsub c => decide (c < 6144)
  | .vecImul c => decide (c < 6144)
  | .vecImax c => decide (c < 6144)
  | .vecImin c => decide (c < 6144)
  | .runLaunch p s q => decide (p < 4) && decide (s < 16384) && decide (q < 281474976710656)
  | .segmentEnd p s q => decide (p < 4) && decide (s < 16384) && decide (q < 281474976710656)
  | .segmentFaultStopped p s q => decide (p < 4) && decide (s < 16384) && decide (q < 281474976710656)
  | .pondScrub c _ => decide (c < 6144)
  | .springDescriptorStart _ => true
  | .springTileMove _ => true
  | .springSourceReread _ => true
  | .springTileDelivered _ => true
  | .springFaultTimeout p _ => decide (p < 4)
  | .faultRecordPost p => decide (p < 4)
  | .landingFrameArrival die p _ _ => decide (die < 4) && decide (p < 4)
  | .arbiterGrant _ _ _ => true
  | .stairForward _ k => decide (k < 96)
  | .stairDetach _ k => decide (k < 96)
  | .lakeCopyRepair p _ _ => decide (p < 4)
  | .lakeScrub _ _ => true
  | .flashBackgroundWork die _ => decide (die < 4)
  | .flashReadComplete p _ _ _ => decide (p < 4)
  | .fillFrameDelivered p _ => decide (p < 4)
  | .fillDone p _ => decide (p < 4)
  | .releaseDone p _ => decide (p < 4)
  | .tierCommit p _ => decide (p < 4)
  | .extentRetire p _ => decide (p < 4)
  | .recoverySourceTimeout p _ _ => decide (p < 4)
  | .hostRecoveryTimeout p _ => decide (p < 4)
  | .watchPeriodEnd p => decide (p < 4)
  | .layerRestart p s q => decide (p < 4) && decide (s < 16384) && decide (q < 281474976710656)
  | .sweepBlock p stack => decide (p < 4) && decide (stack < 16)
  | .sweepResume p stack => decide (p < 4) && decide (stack < 16)
  | .sweepEnd p => decide (p < 4)
  | .digestExchange p _ _ => decide (p < 4)
  | .digestTimeout p _ => decide (p < 4)
  | .exchangeRecordTrigger p _ => decide (p < 4)
  | .exchangeRecordStart p _ => decide (p < 4)
  | .exchangeTileCompress p _ _ => decide (p < 4)
  | .reduceContribution p _ _ => decide (p < 4)
  | .exchangeRecordComplete p _ => decide (p < 4)
  | .exchangePeerTimeout p _ _ => decide (p < 4)
  | .multicastDetach p _ _ => decide (p < 4)
  | .stageQueueMarkForward p _ _ => decide (p < 4)
  | .flitReceive port _ => decide (port < 16)
  | .flitNakReplay port _ => decide (port < 16)
  | .ackProgressTimeout port => decide (port < 16)
  | .packetForward _ => true
  | .fabricWrite die _ => decide (die < 4)
  | .readReq die _ => decide (die < 4)
  | .readData die _ => decide (die < 4)
  | .fabricAck die _ => decide (die < 4)
  | .xframe die _ => decide (die < 4)
  | .mcast die _ => decide (die < 4)
  | .fabricCancel die _ => decide (die < 4)
  | .nakFault die _ => decide (die < 4)
  | .packetTimeout p r => decide (p < 4 ∧ r.vl < 8)
  | .laneSignalLoss port lane => decide (port < 16) && decide (lane < 4)
  | .linkTrainingComplete port _ => decide (port < 16)
  | .cablePresenceChange port _ => decide (port < 16)
  | .cablePowerShort port => decide (port < 16)
  | .cmdDoorbell p s _ _ => decide (p < 4) && decide (s < 16384)
  | .abortDoorbell p s _ => decide (p < 4) && decide (s < 16384)
  | .cplHead p s _ => decide (p < 4) && decide (s < 16384)
  | .ptRoot p _ => decide (p < 4)
  | .attach p _ => decide (p < 4)
  | .lease p _ => decide (p < 4)
  | .fqHead p _ => decide (p < 4)
  | .faultRespResume p _ => decide (p < 4)
  | .faultRespFatal p _ => decide (p < 4)
  | .streamEnable p s => decide (p < 4) && decide (s < 16384)
  | .streamDisable p s => decide (p < 4) && decide (s < 16384)
  | .mbCtrl _ => true
  | .registerWrite p barNo _ _ _ => decide (p < 4) && decide (barNo < 5)
  | .commandAccept p s => decide (p < 4) && decide (s < 16384)
  | .run p s q _ => decide (p < 4) && decide (s < 16384) && decide (q < 281474976710656)
  | .runServe p s q _ => decide (p < 4) && decide (s < 16384) && decide (q < 281474976710656)
  | .servePassStart p s => decide (p < 4) && decide (s < 16384)
  | .servePassEnd p s => decide (p < 4) && decide (s < 16384)
  | .move p s q => decide (p < 4) && decide (s < 16384) && decide (q < 281474976710656)
  | .markSet p s q => decide (p < 4) && decide (s < 16384) && decide (q < 281474976710656)
  | .markWait p s q => decide (p < 4) && decide (s < 16384) && decide (q < 281474976710656)
  | .markWaitTimeout p s q => decide (p < 4) && decide (s < 16384) && decide (q < 281474976710656)
  | .stepOpen p s q => decide (p < 4) && decide (s < 16384) && decide (q < 281474976710656)
  | .stepSeal p s q => decide (p < 4) && decide (s < 16384) && decide (q < 281474976710656)
  | .sweep p s q => decide (p < 4) && decide (s < 16384) && decide (q < 281474976710656)
  | .stepCommit p s q => decide (p < 4) && decide (s < 16384) && decide (q < 281474976710656)
  | .stepDiscard p s q => decide (p < 4) && decide (s < 16384) && decide (q < 281474976710656)
  | .exchange p s q => decide (p < 4) && decide (s < 16384) && decide (q < 281474976710656)
  | .tierPromote p s q => decide (p < 4) && decide (s < 16384) && decide (q < 281474976710656)
  | .tierDemote p s q => decide (p < 4) && decide (s < 16384) && decide (q < 281474976710656)
  | .tierPin p s q => decide (p < 4) && decide (s < 16384) && decide (q < 281474976710656)
  | .tierUnpin p s q => decide (p < 4) && decide (s < 16384) && decide (q < 281474976710656)
  | .exportState p s q => decide (p < 4) && decide (s < 16384) && decide (q < 281474976710656)
  | .importObject p s q => decide (p < 4) && decide (s < 16384) && decide (q < 281474976710656)
  | .importRepair p s q => decide (p < 4) && decide (s < 16384) && decide (q < 281474976710656)
  | .importShard p s q => decide (p < 4) && decide (s < 16384) && decide (q < 281474976710656)
  | .requestOpen p s q => decide (p < 4) && decide (s < 16384) && decide (q < 281474976710656)
  | .requestFeed p s q => decide (p < 4) && decide (s < 16384) && decide (q < 281474976710656)
  | .requestClose p s q => decide (p < 4) && decide (s < 16384) && decide (q < 281474976710656)
  | .fenceWait p s q => decide (p < 4) && decide (s < 16384) && decide (q < 281474976710656)
  | .fenceStop p s q => decide (p < 4) && decide (s < 16384) && decide (q < 281474976710656)
  | .leaseExpiry p => decide (p < 4)
  | .partitionPark p => decide (p < 4)
  | .orphanHoldExpiry p => decide (p < 4)
  | .functionLevelReset p => decide (p < 4)
  | .protectionWindowExpiry => true
  | .protectionLockoutExpiry => true
  | .watchdogExpiry proc _ => decide (proc < 15)
  | .protectionBreach proc _ => decide (proc < 15)
  | .processorRestartComplete proc => decide (proc < 15)
  | .supervisorFailover => true
  | .journalCopyRebuild => true
  | .channelLoss stack ch => decide (stack < 16) && decide (ch < 32)
  | .stackLoss stack => decide (stack < 16)
  | .hallLoss hall => decide (hall < 4)
  | .replicaRecoveryComplete p _ => decide (p < 4)
  | .powerFail _ => true
  | .fatalError cause proc => decide (1 ≤ cause) && decide (cause ≤ 5) && (decide (proc < 15) || decide (proc = 255))
  | .dtlsHandshake sess _ => decide (sess < 9)
  | .sessionHeartbeatTimeout sess => decide (sess < 9)
  | .ndoitRead sess _ => decide (sess < 9)
  | .ndoitWrite sess _ => decide (sess < 9)
  | .readBlock sess _ => decide (sess < 9)
  | .writeBlock sess _ => decide (sess < 9)
  | .blockSnapshotExpiry sess => decide (sess < 9)
  | .changesetOpen sess _ => decide (sess < 9)
  | .changesetAdd sess _ => decide (sess < 9)
  | .changesetCommit sess _ => decide (sess < 9)
  | .changesetAbort sess _ => decide (sess < 9)
  | .changesetDecision _ => true
  | .changesetTimeout _ => true
  | .subscribe sess _ => decide (sess < 9)
  | .heartbeat sess _ => decide (sess < 9)
  | .subscriberHeartbeatTick sess => decide (sess < 9)
  | .servicePortConnect _ _ => true
  | .servicePortDataTimeout => true
  | .packageStagingComplete _ => true
  | .fwActivate sess _ => decide (sess < 9)
  | .handoverProcessor _ _ => true
  | .activateRestart _ => true
  | .updateAbandon => true
  | .confirmTimeout => true
  | .fwConfirm => true
  | .fwRollback => true
  | .dumpRelease => true
  | .inputVoltageLow _ => true
  | .inputVoltageHigh _ => true
  | .inputOvervoltage _ => true
  | .domainFault d => decide (d < 96)
  | .domainRetry d _ => decide (d < 96)
  | .domainRestored d => decide (d < 96)
  | .clockRaiseStep hall gallery _ => decide (hall < 4) && decide (gallery < 96)
  | .powerCapTick _ => true
  | .fallbackGovernorTick _ _ => true
  | .thermalSample _ => true
  | .thermalTrip _ => true
  | .holdupCheck _ => true
  | .powerSleepEnter => true
  | .sleepIdleTimeout => true
  | .sleepWaitTimeout => true
  | .wake _ => true
  | .wakeComplete => true
  | .coldStart _ => true
  | .perstN _ => true
  | .deviceWarmReset => true
  | .modResetN => true
  | .warmResetComplete _ => true
  | .extest => true
  | .idcode => true
  | .samplePreload => true
  | .extestPulse => true
  | .extestTrain => true
  | .clamp => true
  | .highz => true
  | .bypass _ => true
  | .sarolberPrivate _ => true
  | .tapTestLogicReset => true
  | .lakeTestStart => true
  | .lakeTestStackDone _ => true
  | .linkTestStart port => decide (port < 16)
  | .linkTestEnd port _ _ => decide (port < 16)
  | .portEnable port => decide (port < 16)
  | .portDisable port => decide (port < 16)
  | .sleepEntered => true
  | .moduleRunning => true
  | .modResetNRelease => true
  | .journalTailMirrored _ => true
  | .processorMemoryUncorrectable proc => decide (proc < 15)
  | .lakeTestHoldTimeout => true
  | .debugUnlocked => true
  | .inputVoltageInRange _ => true

end Sys2Proof
end

