-- ==== Sys2Proof/Decode.lean ====
section
/-! DEFINITION. The block has no instruction words of its own: spec/opcode_table.json gives its rows no bits, so no word
spells a command. -/

namespace Sys2Proof

/-- No row of the table has bits, so every word is answered none. -/
def decodeTableWord (_nbits _w : Nat) : Option Instr := none

end Sys2Proof
end

