-- ==== Sys2Proof/Machine/Crc.lean ====
section
/-! DEFINITION. The check values: CRC-32C (R115) and CRC-64 (R232). -/

namespace Sys2Proof.Machine

/-- One bit of the reflected CRC-32C. -/
def crc32Bit (c : U32) : U32 := if c.getLsbD 0 then (c >>> 1) ^^^ 0x82F63B78#32 else c >>> 1

/-- One byte of it. -/
def crc32Byte (c : U32) (b : Byte) : U32 :=
  crc32Bit (crc32Bit (crc32Bit (crc32Bit (crc32Bit (crc32Bit (crc32Bit (crc32Bit (c ^^^ b.setWidth 32))))))))

/-- CRC-32C of bytes: initial value and final XOR 0xFFFF_FFFF (R115). -/
def crc32c (bs : List Byte) : U32 := bs.foldl crc32Byte 0xFFFFFFFF#32 ^^^ 0xFFFFFFFF#32

/-- One bit of the CRC-64 with polynomial 0x42F0_E1EB_A9EA_3693, most significant bit first. -/
def crc64Bit (c : U64) : U64 := if c.getLsbD 63 then (c <<< 1) ^^^ 0x42F0E1EBA9EA3693#64 else c <<< 1

def crc64Byte (c : U64) (b : Byte) : U64 :=
  crc64Bit (crc64Bit (crc64Bit (crc64Bit (crc64Bit (crc64Bit (crc64Bit (crc64Bit (c ^^^ (b.setWidth 64 <<< 56)))))))))

/-- The CRC-64 of R232: initial value 0, not reflected, no final XOR. -/
def crc64 (bs : List Byte) : U64 := bs.foldl crc64Byte 0

end Sys2Proof.Machine
end

