-- ==== Sys2Proof/Machine/Fp.lean ====
section
/-! DEFINITION. Chapter 02: the values of the floating-point formats (R25 to R31), rounding (R40 to R42), exact
arithmetic on values, comparison (R50, R51) and the rounding stream (R47 to R49). A value is exact: a special value or
a non-zero rational; a format enters only where a value is decoded, rounded or encoded. -/

namespace Sys2Proof.Machine

/-- A value of R31: NaN, an infinity, a signed zero, or a finite non-zero rational. -/
inductive Val where
  | nan
  | inf (neg : Bool)
  | zero (neg : Bool)
  | fin (q : ℚ)
deriving DecidableEq, Repr, Inhabited

/-- A floating-point layout of R25: exponent and fraction widths, bias, and whether the codes are N4's (R27). -/
structure FloatFmt where
  expBits : Nat
  fracBits : Nat
  bias : Nat
  n4 : Bool := false
deriving DecidableEq, Repr, Inhabited

def fmtN4 : FloatFmt := ⟨2, 1, 1, true⟩
def fmtE4M3 : FloatFmt := ⟨4, 3, 7, false⟩
def fmtE5M2 : FloatFmt := ⟨5, 2, 15, false⟩
def fmtBF16 : FloatFmt := ⟨8, 7, 127, false⟩
def fmtFP16 : FloatFmt := ⟨5, 10, 15, false⟩
def fmtFP32 : FloatFmt := ⟨8, 23, 127, false⟩
def fmtA16 : FloatFmt := ⟨6, 9, 31, false⟩

/-- The floating-point layout of a format code (R23), for the codes that have one. -/
def floatFmt : Nat → Option FloatFmt
  | 0 => some fmtN4
  | 1 => some fmtE4M3
  | 2 => some fmtE5M2
  | 3 => some fmtBF16
  | 4 => some fmtFP16
  | 5 => some fmtFP32
  | 6 => some fmtA16
  | _ => none

/-- 2^e for any integer e. -/
def pow2 (e : Int) : ℚ :=
  if 0 ≤ e then ((2 ^ e.toNat : Nat) : ℚ) else mkRat 1 (2 ^ (-e).toNat)

/-- The exponent of the binade of a positive rational. -/
def floorLog2 (q : ℚ) : Int :=
  let k : Int := (Nat.log2 q.num.natAbs : Int) - (Nat.log2 q.den : Int)
  if pow2 k ≤ q then k else k - 1

namespace FloatFmt

/-- The largest finite exponent (R25, Block-scale constants). -/
def emax (f : FloatFmt) : Int := if f.n4 then 2 else (2 ^ f.expBits : Nat) - 2 - (f.bias : Int)

/-- The largest finite value. -/
def maxFinite (f : FloatFmt) : ℚ := if f.n4 then 4 else (2 - pow2 (-(f.fracBits : Int))) * pow2 f.emax

/-- The overflow threshold of R41 and of Block-scale constants. -/
def thr (f : FloatFmt) : ℚ := if f.n4 then 5 else (2 - pow2 (-(f.fracBits : Int) - 1)) * pow2 f.emax

/-- The exponent of one unit in the last place at a positive magnitude. -/
def ulpExp (f : FloatFmt) (a : ℚ) : Int := max (floorLog2 a) (1 - (f.bias : Int)) - f.fracBits

/-- The width of a code in bits. -/
def width (f : FloatFmt) : Nat := 1 + f.expBits + f.fracBits

/-- The value of a code (R25, R27, R29). -/
def decode (f : FloatFmt) (code : Nat) : Val :=
  let fr := code % 2 ^ f.fracBits
  let e := code / 2 ^ f.fracBits % 2 ^ f.expBits
  let neg := decide (code / 2 ^ (f.fracBits + f.expBits) % 2 = 1)
  let sgn : ℚ := if neg then -1 else 1
  let bad := if f.n4 then decide (e = 3 ∧ fr = 1) else decide (e = 2 ^ f.expBits - 1)
  if f.n4 && neg && e == 0 && fr == 0 then .nan
  else if bad then (if f.n4 || fr == 0 then .inf neg else .nan)
  else if e = 0 then
    if fr = 0 then .zero neg
    else .fin (sgn * fr * pow2 (1 - (f.bias : Int) - f.fracBits))
  else .fin (sgn * ((2 ^ f.fracBits + fr : Nat) : ℚ) * pow2 ((e : Int) - f.bias - f.fracBits))

/-- The canonical NaN of a format (R31). -/
def nanCode (f : FloatFmt) : Nat :=
  if f.n4 then 8 else (2 ^ f.expBits - 1) * 2 ^ f.fracBits + 2 ^ (f.fracBits - 1)

/-- The code of a value that the format represents; canonical NaN (R31), no negative zero in N4 (R28). -/
def encode (f : FloatFmt) : Val → Nat
  | .nan => f.nanCode
  | .inf neg =>
    (if neg then 2 ^ (f.fracBits + f.expBits) else 0) +
      (if f.n4 then 7 else (2 ^ f.expBits - 1) * 2 ^ f.fracBits)
  | .zero neg => if neg && !f.n4 then 2 ^ (f.fracBits + f.expBits) else 0
  | .fin q =>
    let a := |q|
    let u := f.ulpExp a
    let m := (a / pow2 u).floor.toNat
    let e := if m < 2 ^ f.fracBits then 0 else (u + f.fracBits + f.bias).toNat
    (if q < 0 then 2 ^ (f.fracBits + f.expBits) else 0) + e * 2 ^ f.fracBits + m % 2 ^ f.fracBits

end FloatFmt

/-- The rounding mode of R40: nearest even, or stochastic with the 24-bit draw. -/
inductive Rnd where
  | rne
  | sr (u : Nat)
deriving DecidableEq, Repr

/-- The integer that a non-negative rational rounds to: nearest even (R41), or stochastically (R42). -/
def roundNat (r : Rnd) (m : ℚ) : Nat :=
  let lo := m.floor.toNat
  let d := m - lo
  match r with
  | .rne => if d < mkRat 1 2 then lo else if mkRat 1 2 < d then lo + 1 else lo + lo % 2
  | .sr u => if u < (d * 16777216).floor.toNat then lo + 1 else lo

/-- Rounding of a value to a format (R41, R42). Special values pass; R28 acts in the encoding. -/
def FloatFmt.round (f : FloatFmt) (r : Rnd) : Val → Val
  | .fin q =>
    let a := |q|
    let neg := decide (q < 0)
    if f.thr ≤ a then .inf neg
    else if f.maxFinite ≤ a then .fin (if neg then -f.maxFinite else f.maxFinite)
    else
      let u := f.ulpExp a
      let m := roundNat r (a / pow2 u)
      if m = 0 then .zero neg else .fin ((if neg then -1 else 1) * (m : ℚ) * pow2 u)
  | v => v

/-- Round to nearest even in FP32, the rounding of every intermediate (R40). -/
def r32 (v : Val) : Val := fmtFP32.round .rne v

/-- The FP32 code of a value, and back. -/
def toF32 (v : Val) : U32 := BitVec.ofNat 32 (fmtFP32.encode v)
def ofF32 (w : U32) : Val := fmtFP32.decode w.toNat

namespace Val

/-- The rational of a finite value, 0 for the others. -/
def toQ : Val → ℚ
  | .fin q => q
  | _ => 0

def isNeg : Val → Bool
  | .inf n => n
  | .zero n => n
  | .fin q => decide (q < 0)
  | .nan => false

/-- Finite: neither NaN nor an infinity. -/
def isFinite : Val → Bool
  | .fin _ => true
  | .zero _ => true
  | _ => false

def isZero : Val → Bool
  | .zero _ => true
  | _ => false

/-- A value from a rational; an exact zero is +0. -/
def ofQ (q : ℚ) : Val := if q = 0 then .zero false else .fin q

def ofNat (n : Nat) : Val := ofQ (n : ℚ)

def neg : Val → Val
  | .nan => .nan
  | .inf n => .inf (!n)
  | .zero n => .zero (!n)
  | .fin q => .fin (-q)

def abs : Val → Val
  | .nan => .nan
  | .inf _ => .inf false
  | .zero _ => .zero false
  | .fin q => .fin |q|

/-- Exact sum (R31). Like zeros keep their sign; an exact cancellation is +0. -/
def add : Val → Val → Val
  | .nan, _ => .nan
  | _, .nan => .nan
  | .inf a, .inf b => if a = b then .inf a else .nan
  | .inf a, _ => .inf a
  | _, .inf b => .inf b
  | .zero a, .zero b => .zero (a && b)
  | .zero _, y => y
  | x, .zero _ => x
  | .fin a, .fin b => ofQ (a + b)

def sub (a b : Val) : Val := add a b.neg

/-- Exact product (R31): 0 × ∞ is invalid. -/
def mul : Val → Val → Val
  | .nan, _ => .nan
  | _, .nan => .nan
  | .inf a, y => if y.isZero then .nan else .inf (a != y.isNeg)
  | x, .inf b => if x.isZero then .nan else .inf (b != x.isNeg)
  | .zero a, y => .zero (a != y.isNeg)
  | x, .zero b => .zero (b != x.isNeg)
  | .fin a, .fin b => .fin (a * b)

/-- Exact quotient (R31): 0/0 and ∞/∞ are invalid; a non-zero value over zero is an infinity. -/
def div : Val → Val → Val
  | .nan, _ => .nan
  | _, .nan => .nan
  | .inf a, y => match y with
    | .inf _ => .nan
    | y => .inf (a != y.isNeg)
  | x, .inf b => .zero (b != x.isNeg)
  | x, .zero b => if x.isZero then .nan else .inf (b != x.isNeg)
  | .zero a, y => .zero (a != y.isNeg)
  | .fin a, .fin b => .fin (a / b)

/-- The order of R50: false with a NaN operand, the zeros equal. -/
def lt : Val → Val → Bool
  | .nan, _ => false
  | _, .nan => false
  | .inf a, .inf b => a && !b
  | .inf a, _ => a
  | _, .inf b => !b
  | x, y => decide (x.toQ < y.toQ)

def eq : Val → Val → Bool
  | .nan, _ => false
  | _, .nan => false
  | .inf a, .inf b => a == b
  | .inf _, _ => false
  | _, .inf _ => false
  | x, y => decide (x.toQ = y.toQ)

def le (a b : Val) : Bool := lt a b || eq a b

/-- Whether a pair counts in the unordered-comparison counter (R50). -/
def unordered (a b : Val) : Bool := a == .nan || b == .nan

/-- MAX of R51. -/
def max (a b : Val) : Val :=
  if unordered a b then .nan
  else if lt a b then b
  else if lt b a then a
  else if a.isZero && b.isZero then .zero (a.isNeg && b.isNeg) else a

/-- MIN of R51. -/
def min (a b : Val) : Val :=
  if unordered a b then .nan
  else if lt a b then a
  else if lt b a then b
  else if a.isZero && b.isZero then .zero (a.isNeg || b.isNeg) else a

end Val

/-! ## FP32 operations, rounded to nearest even (R40) -/

def fAdd (a b : Val) : Val := r32 (a.add b)
def fSub (a b : Val) : Val := r32 (a.sub b)
def fMul (a b : Val) : Val := r32 (a.mul b)
def fDiv (a b : Val) : Val := r32 (a.div b)
/-- a × b + c with one rounding. -/
def fFma (a b c : Val) : Val := r32 ((a.mul b).add c)

/-- FP32 arithmetic on codes. -/
def f32Op (op : Val → Val → Val) (a b : U32) : U32 := toF32 (op (ofF32 a) (ofF32 b))

/-- A rational with the same rounding as the square root of a positive rational: the integer square root at 2^-k, with
half a unit added where it is not exact. -/
def sqrtQ (q : ℚ) : ℚ :=
  let e := floorLog2 q
  let k : Int := 80 - e / 2
  let n := (q * pow2 (2 * k)).floor.toNat
  let s := Nat.sqrt n
  let exact := decide (((s * s : Nat) : ℚ) = q * pow2 (2 * k))
  ((2 * s + (if exact then 0 else 1) : Nat) : ℚ) * pow2 (-k - 1)

/-- The correctly rounded square root (R31: invalid below zero; −0 stays −0). -/
def fSqrt : Val → Val
  | .nan => .nan
  | .inf n => if n then .nan else .inf false
  | .zero n => .zero n
  | .fin q => if q < 0 then .nan else r32 (.fin (sqrtQ q))

/-- The correctly rounded reciprocal square root. -/
def fRsqrt : Val → Val
  | .nan => .nan
  | .inf n => if n then .nan else .zero false
  | .zero n => .inf n
  | .fin q => if q < 0 then .nan else r32 (.fin (sqrtQ (1 / q)))

/-! ## The rounding stream (R47 to R49) -/

/-- The mix function of R49. -/
def rsMix (z : U64) : U64 :=
  let z := (z ^^^ (z >>> 30)) * 0xBF58476D1CE4E5B9#64
  let z := (z ^^^ (z >>> 27)) * 0x94D049BB133111EB#64
  z ^^^ (z >>> 31)

/-- A rounding stream key without its INDEX (R47). -/
structure RsKey where
  seed : U64
  step : U64
  tensor : U32
  purpose : Nat
  draw : Nat
deriving DecidableEq, Repr

/-- The draw u of R49, for one element index. -/
def rsDraw (k : RsKey) (index : Nat) : Nat :=
  let a := rsMix (k.seed ^^^ 0x9E3779B97F4A7C15#64)
  let a := rsMix (a ^^^ k.step)
  let a := rsMix (a ^^^ ((k.tensor.setWidth 64) <<< 32 ||| BitVec.ofNat 64 (k.purpose % 16) <<< 28
    ||| BitVec.ofNat 64 (k.draw % 2 ^ 28)))
  (rsMix (a ^^^ BitVec.ofNat 64 index) >>> 40).toNat

/-- The rounding mode that a RND bit selects for one element (R40). -/
def rndMode (rnd : Bool) (k : RsKey) (index : Nat) : Rnd := if rnd then .sr (rsDraw k index) else .rne

/-! ## Integers (R30, R43, R44) -/

/-- Least and greatest value of a two's-complement width. -/
def intMin (w : Nat) : Int := -(2 ^ (w - 1) : Nat)
def intMax (w : Nat) : Int := (2 ^ (w - 1) : Nat) - 1

/-- The two's-complement code of an integer, and the integer of a code. -/
def intCode (w : Nat) (i : Int) : Nat := (i % (2 ^ w : Nat)).toNat
def intOfCode (w code : Nat) : Int := if code < 2 ^ (w - 1) then code else (code : Int) - (2 ^ w : Nat)

/-- The class of a written element, the first that applies (R46). -/
inductive ElClass where
  | none
  | zero
  | flush
  | sat
  | nonfin
deriving DecidableEq, Repr

/-- The class of an element from its source value and the value written. -/
def classify (src out : Val) : ElClass :=
  if !src.isFinite || !out.isFinite then .nonfin
  else if src.isZero then .zero
  else if out.isZero then .flush
  else .none

/-- Conversion of a value to an integer of width w, with its class (R43, R44). -/
def toInt (w : Nat) (r : Rnd) (v : Val) : Int × ElClass :=
  match v with
  | .nan => (0, .nonfin)
  | .inf n => (if n then intMin w else intMax w, .nonfin)
  | .zero _ => (0, .zero)
  | .fin q =>
    let m : Int := roundNat r |q|
    let i := if q < 0 then -m else m
    if i < intMin w then (intMin w, .sat)
    else if intMax w < i then (intMax w, .sat)
    else (i, if i = 0 then .flush else .none)

end Sys2Proof.Machine
end

