-- ==== Sys2Proof/Machine/Scale.lean ====
section
/-! DEFINITION. Chapter 02: tile shapes and scales (R23, R24, R32 to R39), the classes of written elements (R46) and the
tally that a write hands to the watch (R189). -/

namespace Sys2Proof.Machine

/-- Element width in bits of a format code (R23), 0 for a reserved code. -/
def fmtWidth : Nat → Nat
  | 0 => 4
  | 1 | 2 | 7 => 8
  | 3 | 4 | 6 => 16
  | 5 | 8 => 32
  | _ => 0

def fmtValid (f : Nat) : Bool := f < 9

def fmtIsInt (f : Nat) : Bool := f = 7 || f = 8

/-- Payload rows and columns of a format (R23). -/
def tileRows (f : Nat) : Nat := if fmtWidth f ≤ 8 then 64 else 32
def tileCols (f : Nat) : Nat := if f = 0 then 128 else if fmtWidth f = 32 then 32 else 64

/-- Bytes of a payload row (R36). -/
def rowBytes (f : Nat) : Nat := if fmtWidth f ≤ 8 then 64 else 128

/-- Block size of a BLK code (R24), 0 for none or reserved. -/
def blkSize : Nat → Nat
  | 1 => 16
  | 2 => 32
  | 3 => 64
  | 4 => 128
  | _ => 0

/-- A format permits a block-size code (R23, R24). -/
def blkPermitted (f b : Nat) : Bool :=
  if f = 0 then 1 ≤ b && b ≤ 4
  else if f = 1 || f = 2 then 1 ≤ b && b ≤ 3
  else if f = 4 then b ≤ 3
  else b = 0

/-- A format that requires a block scale. -/
def needsScale (f : Nat) : Bool := f < 3

/-- The value of a block-scale code (R33). -/
def blockScaleVal (c : Nat) : Val := if c = 255 then .nan else .fin (pow2 ((c : Int) - 127))

/-- The value of a code of a format, integers included. -/
def codeVal (f code : Nat) : Val :=
  match floatFmt f with
  | some g => g.decode code
  | none => Val.ofQ ((intOfCode (fmtWidth f) code : Int) : ℚ)

/-- Split a list into n pieces of b elements. -/
def pieces {α : Type} (b n : Nat) (l : List α) : List (List α) := (List.range n).map fun k => (l.drop (k * b)).take b

/-- The codes of a payload row (R36). -/
def rowCodes (f : Nat) (row : List Byte) : List Nat :=
  if f = 0 then row.flatMap fun b => [b.toNat % 16, b.toNat / 16]
  else (pieces (fmtWidth f / 8) (tileCols f) row).map leNat

/-- The bytes of a row of codes. -/
def rowOfCodes (f : Nat) (codes : List Nat) : List Byte :=
  if f = 0 then (pieces 2 (codes.length / 2) codes).map fun p =>
    BitVec.ofNat 8 ((p.headD 0) % 16 + 16 * ((p.drop 1).headD 0 % 16))
  else codes.flatMap fun c => leBytes (fmtWidth f / 8) c

/-- The codes of a payload, row by row. -/
def tileCodes (f : Nat) (payload : List Byte) : List (List Nat) :=
  (pieces (rowBytes f) (tileRows f) payload).map (rowCodes f)

/-- The block scales of a tile, row by row (R35). -/
def tileScales (f blk : Nat) (sidecar : List Byte) : List (List Nat) :=
  let nb := if blkSize blk = 0 then 0 else tileCols f / blkSize blk
  (pieces nb (tileRows f) sidecar).map fun r => r.map BitVec.toNat

/-- The exact B × e of every element of a row; a NaN scale makes NaN (R33). -/
def rowExact (f blk : Nat) (codes scales : List Nat) : List Val :=
  if blkSize blk = 0 then codes.map (codeVal f)
  else
    ((pieces (blkSize blk) (tileCols f / blkSize blk) codes).zip scales).flatMap fun e =>
      e.1.map fun c => (blockScaleVal e.2).mul (codeVal f c)

/-- Every element of a tile as the exact B × e. -/
def tileExact (f blk : Nat) (sidecar payload : List Byte) : List (List Val) :=
  if blkSize blk = 0 then (tileCodes f payload).map fun r => rowExact f blk r []
  else ((tileCodes f payload).zip (tileScales f blk sidecar)).map fun e => rowExact f blk e.1 e.2

/-- A valid tensor scale is finite, positive and normal; any other acts as a NaN scale (R38). -/
def tensorScale (w : U32) : Val :=
  if w.getLsbD 31 = false ∧ 1 ≤ bits w.toNat 30 23 ∧ bits w.toNat 30 23 ≤ 254 then ofF32 w else .nan

/-- R32 from the inside out with the row scale absent: r32 (T × r32 (B × e)). A scale of 1 changes nothing. -/
def scaled (t x : Val) : Val := fMul t (r32 x)

/-- What an engine hands to the watch for one tensor (R189). -/
structure Tally where
  elems : Nat := 0
  zero : Nat := 0
  flush : Nat := 0
  sat : Nat := 0
  nonfin : Nat := 0
  amax : ℚ := 0
  ovfTiles : Nat := 0
deriving DecidableEq, Repr

def Tally.add (a b : Tally) : Tally :=
  { elems := a.elems + b.elems, zero := a.zero + b.zero, flush := a.flush + b.flush, sat := a.sat + b.sat,
    nonfin := a.nonfin + b.nonfin, amax := Max.max a.amax b.amax, ovfTiles := a.ovfTiles + b.ovfTiles }

/-- Count one element of class k whose represented value is v. -/
def Tally.count (a : Tally) (k : ElClass) (v : Val) : Tally :=
  { elems := a.elems + 1
    zero := a.zero + b2n (k = .zero)
    flush := a.flush + b2n (k = .flush)
    sat := a.sat + b2n (k = .sat)
    nonfin := a.nonfin + b2n (k = .nonfin)
    amax := if v.isFinite then Max.max a.amax |v.toQ| else a.amax
    ovfTiles := a.ovfTiles }

/-- An element to write: its value (none in the tail, R105) and its logical index. -/
structure OutEl where
  v : Option Val
  idx : Nat
deriving Repr

/-- How a write rounds and scales: RND, draw key, rt = 1/T. -/
structure WriteCtx where
  fmt : Nat
  blk : Nat
  rnd : Bool
  key : RsKey
  rt : Val

/-- 1/T rounded to FP32; an invalid T is a NaN scale (R38, R39). -/
def recipScale (t : U32) : Val := fDiv (.fin 1) (tensorScale t)

/-- A product with a scale; a scale of 1 leaves the value as it is. -/
def timesScale (k v : Val) : Val := if k = .fin 1 then v else fMul v k

/-- u = (v × rt) × rq (R39); rq is 1 where the row scale is absent. -/
def divScales (rt rq v : Val) : Val := timesScale rq (timesScale rt v)

/-- The block scale of R39: the code, and whether the rule flags the tile. -/
def chooseScale (f : FloatFmt) (us : List Val) : Nat × Bool :=
  let m := us.foldl (fun m u => if u.isFinite then Max.max m |u.toQ| else m) 0
  if m = 0 then (127, false)
  else
    let c : Int := floorLog2 m - f.emax + 127
    let c := if f.thr ≤ m * pow2 (127 - c) then c + 1 else c
    if 254 < c then (255, true) else if c < 0 then (0, false) else (c.toNat, false)

/-- Write one element u (already divided by the scales and by its block's scale); v is the value it represents. -/
def writeEl (x : WriteCtx) (nanBlock : Bool) (idx : Nat) (v u : Val) : Nat × ElClass :=
  let r := rndMode x.rnd x.key idx
  match floatFmt x.fmt with
  | none =>
    let o := toInt (fmtWidth x.fmt) r u
    (intCode (fmtWidth x.fmt) o.1, if o.2 = .zero && !v.isZero then .flush else o.2)
  | some f =>
    let o := f.round r u
    (f.encode o, if nanBlock then .nonfin else classify v o)

/-- Write one block: scale code, codes, flag, tally. A finite value that finite reciprocal scales have carried beyond FP32 flags
the tile (R199); what a NaN or infinite reciprocal gives does not. -/
def writeBlock (x : WriteCtx) (rq : Val) (els : List OutEl) : Nat × List Nat × Bool × Tally :=
  let us := els.map fun e => match e.v with
    | none => Val.zero false
    | some v => divScales x.rt rq v
  let sc := match floatFmt x.fmt with
    | some f => if blkSize x.blk = 0 then (127, false) else chooseScale f us
    | none => (127, false)
  let lost := (els.zip us).any fun e => match e.1.v with
    | some v => x.rt.isFinite && rq.isFinite && v.isFinite && !e.2.isFinite
    | none => false
  let k := pow2 (127 - (sc.1 : Int))
  let out := (els.zip us).map fun e => match e.1.v with
    | none => (0, ElClass.none, none)
    | some v =>
      let u := if blkSize x.blk = 0 then e.2 else e.2.mul (.fin k)
      let o := writeEl x (blkSize x.blk ≠ 0 && sc.1 = 255) e.1.idx v u
      (o.1, o.2, some v)
  let tally := out.foldl (fun (t : Tally) o => match o.2.2 with
    | some v => t.count o.2.1 v
    | none => t) ({} : Tally)
  (sc.1, out.map (·.1), sc.2 || (lost && blkSize x.blk ≠ 0), tally)

/-- One written tile. -/
structure OutTile where
  sidecar : List Byte
  payload : List Byte
  flagged : Bool
  tally : Tally
deriving Repr

/-- Write a tile of rows of elements; `rq r` is 1 over the row scale of row r (R39). -/
def writeTile (x : WriteCtx) (rq : Nat → Val) (rows : List (List OutEl)) : OutTile :=
  let b := if blkSize x.blk = 0 then tileCols x.fmt else blkSize x.blk
  let blocks := rows.zipIdx.map fun e => (pieces b (e.1.length / b) e.1).map (writeBlock x (rq e.2))
  let flagged := blocks.any fun r => r.any fun o => o.2.2.1
  let tally := blocks.foldl (fun t r => r.foldl (fun (t : Tally) o => t.add o.2.2.2) t) ({} : Tally)
  let sc := if blkSize x.blk = 0 then [] else blocks.flatMap fun r => r.map fun o => BitVec.ofNat 8 o.1
  { sidecar := sc ++ List.replicate (512 - sc.length) 0
    payload := blocks.flatMap fun r => rowOfCodes x.fmt (r.flatMap fun o => o.2.1)
    flagged := flagged
    tally := { tally with ovfTiles := b2n flagged } }

end Sys2Proof.Machine
end

