-- ==== Sys2Proof/Machine/Frame.lean ====
section
/-! DEFINITION. The tile frame (R112 to R116): header fields, check value, building and reading. -/

namespace Sys2Proof.Machine

/-- A header as its fields (R113), CHECK left out. -/
structure Header where
  version : Nat := 0
  tensor : Nat := 0
  origin4 : Nat := 0
  origin3 : Nat := 0
  origin2 : Nat := 0
  origin1 : Nat := 0
  origin0 : Nat := 0
  fmt : Nat := 0
  blk : Nat := 0
  ovf : Bool := false
  sat : Bool := false
deriving DecidableEq, Repr

/-- The 64 header bytes as a little-endian number. -/
def frameHead (f : List Byte) : Nat := leNat (f.take 64)

/-- The header of a frame. -/
def frameHeader (f : List Byte) : Header :=
  let v := frameHead f
  { version := bits v 511 448, tensor := bits v 447 416, origin4 := bits v 415 384, origin3 := bits v 383 352,
    origin2 := bits v 351 320, origin1 := bits v 319 288, origin0 := bits v 287 256, fmt := bits v 255 252,
    blk := bits v 251 249, ovf := bit v 248, sat := bit v 247 }

/-- The value of a header with a CHECK; reserved bits are 0. -/
def headerVal (h : Header) (check : Nat) : Nat :=
  fld h.version 448 + fld h.tensor 416 + fld h.origin4 384 + fld h.origin3 352 + fld h.origin2 320 +
  fld h.origin1 288 + fld h.origin0 256 + fld h.fmt 252 + fld h.blk 249 + fld (b2n h.ovf) 248 + fld (b2n h.sat) 247 +
  check

def frameSidecar (f : List Byte) : List Byte := (f.drop 64).take 512
def framePayload (f : List Byte) : List Byte := (f.drop 576).take 4096

/-- CHECK as the frame states it, bytes 0 to 3 of the header (R113). -/
def frameCheckField (f : List Byte) : Nat := leNat (f.take 4)

/-- CHECK as the frame's bytes give it, the four CHECK bytes taken as zero (R115). -/
def frameCheckOf (f : List Byte) : Nat := (crc32c ([0, 0, 0, 0] ++ f.drop 4)).toNat

def frameCheckOk (f : List Byte) : Bool := frameCheckField f = frameCheckOf f

/-- A frame with its CHECK computed (R116). -/
def frameSeal (f : List Byte) : List Byte := leBytes 4 (frameCheckOf f) ++ f.drop 4

/-- A whole frame from header, sidecar and payload. -/
def mkFrame (h : Header) (sidecar payload : List Byte) : List Byte :=
  frameSeal (leBytes 64 (headerVal h 0) ++ sidecar ++ payload)

/-- The frame with another FMT and BLK in its header, everything else of the header kept (R96). -/
def frameRetag (f : List Byte) (fmt blk : Nat) : List Byte :=
  let v := frameHead f
  leBytes 64 (v - fld (bits v 255 249) 249 + fld fmt 252 + fld blk 249) ++ f.drop 64

/-- The elements of a frame as FP32 values under R32 with T and Q 1. -/
def frameVals (f : List Byte) : List (List Val) :=
  let h := frameHeader f
  (tileExact h.fmt h.blk (frameSidecar f) (framePayload f)).map fun r => r.map r32

/-- The logical linear index of coordinates (c4, c3, c2, c1, c0) in a shape (n4, n3, n2, n1, n0) (R48), modulo 2^64. -/
def logicalIndex (n3 n2 n1 n0 c4 c3 c2 c1 c0 : Nat) : Nat :=
  ((((c4 * n3 + c3) * n2 + c2) * n1 + c1) * n0 + c0) % 2 ^ 64

end Sys2Proof.Machine
end

