-- ==== Sys2Proof/Config.lean ====
section
/-! DEFINITION. What an implementation fixes and the manual leaves open: the free values. Each is a constant without a body,
so that no proof can lean on a value of it; a statement holds whatever it is. A use that must be fresh each time applies
one to the state's counter freeUsed. -/

namespace Sys2Proof.Config

/-- The cycles of the current microsecond that CSRR CYCLE counts (R87): the model's time moves in microseconds. -/
opaque cycles : Nat → U64

/-- A new session token (R321), drawn for the n-th use. -/
opaque token : Nat → U64

/-- The sealed body of a dump (R374): encrypted under keys that the manual does not give. -/
opaque dumpBody : Nat → List Byte

/-- How many microseconds the flash write of a dump takes (R375), which the manual does not give. -/
opaque dumpMicros : Nat

/-- The lanes and the rate that the n-th training of the host port gives, as places in the lists of R290's widths and of PCI Express's
rates. -/
opaque hostLanes : Nat → Nat
opaque hostRate : Nat → Nat

/-- The words of a function's configuration space that are PCI Express's own. -/
opaque configWord : Nat → Nat → U32

/-- The free value of a result that the manual does not state, 64 bits. -/
opaque value64 : Nat → U64

/-- A free list of bytes. -/
opaque bytes : Nat → List Byte

/-- The bytes that spell Id.SerialNumber. -/
opaque serialFirst : Byte
opaque serialRest : List Byte

/-- Id.SerialNumber (R406): 1 to 32 characters from 0x21 to 0x7E, fixed per module. -/
def serialNumber : List Byte := (serialFirst :: serialRest.take 31).map fun b => 0x21 + b % 94

/-- What the firmware takes within one application of values (R401), beside the waits that the model shows. -/
opaque applyMicros : Nat → Nat

/-- Id.HardwareRevision, the firmware version and the security version of the image a module is delivered with (R406). -/
opaque hardwareRevision : Byte
opaque deliveredFirmware : U32
opaque deliveredSecVersion : U32

/-- The bytes of Comm.DeviceCertificate. -/
opaque deviceCertBytes : List Byte

/-- Comm.DeviceCertificate (R380, R406): up to 4,096 bytes. -/
def deviceCertificate : List Byte := deviceCertBytes.take 4096

/-- The origin that a gathering engine expects of the tile at an index (R127, R252): the manual gives none for a tensor that no
reduction writes. -/
opaque gatherOrigin : U1024 → Nat → List Nat

/-- The boundary register (R452), which a BSDL file for each part number describes: its length, the pin of each cell, the level of a pin
that no other rule gives, and what a tester shifts in. -/
opaque boundaryCells : String → Nat
opaque boundaryPin : String → Nat → Nat
opaque pinLevel : Nat → Nat → Bool
opaque preload : Nat → Nat → Bool

/-- How long the parking of a stack takes before its march test (R454), and whether parked contents come back after a reset. -/
opaque parkMicros : Nat
opaque parkReturns : Nat → Bool

/-- The IDCODE's manufacturer field (R453), which the manual does not give. -/
opaque jepId : BitVec 11

/-- The Sarolber public key in ROM as a SEC 1 point of 97 bytes (R409). -/
opaque romKey : List Byte

/-- Check 7 of R409: whether the settings schema of a package body keeps the stored format of every RW2 object. Its form
is one that only the module reads (R408). -/
opaque schemaOk : List Byte → Bool

/-- The objects (index * 256 + subindex, ascending) whose stored format differs between the schemas of two package bodies
(R413, R420). -/
opaque schemaChanges : List Byte → List Byte → List Nat

end Sys2Proof.Config
end

