-- ==== Sys2Proof/Machine/State.lean ====
section
/-! DEFINITION. State: everything the manual gives the module, as plain data, and State.reset. Large arrays are sparse
tables (Word.lean); the comment of a table says how its keys are formed. Numbers that only identify or count are Nat;
what the manual treats as a word of bits is a bit vector. -/

namespace Sys2Proof.Machine

/-! ## Cores (chapters 03, 04, 05) -/

/-- One output element of an accumulator: the running sum `s` (an FP32 code in A32 mode, an A16 code in A16 mode), the
BF16 compensation `c` (R63), and the open chunk's exact sum `x` in units of 2^-302 with its non-finite parts (R61, R62). -/
structure AccEl where
  s : U32 := 0
  c : U16 := 0
  x : Int := 0
  nan : Bool := false
  posInf : Bool := false
  negInf : Bool := false
deriving DecidableEq, Repr, Inhabited

/-- An accumulator (R55 to R58, R66). Owner thread, mode, pairing and K counter are as the last instruction issued on it
leaves them; key, overflow flag and the 64 x 64 elements (keyed m * 64 + n) as the last one executed leaves them. -/
structure Acc where
  owner : Option Nat := none
  a16 : Bool := false
  pairing : Nat := 0
  k : Nat := 0
  tensor : U32 := 0
  base : U64 := 0
  stride : U64 := 0
  ovf : Bool := false
  els : Table AccEl := []
deriving DecidableEq, Repr, Inhabited

/-- A tile register (R95): payload, sidecar and five tags. FMT 0 is N4. -/
structure TileReg where
  payload : Table Byte := []
  sidecar : Table Byte := []
  fmt : Nat := 0
  blk : Nat := 0
  tensor : U32 := 0
  base : U64 := 0
  stride : U64 := 0
deriving DecidableEq, Repr, Inhabited

/-- The engine an instruction waits for (R84, R121). -/
inductive Engine where
  | matrix
  | vector
  | spring (k : Nat)
deriving DecidableEq, Repr, Inhabited

/-- Why a thread is WAITING (R81). A pond load keeps its register and the value it read (R83, R88). A word that waits for a
lock may wait for an access to the same pond bytes that was issued earlier (R90). -/
inductive WaitFor where
  | load (sd : Nat) (v : U64)
  | branchShadow
  | bar (mask : Byte)
  | waitq
  | mark (m : Nat) (target : U32) (since : Nat) (reached : Bool)
  | queueFull (e : Engine) (w : U32)
  | tileLock (w : U32)
deriving DecidableEq, Repr, Inhabited

/-- The four thread states of R81. -/
inductive ThreadState where
  | idle
  | ready
  | waiting (why : WaitFor)
  | halted
deriving DecidableEq, Repr, Inhabited

/-- A halt record (R111), field by field. -/
structure HaltRecord where
  core : Nat := 0
  thread : Nat := 0
  pc : Nat := 0
  insn : U32 := 0
  code : Byte := 0
  detail : U48 := 0
deriving DecidableEq, Repr, Inhabited

/-- An active hardware loop (R94): the body is words `first` to `first + len - 1`; `left` iterations follow the current
one; `index` is the current iteration (LC0 to LC3, R87). -/
structure Loop where
  first : Nat
  len : Nat
  left : Nat
  index : Nat
deriving DecidableEq, Repr, Inhabited

/-- A thread (R81, R85): 32 scalar registers, 8 predicates, PC as a word index, loop levels outermost first, the count
of its uncompleted engine instructions (R89), its halt record. -/
structure Thread where
  st : ThreadState := .idle
  pc : Nat := 0
  s : Table U64 := []
  preds : Byte := 0
  loops : List Loop := []
  outstanding : Nat := 0
  halt : Option HaltRecord := none
deriving DecidableEq, Repr, Inhabited

/-- A queued MMA or EPI (R59). `key` holds the tensor, base and stride of an MMA with CLR (R55); `close` is the index of
the chunk that the instruction closes (R56); `a16` the mode of the accumulation; `addr` the parameter block of an EPI;
`layer` the layer record whose span holds the instruction (R200); `prior` what an EPI found of its accumulator as it was issued:
owner, K counter, pairing and mode (R78). -/
structure MatEntry where
  thread : Nat
  pc : Nat
  word : U32
  layer : Option Nat
  key : Option (U32 × U64 × U64)
  close : Option Nat
  a16 : Bool
  addr : Nat
  prior : Option (Option Nat × Nat × Nat × Bool) := none
deriving DecidableEq, Repr, Inhabited

/-- A queued vector instruction (R84, R99). `scalar` is the broadcast scalar, `addr` the descriptor of a VDESC. -/
structure VecEntry where
  thread : Nat
  pc : Nat
  word : U32
  layer : Option Nat
  scalar : U32
  addr : Nat
deriving DecidableEq, Repr, Inhabited

/-- A queued TLD or TST (R84, R97): `addr` is its frame's pond address. -/
structure TileEntry where
  thread : Nat
  pc : Nat
  word : U32
  addr : Nat
deriving DecidableEq, Repr, Inhabited

/-- Why the first read of a tile failed (R126). -/
inductive ReadFailure where
  | check
  | pondEcc
  | lakeEcc (pa : Nat)
deriving DecidableEq, Repr, Inhabited

/-- The state of a descriptor on its mover (R137, R143, R126). A parked one keeps what its fault record says; a read that
failed is that of the mover, or that of a member of its stair chain; it failed at `since`. -/
inductive DescState where
  | queued
  | active
  | parked (recordId : Nat) (since : Nat) (timeoutMs : Nat) (vaddr : Nat)
  | reread (tile : Nat) (why : ReadFailure) (member : Option Nat) (since : Nat)
deriving DecidableEq, Repr, Inhabited

/-- What becomes of a descriptor at a tile that could not be moved: it ends with a halt code (R126, R128, R475), or parks with
the side, KIND and address of its fault (R143). -/
inductive DescStop where
  | fail (code : Nat)
  | fault (side : Bool) (kind addr : Nat)
deriving DecidableEq, Repr, Inhabited

/-- A tile in flight (R125): written whole, awaiting a remote answer (R276), or held as a verified frame that waits to enter a
stair chain (R140) or to leave for the host from the landing of die 0 (R17). -/
structure Flight where
  tile : Nat
  written : Bool
  psn : Option Nat
  frame : Option (List Byte) := none
deriving DecidableEq, Repr, Inhabited

/-- A frame in a skid buffer (R140): its tile, and whether the member has written it into its pond. -/
structure SkidFrame where
  tile : Nat
  frame : List Byte
  written : Bool
deriving DecidableEq, Repr, Inhabited

/-- A member of a stair chain (R139 to R142): global core, tiles delivered, skid buffer of at most two frames, detached or
not, whether a peer owes it a tile that it fetches (R142, R274), and since when it blocks. -/
structure StairMember where
  core : Nat
  delivered : Nat := 0
  skid : List SkidFrame := []
  detached : Bool := false
  fetching : Bool := false
  blockingSince : Option Nat := none
deriving DecidableEq, Repr, Inhabited

/-- A transfer descriptor on a spring or command mover (R121 to R125). `raw` is the 1,024-bit value; `origin` is the
partition, stream and SEQ of the RUN or MOVE it belongs to; `next` the next tile to read, `injected` the next to enter the
stair chain; `stopAt` the tile that could not be moved, while earlier ones finish; `tallied` the tiles from the cursor on that
have been classified (R128). -/
structure Desc where
  raw : U1024
  addr : Nat
  thread : Nat
  pc : Nat
  word : U32
  layer : Option Nat
  origin : Nat × Nat × Nat
  cursor : Nat := 0
  next : Nat := 0
  flights : List Flight := []
  st : DescState := .queued
  firstFault : Option Nat := none
  stopAt : Option (Nat × DescStop) := none
  tallied : List Nat := []
  stair : List StairMember := []
  injected : Nat := 0
deriving DecidableEq, Repr

/-- A core (R80 to R97, R117). `pondBad` lists the pond words with an uncorrectable error, `pondSingle` those
with a single-bit error that no reader has met (R118); `scrubAt` is the next beat of the scrubber, `lastCycle` the cycle after
the last that CSRR CYCLE read, `cycleBase` its gallery's cycle count when its segment started (R87). Tables: store by word index, threads, tiles, accumulators and springs by number, pond by address. -/
structure Core where
  seg : Option (Nat × Nat × Nat) := none
  store : Table U32 := []
  nwords : Nat := 0
  lastIssued : Nat := 7
  threads : Table Thread := []
  tiles : Table TileReg := []
  accs : Table Acc := []
  matQ : List MatEntry := []
  vecQ : List VecEntry := []
  tileQ : List TileEntry := []
  springs : Table (List Desc) := []
  pond : Table Byte := []
  pondBad : List Nat := []
  pondSingle : List Nat := []
  scrubAt : Nat := 0
  lastCycle : Nat := 0
  cycleBase : Nat := 0
  unordered : Nat := 0
  latch : Bool := false
deriving DecidableEq, Repr, Inhabited

/-! ## Segments and serving (chapters 04, 07, 11) -/

/-- Why a segment is stopping (R110, R202, R317, R366). -/
inductive StopKind where
  | halt
  | layer (idx : Nat)
  | abort
  | hard
deriving DecidableEq, Repr, Inhabited

/-- The watch's counts of one attempt for one slot, which a repeat removes (R205). -/
structure Counts where
  elems : Nat := 0
  zero : Nat := 0
  flush : Nat := 0
  sat : Nat := 0
  nonfin : Nat := 0
deriving DecidableEq, Repr, Inhabited

/-- Where a layer of a segment stands (R203): widening level, retry, A32 mode held. -/
structure Attempt where
  level : Nat := 0
  retry : Nat := 0
  a32 : Bool := false
deriving DecidableEq, Repr, Inhabited

/-- An overflow report (R202): layer, output tensor, and whether it is an accumulator overflow. -/
structure OvfReport where
  layer : Nat
  tensor : U32
  accumulator : Bool
deriving DecidableEq, Repr, Inhabited

/-- A segment that a RUN or a serving pass has launched. `seed` and `stepKey` are the SEED and STEP of the rounding
stream key (R47); `marks` is the snapshot of R201; `layerStarts` tells when each layer was entered, `counts` is keyed by layer *
65536 + watch slot (R205); `stopAt` is when the stop began, `restored` tells that a stop for a layer has ended its descriptors,
restored its marks and cleared its latches (R202, R355). -/
structure Segment where
  p : Nat
  s : Nat
  q : Nat
  num : Nat
  variant : Variant
  variantNo : Nat
  batch : Nat
  seed : U64
  stepKey : U64
  inStep : Bool
  cores : List Nat
  started : Nat
  layerStarts : Table Nat := []
  stop : Option StopKind := none
  stopAt : Nat := 0
  firstHalt : Option HaltRecord := none
  halted : Nat := 0
  cause : Nat := 0
  causeArg : Nat := 0
  detail : U128 := 0
  marks : List (Nat × U32) := []
  reports : List OvfReport := []
  counts : Table Counts := []
  restored : Bool := false
deriving DecidableEq, Repr

/-- A started or waiting REQUEST_FEED (R329): SEQ, token array, tokens, tokens consumed, LAST. -/
structure Feed where
  seq : Nat
  addr : Nat
  ntok : Nat
  used : Nat
  last : Bool
deriving DecidableEq, Repr, Inhabited

/-- A request that holds a context slot (R329 to R332). `order` is its place in the acceptance order of the opens; one that
has ended keeps its slot until its REQUEST_CLOSE. -/
structure Request where
  stream : Nat
  openSeq : Nat
  irq : Bool
  ctx : Nat
  maxTokens : Nat
  endToken : U32
  seed : U64
  order : Nat
  pos : Nat := 0
  tokens : Nat := 0
  left : Nat := 0
  prompted : Bool := false
  feeds : List Feed := []
  ended : Bool := false
deriving DecidableEq, Repr, Inhabited

/-- A slot of a batch: the stream, its REQUEST_OPEN and REQUEST_FEED, and the tokens that a feed pass feeds. -/
structure BatchSlot where
  stream : Nat
  openSeq : Nat
  feedSeq : Nat
  n : Nat
deriving DecidableEq, Repr, Inhabited

/-- The batch of a running pass: its kind and its slots. -/
structure Batch where
  feed : Bool
  slots : List BatchSlot
deriving DecidableEq, Repr, Inhabited

/-- A serving RUN that is installed (R328). -/
structure Serve where
  s : Nat
  q : Nat
  segNum : Nat
  seed : U64
  img : Image
  requests : List Request := []
  lastFeed : Bool := false
  stopping : Bool := false
  batch : Option Batch := none
deriving DecidableEq, Repr

/-! ## Tiers (chapter 06) -/

/-- The five states of a tier object (R173). -/
inductive TierState where
  | absent
  | promoting
  | resident
  | demoting
  | writing
deriving DecidableEq, Repr, Inhabited

/-- A request on a tier object (R170): the stream and SEQ of its command, a sweep unit's own (stack, and the mark that gains 1 at
its commit, R172), or an IMPORT. -/
inductive TierReq where
  | promote (s q : Nat) (addr : Nat) (mark : Option Nat) (prio : Nat)
  | demote (s q : Nat) (mark : Option Nat)
  | sweepWrite (stack : Nat) (mark : Option Nat)
  | importVersion (s q : Nat) (frames : List (List Byte))
deriving DecidableEq, Repr, Inhabited

/-- The transition that a held request waits for (R173, R181). -/
inductive TierWait where
  | commit
  | release
  | fill
  | resident
  | recovery
deriving DecidableEq, Repr, Inhabited

/-- A fill in progress (R172, R177): tiles delivered, extents whose array reads are complete, frames checked in the landing
that wait to be written, when it began, since when it waits for its flash channels or for a free frame of the landing (R178), the
PROMOTEs that wait on it. -/
structure Fill where
  done : Nat := 0
  extentsRead : Nat := 0
  landed : List (List Byte) := []
  since : Nat := 0
  busySince : Option Nat := none
  fullSince : Option Nat := none
  waiters : List TierReq := []
deriving DecidableEq, Repr, Inhabited

/-- A version being written (R176): the request, the new frames (none before a sweep unit has asked for its commit), the
version it will have, whether it began with a lake copy, whose range stays its own (R169), and whether that copy is kept at the
commit (R474). -/
structure Writing where
  req : TierReq
  frames : List (List Byte)
  version : U64
  hadCopy : Bool
  keepCopy : Bool
deriving DecidableEq, Repr, Inhabited

/-- A recovery under way (R179): extent, source 1 to 4, neighbour in turn, start, since when a fill or a pinned stream waits on it
(R178), and whether the host has been asked before a restart of the Tier Manager began it again (R356). -/
structure Recovery where
  ext : Nat
  source : Nat
  neighbour : Nat
  since : Nat
  waitSince : Option Nat := none
  asked : Bool := false
deriving DecidableEq, Repr, Inhabited

/-- A tier object (R168). `frames` is the current version in flash, `seqs` the SEQ of each of its extents' headers (R164);
`retiring` counts old extents not yet retired (R176); `pins` is keyed by stream; `waiting` are the requests that a transition
releases, in order of arrival (R170). -/
structure TierObj where
  st : TierState := .absent
  version : U64 := 0
  addr : Nat := 0
  frames : List (List Byte) := []
  seqs : List Nat := []
  pins : Table Nat := []
  deferred : Bool := false
  poison : Bool := false
  heldInLake : Bool := false
  flashVersion : U64 := 0
  fill : Option Fill := none
  writing : Option Writing := none
  recovery : Option Recovery := none
  waiting : List (TierWait × TierReq) := []
  demotes : List TierReq := []
  retiring : Nat := 0
  absentSince : Option Nat := none
deriving DecidableEq, Repr, Inhabited

/-! ## The numerics watch (chapter 07) -/

/-- A watch slot (R187, R189, R193, R197, R198). Float fields are FP32 codes. `fmt` is the format in force. -/
structure Slot where
  decl : WatchDecl
  elems : Nat := 0
  zero : Nat := 0
  flush : Nat := 0
  sat : Nat := 0
  nonfin : Nat := 0
  amax : U32 := 0
  ovfTiles : Nat := 0
  flushRun : Nat := 0
  zeroRun : Nat := 0
  history : List U32 := []
  lastAmax : U32 := 0
  scale : U32 := 0x3F800000
  fmt : Nat := 0
  retry : Nat := 0
  retries : Nat := 0
  widen : Nat := 0
  a32 : Bool := false
  toldInvalid : Bool := false
deriving DecidableEq, Repr, Inhabited

/-! ## Steps, sweep and exchange (chapters 08, 09) -/

/-- The step states of R226, in the order of Part.StepState (R236). -/
inductive StepState where
  | idle
  | opened
  | sealed
  | exchanged
  | sweeping
  | swept
  | discarded
deriving DecidableEq, Repr, Inhabited

/-- A sweep cursor (R223), without its CCHECK, which its other fields give. -/
structure Cursor where
  step : U64 := 0
  group : Nat := 0
  block : Nat := 0
  phase : Nat := 0
  shadowValid : Bool := false
  slot : Bool := false
  rho : U32 := 0
deriving DecidableEq, Repr, Inhabited

/-- What a stack's reserved region holds for its sweep unit beside the cursor (R222, R223): the committed block in the
shadow slot as (lake physical address, frame), and the FACTORED statistics as FP32 codes. -/
structure SweepStore where
  shadow : List (Nat × List Byte) := []
  statR : Table U32 := []
  statC : Table U32 := []
  interrupted : Bool := false
deriving DecidableEq, Repr, Inhabited

/-- A sweep group record as validation leaves it (R216 to R219): its index in the list, its bits, the stack that executes it,
the format and block size of W and G from their first tiles, the T of G that validation read (R476), and the touched rows of a
SPARSE record. -/
structure SweepRec where
  idx : Nat
  raw : U1024
  stack : Nat
  wFmt : Nat
  wBlk : Nat
  gFmt : Nat
  gBlk : Nat
  gScale : U32 := 0x3F800000
  rows : List Nat
deriving DecidableEq, Repr, Inhabited

/-- The SWEEP that runs in a partition (R219 to R224, R474): its records and the first outcome of each kind: the poisoned
OBJECT, the unreadable (tensor, block), and the lost OBJECT with its cause, argument and detail. -/
structure SweepRun where
  s : Nat
  q : Nat
  step : U64
  recs : List SweepRec
  poisoned : Option Nat := none
  unreadable : Option (Nat × Nat) := none
  lost : Option (Nat × Nat × Nat) := none
deriving DecidableEq, Repr, Inhabited

/-- One rank's contribution to one compression block (R244, R253): FP32 codes by position, and which of them saturated on
this module. -/
structure Contribution where
  block : Nat
  rank : Nat
  vals : List U32
  sats : List Bool
deriving DecidableEq, Repr, Inhabited

/-- A source tile under reduction: the next rank to add, and the sums so far in payload order (R253). -/
structure Reduction where
  tile : Nat
  nextRank : Nat
  sums : List U32
  sats : List Bool
deriving DecidableEq, Repr, Inhabited

/-- The exchange frame that is being packed for an owner (R251): its rank, first block, blocks, their bytes, SAT. -/
structure Packing where
  rank : Nat
  first : Nat
  count : Nat
  bytes : List Byte
  sat : Bool
deriving DecidableEq, Repr, Inhabited

/-- The elements of one source tile as an engine will write them into a residual or destination tensor (R248, R253): the
origin of the tile, innermost first, codes in payload order, saturation. -/
structure XOut where
  origin : List Nat
  codes : List Nat
  sats : List Bool
deriving DecidableEq, Repr, Inhabited

/-- A frame that a member has sent and whose acknowledgement it awaits (R252, R257): receiver, lane and PSN, block or tile
index. -/
structure XSent where
  peer : Nat
  vl : Nat := 0
  psn : Nat
  index : Nat
  frame : List Byte
deriving DecidableEq, Repr, Inhabited

/-- An exchange record that an EXCHANGE or a segment's schedule runs (R239, R253 to R260). `fs` is the format of the source
tiles, `tScale` the T of the source that validation read (R476), `odd` the parity of the version that picks the residual buffer (R245), `compressed` the source tiles encoded, or sent by a gather, so far,
`counted` the tiles counted for each source rank under MARK_MODE 1 (R255), `retried` the frames that
were requested again, `fetches` the tiles that members have asked for and that are not sent yet, as (member, index) (R260), `prints` the fingerprint bytes by tile (R230). -/
structure XRun where
  s : Nat
  q : Nat
  idx : Nat
  raw : U1024
  scheduled : Bool
  inStep : Bool
  seed : U64
  stepKey : U64
  version : U64
  odd : Bool
  fs : Nat
  tScale : U32 := 0x3F800000
  triggered : Bool := false
  started : Bool := false
  compressed : Nat := 0
  packing : List Packing := []
  parts : List Contribution := []
  sums : List Reduction := []
  outD : Table XOut := []
  outE : Table XOut := []
  written : List Nat := []
  residuals : List Nat := []
  counted : Table Nat := []
  unacked : List XSent := []
  retried : List (Nat × Nat) := []
  fetches : List (Nat × Nat) := []
  detached : List Nat := []
  prints : Table (List Byte) := []
  complete : Bool := false
  ended : Bool := false
deriving DecidableEq, Repr, Inhabited

/-- An entry of the gather ledger (R230): tensor, shard, fingerprint. -/
structure LedgerEntry where
  tensor : U32
  shard : Nat
  print : U64
deriving DecidableEq, Repr, Inhabited

/-! ## Streams (chapter 11) -/

/-- The life of an accepted command (R313, R316): `aborting` is a running command that an abort has won, `stopping`
one that a FENCE STOP ends, before the boundary at which its record is written (R317, R319). -/
inductive Phase where
  | accepted
  | running
  | aborting
  | stopping
  | completing
deriving DecidableEq, Repr, Inhabited

/-- An accepted command in the stream journal (R300): SEQ, the 64 bytes, its phase, its place in the order of
acceptance, when it started, whether the mark of a MARK_WAIT has been seen to reach its target (R136), and the image of a
RUN that has been checked and waits for its launch. -/
structure Cmd where
  seq : Nat
  raw : U512
  phase : Phase := .accepted
  order : Nat := 0
  started : Nat := 0
  satisfied : Bool := false
  img : Option Image := none
deriving DecidableEq, Repr, Inhabited

/-- A completion record (R309), field by field but for PHASE, which its ring position gives. -/
structure Cpl where
  seq : U48
  stream : Nat
  opcode : Byte
  status : Byte
  count : Nat := 0
  cause : Nat := 0
  causeArg : Nat := 0
  detail : U128 := 0
  irq : Bool := false
deriving DecidableEq, Repr, Inhabited

/-- An abort whose record is not yet written (R318): A, the number of commands aborted, and those of them whose own record
is still owed. -/
structure AbortRec where
  upTo : U48
  count : Nat
  waiting : List Nat
deriving DecidableEq, Repr, Inhabited

/-- A stream (R296 to R301, R310): its context, the doorbell and CPL_HEAD values, its journal in SEQ order, the records
held, and the aborts whose record waits for the records of the commands they aborted (R318). -/
structure Stream where
  cmdBase : U48 := 0
  cmdLog2 : BitVec 4 := 0
  cplBase : U48 := 0
  cplLog2 : BitVec 4 := 0
  prio : BitVec 3 := 0
  kind : BitVec 2 := 0
  vector : BitVec 11 := 0
  en : Bool := false
  accept : U48 := 0
  cplTail : U48 := 0
  startSeq : U48 := 0
  doorbell : U48 := 0
  cplHead : U48 := 0
  journal : List Cmd := []
  held : List Cpl := []
  heldSince : Nat := 0
  pausedSince : Option Nat := none
  aborts : List AbortRec := []
deriving DecidableEq, Repr, Inhabited

/-- PART_STATE (R294). -/
inductive PartState where
  | none
  | detached
  | attached
  | orphan
  | parked
  | exported
deriving DecidableEq, Repr, Inhabited

/-- A spring fault record (R144), with the core field as it is reported; mover, stream and SEQ are of its descriptor (R334). -/
structure FaultRec where
  id : U32
  core : Nat
  spring : Nat
  side : Bool
  kind : Nat
  vaddr : U64
  cursor : Nat
  desc : Nat
  age : Nat
  mover : MoverRef
  stream : Nat := 0
  seq : Nat := 0
  queuedAt : Nat := 0
deriving DecidableEq, Repr, Inhabited

/-- The registers of a function's configuration space that a reset of it clears (R290, R327, R447): command, the six BAR words, MSI-X
message control, Advanced Error Reporting status. Their places are PCI Express's own (PRESUMED, assumption log 133). -/
structure ConfigSpace where
  command : BitVec 16 := 0
  bars : Table U32 := []
  msixControl : BitVec 16 := 0x7FF
  aerUncorrectable : U32 := 0
  aerCorrectable : U32 := 0
deriving DecidableEq, Repr, Inhabited

/-- The registers of function p (R294), its configuration space, the bytes of its MSI-X table that differ from their reset values, and the vectors whose
message is pending (R292). -/
structure FnRegs where
  featHost : U128 := 0
  featAgreed : U128 := 0
  ptRoot : U64 := 0
  session : U64 := 0
  fqBase : U64 := 0
  fqCtrl : U64 := 0
  fqTail : Nat := 0
  fqHead : U64 := 0
  evtVector : U64 := 0
  accessErr : Nat := 0
  msixTable : Table Byte := []
  msixPending : List Nat := []
  config : ConfigSpace := {}
deriving DecidableEq, Repr, Inhabited

/-- An IMPORT mode 2 that reads its source from a peer (R451): the record under way, and what has arrived by offset. -/
structure ShardLoad where
  s : Nat
  q : Nat
  recIdx : Nat := 0
  got : Table (List Byte) := []
deriving DecidableEq, Repr, Inhabited

/-- A stage queue that is installed (R262, R263): its declaration, the gains forwarded so far, and stall starts. -/
structure StageQueue where
  decl : StageQueueDecl
  sentForwarded : U32 := 0
  doneForwarded : U32 := 0
deriving DecidableEq, Repr, Inhabited

/-- A remote access that is unanswered (R276). `attempts` counts its sendings, `reread` tells that a frame that failed its
check has been asked for again (R127). `member` is the detached member of a stair chain that reads (R142). `load` is set for a
read of an IMPORT mode 2 (R451): its stream, SEQ, and whether what it reads is a tile frame. -/
structure Remote where
  p : Nat
  psn : Nat
  vl : Nat
  mover : MoverRef
  tile : Nat
  write : Bool
  packet : Packet
  attempts : Nat
  since : Nat
  reread : Bool := false
  member : Option Nat := none
  load : Option (Nat × Nat × Bool) := none
deriving DecidableEq, Repr, Inhabited

/-- A partition: everything R336 gives it, its registers, streams (keyed by stream), counters and lists. `counters` is
keyed by the index and subindex of partition 0's object (index * 256 + sub). `digestRecs` are the records whose digests were taken
last, `repairs` those under repair, `repairWait` since when a sweep waits for one (R225, R233, R234), `peerWait` since when the
exchange engines wait for peers (R258, R264). -/
structure Partition where
  regs : FnRegs := {}
  st : PartState := .none
  tokens : List U64 := []
  leaseFrom : Nat := 0
  leaseExpired : Bool := false
  orphanSince : Option Nat := none
  holdElapsed : Bool := false
  streams : Table Stream := []
  step : StepState := .idle
  version : U64 := 0
  stepNo : U64 := 0
  stepSeed : U64 := 0
  stepOwner : Nat := 0
  sweep : Option SweepRun := none
  commitOwed : Bool := false
  lastSweep : List SweepRec := []
  importRecs : List SweepRec := []
  digestRecs : List SweepRec := []
  repairs : List Nat := []
  repairWait : Option Nat := none
  peerWait : Option Nat := none
  abortCommitted : Bool := false
  lastXList : List U1024 := []
  loads : List ShardLoad := []
  marks : Table U32 := []
  late : Table (List (Nat × Nat)) := []
  image : Option Image := none
  slots : List Slot := []
  attempts : Table Attempt := []
  periods : Nat := 0
  periodStarted : Bool := false
  unorderedTotal : Nat := 0
  toldUnwatched : Bool := false
  toldOverflow : List U32 := []
  ringPos : Nat := 0
  ledger : List LedgerEntry := []
  objects : Table TierObj := []
  flashSeq : Nat := 0
  segments : List Segment := []
  serves : List Serve := []
  xruns : List XRun := []
  stageQueues : List StageQueue := []
  faultSeq : Nat := 0
  faultWaiting : List FaultRec := []
  counters : Table Nat := []
  replaced : List Byte := []
  heldList : List Byte := []
  stateIntact : Bool := true
  parkedByLoss : Bool := false
  imported : Bool := false
  orphanExport : Nat := 0
  digests : Table U64 := []
  awaitingDigest : List Nat := []
  capClock : Nat := 2000
  capBelowSince : Option Nat := none
  capToldAt : Option Nat := none
deriving DecidableEq, Repr, Inhabited

/-! ## The dictionary and management (chapters 12, 14) -/

/-- A dictionary value in a change set: index * 256 + subindex, type code, bytes. -/
structure Entry where
  key : Nat
  type : Nat
  value : List Byte
deriving DecidableEq, Repr, Inhabited

/-- Where a change set stands (R398 to R403). -/
inductive SetPhase where
  | opened
  | committed
  | decided
deriving DecidableEq, Repr, Inhabited

/-- A change set. `cls` is its apply class, 0 LIVE to 3 RESTART; `eligible` the time it became eligible; `reached` and
`taken` the affected partitions that have been at a boundary and that have taken the values; `paused` those that pause, with
when they began, and `longest` the longest pause so far. -/
structure ChangeSet where
  csid : Nat
  sess : Nat
  kind : Nat
  entries : List Entry := []
  digest : List Byte := []
  phase : SetPhase := .opened
  cls : Nat := 0
  affected : List Nat := []
  eligible : Option Nat := none
  reached : List Nat := []
  taken : List Nat := []
  paused : List (Nat × Nat) := []
  longest : Nat := 0
  protection : Bool := false
deriving DecidableEq, Repr, Inhabited

/-- A management session: number 0 is the mailbox (R393), others are DTLS sessions (R381, R385, R386, R391, R396). -/
structure Session where
  alive : Bool := false
  openSet : Option Nat := none
  staging : List Byte := []
  stagingKey : Nat := 0
  stagingOn : Bool := false
  snapshot : Option (Nat × Nat × List Byte) := none
  snapshots : Nat := 0
  subMask : Nat := 0
  nextEvent : Nat := 0
  agreed : Option U128 := none
  lastReq : Nat := 0
  responses : List (Nat × List Byte) := []
  sent : List (List Byte) := []
  times : List Nat := []
deriving DecidableEq, Repr, Inhabited

/-- A pending protection submission (R347, R348): party 1 host owner or 2 operator, digest, entries if it carries them,
its CSID, and when its window opened. -/
structure Submission where
  party : Nat
  digest : List Byte
  entries : Option (List Entry)
  csid : Nat
  since : Nat
deriving DecidableEq, Repr, Inhabited

/-- An event record (R389) without its CHECK, which its other fields give. -/
structure Event where
  seq : Nat
  time : Nat
  code : U16
  part : Nat := 15
  pos : Nat := 255
  args : List Nat := []
deriving DecidableEq, Repr, Inhabited

/-! ## Supervision (chapter 13) -/

/-- Fw.ProcessorState (R376). -/
inductive ProcState where
  | running
  | restarting
  | standby
  | failed
  | absent
deriving DecidableEq, Repr, Inhabited

/-- A firmware processor (R350 to R353): state, components being restarted, whole restart or not, times of detection and
of past restarts. -/
structure Proc where
  st : ProcState := .running
  comps : List (Nat × Nat) := []
  whole : Bool := false
  since : Nat := 0
  restarts : Nat := 0
  lastMicros : Nat := 0
  compTimes : List (Nat × Nat) := []
  wholeTimes : List Nat := []
deriving DecidableEq, Repr, Inhabited

/-- A sealed dump (R374): the header's fields, whether its flash write was whole and whether the lake still holds a copy (R375), and the
sealed body. -/
structure Dump where
  id : Nat
  time : Nat
  cause : Nat
  proc : Nat
  fw : U32
  complete : Bool
  lake : Bool := true
  body : List Byte
deriving DecidableEq, Repr, Inhabited

/-! ## Fabric (chapter 10) -/

/-- Port.State (R288). -/
inductive PortState where
  | down
  | training
  | up
  | heldDown
deriving DecidableEq, Repr, Inhabited

/-- The packet of a lane and class that a port is sending, with the bytes of it that no flit has taken yet (R269). -/
structure Sending where
  packet : Packet
  bytes : List Byte
deriving DecidableEq, Repr

/-- A fabric port (R266 to R271, R279, R285, R463). Credits, receive buffers and waiting packets are keyed vl * 2 + class. `sent`
lists the packets in the replay buffer as (last SEQ, key, packet), `sending` those of which a part is sent; `rxData` holds the
flits of the receive buffer as (PKT_OFF, data not yet taken), `passing` the bytes of a packet that the switch has begun to take
(R278), `owed` the credits to return, `lastTold` the ACK sent last, `idle` the idle flit sent last since a data flit; the lane `drrLane` may send `drrLeft`
more flits in its turn. `inDim` is the dimension of the link whose packets its input holds, `stomps` the lanes and classes that owe
a stomp marker (R285), `wanted` those whose credit a packet at an input of the switch waits for (R271). -/
structure Port where
  st : PortState := .down
  lanes : BitVec 4 := 0
  peerModule : Nat := 0xFF
  peerPort : Nat := 0xFF
  dimension : Nat := 0xFF
  inDim : Nat := 0xFF
  txSeq : Nat := 4095
  replay : List (Nat × Flit) := []
  sent : List (Nat × Nat × Packet) := []
  lastAck : Nat := 4095
  ackAt : Nat := 0
  replays : Nat := 0
  rxSeq : Nat := 4095
  nakOwed : Bool := false
  nakSent : Bool := false
  lastTold : Nat := 4095
  credits : Table Nat := []
  rxData : Table (List (Nat × List Byte)) := []
  passing : Table (List Byte) := []
  owed : Table Nat := []
  idle : Option Flit := none
  output : Table (List Packet) := []
  sending : Table Sending := []
  stomps : List Nat := []
  drrLane : Nat := 7
  drrLeft : Nat := 0
  downTimes : List Nat := []
  stallSince : Option Nat := none
  wanted : List Nat := []
  cable : Bool := false
  shorted : Bool := false
  testSince : Option Nat := none
  testBits : Nat := 0
  testErrors : Nat := 0
deriving DecidableEq, Repr, Inhabited

/-- The landing of an I/O die (R17): its bytes, the packets that reached its endpoint, those that wait to leave, and the frames
from host memory, each with a number of its mover and its tile. -/
structure Landing where
  mem : Table Byte := []
  arrived : List Packet := []
  leaving : List Packet := []
  staged : List (Nat × Nat × List Byte) := []
deriving DecidableEq, Repr, Inhabited

/-- An arbiter's waits (R138): wait[l] by level, the grants the oldest borrower request has waited through, the last
level granted (8 is the borrower queue), and whether the next slot of a throttled stack's channel stays idle (R433). -/
structure Arbiter where
  wait : List Nat := [0, 0, 0, 0, 0, 0, 0, 0]
  borrower : Nat := 0
  last : Option Nat := none
  skip : Bool := false
deriving DecidableEq, Repr, Inhabited

/-! ## Power, start-up, update, test (chapters 15, 16, 17) -/

/-- Power.DomainState but for ABSENT, which the part number gives (R425). -/
inductive DomState where
  | off
  | on
  | faulted
deriving DecidableEq, Repr, Inhabited

/-- A power domain (R426): state, times of its faults, when it was switched on again. -/
structure Domain where
  st : DomState := .on
  faults : List Nat := []
  retriedAt : Option Nat := none
  thermalClock : Nat := 2000
  coolSince : Option Nat := none
deriving DecidableEq, Repr, Inhabited

/-- Power.State (R442). -/
inductive SleepState where
  | awake
  | entering
  | asleep
  | waking
deriving DecidableEq, Repr, Inhabited

/-- Where the whole module stands (R443 to R448, R372, R444). A warm reset keeps its cause (Device.LastReset codes). -/
inductive ModPhase where
  | off
  | starting
  | running
  | warmReset (cause : Nat) (since : Nat) (held : Bool)
  | faulted
  | recovery
deriving DecidableEq, Repr, Inhabited

/-- Fw.SlotState (R422). -/
inductive SlotState where
  | empty
  | staged
  | active
  | provisional
  | previous
  | invalid
deriving DecidableEq, Repr, Inhabited

/-- A firmware slot: its state and the package in it. -/
structure FwSlot where
  st : SlotState := .empty
  package : List Byte := []
deriving DecidableEq, Repr, Inhabited

/-- Fw.UpdateState (R422). -/
inductive UpdateState where
  | idle
  | staging
  | handover
  | holding
  | activating
  | provisional
  | rollingBack
deriving DecidableEq, Repr, Inhabited

/-- One copy of the boot control record, in one NOR device (R414, R444): its write count, whether its check value is valid, the slot
that is PROVISIONAL, and the ACTIVE slot, which is the fallback of a PROVISIONAL one. -/
structure BootCopy where
  writes : Nat := 0
  valid : Bool := true
  prov : Option Nat := none
  active : Nat := 0
deriving DecidableEq, Repr, Inhabited

/-- The update in progress (R413 to R422): next processor of a handover, the Supervisor it has updated, when it started, what its slot
was, settings to return to, change sets applied since, pauses, and the reason of a rollback that waits; and the two copies of the boot
control record. -/
structure Update where
  st : UpdateState := .idle
  newSlot : Nat := 0
  handoverAt : Nat := 0
  saved : Table (List Byte) := []
  setsApplied : Nat := 0
  rollback : Option Nat := none
  lastPause : Nat := 0
  maxPause : Nat := 0
  resetList : List Nat := []
  floor : U32 := 0
  connection : Option (List Byte × List Byte) := none
  result : List Byte := []
  since : Nat := 0
  supDone : Option Nat := none
  slotWas : SlotState := .staged
  bootCopies : List BootCopy := [{}, {}]
deriving DecidableEq, Repr, Inhabited

/-- Diag.LakeTestState (R456). -/
inductive LakeTestState where
  | idle
  | holding
  | parking
  | testing
  | restoring
  | passed
  | failed
deriving DecidableEq, Repr, Inhabited

/-- The lake test (R454): stacks still to test, the partitions held for it, PARK mode or DESTRUCTIVE, the failing granules of this test and
of all tests (R456), and when the stack under test had its turn. What is parked stays as it was in the lake (assumption log 40). -/
structure LakeTest where
  st : LakeTestState := .idle
  stacksLeft : List Nat := []
  owners : List Nat := []
  park : Bool := true
  failing : Nat := 0
  total : Nat := 0
  since : Nat := 0
deriving DecidableEq, Repr, Inhabited

/-- The sensors' last readings (R431, R433), in the units of the dictionary objects; what the input voltage and a trip left to
report; the throttled stacks, and when each hall last told of its throttle (R423, R433 to R436). -/
structure Sensors where
  millivolts : Nat := 50000
  milliamps : Nat := 0
  watts : Nat := 0
  holdupTail : Nat := 4194304
  hallMax : List Int := [0, 0, 0, 0]
  stackTemps : Table Int := []
  dies : List Int := []
  inlet : Int := 0
  outlet : Int := 0
  low : Bool := false
  overvoltage : Bool := false
  trip : Option Nat := none
  toldThrottle : Table Nat := []
  throttled : List Nat := []
  coolantTold : Bool := false
deriving DecidableEq, Repr, Inhabited

/-- The supervision state: processors by number (R376), active Supervisor, stacks that hold the journal copies (R362),
losses (R364), dumps (R375), the latched doorbells of R446, the last fatal cause, the position that the recovery of a partition is for (R377), the journal
tail not yet mirrored, the acceptances that wait for their own record, each with the bytes of the tail up to its record's end, the number
of acceptances so far. -/
structure Supervision where
  procs : Table Proc := []
  activeSup : Nat := 0
  standby : Bool := true
  failover : Bool := false
  journalCopies : List Nat := [0, 8]
  lostHalls : List Nat := []
  lostStacks : List Nat := []
  lostChannels : Table Nat := []
  failedDevices : Table Nat := []
  corrections : Table (List Nat) := []
  dumps : List Dump := []
  dumpCount : Nat := 0
  fatal : Option (Nat × Nat) := none
  flushLost : Bool := false
  lostAt : Option Nat := none
  acceptWaits : List (Nat × Nat × Nat) := []
  acceptOrder : Nat := 0
  unmirrored : Nat := 0
  recovering : List Nat := []
  recoveryPos : Table Nat := []
  latched : List (Nat × Nat × Nat × U64) := []
deriving DecidableEq, Repr, Inhabited

/-- A member that this switch has cut out of a tree (R260, R284): the tree's source, XID and group, and the ADDR and PSN of the frame
that it blocked. -/
structure TreeCut where
  src : Nat
  xid : Nat
  group : Nat
  member : Nat
  addr : Nat
  psn : Nat
deriving DecidableEq, Repr, Inhabited

/-- The fabric state: ports, arbiters keyed by a number of the arbiter, PSN windows keyed by source, next PSNs, remote
accesses, the modules that a route leads to, the pairs of other modules whose link is known to be down (R283), the packets at
an input with the branches that have taken them (R284), and the members cut out of trees. -/
structure Fabric where
  ports : Table Port := []
  landings : Table Landing := []
  arbiters : Table Arbiter := []
  windows : Table (List Nat) := []
  nextPsn : Table Nat := []
  remotes : List Remote := []
  routes : List Nat := []
  farDown : List (Nat × Nat) := []
  taken : List (Nat × Packet × List Nat) := []
  cuts : List TreeCut := []
deriving DecidableEq, Repr, Inhabited

/-- The management state: dictionary values that differ from their defaults (keyed index * 256 + sub), the values in
force per partition (keyed partition * 2^24 + key), change sets in commit order, sessions, mailbox, protection, and the frames
that arrived during a failover, with their sessions (R359). -/
structure Management where
  values : Table (List Byte) := []
  inForce : Table (List Byte) := []
  sets : List ChangeSet := []
  lastCsid : Nat := 0
  lastEnded : Nat := 0
  lastOutcome : Nat := 0
  lastPause : Nat := 0
  sessions : Table Session := []
  mbReq : Table Byte := []
  mbRsp : List Byte := []
  mbBusy : Bool := false
  mbReady : Bool := false
  mbCtrl : U64 := 0
  protSeq : Nat := 0
  submission : Option Submission := none
  mismatches : List Nat := []
  lockedFrom : Option Nat := none
  held : List (Nat × List Byte) := []
deriving DecidableEq, Repr, Inhabited

/-- The power and test state; `clocks` holds the clock of each gallery, `cycles` the cycles it had counted when its clock last
changed, and when that was (R87); `hostWidth` lanes at `hostGts` GT/s are the width and rate that the host port has trained to, 0
while its link is down (R290). `trstN` is the level of the test port's reset contact (R467), `boundary` what the boundary register has
captured, `preload` what it drives (R452). -/
structure Power where
  domains : Table Domain := []
  clocks : Table Nat := []
  cycles : Table (Nat × Nat) := []
  sensors : Sensors := {}
  sleep : SleepState := .awake
  sleepEntries : Nat := 0
  modResetN : Bool := true
  perstN : Bool := true
  hostWidth : Nat := 16
  hostGts : Nat := 64
  powerFail : Bool := false
  trstN : Bool := true
  tapIr : Byte := 1
  boundary : List Bool := []
  preload : List Bool := []
  lakeTest : LakeTest := {}
  lastReset : Nat := 0
  lastStartMicros : Nat := 0
  starts : Nat := 0
  selfTestFailures : Nat := 0
deriving DecidableEq, Repr, Inhabited

/-- The lake and flash state outside the objects: lake bytes by physical address, poisoned granules by granule number
(address / 64), granules of a lost channel that have been written whole since its loss and stacks zeroed whole since (R365), sweep stores by stack
(a cursor stands in the lake's bytes), flash wear. -/
structure Lake where
  mem : Table Byte := []
  poison : List Nat := []
  healed : List Nat := []
  zeroed : List Nat := []
  stores : Table SweepStore := []
  retiredBlocks : Nat := 0
  sparePercent : Nat := 100
  readOnly : Bool := false
  bytesHost : Nat := 0
  bytesFlash : Nat := 0
  relocations : Nat := 0
deriving DecidableEq, Repr, Inhabited

/-- The nine orderable parts (R3). -/
inductive PartNo where
  | m08x2f16
  | m08x2f32
  | m08x4f32
  | m12x2f16
  | m12x2f32
  | m12x4f32
  | m12x4f64
  | m16x4f32
  | m16x4f64
deriving DecidableEq, Repr, Inhabited

/-- The state of the module. `pending` is the queue of commands that wait, first in first out. `host` is the host's memory
by bus address, as host software left it. `now` is module life in microseconds. `freeUsed` counts the free values taken so
far (the model's own field, not the manual's). A partition keys `attempts` by segment number * 65536 + layer. Cores are keyed by global core number, partitions by number, movers by
die * 8 + mover. -/
structure State where
  pending : List Instr
  part : PartNo
  phase : ModPhase
  now : Nat
  freeUsed : Nat
  cores : Table Core
  parts : Table Partition
  movers : Table (List Desc)
  lake : Lake
  host : Table Byte
  fabric : Fabric
  mgmt : Management
  sup : Supervision
  power : Power
  slots : Table FwSlot
  update : Update
  log : List Event
  nextEvent : Nat
  counters : Table Nat
  msix : List (Nat × Nat)
deriving DecidableEq, Repr

/-- Faults: the module has no fault that stops it as a machine in this model. A halt, a parked descriptor, a FAULT or
REJECTED record and FAULTED (R372) are all states. The one constructor is raised by nobody: safe. -/
inductive Fault where
  | unreachable
deriving DecidableEq, Repr

/-- Refusals. -/
inductive Refusal where
  /-- Raised only by exec's arm of a command that has no meaning yet: safe. -/
  | notModelled (mnemonic : String)
  /-- Raised by SAROLBER_PRIVATE while Prot.DebugUnlock is 1: R452 gives a private TAP instruction no stated effect on the
  module: safe. -/
  | privateTapInstruction
deriving DecidableEq, Repr

/-- The module right after its first cold start has reached RUNNING (R443, R445): partition 0 holds every hall and is
DETACHED, every other partition does not exist, every register has its reset value, nothing is stored anywhere. -/
def State.reset : State :=
  { pending := []
    part := .m12x4f32
    phase := .running
    now := 0
    freeUsed := 0
    cores := []
    parts := [(0, { st := .detached })]
    movers := []
    lake := {}
    host := []
    fabric := {}
    mgmt := {}
    sup := {}
    power := {}
    slots := [(0, { st := .active })]
    update := {}
    log := []
    nextEvent := 0
    counters := []
    msix := [] }

end Sys2Proof.Machine
end

