-- ==== Sys2Proof/Machine/Events.lean ====
section
/-! DEFINITION. Ndoit frames (R383) and event records (R389) as bytes. -/

namespace Sys2Proof.Machine

/-- A frame that the module sends: header with RSP 1, then the body (R383). -/
def ndoitFrame (op status reqId csid : Nat) (body : List Byte) : List Byte :=
  leBytes 16 (fld 1 120 + fld (op % 256) 112 + fld 1 111 + fld status 96 + fld reqId 64 + fld body.length 48 + fld csid 32) ++ body

/-- An event record as its 512 bits with CHECK as zero (R389). -/
def Event.val (e : Event) : Nat :=
  fld (e.seq % 2 ^ 64) 448 + fld (e.time % 2 ^ 64) 384 + fld e.code.toNat 368 + fld (e.part % 16) 364 + fld (e.pos % 256) 356 +
  ((List.range 5).map fun i => fld (e.args.getD i 0 % 2 ^ 64) (288 - 64 * i)).sum

/-- Its 64 bytes. -/
def Event.bytes (e : Event) : List Byte :=
  let b := leBytes 64 e.val
  leBytes 4 (crc32c b).toNat ++ b.drop 4

/-- The area of an event, as SUBSCRIBE names it: bit k for codes 0xk000 to 0xkFFF (R384). -/
def Event.inMask (e : Event) (mask : Nat) : Bool := bit mask (e.code.toNat / 4096)

/-- One EVENT frame to a subscribed session: at most 15 unsent records. More than 256 unsent after it: the session skips to
the newest record. Gives the session and the number skipped; none with nothing to send (R391). -/
def Session.sendEvents (x : Session) (log : List Event) : Option (Session × Nat) :=
  let todo := log.filter fun e => decide (x.nextEvent ≤ e.seq) && e.inMask x.subMask
  let now := todo.take 15
  match now.getLast? with
  | none => none
  | some l =>
    let rest := todo.drop 15
    let frame := ndoitFrame 0x21 0 0 0 (BitVec.ofNat 8 now.length :: List.replicate 7 0 ++ now.flatMap Event.bytes)
    let skip := 256 < rest.length
    some ({ x with
      sent := x.sent ++ [frame]
      nextEvent := if skip then (rest.getLast?.getD l).seq else l.seq + 1 }, if skip then rest.length - 1 else 0)

/-- Frames while there are unsent records; 256 of them take 18 frames. -/
def Session.drain (log : List Event) : Session → Nat → Session × Nat
  | x, 0 => (x, 0)
  | x, n + 1 =>
    match x.sendEvents log with
    | none => (x, 0)
    | some (y, k) => let r := Session.drain log y n; (r.1, r.2 + k)

/-- A session is subscribed. -/
def Session.subscribed (x : Session) : Bool := x.alive && x.subMask ≠ 0

end Sys2Proof.Machine
end

