-- ==== Sys2Proof/Machine/Objects.lean ====
section
/-! DEFINITION. The object dictionary's map: every object of the tables that R405 names, with type, access, default, range
and apply class. A range that a table leaves out is the type's own. Objects whose default depends on the part number have
it in Machine/Ops.lean. -/

namespace Sys2Proof.Machine

/-- The access kinds of R379. -/
inductive Access where
  | ro
  | rw
  | wo
  | rw2
deriving DecidableEq, Repr

/-- The apply classes of R399. -/
inductive ApplyClass where
  | live
  | step
  | quiesce
  | restart
deriving DecidableEq, Repr

/-- Which partitions an object affects (R399): the one its index or subindex names, every one, or none. -/
inductive Scope where
  | moduleWide
  | byIndex
  | bySub
  | position
deriving DecidableEq, Repr

/-- A row of the map: index and subindex ranges, name, type code (R378), access, default, range (for a BLOB the lengths),
apply class, scope. -/
structure ObjRow where
  ilo : Nat
  ihi : Nat
  slo : Nat
  shi : Nat
  name : String
  type : Nat
  access : Access
  dflt : Nat
  lo : Nat
  hi : Nat
  cls : ApplyClass
  scope : Scope
deriving DecidableEq, Repr

/-- Dictionary service objects (R406). -/
def objRows0 : List ObjRow :=
  [⟨0x1000, 0x1000, 1, 1, "Id.PartNumber", 7, .ro, 0, 0, 0, .live, .moduleWide⟩,
   ⟨0x1000, 0x1000, 2, 2, "Id.SerialNumber", 7, .ro, 0, 0, 0, .live, .moduleWide⟩,
   ⟨0x1000, 0x1000, 3, 3, "Id.StacksPopulated", 2, .ro, 0, 0, 65535, .live, .moduleWide⟩,
   ⟨0x1000, 0x1000, 4, 4, "Id.IoDiesPopulated", 1, .ro, 0, 0, 255, .live, .moduleWide⟩,
   ⟨0x1000, 0x1000, 5, 5, "Id.FirmwareVersion", 3, .ro, 0, 0, 4294967295, .live, .moduleWide⟩,
   ⟨0x1000, 0x1000, 6, 6, "Id.HardwareRevision", 1, .ro, 0, 0, 255, .live, .moduleWide⟩,
   ⟨0x1000, 0x1000, 7, 7, "Id.FeatureMask", 8, .ro, 0, 0, 0, .live, .moduleWide⟩,
   ⟨0x1000, 0x1000, 8, 8, "Id.LifeMicros", 4, .ro, 0, 0, 18446744073709551615, .live, .moduleWide⟩,
   ⟨0x1100, 0x1100, 1, 1, "Comm.AddressMode", 1, .rw, 1, 0, 1, .restart, .moduleWide⟩,
   ⟨0x1100, 0x1100, 2, 2, "Comm.Ipv4Address", 3, .rw, 0, 0, 4294967295, .restart, .moduleWide⟩,
   ⟨0x1100, 0x1100, 3, 3, "Comm.Ipv4PrefixLength", 1, .rw, 24, 1, 32, .restart, .moduleWide⟩,
   ⟨0x1100, 0x1100, 4, 4, "Comm.Ipv4Gateway", 3, .rw, 0, 0, 4294967295, .restart, .moduleWide⟩,
   ⟨0x1100, 0x1100, 5, 5, "Comm.HeartbeatPeriod", 3, .rw, 1000, 100, 10000, .live, .moduleWide⟩,
   ⟨0x1100, 0x1100, 6, 6, "Comm.MaxSessions", 1, .rw, 8, 1, 8, .live, .moduleWide⟩,
   ⟨0x1110, 0x1110, 1, 1, "Comm.OperatorTrustAnchor", 8, .rw, 0, 0, 2048, .live, .moduleWide⟩,
   ⟨0x1110, 0x1110, 2, 2, "Comm.DeviceCertificate", 8, .ro, 0, 0, 0, .live, .moduleWide⟩,
   ⟨0x1F00, 0x1F00, 1, 1, "ChangeSet.Timeout", 3, .rw, 10000, 1000, 600000, .live, .moduleWide⟩,
   ⟨0x1F00, 0x1F00, 2, 2, "ChangeSet.LastId", 2, .ro, 0, 0, 65535, .live, .moduleWide⟩,
   ⟨0x1F00, 0x1F00, 3, 3, "ChangeSet.LastOutcome", 1, .ro, 0, 0, 255, .live, .moduleWide⟩,
   ⟨0x1F00, 0x1F00, 4, 4, "ChangeSet.LastPauseMicros", 3, .ro, 0, 0, 4294967295, .live, .moduleWide⟩,
   ⟨0x1F00, 0x1F00, 5, 5, "ChangeSet.Waiting", 2, .ro, 0, 0, 65535, .live, .moduleWide⟩,
   ⟨0x1F00, 0x1F00, 6, 6, "ChangeSet.PendingRestart", 2, .ro, 0, 0, 65535, .live, .moduleWide⟩,
   ⟨0x9000, 0x9000, 1, 1, "Event.NextSequence", 4, .ro, 0, 0, 18446744073709551615, .live, .moduleWide⟩,
   ⟨0x9000, 0x9000, 2, 2, "Event.OldestSequence", 4, .ro, 0, 0, 18446744073709551615, .live, .moduleWide⟩,
   ⟨0x9003, 0x9003, 1, 1, "Event.Log", 8, .ro, 0, 0, 0, .live, .moduleWide⟩,
   ⟨0x8020, 0x8020, 1, 1, "Counters.NdoitRequests", 4, .ro, 0, 0, 18446744073709551615, .live, .moduleWide⟩,
   ⟨0x8020, 0x8020, 2, 2, "Counters.NdoitOver5ms", 4, .ro, 0, 0, 18446744073709551615, .live, .moduleWide⟩,
   ⟨0x8020, 0x8020, 3, 3, "Counters.NdoitRetransmitsAnswered", 4, .ro, 0, 0, 18446744073709551615, .live, .moduleWide⟩,
   ⟨0x8020, 0x8020, 4, 4, "Counters.NdoitBusy", 4, .ro, 0, 0, 18446744073709551615, .live, .moduleWide⟩,
   ⟨0x8020, 0x8020, 5, 5, "Counters.HandshakesRefused", 4, .ro, 0, 0, 18446744073709551615, .live, .moduleWide⟩,
   ⟨0x8020, 0x8020, 6, 6, "Counters.ChangeSetsApplied", 4, .ro, 0, 0, 18446744073709551615, .live, .moduleWide⟩,
   ⟨0x8020, 0x8020, 7, 7, "Counters.ChangeSetsRolledBack", 4, .ro, 0, 0, 18446744073709551615, .live, .moduleWide⟩,
   ⟨0x8020, 0x8020, 8, 8, "Counters.EventsSkipped", 4, .ro, 0, 0, 18446744073709551615, .live, .moduleWide⟩]

/-- Spring and stair objects (R149). -/
def objRows1 : List ObjRow :=
  [⟨0x3020, 0x3023, 1, 1, "Part.SpringFaultTimeout", 3, .rw, 200, 10, 10000, .live, .byIndex⟩,
   ⟨0x3020, 0x3023, 2, 2, "Part.StairLagLimit", 3, .rw, 64, 1, 1000, .step, .byIndex⟩,
   ⟨0x8040, 0x8043, 1, 1, "Counters.SpringPageFaults", 4, .ro, 0, 0, 18446744073709551615, .live, .byIndex⟩,
   ⟨0x8040, 0x8043, 2, 2, "Counters.SpringFaultTimeouts", 4, .ro, 0, 0, 18446744073709551615, .live, .byIndex⟩,
   ⟨0x8040, 0x8043, 3, 3, "Counters.StaleFaultResponses", 4, .ro, 0, 0, 18446744073709551615, .live, .byIndex⟩,
   ⟨0x8040, 0x8043, 4, 4, "Counters.StairDetachments", 4, .ro, 0, 0, 18446744073709551615, .live, .byIndex⟩,
   ⟨0x8040, 0x8043, 5, 5, "Counters.TileCheckRetries", 4, .ro, 0, 0, 18446744073709551615, .live, .byIndex⟩,
   ⟨0x8040, 0x8043, 6, 6, "Counters.PondCorrected", 4, .ro, 0, 0, 18446744073709551615, .live, .byIndex⟩,
   ⟨0x8040, 0x8043, 7, 7, "Counters.PriorityFloorGrants", 4, .ro, 0, 0, 18446744073709551615, .live, .byIndex⟩,
   ⟨0x8040, 0x8043, 8, 8, "Counters.LandingCheckFailures", 4, .ro, 0, 0, 18446744073709551615, .live, .byIndex⟩]

/-- Tier objects (R185). -/
def objRows2 : List ObjRow :=
  [⟨0x5000, 0x5000, 1, 1, "Tier.HostRecoveryTimeout", 3, .rw, 5000, 100, 60000, .live, .moduleWide⟩,
   ⟨0x5000, 0x5000, 2, 2, "Tier.ReadRetryLimit", 1, .rw, 8, 1, 16, .live, .moduleWide⟩,
   ⟨0x5000, 0x5000, 3, 3, "Tier.NeighbourRecovery", 1, .rw, 1, 0, 1, .live, .moduleWide⟩,
   ⟨0x5000, 0x5000, 4, 4, "Tier.LakeScrubHours", 2, .rw, 24, 1, 168, .live, .moduleWide⟩,
   ⟨0x5000, 0x5000, 5, 5, "Tier.DeviceFailThreshold", 3, .rw, 1000, 10, 1000000, .live, .moduleWide⟩,
   ⟨0x5010, 0x5010, 1, 4, "Tier.LendBytes", 4, .rw, 0, 0, 18446744073709551615, .quiesce, .bySub⟩,
   ⟨0x5011, 0x5011, 1, 8, "Tier.Neighbour", 1, .rw, 255, 0, 255, .live, .moduleWide⟩,
   ⟨0x5020, 0x5020, 1, 1, "Tier.FlashLifeUsed", 1, .ro, 0, 0, 255, .live, .moduleWide⟩,
   ⟨0x5020, 0x5020, 2, 2, "Tier.SpareRemaining", 1, .ro, 100, 0, 255, .live, .moduleWide⟩,
   ⟨0x5020, 0x5020, 3, 3, "Tier.RetiredBlocks", 3, .ro, 0, 0, 4294967295, .live, .moduleWide⟩,
   ⟨0x5020, 0x5020, 4, 4, "Tier.FlashReadOnly", 1, .ro, 0, 0, 255, .live, .moduleWide⟩,
   ⟨0x5020, 0x5020, 5, 5, "Tier.BytesWrittenHost", 4, .ro, 0, 0, 18446744073709551615, .live, .moduleWide⟩,
   ⟨0x5020, 0x5020, 6, 6, "Tier.BytesWrittenFlash", 4, .ro, 0, 0, 18446744073709551615, .live, .moduleWide⟩,
   ⟨0x5020, 0x5020, 7, 7, "Tier.Relocations", 4, .ro, 0, 0, 18446744073709551615, .live, .moduleWide⟩,
   ⟨0x5030, 0x5030, 1, 16, "Tier.FailedDeviceChannels", 3, .ro, 0, 0, 4294967295, .live, .position⟩,
   ⟨0x8050, 0x8053, 1, 1, "Counters.TierPromotes", 4, .ro, 0, 0, 18446744073709551615, .live, .byIndex⟩,
   ⟨0x8050, 0x8053, 2, 2, "Counters.PromotionLateMicros", 4, .ro, 0, 0, 18446744073709551615, .live, .byIndex⟩,
   ⟨0x8050, 0x8053, 3, 3, "Counters.SweepAbsentMicros", 4, .ro, 0, 0, 18446744073709551615, .live, .byIndex⟩,
   ⟨0x8050, 0x8053, 4, 4, "Counters.FlashChannelBusyMicros", 4, .ro, 0, 0, 18446744073709551615, .live, .byIndex⟩,
   ⟨0x8050, 0x8053, 5, 5, "Counters.LandingFullMicros", 4, .ro, 0, 0, 18446744073709551615, .live, .byIndex⟩,
   ⟨0x8050, 0x8053, 6, 6, "Counters.ErrorLadderMicros", 4, .ro, 0, 0, 18446744073709551615, .live, .byIndex⟩,
   ⟨0x8050, 0x8053, 7, 7, "Counters.DeferredEvictions", 4, .ro, 0, 0, 18446744073709551615, .live, .byIndex⟩,
   ⟨0x8050, 0x8053, 8, 8, "Counters.CancelledDemotions", 4, .ro, 0, 0, 18446744073709551615, .live, .byIndex⟩,
   ⟨0x8050, 0x8053, 9, 9, "Counters.LakeCorrected", 4, .ro, 0, 0, 18446744073709551615, .live, .byIndex⟩,
   ⟨0x8050, 0x8053, 10, 10, "Counters.LakeUncorrectable", 4, .ro, 0, 0, 18446744073709551615, .live, .byIndex⟩,
   ⟨0x8050, 0x8053, 11, 11, "Counters.PoisonedObjects", 4, .ro, 0, 0, 18446744073709551615, .live, .byIndex⟩,
   ⟨0x8050, 0x8053, 12, 12, "Counters.ObjectsHeldInLake", 4, .ro, 0, 0, 18446744073709551615, .live, .byIndex⟩]

/-- Watch objects (R208). -/
def objRows3 : List ObjRow :=
  [⟨0x4000, 0x4000, 1, 1, "Watch.ScaleWindow", 1, .rw, 16, 1, 64, .step, .moduleWide⟩,
   ⟨0x4000, 0x4000, 2, 2, "Watch.ScaleMargin", 1, .rw, 1, 0, 4, .step, .moduleWide⟩,
   ⟨0x4000, 0x4000, 3, 3, "Watch.RetryShift", 1, .rw, 4, 1, 16, .step, .moduleWide⟩,
   ⟨0x4000, 0x4000, 4, 4, "Watch.UnorderedLimit", 3, .rw, 0, 0, 4294967295, .step, .moduleWide⟩,
   ⟨0x4000, 0x4000, 5, 5, "Watch.ServeInterval", 3, .rw, 1000, 10, 60000, .live, .moduleWide⟩,
   ⟨0x4010, 0x4010, 1, 1, "Watch.FlushShareLimit", 3, .rw, 50000, 0, 500000, .step, .moduleWide⟩,
   ⟨0x4010, 0x4010, 2, 2, "Watch.FlushRunLimit", 2, .rw, 64, 1, 512, .step, .moduleWide⟩,
   ⟨0x4010, 0x4010, 3, 3, "Watch.ZeroRunLimit", 2, .rw, 64, 1, 512, .step, .moduleWide⟩,
   ⟨0x4010, 0x4010, 4, 4, "Watch.ZeroShareLimit", 3, .rw, 1000000, 0, 1000000, .step, .moduleWide⟩,
   ⟨0x4010, 0x4010, 5, 5, "Watch.SatShareLimit", 3, .rw, 1000, 0, 1000000, .step, .moduleWide⟩,
   ⟨0x4010, 0x4010, 6, 6, "Watch.NonFiniteAction", 1, .rw, 0, 0, 1, .step, .moduleWide⟩,
   ⟨0x4011, 0x4011, 1, 1, "Watch.FlushShareLimit", 3, .rw, 10000, 0, 500000, .step, .moduleWide⟩,
   ⟨0x4011, 0x4011, 2, 2, "Watch.FlushRunLimit", 2, .rw, 64, 1, 512, .step, .moduleWide⟩,
   ⟨0x4011, 0x4011, 3, 3, "Watch.ZeroRunLimit", 2, .rw, 64, 1, 512, .step, .moduleWide⟩,
   ⟨0x4011, 0x4011, 4, 4, "Watch.ZeroShareLimit", 3, .rw, 500000, 0, 1000000, .step, .moduleWide⟩,
   ⟨0x4011, 0x4011, 5, 5, "Watch.SatShareLimit", 3, .rw, 0, 0, 1000000, .step, .moduleWide⟩,
   ⟨0x4011, 0x4011, 6, 6, "Watch.NonFiniteAction", 1, .rw, 0, 0, 1, .step, .moduleWide⟩,
   ⟨0x4012, 0x4012, 1, 1, "Watch.FlushShareLimit", 3, .rw, 20000, 0, 500000, .step, .moduleWide⟩,
   ⟨0x4012, 0x4012, 2, 2, "Watch.FlushRunLimit", 2, .rw, 64, 1, 512, .step, .moduleWide⟩,
   ⟨0x4012, 0x4012, 3, 3, "Watch.ZeroRunLimit", 2, .rw, 64, 1, 512, .step, .moduleWide⟩,
   ⟨0x4012, 0x4012, 4, 4, "Watch.ZeroShareLimit", 3, .rw, 990000, 0, 1000000, .step, .moduleWide⟩,
   ⟨0x4012, 0x4012, 5, 5, "Watch.SatShareLimit", 3, .rw, 0, 0, 1000000, .step, .moduleWide⟩,
   ⟨0x4012, 0x4012, 6, 6, "Watch.NonFiniteAction", 1, .rw, 1, 0, 1, .step, .moduleWide⟩,
   ⟨0x4013, 0x4013, 1, 1, "Watch.FlushShareLimit", 3, .rw, 1000, 0, 500000, .step, .moduleWide⟩,
   ⟨0x4013, 0x4013, 2, 2, "Watch.FlushRunLimit", 2, .rw, 64, 1, 512, .step, .moduleWide⟩,
   ⟨0x4013, 0x4013, 3, 3, "Watch.ZeroRunLimit", 2, .rw, 64, 1, 512, .step, .moduleWide⟩,
   ⟨0x4013, 0x4013, 4, 4, "Watch.ZeroShareLimit", 3, .rw, 1000000, 0, 1000000, .step, .moduleWide⟩,
   ⟨0x4013, 0x4013, 5, 5, "Watch.SatShareLimit", 3, .rw, 0, 0, 1000000, .step, .moduleWide⟩,
   ⟨0x4013, 0x4013, 6, 6, "Watch.NonFiniteAction", 1, .rw, 0, 0, 1, .step, .moduleWide⟩,
   ⟨0x4014, 0x4014, 1, 1, "Watch.FlushShareLimit", 3, .rw, 50000, 0, 500000, .step, .moduleWide⟩,
   ⟨0x4014, 0x4014, 2, 2, "Watch.FlushRunLimit", 2, .rw, 64, 1, 512, .step, .moduleWide⟩,
   ⟨0x4014, 0x4014, 3, 3, "Watch.ZeroRunLimit", 2, .rw, 64, 1, 512, .step, .moduleWide⟩,
   ⟨0x4014, 0x4014, 4, 4, "Watch.ZeroShareLimit", 3, .rw, 1000000, 0, 1000000, .step, .moduleWide⟩,
   ⟨0x4014, 0x4014, 5, 5, "Watch.SatShareLimit", 3, .rw, 1000, 0, 1000000, .step, .moduleWide⟩,
   ⟨0x4014, 0x4014, 6, 6, "Watch.NonFiniteAction", 1, .rw, 0, 0, 1, .step, .moduleWide⟩,
   ⟨0x4030, 0x4030, 1, 4, "Watch.RingBase", 4, .rw, 0, 0, 18446744073709551615, .step, .bySub⟩,
   ⟨0x4031, 0x4031, 1, 4, "Watch.RingRecords", 3, .rw, 0, 0, 1048576, .step, .bySub⟩,
   ⟨0x8060, 0x8063, 1, 1, "Counters.RescaleRetries", 4, .ro, 0, 0, 18446744073709551615, .live, .byIndex⟩,
   ⟨0x8060, 0x8063, 2, 2, "Counters.LayerWidenings", 4, .ro, 0, 0, 18446744073709551615, .live, .byIndex⟩,
   ⟨0x8060, 0x8063, 3, 3, "Counters.A32Repeats", 4, .ro, 0, 0, 18446744073709551615, .live, .byIndex⟩,
   ⟨0x8060, 0x8063, 4, 4, "Counters.UnrecoveredOverflows", 4, .ro, 0, 0, 18446744073709551615, .live, .byIndex⟩,
   ⟨0x8060, 0x8063, 5, 5, "Counters.UnorderedComparisons", 4, .ro, 0, 0, 18446744073709551615, .live, .byIndex⟩,
   ⟨0x8060, 0x8063, 6, 6, "Counters.UnwatchedElements", 4, .ro, 0, 0, 18446744073709551615, .live, .byIndex⟩,
   ⟨0x8060, 0x8063, 7, 7, "Counters.RepeatMicros", 4, .ro, 0, 0, 18446744073709551615, .live, .byIndex⟩,
   ⟨0x8060, 0x8063, 8, 8, "Counters.DiscardedNonFinite", 4, .ro, 0, 0, 18446744073709551615, .live, .byIndex⟩]

/-- Step objects (R236). -/
def objRows4 : List ObjRow :=
  [⟨0x3030, 0x3033, 1, 1, "Part.DigestInterval", 3, .rw, 200, 0, 100000, .step, .byIndex⟩,
   ⟨0x3030, 0x3033, 2, 2, "Part.MirrorFactor", 1, .ro, 1, 0, 255, .live, .byIndex⟩,
   ⟨0x3030, 0x3033, 3, 3, "Part.DigestTimeout", 3, .rw, 2000, 100, 60000, .live, .byIndex⟩,
   ⟨0x3030, 0x3033, 4, 4, "Part.SweepPriority", 1, .rw, 1, 0, 7, .step, .byIndex⟩,
   ⟨0x3030, 0x3033, 5, 5, "Part.Version", 4, .ro, 0, 0, 18446744073709551615, .live, .byIndex⟩,
   ⟨0x3030, 0x3033, 6, 6, "Part.StepState", 1, .ro, 0, 0, 255, .live, .byIndex⟩,
   ⟨0x8070, 0x8073, 1, 1, "Counters.SweptBlocks", 4, .ro, 0, 0, 18446744073709551615, .live, .byIndex⟩,
   ⟨0x8070, 0x8073, 2, 2, "Counters.SweepResumes", 4, .ro, 0, 0, 18446744073709551615, .live, .byIndex⟩,
   ⟨0x8070, 0x8073, 3, 3, "Counters.SparseRowsSwept", 4, .ro, 0, 0, 18446744073709551615, .live, .byIndex⟩,
   ⟨0x8070, 0x8073, 4, 4, "Counters.StepsDiscarded", 4, .ro, 0, 0, 18446744073709551615, .live, .byIndex⟩,
   ⟨0x8070, 0x8073, 5, 5, "Counters.VersionMismatches", 4, .ro, 0, 0, 18446744073709551615, .live, .byIndex⟩,
   ⟨0x8070, 0x8073, 6, 6, "Counters.DigestCompares", 4, .ro, 0, 0, 18446744073709551615, .live, .byIndex⟩,
   ⟨0x8070, 0x8073, 7, 7, "Counters.DigestMismatches", 4, .ro, 0, 0, 18446744073709551615, .live, .byIndex⟩,
   ⟨0x8070, 0x8073, 8, 8, "Counters.TilesRepaired", 4, .ro, 0, 0, 18446744073709551615, .live, .byIndex⟩,
   ⟨0x8070, 0x8073, 9, 9, "Counters.RepairsArbitrated", 4, .ro, 0, 0, 18446744073709551615, .live, .byIndex⟩,
   ⟨0x8070, 0x8073, 10, 10, "Counters.RepairWaitMicros", 4, .ro, 0, 0, 18446744073709551615, .live, .byIndex⟩,
   ⟨0x8070, 0x8073, 11, 11, "Counters.BlocksSkippedPoisoned", 4, .ro, 0, 0, 18446744073709551615, .live, .byIndex⟩,
   ⟨0x8070, 0x8073, 12, 12, "Counters.BlocksSkippedUnreadable", 4, .ro, 0, 0, 18446744073709551615, .live, .byIndex⟩]

/-- Exchange objects (R264). -/
def objRows5 : List ObjRow :=
  [⟨0x6010, 0x6010, 1, 1, "Exch.MulticastLagLimit", 3, .rw, 2000, 100, 100000, .step, .moduleWide⟩,
   ⟨0x6010, 0x6010, 2, 2, "Exch.PeerTimeout", 3, .rw, 500, 10, 60000, .live, .moduleWide⟩,
   ⟨0x6010, 0x6010, 3, 3, "Exch.LakePriority", 1, .rw, 2, 0, 7, .step, .moduleWide⟩,
   ⟨0x6400, 0x67FF, 1, 1, "Exch.GroupMembers", 4, .rw, 0, 0, 18446744073709551615, .quiesce, .moduleWide⟩,
   ⟨0x6400, 0x67FF, 2, 2, "Exch.GroupPartitions", 8, .rw, 0, 64, 64, .quiesce, .moduleWide⟩,
   ⟨0x6400, 0x67FF, 3, 3, "Exch.GroupPartition", 1, .ro, 255, 0, 255, .live, .moduleWide⟩,
   ⟨0x80A0, 0x80A3, 1, 1, "Counters.ExchangeBytesRead", 4, .ro, 0, 0, 18446744073709551615, .live, .byIndex⟩,
   ⟨0x80A0, 0x80A3, 2, 2, "Counters.FabricBytesSent", 4, .ro, 0, 0, 18446744073709551615, .live, .byIndex⟩,
   ⟨0x80A0, 0x80A3, 3, 3, "Counters.CompressMicros", 4, .ro, 0, 0, 18446744073709551615, .live, .byIndex⟩,
   ⟨0x80A0, 0x80A3, 4, 4, "Counters.ReduceMicros", 4, .ro, 0, 0, 18446744073709551615, .live, .byIndex⟩,
   ⟨0x80A0, 0x80A3, 5, 5, "Counters.PeerWaitMicros", 4, .ro, 0, 0, 18446744073709551615, .live, .byIndex⟩,
   ⟨0x80A0, 0x80A3, 6, 6, "Counters.MulticastDetachments", 4, .ro, 0, 0, 18446744073709551615, .live, .byIndex⟩,
   ⟨0x80A0, 0x80A3, 7, 7, "Counters.ResidualSaturatedTiles", 4, .ro, 0, 0, 18446744073709551615, .live, .byIndex⟩,
   ⟨0x80A0, 0x80A3, 8, 8, "Counters.ReduceSaturatedTiles", 4, .ro, 0, 0, 18446744073709551615, .live, .byIndex⟩,
   ⟨0x80A0, 0x80A3, 9, 9, "Counters.ExchangeRecordsEnded", 4, .ro, 0, 0, 18446744073709551615, .live, .byIndex⟩,
   ⟨0x80A0, 0x80A3, 10, 10, "Counters.GatherMicros", 4, .ro, 0, 0, 18446744073709551615, .live, .byIndex⟩,
   ⟨0x8090, 0x8093, 1, 64, "Counters.StageFullMicros", 4, .ro, 0, 0, 18446744073709551615, .live, .byIndex⟩,
   ⟨0x8094, 0x8097, 1, 64, "Counters.StageEmptyMicros", 4, .ro, 0, 0, 18446744073709551615, .live, .byIndex⟩]

/-- Fabric objects (R288). -/
def objRows6 : List ObjRow :=
  [⟨0x6000, 0x6000, 1, 1, "Fabric.ModuleNumber", 1, .rw, 255, 0, 63, .restart, .moduleWide⟩,
   ⟨0x6000, 0x6000, 2, 2, "Fabric.DimExtents", 3, .rw, 65793, 0, 4294967295, .restart, .moduleWide⟩,
   ⟨0x6000, 0x6000, 3, 3, "Fabric.PacketTimeout", 3, .rw, 100, 10, 10000, .live, .moduleWide⟩,
   ⟨0x6000, 0x6000, 4, 4, "Fabric.FlapWindow", 3, .rw, 60, 1, 3600, .live, .moduleWide⟩,
   ⟨0x6020, 0x6023, 1, 1, "Fabric.PeerPartitions", 8, .rw, 0, 64, 64, .quiesce, .byIndex⟩,
   ⟨0x6100, 0x610F, 1, 1, "Port.Enable", 1, .rw, 1, 0, 1, .live, .position⟩,
   ⟨0x6100, 0x610F, 2, 2, "Port.State", 1, .ro, 0, 0, 255, .live, .position⟩,
   ⟨0x6100, 0x610F, 3, 3, "Port.Width", 1, .ro, 0, 0, 255, .live, .position⟩,
   ⟨0x6100, 0x610F, 4, 4, "Port.PeerModule", 1, .ro, 255, 0, 255, .live, .position⟩,
   ⟨0x6100, 0x610F, 5, 5, "Port.PeerPort", 1, .ro, 255, 0, 255, .live, .position⟩,
   ⟨0x6100, 0x610F, 6, 6, "Port.Dimension", 1, .ro, 255, 0, 255, .live, .position⟩,
   ⟨0x6200, 0x6200, 1, 8, "Fabric.VlWeight", 1, .rw, 1, 1, 64, .step, .moduleWide⟩,
   ⟨0x6201, 0x6201, 1, 8, "Fabric.VlBufferFlits", 2, .rw, 128, 16, 1024, .quiesce, .moduleWide⟩,
   ⟨0x8080, 0x8080, 1, 1, "Counters.DuplicatesDropped", 4, .ro, 0, 0, 18446744073709551615, .live, .moduleWide⟩,
   ⟨0x8080, 0x8080, 2, 2, "Counters.PacketsRerouted", 4, .ro, 0, 0, 18446744073709551615, .live, .moduleWide⟩,
   ⟨0x8080, 0x8080, 3, 3, "Counters.StompedPackets", 4, .ro, 0, 0, 18446744073709551615, .live, .moduleWide⟩,
   ⟨0x8080, 0x8080, 4, 4, "Counters.MalformedPackets", 4, .ro, 0, 0, 18446744073709551615, .live, .moduleWide⟩,
   ⟨0x8080, 0x8080, 5, 5, "Counters.HopLimitDrops", 4, .ro, 0, 0, 18446744073709551615, .live, .moduleWide⟩,
   ⟨0x8080, 0x8080, 6, 6, "Counters.PacketTimeouts", 4, .ro, 0, 0, 18446744073709551615, .live, .moduleWide⟩,
   ⟨0x8080, 0x8080, 7, 7, "Counters.LaneViolations", 4, .ro, 0, 0, 18446744073709551615, .live, .moduleWide⟩,
   ⟨0x8100, 0x810F, 1, 1, "Counters.FecCorrected", 4, .ro, 0, 0, 18446744073709551615, .live, .position⟩,
   ⟨0x8100, 0x810F, 2, 2, "Counters.FecUncorrectable", 4, .ro, 0, 0, 18446744073709551615, .live, .position⟩,
   ⟨0x8100, 0x810F, 3, 3, "Counters.FlitCrcErrors", 4, .ro, 0, 0, 18446744073709551615, .live, .position⟩,
   ⟨0x8100, 0x810F, 4, 4, "Counters.FlitReplays", 4, .ro, 0, 0, 18446744073709551615, .live, .position⟩,
   ⟨0x8100, 0x810F, 5, 5, "Counters.LinkDowns", 4, .ro, 0, 0, 18446744073709551615, .live, .position⟩,
   ⟨0x8100, 0x810F, 6, 6, "Counters.WidthDegrades", 4, .ro, 0, 0, 18446744073709551615, .live, .position⟩,
   ⟨0x8100, 0x810F, 7, 7, "Counters.FlitsSent", 4, .ro, 0, 0, 18446744073709551615, .live, .position⟩,
   ⟨0x8100, 0x810F, 8, 8, "Counters.CreditStallMicros", 4, .ro, 0, 0, 18446744073709551615, .live, .position⟩]

/-- Lease and serving objects (R335). -/
def objRows7 : List ObjRow :=
  [⟨0x3040, 0x3043, 1, 1, "Part.LeasePeriod", 3, .rw, 50, 10, 5000, .live, .byIndex⟩,
   ⟨0x3040, 0x3043, 2, 2, "Part.OrphanHold", 3, .rw, 600, 10, 86400, .live, .byIndex⟩,
   ⟨0x3040, 0x3043, 3, 3, "Part.StarveLimit", 2, .rw, 8, 1, 1024, .live, .byIndex⟩,
   ⟨0x3040, 0x3043, 4, 4, "Part.SessionState", 1, .ro, 1, 0, 255, .live, .byIndex⟩,
   ⟨0x3040, 0x3043, 5, 5, "Part.OrphanExportObject", 3, .ro, 0, 0, 4294967295, .live, .byIndex⟩,
   ⟨0x3040, 0x3043, 6, 6, "Part.ReplacedList", 8, .ro, 0, 0, 0, .live, .byIndex⟩,
   ⟨0x3040, 0x3043, 7, 7, "Part.HeldList", 8, .ro, 0, 0, 0, .live, .byIndex⟩,
   ⟨0x80B0, 0x80B3, 1, 1, "Counters.CommandsAccepted", 4, .ro, 0, 0, 18446744073709551615, .live, .byIndex⟩,
   ⟨0x80B0, 0x80B3, 2, 2, "Counters.CommandsRejected", 4, .ro, 0, 0, 18446744073709551615, .live, .byIndex⟩,
   ⟨0x80B0, 0x80B3, 3, 3, "Counters.CommandsAborted", 4, .ro, 0, 0, 18446744073709551615, .live, .byIndex⟩,
   ⟨0x80B0, 0x80B3, 4, 4, "Counters.AbortsAlreadyComplete", 4, .ro, 0, 0, 18446744073709551615, .live, .byIndex⟩,
   ⟨0x80B0, 0x80B3, 5, 5, "Counters.HeldRecordMicros", 4, .ro, 0, 0, 18446744073709551615, .live, .byIndex⟩,
   ⟨0x80B0, 0x80B3, 6, 6, "Counters.AcceptPausedMicros", 4, .ro, 0, 0, 18446744073709551615, .live, .byIndex⟩,
   ⟨0x80B0, 0x80B3, 7, 7, "Counters.DoorbellsRefused", 4, .ro, 0, 0, 18446744073709551615, .live, .byIndex⟩,
   ⟨0x80B0, 0x80B3, 8, 8, "Counters.LeaseExpiries", 4, .ro, 0, 0, 18446744073709551615, .live, .byIndex⟩,
   ⟨0x80B0, 0x80B3, 9, 9, "Counters.TokenRecords", 4, .ro, 0, 0, 18446744073709551615, .live, .byIndex⟩,
   ⟨0x80B0, 0x80B3, 10, 10, "Counters.FeedPasses", 4, .ro, 0, 0, 18446744073709551615, .live, .byIndex⟩,
   ⟨0x80B0, 0x80B3, 11, 11, "Counters.TokenPasses", 4, .ro, 0, 0, 18446744073709551615, .live, .byIndex⟩,
   ⟨0x80B0, 0x80B3, 12, 12, "Counters.StarvedSelections", 4, .ro, 0, 0, 18446744073709551615, .live, .byIndex⟩,
   ⟨0x80B0, 0x80B3, 13, 13, "Counters.RegisterAccessErrors", 4, .ro, 0, 0, 18446744073709551615, .live, .byIndex⟩,
   ⟨0x80B0, 0x80B3, 14, 14, "Counters.FaultQueueFullMicros", 4, .ro, 0, 0, 18446744073709551615, .live, .byIndex⟩,
   ⟨0x80B0, 0x80B3, 15, 15, "Counters.RefusedAttachOrLease", 4, .ro, 0, 0, 18446744073709551615, .live, .byIndex⟩]

/-- Partition and protection objects (R344). -/
def objRows8 : List ObjRow :=
  [⟨0x3000, 0x3000, 1, 4, "Part.HallOwner", 1, .rw2, 0, 0, 255, .quiesce, .moduleWide⟩,
   ⟨0x3000, 0x3000, 5, 8, "Part.StreamContexts", 2, .rw2, 0, 0, 16384, .step, .bySub⟩,
   ⟨0x3000, 0x3000, 9, 12, "Part.VirtualLanes", 1, .rw2, 0, 0, 255, .step, .bySub⟩,
   ⟨0x3000, 0x3000, 13, 16, "Part.NamespaceGB", 3, .rw2, 0, 0, 4294967295, .step, .bySub⟩,
   ⟨0x3000, 0x3000, 17, 20, "Part.Exists", 1, .ro, 0, 0, 255, .live, .bySub⟩,
   ⟨0xA000, 0xA000, 1, 1, "Prot.Sequence", 4, .ro, 0, 0, 18446744073709551615, .live, .moduleWide⟩,
   ⟨0xA000, 0xA000, 2, 2, "Prot.PendingDigest", 8, .ro, 0, 0, 0, .live, .moduleWide⟩,
   ⟨0xA000, 0xA000, 3, 3, "Prot.PendingParty", 1, .ro, 0, 0, 255, .live, .moduleWide⟩,
   ⟨0xA000, 0xA000, 4, 4, "Prot.WindowRemaining", 3, .ro, 0, 0, 4294967295, .live, .moduleWide⟩,
   ⟨0xA000, 0xA000, 5, 5, "Prot.LockoutRemaining", 3, .ro, 0, 0, 4294967295, .live, .moduleWide⟩,
   ⟨0xA010, 0xA010, 1, 1, "Prot.OwnerFunction", 1, .rw2, 0, 0, 255, .live, .moduleWide⟩,
   ⟨0xA010, 0xA010, 2, 2, "Prot.ServicePortEnable", 1, .rw2, 1, 0, 1, .live, .moduleWide⟩,
   ⟨0xA010, 0xA010, 3, 3, "Prot.DebugUnlock", 1, .rw2, 0, 0, 1, .live, .moduleWide⟩,
   ⟨0xA011, 0xA011, 1, 4, "Prot.BootKeySlot", 8, .rw2, 0, 48, 48, .restart, .moduleWide⟩]

/-- Supervision objects (R376). -/
def objRows9 : List ObjRow :=
  [⟨0x2030, 0x2030, 1, 1, "Fault.AutoReset", 1, .rw, 1, 0, 1, .live, .moduleWide⟩,
   ⟨0x2030, 0x2030, 2, 2, "Fault.LostHalls", 1, .ro, 0, 0, 255, .live, .moduleWide⟩,
   ⟨0x2030, 0x2030, 3, 3, "Fault.LostStacks", 2, .ro, 0, 0, 65535, .live, .moduleWide⟩,
   ⟨0x2031, 0x2031, 1, 16, "Fault.LostChannel", 1, .ro, 255, 0, 255, .live, .position⟩,
   ⟨0x3050, 0x3050, 1, 4, "Part.StateIntact", 1, .ro, 1, 0, 255, .live, .bySub⟩,
   ⟨0xB100, 0xB10E, 1, 1, "Fw.ProcessorState", 1, .ro, 0, 0, 255, .live, .position⟩,
   ⟨0xB100, 0xB10E, 2, 2, "Fw.Restarts", 3, .ro, 0, 0, 4294967295, .live, .position⟩,
   ⟨0xB100, 0xB10E, 3, 3, "Fw.LastRestartMicros", 3, .ro, 0, 0, 4294967295, .live, .position⟩,
   ⟨0xF000, 0xF000, 1, 1, "Dump.Count", 1, .ro, 0, 0, 255, .live, .moduleWide⟩,
   ⟨0xF000, 0xF000, 2, 2, "Dump.Latest", 8, .ro, 0, 0, 0, .live, .moduleWide⟩,
   ⟨0xF000, 0xF000, 3, 3, "Dump.Previous", 8, .ro, 0, 0, 0, .live, .moduleWide⟩,
   ⟨0xF000, 0xF000, 4, 4, "Dump.Release", 1, .wo, 0, 1, 1, .live, .moduleWide⟩,
   ⟨0x8010, 0x8010, 1, 1, "Counters.ProcessorRestarts", 4, .ro, 0, 0, 18446744073709551615, .live, .moduleWide⟩,
   ⟨0x8010, 0x8010, 2, 2, "Counters.ComponentRestarts", 4, .ro, 0, 0, 18446744073709551615, .live, .moduleWide⟩,
   ⟨0x8010, 0x8010, 3, 3, "Counters.SupervisorFailovers", 4, .ro, 0, 0, 18446744073709551615, .live, .moduleWide⟩,
   ⟨0x8010, 0x8010, 4, 4, "Counters.CommandsHeld", 4, .ro, 0, 0, 18446744073709551615, .live, .moduleWide⟩,
   ⟨0x8010, 0x8010, 5, 5, "Counters.CommandsStateLost", 4, .ro, 0, 0, 18446744073709551615, .live, .moduleWide⟩,
   ⟨0x8010, 0x8010, 6, 6, "Counters.FirmwareWaitMicros", 4, .ro, 0, 0, 18446744073709551615, .live, .moduleWide⟩,
   ⟨0x8010, 0x8010, 7, 7, "Counters.ResidualTilesReset", 4, .ro, 0, 0, 18446744073709551615, .live, .moduleWide⟩,
   ⟨0x8010, 0x8010, 8, 8, "Counters.ReplicaRecoveries", 4, .ro, 0, 0, 18446744073709551615, .live, .moduleWide⟩,
   ⟨0x8010, 0x8010, 9, 9, "Counters.PowerLosses", 4, .ro, 0, 0, 18446744073709551615, .live, .moduleWide⟩,
   ⟨0x8010, 0x8010, 10, 10, "Counters.FatalErrors", 4, .ro, 0, 0, 18446744073709551615, .live, .moduleWide⟩]

/-- Firmware objects (R422). -/
def objRows10 : List ObjRow :=
  [⟨0xB000, 0xB000, 1, 1, "Fw.ActiveSlot", 1, .ro, 0, 0, 255, .live, .moduleWide⟩,
   ⟨0xB000, 0xB000, 2, 2, "Fw.UpdateMode", 1, .rw, 1, 0, 1, .live, .moduleWide⟩,
   ⟨0xB000, 0xB000, 3, 3, "Fw.Activate", 3, .wo, 0, 0, 4294967295, .live, .moduleWide⟩,
   ⟨0xB000, 0xB000, 4, 4, "Fw.Confirm", 1, .wo, 0, 1, 1, .live, .moduleWide⟩,
   ⟨0xB000, 0xB000, 5, 5, "Fw.ConfirmSeconds", 3, .rw, 600, 60, 86400, .live, .moduleWide⟩,
   ⟨0xB000, 0xB000, 6, 6, "Fw.UpdateState", 1, .ro, 0, 0, 255, .live, .moduleWide⟩,
   ⟨0xB000, 0xB000, 7, 7, "Fw.SecurityFloor", 3, .ro, 0, 0, 4294967295, .live, .moduleWide⟩,
   ⟨0xB000, 0xB000, 8, 8, "Fw.ResetList", 8, .ro, 0, 0, 0, .live, .moduleWide⟩,
   ⟨0xB000, 0xB000, 9, 9, "Fw.LastPauseMicros", 3, .ro, 0, 0, 4294967295, .live, .moduleWide⟩,
   ⟨0xB000, 0xB000, 10, 10, "Fw.Rollback", 1, .wo, 0, 1, 1, .live, .moduleWide⟩,
   ⟨0xB010, 0xB011, 1, 1, "Fw.SlotState", 1, .ro, 0, 0, 255, .live, .moduleWide⟩,
   ⟨0xB010, 0xB011, 2, 2, "Fw.SlotVersion", 3, .ro, 0, 0, 4294967295, .live, .moduleWide⟩,
   ⟨0xB010, 0xB011, 3, 3, "Fw.SlotSecVersion", 3, .ro, 0, 0, 4294967295, .live, .moduleWide⟩]

/-- Power objects (R442). -/
def objRows11 : List ObjRow :=
  [⟨0x7000, 0x7000, 1, 1, "Power.Cap", 3, .rw, 0, 800, 4294967295, .live, .moduleWide⟩,
   ⟨0x7000, 0x7000, 2, 2, "Power.InputMillivolts", 3, .ro, 0, 0, 4294967295, .live, .moduleWide⟩,
   ⟨0x7000, 0x7000, 3, 3, "Power.InputWatts", 3, .ro, 0, 0, 4294967295, .live, .moduleWide⟩,
   ⟨0x7000, 0x7000, 4, 4, "Power.InputMilliamps", 3, .ro, 0, 0, 4294967295, .live, .moduleWide⟩,
   ⟨0x7000, 0x7000, 5, 5, "Power.HoldupTailBytes", 3, .ro, 0, 0, 4294967295, .live, .moduleWide⟩,
   ⟨0x7001, 0x7001, 1, 4, "Power.PartitionCap", 3, .rw, 0, 0, 4294967295, .live, .bySub⟩,
   ⟨0x7002, 0x7002, 1, 4, "Power.PartitionClock", 2, .rw, 2000, 400, 2000, .step, .bySub⟩,
   ⟨0x7010, 0x7010, 1, 1, "Power.ThrottleJunction", 1, .rw, 100, 85, 100, .live, .moduleWide⟩,
   ⟨0x7010, 0x7010, 2, 2, "Power.StackThrottle", 1, .rw, 95, 85, 95, .live, .moduleWide⟩,
   ⟨0x7011, 0x7011, 1, 4, "Thermal.HallMax", 5, .ro, 0, 0, 0, .live, .position⟩,
   ⟨0x7012, 0x7012, 1, 16, "Thermal.Stack", 5, .ro, 0, 0, 0, .live, .position⟩,
   ⟨0x7013, 0x7013, 1, 1, "Thermal.CoolantInlet", 5, .ro, 0, 0, 0, .live, .moduleWide⟩,
   ⟨0x7013, 0x7013, 2, 2, "Thermal.CoolantOutlet", 5, .ro, 0, 0, 0, .live, .moduleWide⟩,
   ⟨0x7020, 0x7020, 1, 1, "Power.Sleep", 1, .rw, 0, 0, 1, .live, .moduleWide⟩,
   ⟨0x7020, 0x7020, 2, 2, "Power.SleepIdleSeconds", 3, .rw, 0, 0, 86400, .live, .moduleWide⟩,
   ⟨0x7020, 0x7020, 3, 3, "Power.SleepFabric", 1, .rw, 1, 0, 1, .live, .moduleWide⟩,
   ⟨0x7020, 0x7020, 4, 4, "Power.State", 1, .ro, 0, 0, 255, .live, .moduleWide⟩,
   ⟨0x7030, 0x7030, 1, 96, "Power.DomainState", 1, .ro, 0, 0, 255, .live, .position⟩,
   ⟨0x7031, 0x7034, 1, 96, "Power.GalleryClock", 2, .ro, 0, 0, 65535, .live, .position⟩,
   ⟨0x7040, 0x7040, 1, 4, "Power.CapLimitedMicros", 4, .ro, 0, 0, 18446744073709551615, .live, .bySub⟩,
   ⟨0x7041, 0x7041, 1, 4, "Power.ThermalLimitedMicros", 4, .ro, 0, 0, 18446744073709551615, .live, .position⟩,
   ⟨0x7042, 0x7042, 1, 1, "Power.SleepEntries", 4, .ro, 0, 0, 18446744073709551615, .live, .moduleWide⟩]

/-- Start-up and test objects (R456). -/
def objRows12 : List ObjRow :=
  [⟨0x2000, 0x2000, 1, 1, "Device.WarmReset", 1, .wo, 0, 1, 1, .live, .moduleWide⟩,
   ⟨0x2000, 0x2000, 2, 2, "Device.LastReset", 1, .ro, 0, 0, 255, .live, .moduleWide⟩,
   ⟨0x2000, 0x2000, 3, 3, "Device.LastStartMicros", 3, .ro, 0, 0, 4294967295, .live, .moduleWide⟩,
   ⟨0x2000, 0x2000, 4, 4, "Device.Starts", 4, .ro, 0, 0, 18446744073709551615, .live, .moduleWide⟩,
   ⟨0xF100, 0xF100, 1, 1, "Diag.JtagIdcode", 3, .ro, 0, 0, 4294967295, .live, .moduleWide⟩,
   ⟨0xF100, 0xF100, 2, 2, "Diag.SelfTestFailures", 3, .ro, 0, 0, 4294967295, .live, .moduleWide⟩,
   ⟨0xF110, 0xF110, 1, 1, "Diag.LakeTestStacks", 2, .rw, 0, 0, 65535, .live, .moduleWide⟩,
   ⟨0xF110, 0xF110, 2, 2, "Diag.LakeTestMode", 1, .rw, 1, 0, 1, .live, .moduleWide⟩,
   ⟨0xF110, 0xF110, 3, 3, "Diag.LakeTestParkModule", 1, .rw, 255, 0, 255, .live, .moduleWide⟩,
   ⟨0xF110, 0xF110, 4, 4, "Diag.LakeTestStart", 1, .wo, 0, 1, 1, .live, .moduleWide⟩,
   ⟨0xF110, 0xF110, 5, 5, "Diag.LakeTestState", 1, .ro, 0, 0, 255, .live, .moduleWide⟩,
   ⟨0xF110, 0xF110, 6, 6, "Diag.LakeTestFailedGranules", 4, .ro, 0, 0, 18446744073709551615, .live, .moduleWide⟩,
   ⟨0xF120, 0xF12F, 1, 1, "Diag.LinkTestStart", 1, .wo, 0, 1, 1, .live, .position⟩,
   ⟨0xF120, 0xF12F, 2, 2, "Diag.LinkTestSeconds", 2, .rw, 10, 1, 3600, .live, .position⟩,
   ⟨0xF120, 0xF12F, 3, 3, "Diag.LinkTestBits", 4, .ro, 0, 0, 18446744073709551615, .live, .position⟩,
   ⟨0xF120, 0xF12F, 4, 4, "Diag.LinkTestBitErrors", 4, .ro, 0, 0, 18446744073709551615, .live, .position⟩]

/-- The whole map. -/
def objMap : List ObjRow :=
  objRows0 ++ objRows1 ++ objRows2 ++ objRows3 ++ objRows4 ++ objRows5 ++ objRows6 ++ objRows7 ++ objRows8 ++ objRows9 ++ objRows10 ++ objRows11 ++ objRows12

/-- A key of the dictionary tables: index * 256 + subindex. -/
def okey (index sub : Nat) : Nat := index * 256 + sub

/-- The row of a key, if the dictionary has the object (R378). -/
def objRow (key : Nat) : Option ObjRow :=
  objMap.find? fun r =>
    decide (r.ilo ≤ key / 256 ∧ key / 256 ≤ r.ihi ∧ r.slo ≤ key % 256 ∧ key % 256 ≤ r.shi)

/-- The length in bytes of a fixed-length type (R378). -/
def typeLen : Nat → Option Nat
  | 1 => some 1
  | 2 => some 2
  | 3 => some 4
  | 4 => some 8
  | 5 => some 4
  | 6 => some 4
  | _ => none

end Sys2Proof.Machine
end

