-- ==== Sys2Proof/Machine/Variant.lean ====
section
/-! DEFINITION. Chapter 00: what a part number fixes (R2 to R7). -/

namespace Sys2Proof.Machine

namespace PartNo

/-- Stacks per hall (Figures by stack count). -/
def stacksPerHall : PartNo → Nat
  | m08x2f16 | m08x2f32 | m08x4f32 => 2
  | m12x2f16 | m12x2f32 | m12x4f32 | m12x4f64 => 3
  | m16x4f32 | m16x4f64 => 4

/-- Populated I/O dies. -/
def ioDies : PartNo → Nat
  | m08x2f16 | m08x2f32 | m12x2f16 | m12x2f32 => 2
  | _ => 4

/-- Usable flash in GB (R11: decimal units). -/
def flashGB : PartNo → Nat
  | m08x2f16 | m12x2f16 => 16000
  | m12x4f64 | m16x4f64 => 64000
  | _ => 32000

/-- Sustained power rating in watts (R5). -/
def rating : PartNo → Nat
  | m08x2f16 | m08x2f32 => 1800
  | m08x4f32 => 2000
  | m12x2f16 | m12x2f32 => 1950
  | m12x4f32 => 2150
  | m12x4f64 => 2200
  | m16x4f32 => 2300
  | m16x4f64 => 2400

/-- The part number's text (R2). -/
def text : PartNo → String
  | m08x2f16 => "KSN1-M08-X2-F16"
  | m08x2f32 => "KSN1-M08-X2-F32"
  | m08x4f32 => "KSN1-M08-X4-F32"
  | m12x2f16 => "KSN1-M12-X2-F16"
  | m12x2f32 => "KSN1-M12-X2-F32"
  | m12x4f32 => "KSN1-M12-X4-F32"
  | m12x4f64 => "KSN1-M12-X4-F64"
  | m16x4f32 => "KSN1-M16-X4-F32"
  | m16x4f64 => "KSN1-M16-X4-F64"

/-- Whether stack position k is populated (R7). -/
def hasStack (v : PartNo) (k : Nat) : Bool := decide (k < 16 ∧ k % 4 < v.stacksPerHall)

/-- Whether I/O-die position d is populated (R7). -/
def hasDie (v : PartNo) (d : Nat) : Bool := decide (d < v.ioDies)

/-- The populated stack positions, ascending. -/
def stackList (v : PartNo) : List Nat := (List.range 16).filter v.hasStack

/-- Fabric ports: four a populated I/O die. -/
def ports (v : PartNo) : Nat := 4 * v.ioDies

/-- Firmware processors (R18, R376). -/
def processors (v : PartNo) : Nat := if v.ioDies = 4 then 15 else 11

end PartNo

/-- Cores of a hall, and the position of a global core number (R6). -/
def coresPerHall : Nat := 1536
def hallOf (core : Nat) : Nat := core / coresPerHall
def galleryOf (core : Nat) : Nat := core / 16
def localOf (core : Nat) : Nat := core % coresPerHall

end Sys2Proof.Machine
end

