-- ==== Sys2Proof/Machine/Ops.lean ====
section
/-! DEFINITION. The named operations that every family uses: cores, threads, partitions, segments, dictionary values in
force, counters, events, MSI-X messages, marks and halts. -/

namespace Sys2Proof.Machine

/-- The outcome of a command. -/
abbrev Res := Host.Outcome State Fault Refusal

/-! ## Places of the state -/

def State.core (s : State) (c : Nat) : Core := s.cores.get c {}

def State.setCore (s : State) (c : Nat) (k : Core) : State := { s with cores := s.cores.put c k {} }

def State.onCore (s : State) (c : Nat) (f : Core → Core) : State := s.setCore c (f (s.core c))

def Core.thread (k : Core) (t : Nat) : Thread := k.threads.get t {}

def Core.setThread (k : Core) (t : Nat) (h : Thread) : Core := { k with threads := k.threads.put t h {} }

def State.onThread (s : State) (c t : Nat) (f : Thread → Thread) : State :=
  s.onCore c fun k => k.setThread t (f (k.thread t))

def Core.tile (k : Core) (r : Nat) : TileReg := k.tiles.get r {}

def Core.setTile (k : Core) (r : Nat) (x : TileReg) : Core := { k with tiles := k.tiles.put r x {} }

def Core.acc (k : Core) (a : Nat) : Acc := k.accs.get a {}

def Core.setAcc (k : Core) (a : Nat) (x : Acc) : Core := { k with accs := k.accs.put a x {} }

def Core.spring (k : Core) (j : Nat) : List Desc := k.springs.get j []

def Core.setSpring (k : Core) (j : Nat) (q : List Desc) : Core := { k with springs := k.springs.put j q [] }

/-- A scalar register (R85): registers that nothing has written read 0. -/
def Thread.reg (h : Thread) (n : Nat) : U64 := h.s.get n 0

def Thread.setReg (h : Thread) (n : Nat) (v : U64) : Thread := { h with s := h.s.put n v 0 }

/-- A predicate (R85): p0 reads 1, and a write to it is ignored. -/
def Thread.pred (h : Thread) (n : Nat) : Bool := n = 0 || h.preds.getLsbD n

def Thread.setPred (h : Thread) (n : Nat) (b : Bool) : Thread :=
  if n = 0 then h
  else { h with preds := (h.preds &&& ~~~(1#8 <<< n)) ||| ((if b then 1#8 else 0#8) <<< n) }

def State.partn (s : State) (p : Nat) : Partition := s.parts.get p {}

def State.setPartn (s : State) (p : Nat) (x : Partition) : State := { s with parts := s.parts.put p x {} }

def State.onPartn (s : State) (p : Nat) (f : Partition → Partition) : State := s.setPartn p (f (s.partn p))

/-- The live segment that the command q of stream w of a partition runs. -/
def Partition.segment (x : Partition) (w q : Nat) : Option Segment :=
  x.segments.find? fun g => g.s = w && g.q = q

def State.segment (s : State) (p w q : Nat) : Option Segment := (s.partn p).segment w q

def State.onSegment (s : State) (p w q : Nat) (f : Segment → Segment) : State :=
  s.onPartn p fun x => { x with segments := x.segments.map fun g => if g.s = w && g.q = q then f g else g }

/-- The segment that holds a core. -/
def State.segOf (s : State) (c : Nat) : Option Segment :=
  match (s.core c).seg with
  | none => none
  | some (p, w, q) => s.segment p w q

/-! ## Dictionary values in force -/

/-- The default of an object (R378), where the part number decides it too. -/
def objDefault (v : PartNo) (key : Nat) : List Byte :=
  match objRow key with
  | none => []
  | some r =>
    match typeLen r.type with
    | some n =>
      let d := if key = okey 0x3000 5 then 16384 else if key = okey 0x3000 9 then 255
        else if key = okey 0x3000 13 then v.flashGB else if key = okey 0x7000 1 then v.rating else r.dflt
      leBytes n d
    | none =>
      if r.ilo = 0x6020 || r.ilo = 0x6400 then List.replicate 64 0xFF
      else if r.ilo = 0xA011 then List.replicate 48 0 else []

/-- The value of a writable object that partition p uses (R401): its own while an apply is under way, else the module's. -/
def State.value (s : State) (p key : Nat) : List Byte :=
  match s.mgmt.inForce.find (p * 2 ^ 24 + key) with
  | some v => v
  | none =>
    match s.mgmt.values.find key with
    | some v => v
    | none => objDefault s.part key

/-- The same as a number. -/
def State.setting (s : State) (p index sub : Nat) : Nat := leNat (s.value p (okey index sub))

/-- The existing partitions, ascending. -/
def State.existing (s : State) : List Nat := (List.range 4).filter fun p => (s.partn p).st ≠ .none

/-- The partition whose view of a module-wide value is the value in force: partition 0, or the lowest that exists (R403). -/
def State.viewPart (s : State) : Nat := s.existing.head?.getD 0

/-- A module-wide setting. -/
def State.moduleSetting (s : State) (index sub : Nat) : Nat := s.setting s.viewPart index sub

/-- The owner of a hall (R335), 255 for none. -/
def State.hallOwner (s : State) (h : Nat) : Nat := s.moduleSetting 0x3000 (1 + h)

/-- The halls a partition holds, ascending; a lost hall is out of it (R364). -/
def State.halls (s : State) (p : Nat) : List Nat :=
  (List.range 4).filter fun h => s.hallOwner h = p && !s.sup.lostHalls.contains h

/-- The working stacks of a hall, ascending (R7, R364). -/
def State.stacksOf (s : State) (h : Nat) : List Nat :=
  s.part.stackList.filter fun k => k / 4 = h && !s.sup.lostStacks.contains k

/-- The working stacks of a partition. -/
def State.stacksOfPart (s : State) (p : Nat) : List Nat := (s.halls p).flatMap s.stacksOf

/-! ## Counters, events, messages -/

def State.bump (s : State) (index sub n : Nat) : State :=
  { s with counters := s.counters.put (okey index sub) (s.counters.get (okey index sub) 0 + n) 0 }

/-- A counter of partition p, named by partition 0's object. -/
def State.bumpP (s : State) (p index sub n : Nat) : State :=
  s.onPartn p fun x => { x with counters := x.counters.put (okey index sub) (x.counters.get (okey index sub) 0 + n) 0 }

/-- A wait on a mark of a partition is over: it counts for each stage queue whose FREE or FULL mark that is (R263). -/
def State.countStageWait (s : State) (p m since : Nat) : State :=
  (s.partn p).stageQueues.zipIdx.foldl (fun s e =>
    let s := if e.1.decl.producer && e.1.decl.free = m then s.bumpP p 0x8090 (e.2 + 1) (s.now - since) else s
    if e.1.decl.consumer && e.1.decl.full = m then s.bumpP p 0x8094 (e.2 + 1) (s.now - since) else s) s

/-- A thread's MWAIT, if it is in one, is over (R263). -/
def State.endMwait (s : State) (c t : Nat) : State :=
  match (s.core c).seg, ((s.core c).thread t).st with
  | some (p, _, _), .waiting (.mark m _ since _) => s.countStageWait p m since
  | _, _ => s

/-- So are those of all threads of these cores, which stop. -/
def State.endMwaits (s : State) (cores : List Nat) : State :=
  cores.foldl (fun s c => (List.range 8).foldl (fun s t => s.endMwait c t) s) s

/-- The reset value of byte i of an MSI-X table: every vector's mask bit is 1 (R292, R327; the layout is that of the PCI Express
specification, PRESUMED, assumption log 133). -/
def msixReset (i : Nat) : Byte := if i % 16 = 12 then 1 else 0

/-- Byte i of a function's MSI-X table, which holds what differs from its reset value. -/
def FnRegs.msixByte (r : FnRegs) (i : Nat) : Byte := r.msixTable.get i 0 ^^^ msixReset i

/-- A vector is masked. -/
def FnRegs.masked (r : FnRegs) (v : Nat) : Bool := (r.msixByte (16 * v + 12)).getLsbD 0

/-- The message of a masked vector is pending. -/
def FnRegs.pend (r : FnRegs) (v : Nat) : FnRegs :=
  if r.masked v && !r.msixPending.contains v then { r with msixPending := r.msixPending ++ [v] } else r

/-- Send an MSI-X message of function p; that of a masked vector waits in the pending-bit array (R292). -/
def State.signal (s : State) (p vector : Nat) : State :=
  { s with
    parts := (s.onPartn p fun x => { x with regs := x.regs.pend vector }).parts
    msix := if (s.partn p).regs.masked vector then s.msix else s.msix ++ [(p, vector)] }

/-- Unsent records go to a subscribed session; skipped ones are counted (R391). -/
def State.deliver (s : State) (n : Nat) : State :=
  let x := s.mgmt.sessions.get n {}
  if !x.subscribed then s
  else
    let r := Session.drain s.log x 20
    let s := { s with mgmt := { s.mgmt with sessions := s.mgmt.sessions.put n r.1 {} } }
    if r.2 = 0 then s else s.bump 0x8020 8 r.2

/-- Raise an event (R389, R390): the log keeps the 65,536 most recent. An event of a partition signals its EVT_VECTOR where
that is enabled (R294), and subscribers are sent it (R391). -/
def State.raise (s : State) (code : Nat) (p pos : Nat) (args : List Nat) : State :=
  let e : Event := { seq := s.nextEvent, time := s.now, code := BitVec.ofNat 16 code, part := p, pos := pos, args := args }
  let log := if 65536 ≤ s.log.length then s.log.drop 1 else s.log
  let s := { s with log := log ++ [e], nextEvent := s.nextEvent + 1 }
  let s := s.mgmt.sessions.foldl (fun s e => s.deliver e.1) s
  let v := (s.partn p).regs.evtVector.toNat
  if p < 4 && bit v 63 then s.signal p (v % 2048) else s

/-- An event of a partition that names no position, and one of the module. -/
def State.raiseP (s : State) (code p : Nat) (args : List Nat) : State := s.raise code p 255 args
def State.raiseM (s : State) (code pos : Nat) (args : List Nat) : State := s.raise code 15 pos args

/-- Take a free value. -/
def State.fresh (s : State) : State := { s with freeUsed := s.freeUsed + 1 }

/-! ## Marks (R132 to R136) -/

/-- A mark has reached a target (R133). -/
def markReached (m v : U32) : Bool := decide ((m - v).toNat < 2 ^ 31)

def State.mark (s : State) (p m : Nat) : U32 := (s.partn p).marks.get m 0

/-- The mark and target of a MARK_WAIT (R307), and the trigger of an exchange record (R240). -/
def cmdMark (raw : U512) : Nat := bits raw.toNat 447 432
def cmdMarkValue (raw : U512) : U32 := BitVec.ofNat 32 (bits raw.toNat 431 400)

/-- A waiting MWAIT or a running MARK_WAIT sees one value of its mark (R136). -/
def Thread.seeMark (m : Nat) (v : U32) (h : Thread) : Thread :=
  match h.st with
  | .waiting (.mark n target t r) =>
    if n = m then { h with st := .waiting (.mark n target t (r || markReached v target)) } else h
  | _ => h

def Cmd.seeMark (m : Nat) (v : U32) (k : Cmd) : Cmd :=
  if k.phase = .running && k.raw.toNat / 2 ^ 504 = 4 && cmdMark k.raw = m && markReached v (cmdMarkValue k.raw)
  then { k with satisfied := true } else k

/-- When a command of a partition started. -/
def Partition.startOf (x : Partition) (w q : Nat) : Nat :=
  (((x.streams.get w {}).journal.find? fun k => k.seq = q).map fun k => k.started).getD 0

/-- The spans of time in which PROMOTING fills advance a mark (R178): a fill that runs has one without an end, from its start or from
the PROMOTE that joined it; `late` keeps those that ended while a wait on the mark went on. -/
def Partition.fillSpans (x : Partition) (m : Nat) : List (Nat × Option Nat) :=
  (x.objects.flatMap fun e => match e.2.st, e.2.fill with
    | .promoting, some f => f.waiters.filterMap fun r => match r with
      | .promote w q _ (some n) _ => if n = m then some (Max.max f.since (x.startOf w q), none) else none
      | _ => none
    | _, _ => []) ++
  (x.late.get m []).map fun e => (e.1, some e.2)

/-- When a wait that began at t became one for a promotion: the first moment at which a fill was advancing its mark. -/
def lateFrom (spans : List (Nat × Option Nat)) (t : Nat) : Option Nat :=
  (spans.filterMap fun e => match e.2 with
    | some u => if t ≤ u then some (Max.max t e.1) else none
    | none => some (Max.max t e.1)).min?

/-- The waits on a mark that have not been reached: target and start. -/
def State.markWaits (s : State) (p m : Nat) : List (U32 × Nat) :=
  ((s.partn p).streams.flatMap fun e => e.2.journal.filterMap fun k =>
    if k.phase = .running && k.raw.toNat / 2 ^ 504 = 4 && !k.satisfied && cmdMark k.raw = m
    then some (cmdMarkValue k.raw, k.started) else none) ++
  s.cores.flatMap fun e => match e.2.seg with
    | some (q, _, _) =>
      if q ≠ p then [] else e.2.threads.filterMap fun h => match h.2.st with
        | .waiting (.mark n target t false) => if n = m then some (target, t) else none
        | _ => none
    | none => []

/-- Microseconds of promotion-late stalls that a value of a mark ends (R178). -/
def State.lateMicros (s : State) (p m : Nat) (v : U32) : Nat :=
  ((s.markWaits p m).map fun e =>
    if markReached v e.1 then ((lateFrom ((s.partn p).fillSpans m) e.2).map fun a => s.now - a).getD 0 else 0).sum

/-- Every waiter of the partition evaluates a value of a mark, once (R136). -/
def State.putMark (s : State) (p m : Nat) (v : U32) : State :=
  let s := s.onPartn p fun x => { x with
    marks := x.marks.put m v 0
    streams := x.streams.map fun e => (e.1, { e.2 with journal := e.2.journal.map (Cmd.seeMark m v) })
    xruns := x.xruns.map fun r =>
      if bits r.raw.toNat 616 601 = m && markReached v (BitVec.ofNat 32 (bits r.raw.toNat 600 569))
      then { r with triggered := true } else r }
  { s with cores := s.cores.map fun e =>
      match e.2.seg with
      | some (p', _, _) =>
        if p' = p then (e.1, { e.2 with threads := e.2.threads.map fun h => (h.1, h.2.seeMark m v) }) else e
      | none => e }

/-- The mark unit applies a value (R136); waits for a promotion that it ends are counted (R178). -/
def State.applyMark (s : State) (p m : Nat) (v : U32) : State :=
  let late := s.lateMicros p m v
  let s := s.putMark p m v
  let s := if late = 0 then s else s.bumpP p 0x8050 2 late
  if (s.markWaits p m).isEmpty && (s.partn p).late.get m [] ≠ [] then
    s.onPartn p fun x => { x with late := x.late.put m [] [] }
  else s

/-- An atomic addition of 1 to a mark (R132). -/
def State.markAdd (s : State) (p m : Nat) : State := s.applyMark p m (s.mark p m + 1)

/-! ## Halts (R109 to R111) -/

/-- The halt codes. -/
def haltIllegal : Nat := 0x01
def haltReserved : Nat := 0x02
def haltPondRange : Nat := 0x03
def haltAlign : Nat := 0x04
def haltPcRange : Nat := 0x05
def haltLoop : Nat := 0x06
def haltTileCheck : Nat := 0x07
def haltVecTag : Nat := 0x08
def haltPondEcc : Nat := 0x09
def haltMarkRange : Nat := 0x0A
def haltSpringDesc : Nat := 0x0B
def haltPairing : Nat := 0x10
def haltMmaReg : Nat := 0x11
def haltMmaKey : Nat := 0x12
def haltMmaMode : Nat := 0x13
def haltMmaOwner : Nat := 0x14
def haltEpiCode : Nat := 0x15
def haltEpiHalf : Nat := 0x16
def haltAccParity : Nat := 0x17

/-- A halt leaves the other stop reasons of an abort or a hard loss in force. -/
def StopKind.withHalt : Option StopKind → Option StopKind
  | some .abort => some .abort
  | some .hard => some .hard
  | _ => some .halt

/-- Halt a thread with a record (R109, R111); the segment of its core stops (R110) and keeps the first record. A thread that
is HALTED already keeps its record. -/
def State.halt (s : State) (c t pc : Nat) (insn : U32) (code detail : Nat) : State :=
  let rec' : HaltRecord := { core := c, thread := t, pc := pc, insn := insn, code := BitVec.ofNat 8 code,
                             detail := BitVec.ofNat 48 detail }
  let before := ((s.core c).thread t).st = .halted
  let s' := if before then s else s.onThread c t fun h => { h with st := .halted, halt := some rec' }
  match (s.core c).seg with
  | none => s'
  | some (p, w, q) =>
    s'.onSegment p w q fun g => { g with
      halted := if before then g.halted else g.halted + 1
      firstHalt := if g.firstHalt.isNone then some rec' else g.firstHalt
      stopAt := if g.stop.isNone then s.now else g.stopAt
      stop := StopKind.withHalt g.stop }

/-! ## Pond access -/

def pondSize : Nat := 393216
def frameBytes : Nat := 4672

/-- Whether n bytes at an address lie in the pond (R117). -/
def inPond (a n : Nat) : Bool := decide (a + n ≤ pondSize)

/-- Whether n bytes of a core's pond hold an uncorrectable word (R118). -/
def Core.pondBadAt (k : Core) (a n : Nat) : Bool := k.pondBad.any fun w => decide (w * 8 < a + n ∧ a < w * 8 + 8)

/-- Write pond bytes; a word written whole has no error any more. -/
def Core.pondWrite (k : Core) (a : Nat) (bs : List Byte) : Core :=
  let stands := fun (w : Nat) => !decide (a ≤ w * 8 ∧ w * 8 + 8 ≤ a + bs.length)
  { k with pond := k.pond.putBytes a bs, pondBad := k.pondBad.filter stands, pondSingle := k.pondSingle.filter stands }

/-- The partition that holds the hall of a core. -/
def State.coreOwner (s : State) (c : Nat) : Nat := s.hallOwner (hallOf c)

/-- A read of n pond bytes meets single-bit errors: they are corrected, written back and counted (R118). -/
def State.correctPond (s : State) (c a n : Nat) : State :=
  let met := fun (w : Nat) => decide (w * 8 < a + n ∧ a < w * 8 + 8)
  let hits := ((s.core c).pondSingle.filter met).length
  if hits = 0 then s
  else (s.onCore c fun k => { k with pondSingle := k.pondSingle.filter fun w => !met w }).bumpP (s.coreOwner c) 0x8040 6 hits

/-- The same for a list of byte ranges. -/
def State.correctPonds (s : State) (c : Nat) (l : List (Nat × Nat)) : State := l.foldl (fun s e => s.correctPond c e.1 e.2) s

/-- A gallery's clock in MHz (Power.GalleryClock). -/
def State.galleryClock (s : State) (h g : Nat) : Nat := s.power.clocks.get (96 * h + g) 2000

/-- The cycles that a gallery has counted so far: at the clocks it had, and since its last change at its clock (R87). -/
def State.galleryCycles (s : State) (h g : Nat) : Nat :=
  let e := s.power.cycles.get (96 * h + g) (0, 0)
  e.1 + (s.now - e.2) * s.galleryClock h g

/-- Give a gallery a clock; the cycles of the clock before are counted. -/
def State.setClock (s : State) (h g mhz : Nat) : State :=
  { s with power := { s.power with
      cycles := s.power.cycles.put (96 * h + g) (s.galleryCycles h g, s.now) (0, 0)
      clocks := s.power.clocks.put (96 * h + g) mhz 2000 } }

/-- The clock and the cycles of a core's gallery. -/
def State.coreClock (s : State) (c : Nat) : Nat := s.galleryClock (hallOf c) (localOf c / 16)
def State.coreCycles (s : State) (c : Nat) : Nat := s.galleryCycles (hallOf c) (localOf c / 16)

/-- Component c of processor n is in service: neither of the two is being restarted (R352, R354). Components are numbered as
Firmware components lists them. -/
def State.compUp (s : State) (n c : Nat) : Bool :=
  let x := s.sup.procs.get n {}
  x.st = .running && !x.comps.any fun e => e.1 = c

/-- The components of a Hall Scheduler: launch, request batching, watch evaluation, hall faults (R350). -/
def compLaunch : Nat := 0
def compBatching : Nat := 1
def compWatch : Nat := 2
def compHallFaults : Nat := 3

/-- The components of a Tier Manager: translation layer, tier objects, recovery ladder (R350). -/
def compTranslation : Nat := 0
def compObjects : Nat := 1
def compRecovery : Nat := 2

/-- The training and trees components of a Link Manager, and the components of the Power Manager: clocks, power capping, thermal (R350). -/
def compTraining : Nat := 0
def compTrees : Nat := 2
def compClocks : Nat := 0
def compCapping : Nat := 1
def compThermal : Nat := 2

/-- A component of the Hall Scheduler of each hall of a list is in service. -/
def State.hallsServe (s : State) (hs : List Nat) (c : Nat) : Bool := hs.all fun h => s.compUp (2 + h) c

/-- The trees component of every Link Manager is in service: new exchange groups take effect (R354). -/
def State.treesServe (s : State) : Bool := (List.range s.part.ioDies).all fun d => s.compUp (10 + d) compTrees

/-- Whether the module does work: it is RUNNING and awake. -/
def State.working (s : State) : Bool := s.phase = .running && s.power.sleep = .awake && !s.power.powerFail

/-- The wake sequence begins (R440). -/
def State.startWake (s : State) : State :=
  if s.power.sleep = .asleep then { s with power := { s.power with sleep := .waking } } else s

/-- All domains of a hall are on (R426). -/
def State.hallOn (s : State) (h : Nat) : Bool := (List.range 16).all fun g => (s.power.domains.get (16 * h + g) {}).st = .on

/-- A component of the Tier Manager that owns an object is in service (R165). -/
def State.tierServes (s : State) (obj c : Nat) : Bool := s.working && s.compUp (6 + obj % s.part.ioDies) c

/-- The component that serves the requests on an object. -/
def State.tierServing (s : State) (obj : Nat) : Bool := s.tierServes obj compObjects

/-- A power domain is on (R425, R426). -/
def State.domOn (s : State) (d : Nat) : Bool := (s.power.domains.get d {}).st = .on

/-- The flash channels of the die that owns an object work (R426). -/
def State.flashOn (s : State) (obj : Nat) : Bool := s.domOn (81 + 3 * (obj % s.part.ioDies))

/-- The watch evaluation of a partition's halls is in service (R354). -/
def State.hallsServing (s : State) (p : Nat) : Bool := s.hallsServe (s.halls p) compWatch

end Sys2Proof.Machine
end

