-- ==== Sys2Proof/Machine/Mmu.lean ====
section
/-! DEFINITION. The MMU, the lake by physical address and the lend region (R150 to R160, R183, R274). -/

namespace Sys2Proof.Machine

/-! ## The lake by physical address (R156 to R160) -/

/-- Stack position and offset of a lake physical address (R156). -/
def lakeStack (pa : Nat) : Nat := pa / 2 ^ 37
def lakeOffset (pa : Nat) : Nat := pa % 2 ^ 37
def lakeChannel (pa : Nat) : Nat := bits pa 12 8

/-- The first reserved offset of a stack (R157), and the end of the spare area of a lost channel (R365). -/
def reservedFrom : Nat := 0x1FF0000000
def spareEnd : Nat := 0x100000000

/-- The first usable offset of a stack: the spare area is taken once a channel is lost (R365). -/
def State.stackFloor (s : State) (k : Nat) : Nat := if (s.sup.lostChannels.find k).isSome then spareEnd else 0

/-- Addressable bytes of a stack (R157, R365). -/
def State.stackBytes (s : State) (k : Nat) : Nat := reservedFrom - s.stackFloor k

/-- The addressable lake of a partition, in GiB rounded down (R183). -/
def State.lakeGiB (s : State) (p : Nat) : Nat := ((s.stacksOfPart p).map s.stackBytes).sum / 2 ^ 30

/-- The lend region (R183) as (stack, first lent offset), from the highest-numbered stack down. -/
def lendFrom (s : State) : List Nat → Nat → List (Nat × Nat)
  | [], _ => []
  | k :: r, n =>
    if n = 0 then [] else (k, reservedFrom - Min.min n (s.stackBytes k)) :: lendFrom s r (n - s.stackBytes k)

def State.lendRegion (s : State) (p : Nat) : List (Nat × Nat) :=
  lendFrom s (sortBy (fun a b => decide (b ≤ a)) (s.stacksOfPart p)) (s.setting p 0x5010 (p + 1) * 2 ^ 30)

/-- A lake byte that the translations of partition p may name (R153, R157, R183, R365). -/
def State.lakeOwned (s : State) (p pa : Nat) : Bool :=
  let k := lakeStack pa
  let o := lakeOffset pa
  (s.stacksOfPart p).contains k && decide (s.stackFloor k ≤ o ∧ o < reservedFrom) &&
    !(s.lendRegion p).any fun e => e.1 = k && decide (e.2 ≤ o)

/-- A granule of a lost channel, or of the spare area that a lost channel took, that has not been written whole since (R365). -/
def State.lostGranule (s : State) (g : Nat) : Bool :=
  match s.sup.lostChannels.find (lakeStack (g * 64)) with
  | none => false
  | some c => !s.lake.zeroed.contains (lakeStack (g * 64)) && (lakeChannel (g * 64) = c || decide (lakeOffset (g * 64) < spareEnd)) && !s.lake.healed.contains g

/-- The granules of n bytes. -/
def granules (pa n : Nat) : List Nat := (List.range ((pa + n + 63) / 64 - pa / 64)).map fun i => pa / 64 + i

/-- The first uncorrectable granule of n lake bytes, as a byte address (R160). -/
def State.lakeBad (s : State) (pa n : Nat) : Option Nat :=
  ((granules pa n).find? fun g => s.lake.poison.contains g || s.lostGranule g).map (· * 64)

/-- An uncorrectable lake read (R160): event 0x3102 with stack and channel, and the counter of the partition. -/
def State.lakeUncorrectable (s : State) (p pa : Nat) : State :=
  (s.bumpP p 0x8050 10 1).raise 0x3102 p (lakeStack pa) [lakeChannel pa]

/-- Lake bytes. -/
def State.lakeBytes (s : State) (pa n : Nat) : List Byte := s.lake.mem.bytes pa n

/-- Write lake bytes: a granule written whole is no longer poisoned (R160). -/
def State.lakeWrite (s : State) (pa : Nat) (bs : List Byte) : State :=
  { s with lake := { s.lake with
      mem := s.lake.mem.putBytes pa bs
      healed := s.lake.healed ++ (granules pa bs.length).filter fun g =>
        decide (pa ≤ g * 64 ∧ g * 64 + 64 ≤ pa + bs.length) && s.lostGranule g
      poison := s.lake.poison.filter fun g => !decide (pa ≤ g * 64 ∧ g * 64 + 64 ≤ pa + bs.length) } }

/-- Poison granules, kept without repeats. -/
def State.poisonGranules (s : State) (gs : List Nat) : State :=
  { s with lake := { s.lake with poison := s.lake.poison ++ gs.filter fun g => !s.lake.poison.contains g } }

/-! ## Translation (R150 to R154) -/

/-- Where a device-virtual byte lies. -/
inductive Target where
  | lake (pa : Nat)
  | host (addr : Nat)
  | peer (module vaddr : Nat)
deriving DecidableEq, Repr

/-- A translation fault: KIND (R153), first faulting address, and the lake address of an entry that read uncorrectable. -/
structure XFault where
  kind : Nat
  addr : Nat
  ecc : Option Nat := none
deriving DecidableEq, Repr

/-- What an access asks for: write or read, and whether only host targets are allowed (SUNIT, DUNIT). -/
structure Ask where
  write : Bool := false
  unit : Bool := false
deriving DecidableEq, Repr

/-- The levels of the table: low index bit, index width, and the SIZE code of a leaf there (Translation levels). -/
def xlevels : List (Nat × Nat × Option Nat) :=
  [(39, 9, none), (30, 9, some 3), (21, 9, some 2), (16, 5, some 1), (12, 4, some 0)]

/-- A leaf entry gives the target of va, or a fault (R152, R153). `lo` is the low bit of the page. -/
def State.leaf (s : State) (p va : Nat) (a : Ask) (lo e : Nat) : Except XFault Target :=
  let base := fld (bits e 51 12) 12
  let tgt := bits e 60 58
  let bad := fun k => Except.error { kind := k, addr := va }
  if base % 2 ^ lo ≠ 0 then bad 1
  else if tgt = 1 && bits e 51 41 ≠ 0 then bad 1
  else if tgt = 3 && bits e 51 48 ≠ 0 then bad 1
  else if a.write && !bit e 56 then bad 2
  else if !a.write && !bit e 57 then bad 3
  else if a.unit && tgt ≠ 2 then bad 3
  else
    let x := base + va % 2 ^ lo
    if tgt = 1 then (if s.lakeOwned p x then .ok (.lake x) else bad 3)
    else if tgt = 2 then .ok (.host x)
    else if s.setting p 0x3000 (9 + p) = 0 then bad 3 else .ok (.peer (bits e 11 6) x)

/-- The walk from the table at `base` (R151, R153). -/
def State.walk (s : State) (p va : Nat) (a : Ask) : Nat → List (Nat × Nat × Option Nat) → Except XFault Target
  | _, [] => .error { kind := 1, addr := va }
  | base, (lo, w, leafSize) :: rest =>
    if !s.lakeOwned p base then .error { kind := 3, addr := va }
    else
      let pa := base + 8 * (va / 2 ^ lo % 2 ^ w)
      match s.lakeBad pa 8 with
      | some g => .error { kind := 1, addr := va, ecc := some g }
      | none =>
        let e := leNat (s.lakeBytes pa 8)
        if !bit e 63 || bits e 55 52 ≠ 0 || bits e 5 0 ≠ 0 || bits e 60 58 > 3 then .error { kind := 1, addr := va }
        else if bits e 60 58 = 0 then
          if rest.isEmpty || bits e 51 41 ≠ 0 then .error { kind := 1, addr := va }
          else s.walk p va a (fld (bits e 51 12) 12) rest
        else if leafSize = some (bits e 62 61) then s.leaf p va a lo e
        else .error { kind := 1, addr := va }

/-- The target of one device-virtual byte (R150, R294). -/
def State.translate (s : State) (p va : Nat) (a : Ask) : Except XFault Target :=
  let r := (s.partn p).regs.ptRoot.toNat
  if 2 ^ 48 ≤ va || !bit r 0 then .error { kind := 1, addr := va }
  else s.walk p va a (fld (bits r 40 12) 12) xlevels

/-- The parts of n bytes at va that lie in one 4 KiB page each, as (address, length). -/
def pageParts (va n : Nat) : List (Nat × Nat) :=
  (List.range ((va % 4096 + n + 4095) / 4096)).map fun i =>
    let lo := Max.max va ((va / 4096 + i) * 4096)
    (lo, Min.min (va + n) ((va / 4096 + i + 1) * 4096) - lo)

/-- Translate a list of parts, or give the first fault. -/
def State.translateParts (s : State) (p : Nat) (a : Ask) : List (Nat × Nat) → Except XFault (List (Target × Nat))
  | [] => .ok []
  | (va, n) :: r =>
    match s.translate p va a with
    | .error f => .error f
    | .ok t =>
      match s.translateParts p a r with
      | .error f => .error f
      | .ok l => .ok ((t, n) :: l)

/-- The targets of n bytes at va, or the first fault. -/
def State.translateRange (s : State) (p va n : Nat) (a : Ask) : Except XFault (List (Target × Nat)) :=
  s.translateParts p a (pageParts va n)

/-- The peer module and address of a range whose first part lies in a peer (R274). -/
def peerOf : List (Target × Nat) → Option (Nat × Nat)
  | (.peer m v, _) :: _ => some (m, v)
  | _ => none

/-- The same, for a range that any part of it puts in a peer. -/
def anyPeer (l : List (Target × Nat)) : Bool := l.any fun e => match e.1 with | .peer _ _ => true | _ => false

/-- The first uncorrectable lake address of a range's parts. -/
def State.badPart (s : State) (l : List (Target × Nat)) : Option Nat :=
  l.findSome? fun e => match e.1 with | .lake pa => s.lakeBad pa e.2 | _ => none

/-- The bytes of a range's parts; peer parts read as nothing (they are read by packets). -/
def State.partBytes (s : State) (l : List (Target × Nat)) : List Byte :=
  l.flatMap fun e => match e.1 with
    | .lake pa => s.lakeBytes pa e.2
    | .host h => s.host.bytes h e.2
    | .peer _ _ => List.replicate e.2 0

/-- Write bytes to a range's parts. -/
def State.writeParts (s : State) (l : List (Target × Nat)) (bs : List Byte) : State :=
  match l with
  | [] => s
  | (t, n) :: r =>
    let s' := match t with
      | .lake pa => s.lakeWrite pa (bs.take n)
      | .host h => { s with host := s.host.putBytes h (bs.take n) }
      | .peer _ _ => s
    s'.writeParts r (bs.drop n)

/-- An entry that reads uncorrectable is an uncorrectable lake read like any other (R160). -/
def State.noteFault (s : State) (p : Nat) (f : XFault) : State :=
  match f.ecc with
  | some pa => s.lakeUncorrectable p pa
  | none => s

/-! ## Reads and writes that a command names (R300, R308) -/

/-- What a read by device-virtual address gives. -/
inductive VRead where
  | ok (bs : List Byte)
  | fault (f : XFault)
  | unreadable (pa : Nat)
deriving DecidableEq, Repr

/-- Read n bytes at va for partition p. A peer target is refused with KIND 0x3: commands, lists and rings are never read
from a peer (DESIGN CHOICE, assumption log 15). -/
def State.vread (s : State) (p va n : Nat) : VRead :=
  match s.translateRange p va n {} with
  | .error f => .fault f
  | .ok l =>
    if anyPeer l then .fault { kind := 3, addr := va }
    else match s.badPart l with
      | some pa => .unreadable pa
      | none => .ok (s.partBytes l)

/-- Write bytes at va, or give the first fault. -/
def State.vwrite (s : State) (p va : Nat) (bs : List Byte) : Except XFault State :=
  match s.translateRange p va bs.length { write := true } with
  | .error f => .error f
  | .ok l => if anyPeer l then .error { kind := 3, addr := va } else .ok (s.writeParts l bs)

/-- The first fault of a range, if it has one. -/
def State.vcheck (s : State) (p va n : Nat) (write : Bool) : Option XFault :=
  match s.translateRange p va n { write := write } with
  | .error f => some f
  | .ok l => if anyPeer l then some { kind := 3, addr := va } else none

end Sys2Proof.Machine
end

