-- ==== Sys2Proof/Machine/StreamOps.lean ====
section
/-! DEFINITION. The shared operations of streams: the fields of a command (R303, R307), completion records and rings
(R309 to R313), the abort records that follow them (R318), and fault records (R320). -/

namespace Sys2Proof.Machine

/-! ## Codes -/

/-- Completion status (R311). -/
def stOk : Nat := 0x00
def stAborted : Nat := 0x01
def stAlready : Nat := 0x02
def stPartial : Nat := 0x03
def stFault : Nat := 0x04
def stPoisoned : Nat := 0x05
def stStateLost : Nat := 0x06
def stHeld : Nat := 0x07
def stRejected : Nat := 0x08

/-- Completion causes (R312, R369, R397). -/
def cauNone : Nat := 0x0000
def cauThreadHalt : Nat := 0x0001
def cauVersion : Nat := 0x0002
def cauFrameCheck : Nat := 0x0003
def cauMismatch : Nat := 0x0004
def cauPeerTimeout : Nat := 0x0005
def cauPeerCancelled : Nat := 0x0006
def cauNonfinite : Nat := 0x0007
def cauTransferEnd : Nat := 0x0008
def cauTimeout : Nat := 0x0009
def cauServiceEnded : Nat := 0x000A
def cauOrphan : Nat := 0x000B
def cauSeqMismatch : Nat := 0x0010
def cauReserved : Nat := 0x0011
def cauKind : Nat := 0x0012
def cauStepState : Nat := 0x0013
def cauShape : Nat := 0x0014
def cauLimit : Nat := 0x0015
def cauRecord : Nat := 0x0016
def cauTier : Nat := 0x0017
def cauTranslation : Nat := 0x0018
def cauAbsent : Nat := 0x0019
def cauCapacity : Nat := 0x001A
def cauReadOnly : Nat := 0x001B
def cauPoison : Nat := 0x0020
def cauVerify : Nat := 0x0021
def cauHardFault : Nat := 0x0030
def cauPowerLoss : Nat := 0x0031
def cauScaleEntry : Nat := 0x0033
def cauUnreadable : Nat := 0x0034
def cauFeature : Nat := 0x0040

/-! ## The fields of a command -/

/-- The bits of a command as a number, and its header (R303). -/
def Cmd.n (k : Cmd) : Nat := k.raw.toNat
def Cmd.op (k : Cmd) : Nat := bits k.n 511 504
def Cmd.start (k : Cmd) : Nat := bits k.n 503 502
def Cmd.irq (k : Cmd) : Bool := bit k.n 501
def Cmd.f (k : Cmd) (hi lo : Nat) : Nat := bits k.n hi lo

/-- Opcodes (R307). -/
def opRun : Nat := 0x01
def opMove : Nat := 0x02
def opMarkSet : Nat := 0x03
def opMarkWait : Nat := 0x04
def opStepOpen : Nat := 0x10
def opStepSeal : Nat := 0x11
def opSweep : Nat := 0x12
def opStepCommit : Nat := 0x13
def opStepDiscard : Nat := 0x14
def opExchange : Nat := 0x20
def opPromote : Nat := 0x30
def opDemote : Nat := 0x31
def opPin : Nat := 0x32
def opUnpin : Nat := 0x33
def opExport : Nat := 0x40
def opImport : Nat := 0x41
def opReqOpen : Nat := 0x50
def opReqFeed : Nat := 0x51
def opReqClose : Nat := 0x52
def opFence : Nat := 0x60

/-- A serving RUN. -/
def Cmd.serve (k : Cmd) : Bool := k.op = opRun && bit k.n 295

/-! ## Streams and their journals -/

def Partition.stream (x : Partition) (w : Nat) : Stream := x.streams.get w {}

def Partition.onStream (x : Partition) (w : Nat) (f : Stream → Stream) : Partition :=
  { x with streams := x.streams.put w (f (x.stream w)) {} }

def State.stream (s : State) (p w : Nat) : Stream := (s.partn p).stream w

def State.onStream (s : State) (p w : Nat) (f : Stream → Stream) : State := s.onPartn p fun x => x.onStream w f

/-- Entries of a ring (R296). -/
def Stream.cmdEntries (m : Stream) : Nat := 2 ^ (m.cmdLog2.toNat + 4)
def Stream.cplEntries (m : Stream) : Nat := 2 ^ (m.cplLog2.toNat + 4)

/-- The uncompleted command q of a stream. -/
def Stream.cmd (m : Stream) (q : Nat) : Option Cmd := m.journal.find? fun k => k.seq = q

def State.cmd (s : State) (p w q : Nat) : Option Cmd := (s.stream p w).cmd q

def State.onCmd (s : State) (p w q : Nat) (f : Cmd → Cmd) : State :=
  s.onStream p w fun m => { m with journal := m.journal.map fun k => if k.seq = q then f k else k }

/-- Every uncompleted command of a partition with its stream. -/
def Partition.commands (x : Partition) : List (Nat × Cmd) := x.streams.flatMap fun e => e.2.journal.map fun k => (e.1, k)

/-- The stream contexts of a partition (R294, R295). -/
def State.contexts (s : State) (p : Nat) : Nat :=
  if (s.partn p).st = .none then 0 else s.setting p 0x3000 (5 + p)

/-! ## Completion records (R309, R310) -/

/-- A record as its 256 bits; PHASE is 1 XOR the parity of the lap. -/
def Cpl.val (c : Cpl) (k entries : Nat) : Nat :=
  fld c.seq.toNat 208 + fld c.stream 194 + fld ((1 + k / entries) % 2) 193 + fld c.opcode.toNat 184 +
  fld c.status.toNat 176 + fld (c.count % 65536) 160 + fld c.cause 144 + fld (c.causeArg % 65536) 128 + c.detail.toNat

/-- Records are not written while a Supervisor failover runs or the module is not RUNNING (R359, R444). -/
def State.recordsFlow (s : State) : Bool := s.phase = .running && !s.sup.failover

/-- Write one record into the ring, if the ring has room and its place translates. A record whose place does not translate
is held, since no record is dropped (R310; DEDUCED, assumption log 16). -/
def State.tryRecord (s : State) (p : Nat) (c : Cpl) : Option State :=
  let m := s.stream p c.stream
  let k := m.cplTail.toNat
  if !s.recordsFlow || (m.cplTail - m.cplHead).toNat ≥ m.cplEntries then none
  else
    match s.vwrite p (m.cplBase.toNat + 32 * (k % m.cplEntries)) (leBytes 32 (c.val k m.cplEntries)) with
    | .error _ => none
    | .ok s =>
      let s := s.onStream p c.stream fun m => { m with cplTail := m.cplTail + 1 }
      some (if c.irq then s.signal p m.vector.toNat else s)

/-- Write a record, or hold it behind the records already held. -/
def State.putRecord (s : State) (p : Nat) (c : Cpl) : State :=
  let m := s.stream p c.stream
  let hold := s.onStream p c.stream fun m =>
    { m with held := m.held ++ [c], heldSince := if m.held.isEmpty then s.now else m.heldSince }
  if m.held.isEmpty then (s.tryRecord p c).getD hold else hold

/-- Write the first records of a list while they can be written; the rest stays held. -/
def State.flushList (s : State) (p w : Nat) : List Cpl → State
  | [] => s.onStream p w fun m => { m with held := [] }
  | c :: r =>
    match s.tryRecord p c with
    | some s' => s'.flushList p w r
    | none => s.onStream p w fun m => { m with held := c :: r }

/-- Held records are written as ring space allows (R310); the time of the hold is counted. -/
def State.flushHeld (s : State) (p w : Nat) : State :=
  let m := s.stream p w
  if m.held.isEmpty then s
  else
    let s' := s.flushList p w m.held
    if (s'.stream p w).held.isEmpty then s'.bumpP p 0x80B0 5 (s.now - m.heldSince) else s'

/-- The counters of a completion by its status (R333, R376). -/
def State.countStatus (s : State) (p status : Nat) : State :=
  if status = stRejected then s.bumpP p 0x80B0 2 1
  else if status = stAborted then s.bumpP p 0x80B0 3 1
  else if status = stHeld then s.bump 0x8010 4 1
  else if status = stStateLost then s.bump 0x8010 5 1
  else s

/-- The abort records whose commands have all completed are written, in order (R318). -/
def State.writeAborts (s : State) (p w : Nat) : List AbortRec → State
  | [] => s
  | a :: r =>
    if a.waiting.isEmpty then
      let s := s.onStream p w fun m => { m with aborts := m.aborts.filter fun b => b ≠ a }
      let s := s.putRecord p { seq := a.upTo, stream := w, opcode := 0x7F,
                               status := BitVec.ofNat 8 (if a.count = 0 then stAlready else stAborted), count := a.count }
      (if a.count = 0 then s.bumpP p 0x80B0 4 1 else s).writeAborts p w r
    else s.writeAborts p w r

/-- The outcome of a command: status, cause, argument, count and detail. -/
structure Outcome where
  status : Nat
  cause : Nat := 0
  arg : Nat := 0
  count : Nat := 0
  detail : Nat := 0
deriving DecidableEq, Repr

/-- A MARK_WAIT that has started ends, and its wait counts (R263). -/
def State.endMarkWait (s : State) (p : Nat) (k : Cmd) : State :=
  if k.op = opMarkWait && k.phase ≠ .accepted then s.countStageWait p (cmdMark k.raw) k.started else s

/-- A command completes: it leaves the journal, its one record is written or held, and the abort records that waited for
it follow (R309, R313, R314, R318). Nothing happens for a command that is not in the journal. -/
def State.complete (s : State) (p w q : Nat) (o : Outcome) : State :=
  match s.cmd p w q with
  | none => s
  | some k =>
    let s := (s.endMarkWait p k).onStream p w fun m => { m with
      journal := m.journal.filter fun j => j.seq ≠ q
      aborts := m.aborts.map fun a => { a with waiting := a.waiting.filter (· ≠ q) } }
    let s := s.countStatus p o.status
    let s := s.putRecord p { seq := BitVec.ofNat 48 q, stream := w, opcode := BitVec.ofNat 8 k.op,
                             status := BitVec.ofNat 8 o.status, count := o.count, cause := o.cause, causeArg := o.arg,
                             detail := BitVec.ofNat 128 o.detail, irq := k.irq }
    s.writeAborts p w (s.stream p w).aborts

/-- The usual outcomes. -/
def Outcome.ok : Outcome := { status := stOk }
def Outcome.rejected (cause : Nat) (arg : Nat := 0) (detail : Nat := 0) : Outcome :=
  { status := stRejected, cause := cause, arg := arg, detail := detail }
def Outcome.fault (cause : Nat) (arg : Nat := 0) (detail : Nat := 0) : Outcome :=
  { status := stFault, cause := cause, arg := arg, detail := detail }

/-- REJECTED with TRANSLATION: the KIND and the first failing address (R308, R312). -/
def Outcome.translation (f : XFault) : Outcome := .rejected cauTranslation f.kind (f.addr % 2 ^ 48)

/-- REJECTED with UNREADABLE and an address. -/
def Outcome.unreadable (va : Nat) : Outcome := .rejected cauUnreadable 0 (va % 2 ^ 48)

/-- The outcome of a read of va that a command names and that did not give bytes. -/
def VRead.outcome (va : Nat) : VRead → Outcome
  | .fault f => .translation f
  | .unreadable _ => .unreadable va
  | .ok _ => .ok

/-- What such a read does beside its outcome: an uncorrectable read is reported (R160). -/
def State.noteRead (s : State) (p : Nat) : VRead → State
  | .fault f => s.noteFault p f
  | .unreadable pa => s.lakeUncorrectable p pa
  | .ok _ => s

/-! ## The fault queue (R144, R320) -/

/-- Records of a fault queue. -/
def FnRegs.fqSize (r : FnRegs) : Nat := 2 ^ (bits r.fqCtrl.toNat 3 0 + 4)

/-- A fault record as its 256 bits. -/
def FaultRec.val (r : FaultRec) (p : Nat) : Nat :=
  fld r.id.toNat 224 + fld r.core 211 + fld r.spring 209 + fld (b2n r.side) 208 + fld r.kind 204 + fld p 200 +
  fld r.vaddr.toNat 128 + fld r.cursor 64 + fld r.desc 32 + r.age % 2 ^ 32

/-- Whether the fault queue has room. -/
def State.fqRoom (s : State) (p : Nat) : Bool :=
  let r := (s.partn p).regs
  decide ((r.fqTail + 2 ^ 64 - r.fqHead.toNat) % 2 ^ 64 < r.fqSize)

/-- Post the oldest waiting fault record, if the queue has room and its place translates; then signal the vector and
count the wait (R320). -/
def State.postFault (s : State) (p : Nat) : State :=
  let x := s.partn p
  match x.faultWaiting with
  | [] => s
  | r :: rest =>
    if !s.fqRoom p then s
    else
      match s.vwrite p (x.regs.fqBase.toNat + 32 * (x.regs.fqTail % x.regs.fqSize)) (leBytes 32 (r.val p)) with
      | .error _ => s
      | .ok s =>
        let s := s.onPartn p fun x => { x with faultWaiting := rest, regs := { x.regs with fqTail := x.regs.fqTail + 1 } }
        (s.signal p (bits x.regs.fqCtrl.toNat 26 16)).bumpP p 0x80B0 14 (s.now - r.queuedAt)

/-- Each wait for room raises event 0x6132 once (R320). -/
def State.queueFault (s : State) (p : Nat) (r : FaultRec) : State :=
  let s := s.onPartn p fun x => { x with faultWaiting := x.faultWaiting ++ [{ r with queuedAt := s.now }] }
  let s' := s.postFault p
  if (s'.partn p).faultWaiting.isEmpty then s' else s'.raiseP 0x6132 p [r.id.toNat, r.stream, r.seq]

end Sys2Proof.Machine
end

