-- ==== Sys2Proof/Machine/FabricOps.lean ====
section
/-! DEFINITION. The shared operations of the fabric: packets (R272), lanes (R337), the arbitration of R138, routes (R281 to
R284), flits out of a port (R269 to R271), PSN windows (R277), landings (R17, R123). -/

namespace Sys2Proof.Machine

/-! ## Packets (R272) -/

end Sys2Proof.Machine

namespace Sys2Proof

open Machine

def Packet.n (k : Packet) : Nat := k.route.toNat
def Packet.dstMod (k : Packet) : Nat := bits k.n 255 250
def Packet.srcMod (k : Packet) : Nat := bits k.n 249 244
def Packet.dstPart (k : Packet) : Nat := bits k.n 243 242
def Packet.srcPart (k : Packet) : Nat := bits k.n 241 240
def Packet.ptype (k : Packet) : Nat := bits k.n 239 236
def Packet.vl (k : Packet) : Nat := bits k.n 235 233
def Packet.prio (k : Packet) : Nat := bits k.n 232 230
def Packet.mgroup (k : Packet) : Nat := bits k.n 229 220
def Packet.hops (k : Packet) : Nat := bits k.n 219 217
def Packet.psn (k : Packet) : Nat := bits k.n 216 185
def Packet.addr (k : Packet) : Nat := bits k.n 184 137
def Packet.aux (k : Packet) : Nat := bits k.n 136 105
def Packet.kind (k : Packet) : Nat := bits k.n 104 101
def Packet.hcheck (k : Packet) : Nat := bits k.n 31 0

end Sys2Proof

namespace Sys2Proof.Machine

/-- Packet types. -/
def ptWrite : Nat := 1
def ptReadReq : Nat := 2
def ptReadData : Nat := 3
def ptAck : Nat := 4
def ptXframe : Nat := 5
def ptMcast : Nat := 6
def ptCancel : Nat := 7
def ptNak : Nat := 8

/-- Whether a packet of a type carries a frame. -/
def ptHasFrame (t : Nat) : Bool := t = ptWrite || t = ptReadData || t = ptXframe || t = ptMcast

/-- HCHECK: CRC-32C over bytes 4 to 31 of the route header. -/
def routeCheck (n : Nat) : Nat := (crc32c ((leBytes 32 n).drop 4)).toNat

end Sys2Proof.Machine

namespace Sys2Proof

open Machine

def Packet.hcheckOk (k : Packet) : Bool := k.hcheck = routeCheck k.n

/-- A packet that is whole: cut-through, its first bytes may go on before the others are here (R278). -/
def Packet.whole (k : Packet) : Bool := !ptHasFrame k.ptype || decide (frameBytes ≤ k.body.length)

/-- A packet without its body. -/
def Packet.head (k : Packet) : Packet := { k with body := [] }

/-- A packet of a multicast tree: its DST_MOD is its source (R284, assumption log 119). -/
def Packet.tree (k : Packet) : Bool := k.ptype = ptMcast && k.dstMod = k.srcMod

end Sys2Proof

namespace Sys2Proof.Machine

/-- A route header with its HCHECK computed. -/
def sealRoute (n : Nat) : U256 := BitVec.ofNat 256 (n / 2 ^ 32 * 2 ^ 32 + routeCheck n)

/-- The fields of a packet that its sender chooses. -/
structure Route where
  dstMod : Nat
  dstPart : Nat
  ptype : Nat
  vl : Nat
  prio : Nat
  mgroup : Nat := 0
  psn : Nat := 0
  addr : Nat := 0
  aux : Nat := 0
  kind : Nat := 0

/-- A packet from module `m`, partition `p`. -/
def mkPacket (m p : Nat) (r : Route) (body : List Byte) : Packet :=
  { route := sealRoute (fld r.dstMod 250 + fld (m % 64) 244 + fld r.dstPart 242 + fld p 240 + fld r.ptype 236 + fld r.vl 233 +
      fld r.prio 230 + fld r.mgroup 220 + fld r.psn 185 + fld (r.addr % 2 ^ 48) 137 + fld r.aux 105 + fld r.kind 101)
    body := body }

end Sys2Proof.Machine

namespace Sys2Proof

open Machine

/-- A packet with one hop more (R283), and with the last one taken back. -/
def Packet.hop (k : Packet) : Packet := { k with route := sealRoute (k.n + fld 1 217) }
def Packet.unhop (k : Packet) : Packet := { k with route := sealRoute (k.n - fld 1 217) }

end Sys2Proof

namespace Sys2Proof.Machine

/-! ## The module's place in the domain -/

/-- Fabric.ModuleNumber (R281); 0xFF is none. -/
def State.moduleNumber (s : State) : Nat := s.moduleSetting 0x6000 1

/-- The extents n0, n1, n2 (R281). -/
def State.extents (s : State) : List Nat :=
  let e := s.moduleSetting 0x6000 2
  [Max.max 1 (bits e 7 0), Max.max 1 (bits e 15 8), Max.max 1 (bits e 23 16)]

/-- The coordinates of a module number. -/
def coords : List Nat → Nat → List Nat
  | [], _ => []
  | n :: r, m => m % n :: coords r (m / n)

/-- The module number of coordinates. -/
def uncoords : List Nat → List Nat → Nat
  | n :: r, c :: cs => c + n * uncoords r cs
  | _, _ => 0

/-- The first dimension in which two modules differ. -/
def State.dimBetween (s : State) (a b : Nat) : Option Nat :=
  let x := coords s.extents a
  let y := coords s.extents b
  (List.range 3).find? fun d => x.getD d 0 ≠ y.getD d 0

/-- The next module on the route from a to b: it corrects the lowest differing dimension (R283). -/
def State.nextModule (s : State) (a b : Nat) : Nat :=
  match s.dimBetween a b with
  | none => b
  | some d => uncoords s.extents ((coords s.extents a).set d ((coords s.extents b).getD d 0))

/-- The modules on the route from a to b, a first: at most three hops. -/
def State.routePath (s : State) (a b : Nat) : List Nat :=
  let x := s.nextModule a b
  let y := s.nextModule x b
  let z := s.nextModule y b
  [a, x, y, z].eraseDups

/-- Modules of the domain. -/
def State.domainSize (s : State) : Nat := s.extents.foldl (· * ·) 1

/-! ## Ports -/

def State.port (s : State) (q : Nat) : Port := s.fabric.ports.get q {}

def State.setPort (s : State) (q : Nat) (x : Port) : State :=
  { s with fabric := { s.fabric with ports := s.fabric.ports.put q x {} } }

/-- A port that is UP and whose far end is module m; the lowest-numbered first. -/
def State.portsTo (s : State) (m : Nat) : List Nat :=
  (List.range s.part.ports).filter fun q => (s.port q).st = .up && (s.port q).peerModule = m

/-- The output port for a destination module and whether it begins an alternate route: the link to the next module, a
parallel one, or the link to the lowest-numbered other module of the same line whose links to both ends are up (R283); of links
between other modules, those are down that the Link Manager knows to be (assumption log 17). -/
def State.outPort (s : State) (dst : Nat) : Option (Nat × Bool) :=
  let me := s.moduleNumber
  let hop := s.nextModule me dst
  match (s.portsTo hop).head? with
  | some q => some (q, false)
  | none =>
    match s.dimBetween me dst with
    | none => none
    | some d =>
      let farUp := fun m => !s.fabric.farDown.any fun e => e = (m, hop) || e = (hop, m)
      let line := (List.range s.domainSize).filter fun m => m ≠ me && m ≠ hop && s.dimBetween me m = some d && farUp m &&
        uncoords s.extents ((coords s.extents m).set d ((coords s.extents me).getD d 0)) = me
      (line.findSome? fun m => (s.portsTo m).head?).map fun q => (q, true)

/-- The I/O die whose landing a packet for a module leaves from (R17): the die of its port, die 0 while there is none. -/
def State.dieFor (s : State) (dst : Nat) : Nat :=
  match s.outPort dst with
  | some (q, _) => q / 4
  | none => 0

/-! ## Lanes (R337) -/

/-- The lanes of a partition, ascending. -/
def State.lanes (s : State) (p : Nat) : List Nat := (List.range 8).filter fun v => bit (s.setting p 0x3000 (9 + p)) v

/-- The lane of a priority. -/
def State.laneOf (s : State) (p prio : Nat) : Nat :=
  let l := s.lanes p
  l.getD (if l.isEmpty then 0 else prio % l.length) 0

/-- The partition at a peer module that partition p addresses (R274), if its table names one. -/
def State.peerPartition (s : State) (p m : Nat) : Option Nat :=
  match (s.value p (okey (0x6020 + p) 1))[m]? with
  | none => none
  | some b => if b.toNat < 4 then some b.toNat else none

/-! ## Arbitration (R138) -/

/-- The level that is granted, and whether it was due. -/
def Arbiter.choose (a : Arbiter) (pend : Byte) : Option (Nat × Bool) :=
  let levels := (List.range 8).filter fun l => pend.getLsbD l
  let w := fun l => a.wait.getD l 0
  let due := (levels.filter fun l => 56 ≤ w l).foldl (fun (b : Option Nat) l => match b with
    | none => some l
    | some m => if w m < w l then some l else some m) none
  match due with
  | some l => some (l, true)
  | none => levels.head?.map fun l => (l, false)

/-- The waits after a grant of level g. -/
def Arbiter.after (a : Arbiter) (pend : Byte) (g : Nat) : List Nat :=
  (List.range 8).map fun l => if l = g || !pend.getLsbD l then 0 else a.wait.getD l 0 + 1

/-! ## Replica groups (R242) -/

/-- The modules of group g, ascending. -/
def State.groupMembers (s : State) (p g : Nat) : List Nat :=
  (List.range 64).filter fun m => bit (s.setting p (0x6400 + g) 1) m

/-- The partition of member m of group g: 0xFF where the group names none. -/
def State.groupPart (s : State) (p g m : Nat) : Nat := (((s.value p (okey (0x6400 + g) 2))[m]?).map BitVec.toNat).getD 255

/-- Exch.GroupPartition: this module's byte of Exch.GroupPartitions. -/
def State.groupPartition (s : State) (p g : Nat) : Nat := s.groupPart p g s.moduleNumber

/-! ## Landings (R17, R123) -/

def State.landing (s : State) (d : Nat) : Landing := s.fabric.landings.get d {}

def State.setLanding (s : State) (d : Nat) (x : Landing) : State :=
  { s with fabric := { s.fabric with landings := s.fabric.landings.put d x {} } }

/-- Bytes of a partition's share of a landing, and where it begins: shares lie in ascending partition order (R123, R336). -/
def State.landingShare (s : State) (p : Nat) : Nat := (s.halls p).length * 9568256
def State.landingBase (s : State) (p : Nat) : Nat := ((List.range p).map s.landingShare).sum

/-- The partition of a frame of host memory in a landing, by the number of its mover. -/
def State.stagedPart (s : State) (tag : Nat) : Nat :=
  if tag < 0x10000 then s.coreOwner (tag / 4)
  else ((s.movers.get (tag - 0x10000) []).head?.map fun d => d.origin.1).getD 4

/-- The partition of this module that a packet ends in. -/
def State.endPart (s : State) (k : Packet) : Nat := if k.tree then s.groupPartition 0 k.mgroup else k.dstPart

/-- Frames of a partition's descriptors that wait in the landing of die 0 to leave for the host (R17). -/
def State.hostBound (s : State) (p : Nat) : Nat :=
  let ds := (s.cores.flatMap fun e => e.2.springs.flatMap fun q => q.2) ++ s.movers.flatMap fun e => e.2
  ((ds.filter fun d => d.origin.1 = p && bits d.raw.toNat 491 488 ≠ 4).map fun d => (d.flights.filter fun f => f.frame.isSome).length).sum

/-- Frames that a partition holds in a landing: those that arrived for it, those that wait to leave, those whose ACK it awaits,
which may be sent again, those from and to host memory, and those of fills, which arrive on their object's die (R17, R165,
R276). -/
def State.landingHeld (s : State) (p d : Nat) : Nat :=
  let l := s.landing d
  let framed := fun (ks : List Packet) => (ks.filter fun k => !k.body.isEmpty).length
  let kept := s.fabric.remotes.filter fun r => r.write && r.p = p && s.dieFor r.packet.dstMod = d
  framed (l.arrived.filter fun k => s.endPart k = p) +
    framed (l.leaving.filter fun k => k.srcMod = s.moduleNumber && k.srcPart = p && kept.all fun r => r.packet ≠ k) + kept.length +
    (l.staged.filter fun f => s.stagedPart f.1 = p).length + (if d = 0 then s.hostBound p else 0) +
    ((s.partn p).objects.map fun o =>
      if o.1 % s.part.ioDies = d then (match o.2.fill with | some f => f.landed.length | none => 0) else 0).sum

/-- Frames of other modules' packets that wait in a landing for a route (R286). -/
def State.landingTransit (s : State) (d : Nat) : Nat :=
  ((s.landing d).leaving.filter fun k => !k.body.isEmpty && k.srcMod ≠ s.moduleNumber).length

/-- A landing holds 8,192 frames (R17). -/
def State.landingWhole (s : State) (d : Nat) : Bool :=
  decide (8192 ≤ ((List.range 4).map fun p => s.landingHeld p d).sum + s.landingTransit d)

/-- A partition can put no further frame into a landing: it holds its share of 2,048 for each of its halls, or the landing is full
(R17, R336). -/
def State.landingFull (s : State) (p d : Nat) : Bool :=
  decide (2048 * (s.halls p).length ≤ s.landingHeld p d) || s.landingWhole d

/-- A packet leaves from the landing of its port's die. -/
def State.send (s : State) (k : Packet) : State :=
  let d := s.dieFor k.dstMod
  let l := s.landing d
  s.setLanding d { l with leaving := l.leaving ++ [k] }

/-- Take the next PSN of a lane (R272). -/
def State.takePsn (s : State) (p vl : Nat) : State × Nat :=
  let n := s.fabric.nextPsn.get (p * 8 + vl) 0
  ({ s with fabric := { s.fabric with nextPsn := s.fabric.nextPsn.put (p * 8 + vl) ((n + 1) % 2 ^ 32) 0 } }, n)

/-- Remove an arrived packet from a landing; none if it is not there. -/
def State.takeArrived (s : State) (d : Nat) (k : Packet) : Option State :=
  let l := s.landing d
  if l.arrived.contains k then some (s.setLanding d { l with arrived := l.arrived.erase k }) else none

/-! ## PSN windows (R277) -/

/-- What a PSN is to its window. -/
inductive PsnIs where
  | fresh
  | duplicate
  | old
deriving DecidableEq, Repr

end Sys2Proof.Machine

namespace Sys2Proof

open Machine

/-- The key of a packet's window: module, partition, lane. -/
def Packet.windowKey (k : Packet) : Nat := (k.srcMod * 4 + k.srcPart) * 8 + k.vl

end Sys2Proof

namespace Sys2Proof.Machine

/-- The highest accepted PSN comes first in the window. -/
def State.psnIs (s : State) (k : Packet) : PsnIs :=
  let w := s.fabric.windows.get k.windowKey []
  let top := w.headD 0
  if w.contains k.psn then .duplicate
  else if w ≠ [] && (top + 2 ^ 32 - k.psn) % 2 ^ 32 < 2 ^ 31 && 4096 < (top + 2 ^ 32 - k.psn) % 2 ^ 32 then .old
  else .fresh

/-- Enter a PSN: the window keeps the last 4,096 accepted, the highest in front. -/
def State.enterPsn (s : State) (k : Packet) : State :=
  let w := s.fabric.windows.get k.windowKey []
  let top := w.headD 0
  let ahead := w = [] || (k.psn + 2 ^ 32 - top) % 2 ^ 32 < 2 ^ 31
  let w' := if ahead then k.psn :: w else match w with
    | [] => [k.psn]
    | t :: r => t :: k.psn :: r
  { s with fabric := { s.fabric with windows := s.fabric.windows.put k.windowKey (w'.take 4096) [] } }

/-! ## Flits out of a port (R269 to R271, R279) -/

end Sys2Proof.Machine

namespace Sys2Proof

open Machine

/-- The bytes of a packet: the route header, then the body. -/
def Packet.bytes (k : Packet) : List Byte := leBytes 32 k.n ++ k.body

end Sys2Proof

namespace Sys2Proof.Machine

/-- The CRC of a flit over its header and data. -/
def flitCrc (h : BitVec 80) (data : List Byte) : U32 := crc32c (leBytes 10 h.toNat ++ data)

/-- Bytes of packet data in a flit. -/
def flitData : Nat := 242

/-- Keys of a lane's two classes: vl * 2 + class. -/
def laneKeys (vl : Nat) : List Nat := [vl * 2, vl * 2 + 1]

/-- The levels of packets. -/
def levelsOf (l : List Packet) : Byte := l.foldl (fun b k => b ||| (1#8 <<< k.prio)) 0

/-- A grant of a lane: the packet, the arbiter after it, and whether its level was due. -/
structure LaneGrant where
  packet : Packet
  arb : Arbiter
  due : Bool

/-- The packet of a lane that goes next: by PRIO, within a level in order of arrival (R279). `l` are those that may go, `all` those
that wait on the lane, whose levels gain a wait (R138). -/
def nextOfLane (a : Arbiter) (l all : List Packet) : Option LaneGrant :=
  match a.choose (levelsOf l) with
  | none => none
  | some (g, due) => (l.find? fun k => k.prio = g).map fun k =>
      { packet := k, arb := { a with wait := a.after (levelsOf all) g, last := some g }, due := due }

/-- The number of the arbiter of a port's lane among the fabric's arbiters. -/
def laneArbiter (q vl : Nat) : Nat := 4096 + q * 8 + vl

/-- A flit that is being filled: its data so far, the offset of the first packet that starts in it, the packets that end in it,
the packet that goes on in the next flit, those that wait in its class, those in the lane's other class that may go, those that may
not, the lane's arbiter, and the grants to a due level. -/
structure Filling where
  data : List Byte := []
  start : Option Nat := none
  ended : List Packet := []
  cont : Option Sending := none
  waiting : List Packet := []
  others : List Packet := []
  barred : List Packet := []
  arb : Arbiter := {}
  dues : Nat := 0

/-- Packet bytes into a flit: first those of the packet already begun, then, without gaps, of the packets that wait (R269). A
flit takes parts of at most nine packets. Where the lane grants a packet of its other class, the flit takes no further one; a packet
that is not whole yet holds it up. -/
def Filling.grow : Nat → Filling → Filling
  | 0, x => x
  | n + 1, x =>
    let room := flitData - x.data.length
    if room = 0 then x
    else match x.cont with
      | some c =>
        let y : Filling := { x with data := x.data ++ c.bytes.take room }
        if room < c.bytes.length || !c.packet.whole then { y with cont := some { c with bytes := c.bytes.drop room } }
        else Filling.grow n { y with cont := none, ended := x.ended ++ [c.packet] }
      | none => match nextOfLane x.arb (x.waiting ++ x.others) (x.waiting ++ x.others ++ x.barred) with
        | none => x
        | some g =>
          if !x.waiting.contains g.packet then x
          else Filling.grow n { x with start := some (x.start.getD x.data.length)
                                       cont := some { packet := g.packet, bytes := g.packet.bytes }
                                       waiting := x.waiting.erase g.packet
                                       arb := g.arb
                                       dues := x.dues + b2n g.due }

/-- The flit can leave: a packet that is not whole yet gives only flits that its bytes fill (R278; DESIGN CHOICE, assumption log
18). -/
def Filling.sendable (x : Filling) : Bool :=
  decide (x.data.length = flitData) || (!x.data.isEmpty && x.cont.all fun c => c.packet.whole)

/-- The next flit of a lane and class. -/
def Port.fill (x : Port) (a : Arbiter) (key : Nat) : Filling :=
  let other := key / 2 * 2 + (1 - key % 2)
  let l := x.output.get other []
  let free := x.credits.get other 0 ≠ 0
  Filling.grow 20 { cont := x.sending.find key, waiting := x.output.get key [], others := if free then l else [],
                    barred := if free then [] else l, arb := a }

/-- The class of a lane whose packets the next flit carries: one whose packet is begun, else that of the packet that the lane
grants; only a class with credits, while the replay buffer has room (R270, R271). -/
def Port.classOf (x : Port) (a : Arbiter) (vl : Nat) : Option Nat :=
  let open' := (laneKeys vl).filter fun k => x.credits.get k 0 ≠ 0
  if 1024 ≤ x.replay.length then none
  else match open'.find? fun k => (x.sending.find k).isSome && (x.fill a k).sendable with
    | some k => some k
    | none =>
      let idle := open'.filter fun k => (x.sending.find k).isNone
      match nextOfLane a (idle.flatMap fun k => x.output.get k []) [] with
      | none => none
      | some g => idle.find? fun k => (x.output.get k []).contains g.packet && (x.fill a k).sendable

/-- The lane that is served next and its key: by deficit round robin in proportion to Fabric.VlWeight, lanes without a packet or
a credit skipped (R279). The answer also tells how many flits the lane may still send in its turn. -/
def State.pickLane (s : State) (q : Nat) : Option (Nat × Nat × Nat) :=
  let x := s.port q
  let key := fun v => x.classOf (s.fabric.arbiters.get (laneArbiter q v) {}) v
  match if x.drrLeft = 0 then none else key x.drrLane with
  | some k => some (x.drrLane, k, x.drrLeft)
  | none => ((List.range 8).map fun i => (x.drrLane + 1 + i) % 8).findSome? fun v =>
      (key v).map fun k => (v, k, Max.max 1 (s.moduleSetting 0x6200 (v + 1)))

/-- The credit that the next flit returns: key and flits, at most 511 (R269, R271). -/
def Port.creditDue (x : Port) : Nat × Nat :=
  match x.owed with
  | [] => (0, 0)
  | e :: _ => (e.1, Min.min 511 e.2)

/-- The header of a flit that leaves now: its type, SEQ, lane and class, PKT_OFF, with ACK, NAK and the credit due. -/
def Port.header (x : Port) (ftype seq key off : Nat) : BitVec 80 :=
  let c := x.creditDue
  BitVec.ofNat 80 (fld ftype 78 + fld seq 66 + fld x.rxSeq 54 + fld (b2n x.nakOwed) 53 + fld (key / 2) 50 + fld (key % 2) 49 +
    fld off 41 + fld (c.1 / 2) 38 + fld (c.1 % 2) 37 + fld c.2 28)

/-- ACK, NAK and credit have gone with a flit. -/
def Port.told (x : Port) : Port :=
  let c := x.creditDue
  { x with owed := if c.2 = 0 then x.owed else x.owed.put c.1 (x.owed.get c.1 0 - c.2) 0
           nakSent := x.nakSent || x.nakOwed
           nakOwed := false
           lastTold := x.rxSeq }

def mkFlit (h : BitVec 80) (data : List Byte) : Flit := { header := h, data := data, crc := flitCrc h data }

/-- The partition that has a lane (R337). -/
def State.lanePart (s : State) (vl : Nat) : Nat := ((List.range 4).find? fun p => (s.lanes p).contains vl).getD 4

/-- A control flit that ends the packet begun on a lane and class: the stomp marker (R285; its form is a DESIGN CHOICE, assumption
log 18). -/
def State.sendStomp (s : State) (q : Nat) : Option State :=
  let x := s.port q
  match x.stomps with
  | [] => none
  | key :: rest =>
    if 1024 ≤ x.replay.length then none
    else
      let seq := (x.txSeq + 1) % 4096
      let flit := mkFlit (x.header 2 seq key 0xFF) (List.replicate flitData 0)
      some ((s.setPort q { x.told with
        stomps := rest
        ackAt := if x.replay.isEmpty then s.now else x.ackAt
        replay := x.replay ++ [(seq, flit)]
        txSeq := seq
        idle := none }).bump (0x8100 + q) 7 1)

/-- Send one data flit of a port, if one can go. What packets do not fill is zero (DESIGN CHOICE, assumption log 18). -/
def State.sendFlit (s : State) (q : Nat) : Option State :=
  match s.pickLane q with
  | none => none
  | some (vl, key, left) =>
    let x := s.port q
    let y := x.fill (s.fabric.arbiters.get (laneArbiter q vl) {}) key
    let seq := (x.txSeq + 1) % 4096
    let data := y.data ++ List.replicate (flitData - y.data.length) 0
    let flit := mkFlit (x.header 0 seq key (y.start.getD 0xFF)) data
    let x' : Port := { x.told with
      output := x.output.put key y.waiting []
      sending := match y.cont with
        | some c => x.sending.insert key c
        | none => x.sending.drop key
      credits := x.credits.put key (x.credits.get key 0 - 1) 0
      drrLane := vl
      drrLeft := left - 1
      ackAt := if x.replay.isEmpty then s.now else x.ackAt
      replay := x.replay ++ [(seq, flit)]
      sent := x.sent ++ y.ended.map fun k => (seq, key, k)
      txSeq := seq
      idle := none }
    let s := (s.setPort q x').bump (0x8100 + q) 7 1
    let s := if y.dues = 0 then s else s.bumpP (s.lanePart vl) 0x8040 7 y.dues
    some { s with fabric := { s.fabric with arbiters := s.fabric.arbiters.put (laneArbiter q vl) y.arb {} } }

/-- Send what a port can send, at most n flits. -/
def State.pump (s : State) (q : Nat) : Nat → State
  | 0 => s
  | n + 1 => match (s.sendStomp q).or (s.sendFlit q) with
    | none => s
    | some s' => s'.pump q n

/-- Packets of a lane and class wait at a port, or a part of one does. -/
def Port.waits (x : Port) (k : Nat) : Bool := !(x.output.get k []).isEmpty || (x.sending.find k).isSome

/-- Packets wait at a port. -/
def Port.waiting (x : Port) : Bool := (List.range 16).any x.waits

/-- Packets wait for credits alone, at the output or at an input of the switch (R271). -/
def Port.starved (x : Port) : Bool :=
  decide (x.replay.length < 1024) && (List.range 16).any fun k => (x.waits k || x.wanted.contains k) && x.credits.get k 0 = 0

/-- Waiting for credits counts from the moment packets wait that have none (R271). -/
def State.noteStall (s : State) (q : Nat) : State :=
  let x := s.port q
  match x.stallSince with
  | none => if x.starved then s.setPort q { x with stallSince := some s.now } else s
  | some t => if x.starved then s else (s.setPort q { x with stallSince := none }).bump (0x8100 + q) 8 (s.now - t)

/-- No data flit leaves: an idle flit carries what is to be told, an ACK, a NAK or credits, or fills in for a full replay
buffer (R270). Idle flits follow one another; the model keeps the last. -/
def State.sendIdle (s : State) (q : Nat) : State :=
  let x := s.port q
  let f := mkFlit (x.header 1 x.txSeq 0 0xFF) (List.replicate flitData 0)
  if x.nakOwed || !x.owed.isEmpty || x.lastTold ≠ x.rxSeq || (1024 ≤ x.replay.length && x.waiting) then
    s.setPort q { x.told with idle := some f }
  else s

/-- Send everything that may go now. -/
def State.drive (s : State) (q : Nat) : State :=
  if (s.port q).st = .up then ((s.pump q 1024).sendIdle q).noteStall q else s

end Sys2Proof.Machine
end

