-- ==== Sys2Proof/Machine/Issue.lean ====
section
/-! DEFINITION. Issuing one instruction word of a thread (R81 to R86), the program counter and the hardware loops (R94). -/

namespace Sys2Proof.Machine

/-- The word at a word index of the instruction store, if the segment has one there (R80). -/
def Core.fetch (k : Core) (pc : Nat) : Option U32 := if pc < k.nwords then some (k.store.get pc 0) else none

/-- The thread that issues next: the READY one that follows the last issuing thread, wrapping (R82). -/
def Core.nextThread (k : Core) : Option Nat :=
  ((List.range 8).map fun i => (k.lastIssued + 1 + i) % 8).find? fun t => (k.thread t).st = .ready

/-- Thread t of core c may issue now: its segment runs and is not stopping (R110, R202), and it is its turn (R82). -/
def canIssue (s : State) (c t : Nat) : Bool :=
  s.working && c < 6144 && (s.core c).nextThread = some t &&
  match s.segOf c with
  | some g => g.stop.isNone
  | none => false

/-- Thread t of core c may issue, and the word at its PC is w. -/
def issuesWord (s : State) (c t : Nat) (w : U32) : Bool :=
  canIssue s c t && (s.core c).fetch ((s.core c).thread t).pc = some w

/-- The guard of a word (R86); MMA and EPI carry none. -/
def guardTrue (h : Thread) (w : U32) : Bool :=
  wOpc w = 0x20 || wOpc w = 0x21 || (h.pred (wPg w) != wPn w)

/-- The end of a loop body reached at word index n: the back-edge, or the end of the level (R94). Innermost level first. -/
def backEdge : List Loop → Nat → List Loop × Nat
  | [], n => ([], n)
  | l :: r, n =>
    if n = l.first + l.len then
      if l.left = 0 then backEdge r n
      else ({ l with left := l.left - 1, index := l.index + 1 } :: r, l.first)
    else (l :: r, n)

/-- Continue at word index n. -/
def Thread.goOn (h : Thread) (n : Nat) : Thread :=
  let r := backEdge h.loops.reverse n
  { h with loops := r.1.reverse, pc := r.2 }

/-- The next word. -/
def Thread.advance (h : Thread) : Thread := h.goOn (h.pc + 1)

/-- A taken branch: it ends every level whose body does not hold the target (R94). -/
def Thread.jump (h : Thread) (n : Nat) : Thread :=
  { h with pc := n
           loops := (h.loops.reverse.dropWhile fun l => !decide (l.first ≤ n ∧ n < l.first + l.len)).reverse }

/-- Issue: `act` is what the instruction does once its guard holds (R86). -/
def issue (mine : U32 → Bool) (act : Nat → Nat → U32 → State → State) (c t : Nat) (w : U32) (s : State) : State :=
  if issuesWord s c t w && mine w then
    let s := s.onCore c fun k => { k with lastIssued := t }
    if guardTrue ((s.core c).thread t) w then act c t w s else s.onThread c t Thread.advance
  else s

/-- Halt at the word of the thread (R109). -/
def haltAt (code detail c t : Nat) (w : U32) (s : State) : State :=
  s.halt c t ((s.core c).thread t).pc w code detail

/-- A halt when a reserved field is not zero (R109, RESERVED_BITS). -/
def reserveChecked (bad : U32 → Bool) (act : Nat → Nat → U32 → State → State) (c t : Nat) (w : U32) (s : State) :
    State :=
  if bad w then haltAt haltReserved 0 c t w s else act c t w s

/-- An instruction that changes its thread and goes on to the next word. -/
def onThreadAct (f : Thread → U32 → Thread) (c t : Nat) (w : U32) (s : State) : State :=
  s.onThread c t fun h => (f h w).advance

end Sys2Proof.Machine
end

