-- ==== Sys2Proof/Machine/Operands.lean ====
section
/-! DEFINITION. The operand forms of the scalar formats R, I, L and B (R92). -/

namespace Sys2Proof.Machine

/-- Format R: sD = f sA sB. -/
def formR (f : U64 → U64 → U64) (h : Thread) (w : U32) : Thread :=
  h.setReg (wSd w) (f (h.reg (wSa w)) (h.reg (wSb w)))

/-- Format I: sD = f sA (sign-extended IMM). -/
def formI (f : U64 → U64 → U64) (h : Thread) (w : U32) : Thread :=
  h.setReg (wSd w) (f (h.reg (wSa w)) (wImm w))

/-- Format L: sD = (sD << 16) | IMM16. -/
def formL (h : Thread) (w : U32) : Thread :=
  h.setReg (wSd w) ((h.reg (wSd w) <<< 16) ||| BitVec.ofNat 64 (wbits w 15 0))

/-- The pond address of LD and ST: sA + IMM x 8 (Major opcodes), modulo 2^64. -/
def ldstAddr (h : Thread) (w : U32) : Nat := (h.reg (wSa w) + wImm w * 8).toNat

/-- A shift amount: bits [5:0] (R93). -/
def shiftAmount (b : U64) : Nat := b.toNat % 64

/-- The FP32 functions use bits [31:0] and write the result zero-extended (R93). -/
def lowWord (a : U64) : U32 := a.setWidth 32
def zeroExt (a : U32) : U64 := a.setWidth 64

end Sys2Proof.Machine
end

