-- ==== Sys2Proof/Machine/Order.lean ====
section
/-! DEFINITION. The order of accesses to tile registers, accumulators and pond bytes: the registers and the pond bytes that an
instruction names, locks (R60, R97), and issue order (R90). -/

namespace Sys2Proof.Machine

/-! ## Registers that an instruction names -/

/-- n consecutive registers from r. -/
def regSpan (r n : Nat) : List Nat := (List.range n).map (r + ·)

/-- The row of Matrix pairings that two formats form (R52): 1 N4 × N4, 2 N4 × 8-bit, 3 8-bit × 8-bit, 4 BF16, 5 FP16,
6 FP32; 0 for none. -/
def pairingOf (a b : Nat) : Nat :=
  let e8 := fun f => f = 1 || f = 2
  if a = 0 && b = 0 then 1
  else if (a = 0 && e8 b) || (b = 0 && e8 a) then 2
  else if e8 a && e8 b then 3
  else if a = 3 && b = 3 then 4
  else if a = 4 && b = 4 then 5
  else if a = 5 && b = 5 then 6 else 0

/-- Registers of one operand of a pairing (Operand panels). -/
def operandRegs (pairing fmt : Nat) : Nat :=
  if pairing = 1 || pairing = 3 then 1
  else if pairing = 2 then (if fmt = 0 then 1 else 2)
  else if pairing = 0 then 1 else 2

/-- Kp of a pairing (Operand panels). -/
def panelK (pairing : Nat) : Nat := if pairing ≤ 2 then 128 else if pairing = 6 then 32 else 64

/-- MMA's fields (R54). -/
def mmaAcc (w : U32) : Nat := wbits w 25 24
def mmaTa (w : U32) : Nat := wbits w 23 20
def mmaTb (w : U32) : Nat := wbits w 19 16
def mmaA16 (w : U32) : Bool := w.getLsbD 15
def mmaClr (w : U32) : Bool := w.getLsbD 14
def mmaSk (w : U32) : Nat := wbits w 13 9

/-- EPI's fields (R68). -/
def epiTd (w : U32) : Nat := wbits w 23 20
def epiFd (w : U32) : Nat := wbits w 19 16
def epiAct (w : U32) : Nat := wbits w 15 12
def epiRnd (w : U32) : Bool := w.getLsbD 11
def epiKeep (w : U32) : Bool := w.getLsbD 10
def epiSp (w : U32) : Nat := wbits w 9 5

/-- Registers of an EPI's destination (Epilogue destinations). -/
def epiRegs (fd : Nat) : Nat := if fd ≤ 2 then 1 else if fd = 5 then 4 else 2

/-- Operand registers of an MMA, as far as they exist. -/
def mmaOperands (k : Core) (w : U32) : List Nat :=
  let fa := (k.tile (mmaTa w)).fmt
  let fb := (k.tile (mmaTb w)).fmt
  let p := pairingOf fa fb
  (regSpan (mmaTa w) (operandRegs p fa) ++ regSpan (mmaTb w) (operandRegs p fb)).filter (· < 16)

def epiDests (w : U32) : List Nat := (regSpan (epiTd w) (epiRegs (epiFd w))).filter (· < 16)

/-- Format V fields (R92). -/
def vVop (w : U32) : Nat := wbits w 21 16
def vRnd (w : U32) : Bool := w.getLsbD 15
def vBs (w : U32) : Bool := w.getLsbD 14
def vTd (w : U32) : Nat := wbits w 13 10
def vTa (w : U32) : Nat := wbits w 9 6
def vTb (w : U32) : Nat := wbits w 5 2

/-- Vector operations by their number of operands: those with B, and those that read TD as C (R100, R101). -/
def vopHasB (v : Nat) : Bool :=
  v ≤ 6 || (0x18 ≤ v && v ≤ 0x1E) || (0x38 ≤ v && v ≤ 0x3C)
def vopHasC (v : Nat) : Bool := v = 3 || v = 0x1E

/-- Source registers of a format V word. -/
def vopSources (w : U32) : List Nat :=
  [vTa w] ++ (if vopHasB (vVop w) && !vBs w then [vTb w] else []) ++ (if vopHasC (vVop w) then [vTd w] else [])

/-- Format T: tile register [21:18], pond address in sSA [17:13]. -/
def tReg (w : U32) : Nat := wbits w 21 18
def tAddr (h : Thread) (w : U32) : Nat := (h.reg (wbits w 17 13)).toNat

/-- Format D fields: SDS [13:9], SB [8:4]. -/
def dSds (w : U32) : Nat := wbits w 13 9
def dSb (w : U32) : Nat := wbits w 8 4

/-! ## Locks (R60, R97) -/

/-- Registers locked against writes, and registers locked against reads and writes, by what is queued. -/
def Core.sourceLocks (k : Core) : List Nat :=
  (k.matQ.filter fun e => wOpc e.word = 0x20).flatMap (fun e => mmaOperands k e.word) ++
  (k.vecQ.filter fun e => wOpc e.word = 0x1A).flatMap (fun e => vopSources e.word) ++
  (k.tileQ.filter fun e => wOpc e.word = 0x19).map fun e => tReg e.word

def Core.destLocks (k : Core) : List Nat :=
  (k.matQ.filter fun e => wOpc e.word = 0x21).flatMap (fun e => epiDests e.word) ++
  (k.vecQ.filter fun e => wOpc e.word = 0x1A).map (fun e => vTd e.word) ++
  (k.tileQ.filter fun e => wOpc e.word = 0x18).map fun e => tReg e.word

/-- An instruction that reads `srcs` and writes `dsts` must wait. -/
def Core.locked (k : Core) (srcs dsts : List Nat) : Bool :=
  srcs.any k.destLocks.contains || dsts.any fun r => k.destLocks.contains r || k.sourceLocks.contains r

/-- The registers a word reads and writes when it is issued. -/
def wordRegs (k : Core) (w : U32) : List Nat × List Nat :=
  if isOp 0x20 w then (mmaOperands k w, [])
  else if isOp 0x21 w then ([], epiDests w)
  else if isOp 0x1A w then (vopSources w, [vTd w])
  else if isOp 0x18 w then ([], [wbits w 21 18])
  else if isOp 0x19 w then ([wbits w 21 18], [])
  else if isSys 0x05 w then ([], [wSd w % 16])
  else ([], [])

/-! ## Pond bytes in issue order (R90) -/

/-- Pond bytes that an instruction reads and that it writes, as (address, length). -/
structure PondUse where
  reads : List (Nat × Nat) := []
  writes : List (Nat × Nat) := []
deriving Repr

/-- Two lists of byte ranges share a byte. -/
def rangesMeet (l m : List (Nat × Nat)) : Bool := l.any fun a => m.any fun b => decide (a.1 < b.1 + b.2 ∧ b.1 < a.1 + a.2)

/-- Two accesses to pond bytes, at least one of them a write. -/
def PondUse.meets (a b : PondUse) : Bool :=
  rangesMeet a.writes b.reads || rangesMeet a.writes b.writes || rangesMeet a.reads b.writes

/-- The frames of a source operand, at most: its grid under the format of its first frame (R104). -/
def operandSpan (k : Core) (unit rows cols grid : Nat) : List (Nat × Nat) :=
  if unit = 0xFFFF then []
  else
    let f := (frameHeader (k.pond.bytes (unit * 64) 64)).fmt
    let n := (rows + tileRows f - 1) / Max.max 1 (tileRows f) * ((cols + tileCols f - 1) / Max.max 1 (tileCols f))
    [(unit * 64, Max.max n grid * frameBytes)]

/-- The pond bytes of a format D word whose descriptor stands at `addr` (R103 to R107). -/
def vdescUse (k : Core) (w : U32) (addr : Nat) : PondUse :=
  let v := leNat (k.pond.bytes addr 64)
  let op := vVop w
  let rows := bits v 431 416
  let src := fun u => operandSpan k u rows (bits v 415 400) (bits v 447 440 * bits v 439 432)
  let ablk := if op = 0x30 || op = 0x31 then [(bits v 479 464 * 64, 16 * rows)] else []
  { reads := [(addr, 64)] ++ src (bits v 511 496) ++ (if vopHasB op && !vBs w then src (bits v 495 480) else []) ++
      (if vopHasC op then src (bits v 479 464) else []) ++ ablk
    writes := [(bits v 463 448 * 64, if 0x28 ≤ op && op ≤ 0x2A then (rows * 4 + 63) / 64 * 64
                                     else bits v 447 440 * bits v 439 432 * frameBytes)] ++
      if op = 0x30 then ablk else [] }

/-- The pond bytes of an EPI whose parameter block stands at `addr` (R69). -/
def epiUse (k : Core) (addr : Nat) : PondUse :=
  let v := leNat (k.pond.bytes addr 64)
  let vec := fun (u n : Nat) => if u = 0xFFFF then [] else [(u * 64, n)]
  { reads := [(addr, 64)] ++ vec (bits v 255 240) 128 ++ vec (bits v 239 224) 128 ++
      vec (bits v 223 208) (if bit v 188 then 128 else 256) ++ vec (bits v 207 192) 128 }

/-- TLD reads its frame, TST writes it. -/
def tileUse (w : U32) (addr : Nat) : PondUse :=
  if wOpc w = 0x18 then { reads := [(addr, frameBytes)] } else { writes := [(addr, frameBytes)] }

/-- The pond bytes of a word that thread h issues. -/
def wordUse (k : Core) (h : Thread) (w : U32) : PondUse :=
  if isOp 0x09 w then { reads := [(ldstAddr h w, 8)] }
  else if isOp 0x0A w then { writes := [(ldstAddr h w, 8)] }
  else if isOp 0x18 w || isOp 0x19 w then tileUse w (tAddr h w)
  else if isOp 0x1B w then vdescUse k w (h.reg (dSds w)).toNat
  else if isOp 0x1C w then { reads := [((h.reg (wbits w 19 15)).toNat, 128)] }
  else if isOp 0x21 w then epiUse k (h.reg (epiSp w)).toNat
  else {}

/-- An engine still has to make an access that was issued earlier and that a word's own access must follow (R90). The queue
that the word itself enters keeps its order. -/
def Core.pondBusy (k : Core) (t : Nat) (w : U32) : Bool :=
  let u := wordUse k (k.thread t) w
  (!isOp 0x1B w && (k.vecQ.filter fun e => wOpc e.word = 0x1B).any fun e => (vdescUse k e.word e.addr).meets u) ||
  (!isOp 0x21 w && (k.matQ.filter fun e => wOpc e.word = 0x21).any fun e => (epiUse k e.addr).meets u) ||
  (!(isOp 0x18 w || isOp 0x19 w) && k.tileQ.any fun e => (tileUse e.word e.addr).meets u)

/-- Run an instruction unless a lock or an earlier access to its pond bytes holds it; then its thread waits with the word (R81,
R90). -/
def lockChecked (act : Nat → Nat → U32 → State → State) (c t : Nat) (w : U32) (s : State) : State :=
  let k := s.core c
  let r := wordRegs k w
  if k.locked r.1 r.2 || k.pondBusy t w then s.onThread c t fun h => { h with st := .waiting (.tileLock w) } else act c t w s

end Sys2Proof.Machine
end

