-- ==== Sys2Proof/Machine/Cursor.lean ====
section
/-! DEFINITION. The sweep cursors (R222, R223): one 64-byte granule each, kept twice in the stack's reserved region (R363). The
places in the region are the model's own (DESIGN CHOICE, assumption log 127). -/

namespace Sys2Proof.Machine

/-- The fields of a cursor as its 512 bits, CCHECK zero. -/
def Cursor.val (c : Cursor) : Nat :=
  fld c.step.toNat 448 + fld (c.group % 2 ^ 24) 424 + fld (c.block % 2 ^ 32) 392 + fld (c.phase % 4) 390 +
  fld (b2n c.shadowValid) 389 + fld (b2n c.slot) 388 + fld c.rho.toNat 320

/-- CCHECK: CRC-32C of the 64 bytes with CCHECK taken as zero. -/
def cursorCheck (v : Nat) : Nat := (crc32c (leBytes 64 (v / 2 ^ 32 * 2 ^ 32))).toNat

/-- The granule of a cursor. -/
def Cursor.granule (c : Cursor) : List Byte := leBytes 64 (c.val + cursorCheck c.val)

/-- The cursor of 512 bits. -/
def Cursor.ofVal (v : Nat) : Cursor :=
  { step := BitVec.ofNat 64 (bits v 511 448)
    group := bits v 447 424
    block := bits v 423 392
    phase := bits v 391 390
    shadowValid := bit v 389
    slot := bit v 388
    rho := BitVec.ofNat 32 (bits v 351 320) }

/-- The place of copy i of a stack's cursor: the channel bits of the two differ in bit 4 (R363). -/
def cursorPlace (k i : Nat) : Nat := k * 2 ^ 37 + reservedFrom + i * 4096

/-- The bits of a cursor copy; none where it does not read, or carries a wrong CCHECK. A granule that nothing has written reads as
zeros, the reset value. -/
def State.cursorCopy (s : State) (k i : Nat) : Option Nat :=
  let v := leNat (s.lakeBytes (cursorPlace k i) 64)
  if (s.lakeBad (cursorPlace k i) 64).isSome then none
  else if v = 0 || v % 2 ^ 32 = cursorCheck v then some v else none

/-- The bits of a stack's cursor, from the first copy that reads. -/
def State.cursorRead (s : State) (k : Nat) : Option Nat := (s.cursorCopy k 0).or (s.cursorCopy k 1)

/-- A stack's cursor; one that cannot be read loses its stack (R224) and reads here as at reset. -/
def State.cursor (s : State) (k : Nat) : Cursor :=
  match s.cursorRead k with
  | some v => .ofVal v
  | none => {}

/-- Write both copies of a cursor, each one whole granule. -/
def State.setCursor (s : State) (k : Nat) (c : Cursor) : State :=
  (s.lakeWrite (cursorPlace k 0) c.granule).lakeWrite (cursorPlace k 1) c.granule

/-! ## Shadow slots and statistics -/

def State.sweepStore (s : State) (k : Nat) : SweepStore := s.lake.stores.get k {}

def State.setStore (s : State) (k : Nat) (x : SweepStore) : State :=
  { s with lake := { s.lake with stores := s.lake.stores.put k x {} } }

/-- The place of copy i of a shadow slot. -/
def shadowPlace (k i : Nat) (slot : Bool) : Nat := k * 2 ^ 37 + reservedFrom + 0x100000 + b2n slot * 0x80000 + i * 0x41000

/-- The place of copy i of the FACTORED statistics: R', then C' (R223, R363). -/
def statPlace (k i : Nat) : Nat := k * 2 ^ 37 + reservedFrom + 0x1000000 + i * 0x4001000

/-- Some granule of n bytes that are kept twice reads uncorrectable in both copies (R363). -/
def State.bothBad (s : State) (a b n : Nat) : Bool :=
  (List.range ((n + 63) / 64)).any fun i => (s.lakeBad (a + i * 64) 64).isSome && (s.lakeBad (b + i * 64) 64).isSome

/-- A shadow slot of n frames cannot be read from its two copies. -/
def State.shadowBad (s : State) (k : Nat) (slot : Bool) (n : Nat) : Bool :=
  s.bothBad (shadowPlace k 0 slot) (shadowPlace k 1 slot) (n * frameBytes)

/-- The bytes that statistics take, up to the last one that is not zero. -/
def SweepStore.statBytes (x : SweepStore) : Nat :=
  let last := fun (l : Table U32) => l.foldl (fun m e => Max.max m (e.1 + 1)) 0
  4 * (last x.statR + last x.statC)

/-- The FACTORED statistics of a stack cannot be read from their two copies. -/
def State.statsBad (s : State) (k : Nat) : Bool := s.bothBad (statPlace k 0) (statPlace k 1) (s.sweepStore k).statBytes

/-- The granules of a range are written whole: they are uncorrectable no longer (R160, R365). -/
def State.wroteWhole (s : State) (pa n : Nat) : State :=
  { s with lake := { s.lake with
      healed := s.lake.healed ++ (granules pa n).filter s.lostGranule
      poison := s.lake.poison.filter fun g => !decide (pa ≤ g * 64 ∧ g * 64 < pa + n) } }

/-- Write both copies of a shadow slot. -/
def State.setShadow (s : State) (k : Nat) (slot : Bool) (l : List (Nat × List Byte)) : State :=
  let n := l.length * frameBytes
  ((s.setStore k { s.sweepStore k with shadow := l }).wroteWhole (shadowPlace k 0 slot) n).wroteWhole (shadowPlace k 1 slot) n

/-- Write both copies of the FACTORED statistics. -/
def State.setStats (s : State) (k : Nat) (r c : Table U32) : State :=
  let x := { s.sweepStore k with statR := r, statC := c }
  ((s.setStore k x).wroteWhole (statPlace k 0) x.statBytes).wroteWhole (statPlace k 1) x.statBytes

end Sys2Proof.Machine
end

