-- ==== Sys2Proof/Machine/WatchOps.lean ====
section
/-! DEFINITION. What every engine hands to the numerics watch (chapter 07): the tally of a write (R188, R189) and an
overflow report (R67, R200, R203). -/

namespace Sys2Proof.Machine

/-- The step states in the order of Part.StepState (R236). -/
def StepState.code : StepState → Nat
  | .idle => 0
  | .opened => 1
  | .sealed => 2
  | .exchanged => 3
  | .sweeping => 4
  | .swept => 5
  | .discarded => 6

/-- A step is in force while the state is neither IDLE nor DISCARDED (R226). -/
def Partition.inStep (x : Partition) : Bool := x.step ≠ .idle && x.step ≠ .discarded

/-- The step number in force, or bit 63 and the period count outside a step (R196). -/
def Partition.stepOrPeriod (x : Partition) : Nat := if x.inStep then x.stepNo.toNat else 2 ^ 63 + x.periods

/-- VERSION of a tile that the partition writes: the running step, 0 outside a step (R113). -/
def Partition.writeVersion (x : Partition) : Nat := if x.inStep then x.stepNo.toNat else 0

/-- The slot of a tensor, with its number. -/
def Partition.slotOf (x : Partition) (tensor : U32) : Option Nat := x.slots.findIdx? fun k => k.decl.tensor = tensor

def Partition.onSlot (x : Partition) (i : Nat) (f : Slot → Slot) : Partition := { x with slots := x.slots.modify i f }

/-- The FP32 code of a magnitude, rounded to nearest even where it is not FP32 already. -/
def amaxCode (a : ℚ) : U32 := toF32 (r32 (Val.ofQ a))

/-- A slot takes a tally; SAT and NONFIN stop at 0xFFFF_FFFF (R189). -/
def Slot.take (k : Slot) (t : Tally) : Slot :=
  { k with elems := k.elems + t.elems
           zero := k.zero + t.zero
           flush := k.flush + t.flush
           sat := Min.min (k.sat + t.sat) 0xFFFFFFFF
           nonfin := Min.min (k.nonfin + t.nonfin) 0xFFFFFFFF
           amax := if k.amax.toNat < (amaxCode t.amax).toNat then amaxCode t.amax else k.amax
           ovfTiles := k.ovfTiles + t.ovfTiles }

def Counts.take (a : Counts) (t : Tally) : Counts :=
  { elems := a.elems + t.elems, zero := a.zero + t.zero, flush := a.flush + t.flush, sat := a.sat + t.sat,
    nonfin := a.nonfin + t.nonfin }

/-- The key of a slot's counts in a layer. -/
def countKey (layer slot : Nat) : Nat := layer * 65536 + slot

/-- The key of a layer's attempt in its partition. -/
def attemptKey (g : Segment) (layer : Nat) : Nat := g.num * 65536 + layer

/-- The segment works for a step that has been discarded since: what it writes enters no evaluation (R191). -/
def Partition.discardedWork (x : Partition) (g : Segment) : Bool := g.inStep && !(x.inStep && x.stepNo = g.stepKey)

/-- The attempt of a layer runs in A32 mode (R203). -/
def Partition.inA32 (x : Partition) (g : Segment) (layer : Option Nat) : Bool :=
  layer.any fun l => (x.attempts.get (attemptKey g l) {}).a32

/-- A slot takes a tally of a segment's layer: counted in the slot and in the layer's attempt (R189, R205), with A32R where the
layer runs in A32 mode (R196). -/
def State.tallySlot (s : State) (p i : Nat) (g : Segment) (layer : Option Nat) (t : Tally) : State :=
  let x := s.partn p
  if x.discardedWork g then s.bumpP p 0x8060 8 t.nonfin
  else
    let s' := s.onPartn p fun x => x.onSlot i fun k => { k.take t with a32 := k.a32 || x.inA32 g layer }
    match layer with
    | none => s'
    | some l => s'.onSegment p g.s g.q fun g => { g with
        counts := g.counts.put (countKey l i) ((g.counts.get (countKey l i) {}).take t) {} }

/-- A write of a tensor is counted (R188, R189). `seg` is the segment and the layer that the work was issued in (R205). -/
def State.tally (s : State) (p : Nat) (seg : Option (Nat × Nat × Option Nat)) (tensor : U32) (t : Tally) : State :=
  if t.elems = 0 && t.ovfTiles = 0 then s
  else
    let x := s.partn p
    match x.slotOf tensor with
    | none =>
      let s' := s.bumpP p 0x8060 6 t.elems
      if x.toldUnwatched then s'
      else (s'.onPartn p fun x => { x with toldUnwatched := true }).raiseP 0x4001 p [tensor.toNat, x.stepOrPeriod]
    | some i =>
      match seg.bind fun e => (s.segment p e.1 e.2.1).map fun g => (g, e.2.2) with
      | none => s.onPartn p fun x => x.onSlot i fun k => k.take t
      | some (g, l) => s.tallySlot p i g l t

/-- The number of a core within its partition: halls ascending, 1,536 cores each. -/
def State.localCore (s : State) (p c : Nat) : Nat :=
  ((s.halls p).idxOf (hallOf c)) * coresPerHall + localOf c

/-- The layer whose span holds a word of a core (R200, R201). -/
def State.layerAt (s : State) (g : Segment) (c pc : Nat) : Option Nat :=
  let n := s.localCore g.p c
  g.variant.layers.findIdx? fun l => l.spans.any fun e => e.1 = n && decide (e.2.1 ≤ pc ∧ pc < e.2.1 + e.2.2)

/-- The layer that an engine instruction at a word is issued in, and the note of when the layer was entered: with its first engine
instruction (R205; DEDUCED, assumption log 121). -/
def State.enterLayer (s : State) (c pc : Nat) : State × Option Nat :=
  match s.segOf c with
  | none => (s, none)
  | some g => match s.layerAt g c pc with
    | none => (s, none)
    | some i => (if (g.layerStarts.find i).isSome then s
        else s.onSegment g.p g.s g.q fun g => { g with layerStarts := g.layerStarts.insert i s.now }, some i)

/-- Whether R203 has a further attempt for a report: an A16 accumulator overflow repeats in A32; a tile overflow repeats
until level 2 with retry 2. -/
def repeatsFor (l : LayerRec) (a : Attempt) (accumulator : Bool) : Bool :=
  if accumulator then l.a16 && !a.a32 else a.retry < 2 || a.level < 2

/-- Event 0x4113 for a tensor, counted in 0x8060:04 (R67, R200, R203). -/
def State.notRecovered (s : State) (p : Nat) (tensor : U32) : State :=
  let x := s.partn p
  let a := match x.slotOf tensor with
    | some i => [i, tensor.toNat, x.stepOrPeriod]
    | none => [tensor.toNat, x.stepOrPeriod]
  (s.bumpP p 0x8060 4 1).raiseP 0x4113 p a

/-- The report of an A32 accumulator: counted every time, the event once per step or period (R67). -/
def State.a32Report (s : State) (p : Nat) (tensor : U32) : State :=
  if (s.partn p).toldOverflow.contains tensor then s.bumpP p 0x8060 4 1
  else (s.onPartn p fun x => { x with toldOverflow := x.toldOverflow ++ [tensor] }).notRecovered p tensor

/-- An overflow of a core's engine (R200): inside a layer that R203 would repeat it sets the core's latch and stops the
segment (R202); otherwise event 0x4113 is raised. The answer says whether the layer will be repeated. -/
def State.overflow (s : State) (c : Nat) (layer : Option Nat) (tensor : U32) (accumulator : Bool) : State × Bool :=
  match s.segOf c with
  | none => (s, false)
  | some g =>
    match layer.bind fun i => (g.variant.layers[i]?).map fun l => (i, l) with
    | none => (s.notRecovered g.p tensor, false)
    | some (i, l) =>
      let a := (s.partn g.p).attempts.get (attemptKey g i) {}
      if repeatsFor l a accumulator then
        let s := s.onCore c fun k => { k with latch := true }
        let s := s.onSegment g.p g.s g.q fun g => { g with
          reports := g.reports ++ [{ layer := i, tensor := tensor, accumulator := accumulator }]
          stopAt := if g.stop.isNone then s.now else g.stopAt
          stop := if g.stop.isNone then some (.layer i) else g.stop }
        (s, true)
      else (s.notRecovered g.p tensor, false)

end Sys2Proof.Machine
end

