-- ==== Sys2Proof/Machine/XRecord.lean ====
section
/-! DEFINITION. Exchange group records (R240), replica groups and shards (R242, R243), and the cancels that end a record (R259). -/

namespace Sys2Proof.Machine

/-! ## Record fields (R240) -/

def XRun.n (r : XRun) : Nat := r.raw.toNat
def XRun.f (r : XRun) (hi lo : Nat) : Nat := bits r.n hi lo
def XRun.xid (r : XRun) : Nat := r.f 1023 992
def XRun.srcTensor (r : XRun) : Nat := r.f 991 960
def XRun.dstTensor (r : XRun) : Nat := r.f 959 928
def XRun.eTensor (r : XRun) : Nat := r.f 927 896
def XRun.srcAddr (r : XRun) : Nat := r.f 895 848
def XRun.dstAddr (r : XRun) : Nat := r.f 847 800
def XRun.eAddr0 (r : XRun) : Nat := r.f 799 752
def XRun.eAddr1 (r : XRun) : Nat := r.f 751 704
def XRun.nt (r : XRun) : Nat := r.f 703 672
def XRun.group (r : XRun) : Nat := r.f 671 662
def XRun.kind (r : XRun) : Nat := r.f 661 660
def XRun.mode (r : XRun) : Nat := r.f 659 658
def XRun.ksh (r : XRun) : Nat := r.f 657 654
def XRun.eFmt (r : XRun) : Nat := r.f 653 650
def XRun.dstFmt (r : XRun) : Nat := r.f 649 646
def XRun.rnd (r : XRun) : Bool := bit r.n 645
def XRun.root (r : XRun) : Nat := r.f 644 639
def XRun.prio (r : XRun) : Nat := r.f 638 636
def XRun.markEn (r : XRun) : Bool := bit r.n 635
def XRun.markMode (r : XRun) : Bool := bit r.n 634
def XRun.mark (r : XRun) : Nat := r.f 633 618
def XRun.trigEn (r : XRun) : Bool := bit r.n 617
def XRun.trigMark (r : XRun) : Nat := r.f 616 601
def XRun.trigValue (r : XRun) : Nat := r.f 600 569
def XRun.n0 (r : XRun) : Nat := r.f 568 537
def XRun.n1 (r : XRun) : Nat := r.f 536 505
def XRun.n2 (r : XRun) : Nat := r.f 504 489
def XRun.n3 (r : XRun) : Nat := r.f 488 473
def XRun.n4 (r : XRun) : Nat := r.f 472 457
def XRun.dims (r : XRun) : List Nat := [r.n0, r.n1, r.n2, r.n3, r.n4]

/-- KIND and MODE. -/
def xkReduceScatter : Nat := 0
def xkAllGather : Nat := 1
def xkBroadcast : Nat := 2
def xkAllReduce : Nat := 3
def xmNone : Nat := 0
def xmTopk : Nat := 1
def xmSign : Nat := 2

def XRun.reduces (r : XRun) : Bool := r.kind = xkReduceScatter || r.kind = xkAllReduce

/-- The residual buffers that the record reads and writes (R245). -/
def XRun.eRead (r : XRun) : Nat := if r.odd then r.eAddr1 else r.eAddr0
def XRun.eWrite (r : XRun) : Nat := if r.odd then r.eAddr0 else r.eAddr1

/-! ## Replica groups (R242) -/

/-- A group that partition p of this module uses. A byte that names the partition while the bitmap leaves this module out is
no use of the group (DEDUCED, assumption log 22). -/
def State.usesGroup (s : State) (p g : Nat) : Bool :=
  s.groupPartition p g = p && (s.groupMembers p g).contains s.moduleNumber

/-- R, the rank of a module, and this module's rank. -/
def State.ranks (s : State) (p : Nat) (r : XRun) : Nat := (s.groupMembers p r.group).length
def State.rankOf (s : State) (p : Nat) (r : XRun) (m : Nat) : Nat := (s.groupMembers p r.group).idxOf m
def State.myRank (s : State) (p : Nat) (r : XRun) : Nat := s.rankOf p r s.moduleNumber
def State.memberAt (s : State) (p : Nat) (r : XRun) (k : Nat) : Nat := (s.groupMembers p r.group).getD k 0

/-- The other members of a record's group. -/
def State.others (s : State) (p : Nat) (r : XRun) : List Nat := (s.groupMembers p r.group).filter (· ≠ s.moduleNumber)

/-- The first tile of shard k (R243), of a record of R ranks. -/
def XRun.shardLo (r : XRun) (ranks k : Nat) : Nat := k * r.nt / Max.max 1 ranks
def XRun.shardLen (r : XRun) (ranks k : Nat) : Nat := r.shardLo ranks (k + 1) - r.shardLo ranks k

/-- The shard that holds a tile. -/
def XRun.ownerOf (r : XRun) (ranks t : Nat) : Nat :=
  ((List.range ranks).find? fun k => decide (r.shardLo ranks k ≤ t ∧ t < r.shardLo ranks (k + 1))).getD 0

/-! ## Records under way -/

/-- A record that has started and is neither complete nor ended. -/
def XRun.live (r : XRun) : Bool := r.started && !r.complete && !r.ended

/-- The exchange engines of a partition no longer wait for peers (R258, R264). -/
def State.endPeerWait (s : State) (p : Nat) : State :=
  match (s.partn p).peerWait with
  | none => s
  | some t => (s.onPartn p fun x => { x with peerWait := none }).bumpP p 0x80A0 5 (s.now - t)

def State.onX (s : State) (p x : Nat) (f : XRun → XRun) : State :=
  s.onPartn p fun y => { y with xruns := y.xruns.modify x f }

/-- The place of the record of an XID that is started, or that may still start. -/
def Partition.xidAt (x : Partition) (xid : Nat) : Option Nat := x.xruns.findIdx? fun r => r.xid = xid && !r.ended

/-- Send one packet of a record to a member, or to the group's tree from this module's switch; the PSN is answered. -/
def State.sendX (s : State) (p : Nat) (r : XRun) (dst ptype addr : Nat) (body : List Byte) : State × Nat :=
  let vl := s.laneOf p r.prio
  let (s, psn) := s.takePsn p vl
  let tree := ptype = ptMcast && dst = s.moduleNumber
  let k := mkPacket s.moduleNumber p
    { dstMod := dst, dstPart := s.groupPart p r.group dst % 4, ptype := ptype, vl := vl, prio := r.prio,
      mgroup := if tree then r.group else 0, psn := psn, addr := addr, aux := r.xid } body
  (s.send k, psn)

/-- Send a cancel of a record to every other member of its group (R259). -/
def State.cancelX (s : State) (p : Nat) (r : XRun) : State :=
  (s.others p r).foldl (fun s m => (s.sendX p r m ptCancel 0 []).1) s

/-- A segment stops because a record of its schedule ended (R259). -/
def State.stopForX (s : State) (p : Nat) (r : XRun) (cause arg detail : Nat) : State :=
  s.onSegment p r.s r.q fun g => { g with
    cause := if g.cause = 0 then cause else g.cause
    causeArg := if g.cause = 0 then arg else g.causeArg
    detail := if g.cause = 0 then BitVec.ofNat 128 detail else g.detail
    stopAt := if g.stop.isNone then s.now else g.stopAt
    stop := StopKind.withHalt g.stop }

/-- Records leave a partition: each that is not complete is cancelled at its group (R259). -/
def State.cancelWhere (s : State) (p : Nat) (which : XRun → Bool) : State :=
  let gone := (s.partn p).xruns.filter which
  let s := (gone.filter fun r => !r.complete).foldl (fun s r => s.cancelX p r) s
  let s := s.onPartn p fun x => { x with xruns := x.xruns.filter fun r => !which r }
  if (s.partn p).xruns.any XRun.live then s else s.endPeerWait p

/-- The step of a partition is discarded or aborted: its records end (R259); a RUN whose scheduled record ends so ends like one
whose peer cancelled (DEDUCED, assumption log 23). -/
def State.cancelStep (s : State) (p : Nat) : State :=
  let s := ((s.partn p).xruns.filter fun r => r.inStep && r.scheduled && !r.complete && !r.ended).foldl
    (fun s r => s.stopForX p r cauPeerCancelled s.moduleNumber (fld r.xid 96)) s
  s.cancelWhere p fun r => r.inStep

end Sys2Proof.Machine
end

