-- ==== Sys2Proof/Machine/WatchEval.lean ====
section
/-! DEFINITION. The evaluation of the numerics watch (R190 to R198, R476) and the step transitions that a fault, a discard
and an abort make (R226 to R228). -/

namespace Sys2Proof.Machine

/-! ## Tensor scales (R197, R198) -/

/-- A largest-magnitude code that is finite. -/
def finiteCode (w : U32) : Bool := decide (w.toNat < 0x7F800000)

/-- floor_log2 of a positive finite FP32 code. -/
def codeExp (w : U32) : Int :=
  if w.toNat / 2 ^ 23 = 0 then (Nat.log2 w.toNat : Int) - 149 else (w.toNat / 2 ^ 23 : Nat) - (127 : Int)

/-- The FP32 code of 2^e, e limited to -126 to 127. -/
def pow2Code (e : Int) : U32 := BitVec.ofNat 32 (fld (Min.min (Max.max e (-126)) 127 + 127).toNat 23)

/-- The settings that derive a scale (R197): Watch.ScaleMargin and Watch.ScaleWindow. -/
structure ScaleRule where
  margin : Nat
  window : Nat

/-- The settings in force. -/
def State.scaleRule (s : State) (p : Nat) : ScaleRule := { margin := s.setting p 0x4000 2, window := s.setting p 0x4000 1 }

/-- The derived scale of a slot in a format, over its last ScaleWindow committed steps (R197). -/
def derivedScale (r : ScaleRule) (k : Slot) (fmt : Nat) : U32 :=
  let h := ((k.history.drop (k.history.length - r.window)).filter finiteCode).foldl (fun a b => if a.toNat < b.toNat then b else a) 0
  match floatFmt fmt with
  | some g =>
    if k.decl.source = 0 && (fmt < 3 || fmt = 4) && h ≠ 0 then pow2Code (codeExp h - g.emax + r.margin) else 0x3F800000
  | none => 0x3F800000

/-- The bits of a tensor-scale entry but for SCALE (R198). -/
def Slot.entryLow (k : Slot) : Nat :=
  fld k.fmt 92 + fld k.decl.source 90 + fld k.retry 88 + fld k.decl.cls 84 + fld k.decl.tensor.toNat 32 + k.lastAmax.toNat

/-- The lake parts of a slot's entry, if it is usable: writable lake pages that read correctly (R187, R476). -/
def State.entryParts (s : State) (p va : Nat) : Option (List (Target × Nat)) :=
  match s.translateRange p va 16 { write := true } with
  | .error _ => none
  | .ok l =>
    if l.all (fun e => match e.1 with | .lake _ => true | _ => false) && (s.badPart l).isNone then some l else none

/-- Write one entry: of a SUPPLIED slot SCALE only as the slot is installed, when it takes its reset value 1.0 (R187, R198). -/
def State.writeEntry (s : State) (p : Nat) (fresh : Bool) (k : Slot) : Option State :=
  match s.entryParts p k.decl.entry with
  | none => none
  | some l =>
    let low := leBytes 12 k.entryLow
    let scale := if k.decl.source = 1 && !fresh then (s.partBytes l).drop 12 else leBytes 4 k.scale.toNat
    some (s.writeParts l (low ++ scale))

/-- Event 0x4131: a slot's entry cannot be reached (R207, R476). -/
def State.entryLost (s : State) (p slot addr : Nat) : State :=
  let x := s.partn p
  s.raiseP 0x4131 p [slot, ((x.slots[slot]?).map fun k => k.decl.tensor.toNat).getD 0, x.stepOrPeriod, addr]

/-- Write the entries of slots from number i on. The first that cannot be written is answered, with event 0x4131 (R476). -/
def State.writeEntriesFrom (s : State) (p : Nat) (fresh : Bool) : List Slot → Nat → State × Option (Nat × Nat)
  | [], _ => (s, none)
  | k :: r, i =>
    match s.writeEntry p fresh k with
    | some s' => s'.writeEntriesFrom p fresh r (i + 1)
    | none => (s.entryLost p i k.decl.entry, some (i, k.decl.entry))

def State.writeEntries (s : State) (p : Nat) (fresh : Bool) : State × Option (Nat × Nat) :=
  s.writeEntriesFrom p fresh (s.partn p).slots 0

/-- What a slot is at the start of a step or period: declared format, its source's scale, retry and level 0 (R198, R204). -/
def Slot.start (r : ScaleRule) (k : Slot) : Slot :=
  { k with fmt := k.decl.fmt, scale := derivedScale r k k.decl.fmt, retry := 0, retries := 0, widen := 0, a32 := false,
           toldInvalid := false }

/-- Start a step or period: slots, attempts and entries (R67, R198, R203). -/
def State.startSlots (s : State) (p : Nat) (fresh : Bool) : State × Option (Nat × Nat) :=
  (s.onPartn p fun x =>
    { x with slots := x.slots.map (Slot.start (s.scaleRule p)), attempts := [], toldOverflow := [] }).writeEntries p fresh

/-- The T that an engine takes for a tensor while it validates its records (R476): 1 with no slot or no readable entry. -/
def State.entryScale (s : State) (p : Nat) (tensor : U32) : U32 :=
  let x := s.partn p
  match (x.slotOf tensor).bind fun i => x.slots[i]? with
  | none => 0x3F800000
  | some k => match s.entryParts p k.decl.entry with
    | none => 0x3F800000
    | some l => BitVec.ofNat 32 (leNat ((s.partBytes l).drop 12))

/-- The T that an engine reads from the entry of a tensor (R198, R476): 1 with no slot, none where the entry cannot be read.
A SUPPLIED scale that R38 does not accept raises event 0x4130 once a period. -/
def State.readScale (s : State) (p : Nat) (tensor : U32) : State × Option U32 :=
  let x := s.partn p
  match x.slotOf tensor with
  | none => (s, some 0x3F800000)
  | some i =>
    match x.slots[i]? with
    | none => (s, some 0x3F800000)
    | some k =>
      match s.entryParts p k.decl.entry with
      | none => (s, none)
      | some l =>
        let t : U32 := BitVec.ofNat 32 (leNat ((s.partBytes l).drop 12))
        if tensorScale t = .nan && !k.toldInvalid && k.decl.source = 1 then
          ((s.onPartn p fun x => x.onSlot i fun k => { k with toldInvalid := true }).raiseP 0x4130 p
            [i, tensor.toNat, x.stepOrPeriod], some t)
        else (s, some t)

/-- The slot and entry address of a tensor, for SCALE_ENTRY causes. -/
def Partition.entryOf (x : Partition) (tensor : U32) : Nat × Nat :=
  match x.slotOf tensor with
  | none => (0, 0)
  | some i => (i, ((x.slots[i]?).map fun k => k.decl.entry).getD 0)

/-! ## Evaluation (R191 to R196) -/

/-- A share in parts per million (R192). -/
def ppm (n d : Nat) : Nat := if d = 0 then 0 else n * 1000000 / d

def Slot.zeroShare (k : Slot) : Nat := ppm k.zero k.elems
def Slot.flushShare (k : Slot) : Nat := ppm k.flush (k.elems - k.zero - k.nonfin)
def Slot.satShare (k : Slot) : Nat := ppm k.sat k.elems

/-- A run after an evaluation (R193). -/
def nextRun (share limit run : Nat) : Nat := if limit < share then run + 1 else 0

/-- Whether a run that just grew has reached its limit or a multiple of it (R193). -/
def runTold (run limit : Nat) : Bool := run ≠ 0 && limit ≠ 0 && run % limit = 0

/-- The limits of a slot's class (R208). -/
def State.classLimit (s : State) (p : Nat) (k : Slot) (sub : Nat) : Nat := s.setting p (0x4010 + k.decl.cls) sub

/-- A step record (R196). -/
def Slot.record (k : Slot) (step i : Nat) : Nat :=
  fld step 448 + fld k.decl.tensor.toNat 416 + fld i 400 + fld k.decl.cls 396 + fld k.fmt 392 +
  fld (Min.min k.retries 15) 388 + fld k.widen 386 + fld (b2n k.a32) 385 + fld (k.elems % 2 ^ 64) 320 +
  fld (k.zero % 2 ^ 64) 256 + fld (k.flush % 2 ^ 64) 192 + fld k.sat 160 + fld k.nonfin 128 + fld k.amax.toNat 96 +
  fld k.scale.toNat 64 + fld (k.flushRun % 65536) 48 + fld (k.zeroRun % 65536) 32 + k.ovfTiles % 2 ^ 32

/-- Write a record into the watch ring (R196). A position that does not translate takes no record. -/
def State.ringRecord (s : State) (p : Nat) (v : Nat) : State :=
  let n := s.setting p 0x4031 (p + 1)
  if n = 0 then s
  else
    let pos := (s.partn p).ringPos
    let s := match s.vwrite p (s.setting p 0x4030 (p + 1) + 64 * (pos % n)) (leBytes 64 v) with
      | .ok s => s
      | .error _ => s
    s.onPartn p fun x => { x with ringPos := (pos + 1) % n }

/-- A slot with the scale in force: of a SUPPLIED slot what the program has written in its entry (R196, R198). -/
def State.scaleInForce (s : State) (p : Nat) (k : Slot) : Slot :=
  if k.decl.source ≠ 1 then k
  else match s.entryParts p k.decl.entry with
    | none => k
    | some l => { k with scale := BitVec.ofNat 32 (leNat ((s.partBytes l).drop 12)) }

/-- The evaluation of one slot at a commit or a period's end: runs, events and record; history at a commit (R191 to R196,
R198). AMAX of the entry keeps the value of the last committed step in which ELEMS was not zero: whether a step that does not
write the tensor makes it 0 is left open (DESIGN CHOICE, assumption log 138). -/
def State.evalSlot (s : State) (p i : Nat) (commit : Bool) (k : Slot) : State :=
  let step := (s.partn p).stepOrPeriod
  let who := [i, k.decl.tensor.toNat, step]
  if k.elems = 0 then s
  else
    let fl := s.classLimit p k 2
    let zl := s.classLimit p k 3
    let fr := nextRun k.flushShare (s.classLimit p k 1) k.flushRun
    let zr := nextRun k.zeroShare (s.classLimit p k 4) k.zeroRun
    let window := s.setting p 0x4000 1
    let hist := (k.history ++ [k.amax]).drop (k.history.length + 1 - window)
    let k' : Slot := { k with flushRun := fr, zeroRun := zr, history := if commit then hist else k.history,
                              lastAmax := if commit then k.amax else k.lastAmax }
    let s := s.onPartn p fun x => x.onSlot i fun _ => k'
    let s := if k.nonfin ≠ 0 then s.raiseP 0x4101 p who else s
    let s := if runTold fr fl then s.raiseP 0x4103 p (who ++ [fr]) else s
    let s := if runTold zr zl then s.raiseP 0x4104 p (who ++ [zr]) else s
    let s := if s.classLimit p k 5 < k.satShare then s.raiseP 0x4105 p (who ++ [k.satShare]) else s
    s.ringRecord p ((s.scaleInForce p k').record step i)

def State.evalSlots (s : State) (p : Nat) (commit : Bool) : List Slot → Nat → State
  | [], _ => s
  | k :: r, i => (s.evalSlot p i commit k).evalSlots p commit r (i + 1)

/-- A slot with its period's counters cleared. -/
def Slot.clear (k : Slot) : Slot :=
  { k with elems := 0, zero := 0, flush := 0, sat := 0, nonfin := 0, amax := 0, ovfTiles := 0 }

/-- The watch as a step or period begins (R188, R191): what was written before it counts in no evaluation of it, and a repeat does
not take it off again (R205). -/
def Partition.clearWatch (x : Partition) : Partition :=
  { x with slots := x.slots.map Slot.clear, unorderedTotal := 0, toldUnwatched := false
           segments := x.segments.map fun g => { g with counts := [] } }

/-- Check the SCALE of every SUPPLIED slot (R198). -/
def State.checkSupplied (s : State) (p : Nat) (ks : List Slot) : State :=
  (ks.filter fun k => k.decl.source = 1).foldl (fun s k => (s.readScale p k.decl.tensor).1) s

/-- The evaluation at STEP_COMMIT or at a period's end. -/
def State.evaluate (s : State) (p : Nat) (commit : Bool) : State :=
  let x := s.partn p
  let s := s.checkSupplied p x.slots
  let s := s.evalSlots p commit (s.partn p).slots 0
  let s := if s.setting p 0x4000 4 < x.unorderedTotal then
      s.raiseP 0x4120 p [x.stepOrPeriod, x.unorderedTotal] else s
  s.onPartn p Partition.clearWatch

/-- The end of an evaluation period outside steps (R191): the count advances and the next period has not started. -/
def State.endPeriod (s : State) (p : Nat) : State :=
  (s.evaluate p false).onPartn p fun x => { x with periods := x.periods + 1, periodStarted := false }

/-- The evaluation at STEP_SEAL (R194): event 0x4101 for each slot with non-finite values, and the STOP slots. -/
def State.sealEvents (s : State) (p : Nat) : List Slot → Nat → State
  | [], _ => s
  | k :: r, i =>
    (if k.nonfin ≠ 0 then s.raiseP 0x4101 p [i, k.decl.tensor.toNat, (s.partn p).stepOrPeriod] else s).sealEvents p r (i + 1)

/-- The STOP slots with non-finite values, with their numbers. -/
def State.stopSlots (s : State) (p : Nat) : List (Nat × Slot) :=
  let ks := (s.partn p).slots
  ((List.range ks.length).zip ks).filter fun e => e.2.nonfin ≠ 0 && s.classLimit p e.2 6 = 1

/-! ## The step contract (R226 to R228) -/

/-- What a discarded step leaves behind (R191, R227, R229): its counts go to the partition counter only, its gather ledger
and attempts end. -/
def State.rollback (s : State) (p : Nat) : State :=
  let x := s.partn p
  let s := s.bumpP p 0x8060 8 ((x.slots.map fun k => k.nonfin).sum)
  s.onPartn p fun x => { x.clearWatch with ledger := [], attempts := [] }

/-- A step state in which the step has not passed its commit point. -/
def StepState.uncommitted : StepState → Bool
  | .opened | .sealed | .exchanged => true
  | _ => false

/-- Enter DISCARDED (R227): event 0x6150 with the step, the cause, the owner stream and, where a command causes it, that command's
stream and SEQ (R334), and the count. -/
def State.enterDiscarded (s : State) (p cause : Nat) (who : Option (Nat × Nat) := none) : State :=
  let x := s.partn p
  let s := (s.cancelStep p).rollback p
  let s := s.onPartn p fun x => { x with step := .discarded, sweep := none, commitOwed := false }
  (s.bumpP p 0x8070 4 1).raiseP 0x6150 p ([x.stepNo.toNat, cause, x.stepOwner] ++ match who with
    | some (w, q) => [w, q]
    | none => [])

/-- The fault row of Step states: a step before its commit point is discarded. -/
def State.stepFault (s : State) (p cause : Nat) (who : Option (Nat × Nat) := none) : State :=
  if (s.partn p).step.uncommitted then s.enterDiscarded p cause who else s

/-- A transfer fault discards a step that is not yet sealed (R146). -/
def State.transferFault (s : State) (p w q : Nat) : State :=
  if (s.partn p).step = .opened then s.enterDiscarded p cauTransferEnd (some (w, q)) else s

/-- A hard loss without recovery discards a step in any state but IDLE (R368). -/
def State.stepHardLoss (s : State) (p : Nat) : State :=
  if (s.partn p).step = .idle || (s.partn p).step = .discarded then s else s.enterDiscarded p cauHardFault

/-- Back to IDLE without a commit: STEP_DISCARD and the abort row. -/
def State.stepToIdle (s : State) (p : Nat) : State :=
  let s := if (s.partn p).step.uncommitted then (s.cancelStep p).rollback p else s
  s.onPartn p fun x => { x with step := .idle }

/-- STEP_COMMIT's effect, also for the commit that the module owes after an abort (R228, R229): version, watch, cursors,
ledger. -/
def State.commitStep (s : State) (p : Nat) : State :=
  let n := (s.partn p).stepNo
  let s := s.evaluate p true
  let s := (s.stacksOfPart p).foldl (fun s k =>
    if (s.cursor k).step = 0 then s else s.setCursor k { s.cursor k with step := 0 }) s
  s.onPartn p fun x => { x with version := n, step := .idle, ledger := [], attempts := [], commitOwed := false, sweep := none }

/-- The abort row of Step states (R226, R317): what an abort of the owner stream does to the step. -/
def State.abortStep (s : State) (p w : Nat) : State :=
  let x := s.partn p
  if x.stepOwner ≠ w then s
  else match x.step with
    | .idle => s
    | .opened | .sealed | .exchanged | .discarded => s.stepToIdle p
    | .sweeping | .swept => s.onPartn p fun x => { x with commitOwed := true }

end Sys2Proof.Machine
end

