-- ==== Sys2Proof/Machine/Springs.lean ====
section
/-! DEFINITION. Springs, command movers and stair chains (R120 to R148, R475). -/

namespace Sys2Proof.Machine

/-! ## Descriptor fields (R122) -/

def Desc.n (d : Desc) : Nat := d.raw.toNat
def Desc.f (d : Desc) (hi lo : Nat) : Nat := bits d.n hi lo
def Desc.cnt (d : Desc) (i : Nat) : Nat := d.f (831 + 16 * i) (816 + 16 * i)
def Desc.sstr (d : Desc) (i : Nat) : Int := sext 32 (d.f (687 + 32 * i) (656 + 32 * i))
def Desc.dstr (d : Desc) (i : Nat) : Int := sext 32 (d.f (527 + 32 * i) (496 + 32 * i))
def Desc.sspace (d : Desc) : Nat := d.f 495 492
def Desc.dspace (d : Desc) : Nat := d.f 491 488
def Desc.prio (d : Desc) : Nat := d.f 479 477
def Desc.sunit (d : Desc) : Bool := bit d.n 476
def Desc.dunit (d : Desc) : Bool := bit d.n 475
def Desc.rnd (d : Desc) : Bool := bit d.n 474
def Desc.dcvt (d : Desc) : Nat := d.f 473 470
def Desc.mark (d : Desc) : Nat := d.f 469 454
def Desc.markEn (d : Desc) : Bool := bit d.n 453
def Desc.tensor (d : Desc) : Nat := d.f 452 421
def Desc.tmatch (d : Desc) : Bool := bit d.n 420
def Desc.stairStart (d : Desc) : Nat := d.f 419 409
def Desc.stairLen (d : Desc) : Nat := d.f 408 402
def Desc.markMode (d : Desc) : Bool := bit d.n 401
def Desc.shape (d : Desc) : List Nat := [d.f 400 369, d.f 368 337, d.f 336 321, d.f 320 305, d.f 304 289]

/-- Address spaces (R123). -/
def spPond : Nat := 0
def spGallery : Nat := 1
def spVirt : Nat := 2
def spLanding : Nat := 3
def spStair : Nat := 4

/-- N, the tiles of a descriptor (R125). -/
def Desc.total (d : Desc) : Nat := ((List.range 5).map d.cnt).foldl (· * ·) 1

/-- The loop indices i0 to i4 of tile t. -/
def Desc.index (d : Desc) (t : Nat) : List Nat :=
  let q1 := t / d.cnt 0
  let q2 := q1 / d.cnt 1
  let q3 := q2 / d.cnt 2
  [t % d.cnt 0, q1 % d.cnt 1, q2 % d.cnt 2, q3 % d.cnt 3, q3 / d.cnt 3]

/-- An address of tile t, modulo 2^64. -/
def Desc.place (d : Desc) (base : Nat) (str : Nat → Int) (t : Nat) : Nat :=
  let off : Int := ((d.index t).zipIdx.map fun e => (e.1 : Int) * str e.2).sum * 64
  (((base : Int) + off) % (2 ^ 64 : Int)).toNat

def Desc.src (d : Desc) (t : Nat) : Nat := d.place (d.f 1023 960) d.sstr t
def Desc.dst (d : Desc) (t : Nat) : Nat := d.place (d.f 959 896) d.dstr t

/-! ## The checks at SPR and MOVE (R124, R308) -/

/-- The checks that springs and command movers share. -/
def descBad (s : State) (d : Desc) : Bool :=
  let aligned := fun sp (a : Nat) => sp = spVirt || a % 64 = 0
  let dieGone := fun sp (a : Nat) => sp = spLanding && !s.part.hasDie (bits a 33 32)
  let sr := d.dcvt ≠ 15 && !d.sunit && d.rnd
  4 < d.sspace || 4 < d.dspace || d.sspace = spStair ||
  dieGone d.sspace (d.f 1023 960) || dieGone d.dspace (d.f 959 896) ||
  (List.range 5).any (fun i => d.cnt i = 0) || 2 ^ 40 < d.total ||
  !aligned d.sspace (d.f 1023 960) || !aligned d.dspace (d.f 959 896) ||
  (d.sunit && (d.sspace ≠ spVirt || 8 < d.dcvt || needsScale d.dcvt)) || (d.dunit && d.dspace ≠ spVirt) ||
  (8 < d.dcvt && d.dcvt < 15) || (if sr then d.shape.any (· = 0) else d.shape.any (· ≠ 0)) ||
  d.f 288 0 ≠ 0

/-- The members of a stair chain, as global core numbers (R139). -/
def Desc.members (d : Desc) (core : Nat) : List Nat :=
  (List.range d.stairLen).map fun k => hallOf core * coresPerHall + d.stairStart + k

/-- SPR refuses a descriptor on spring k of core c (Descriptor checks at SPR). -/
def sprRefused (s : State) (c k : Nat) (d : Desc) : Bool :=
  let inbound := k < 2
  let inSeg := match s.segOf c with
    | none => fun _ => false
    | some g => fun m => g.cores.contains m
  (if inbound then (d.dspace ≠ spPond && d.dspace ≠ spStair) || d.sspace = spPond
   else d.sspace ≠ spPond || d.dspace = spPond) ||
  (inbound && d.dspace = spStair && d.sspace ≠ spVirt && d.sspace ≠ spLanding) ||
  descBad s d ||
  (d.dspace = spStair && (d.stairLen = 0 || 96 < d.stairLen || coresPerHall < d.stairStart + d.stairLen ||
    (d.members c).any fun m => !inSeg m))

/-- A MOVE's descriptor is refused (R308). -/
def moveRefused (s : State) (d : Desc) : Bool :=
  (d.sspace ≠ spVirt && d.sspace ≠ spLanding) || (d.dspace ≠ spVirt && d.dspace ≠ spLanding) ||
  d.f 487 480 ≠ 0 || d.stairStart ≠ 0 || d.stairLen ≠ 0 || d.markMode || descBad s d

/-! ## Queues -/

/-- The number of a command mover in the table of movers. -/
def moverKey (die idx : Nat) : Nat := die * 8 + idx

def State.queue (s : State) : MoverRef → List Desc
  | .spring c k => (s.core c).spring k
  | .command die i => s.movers.get (moverKey die i) []

def State.setQueue (s : State) (m : MoverRef) (l : List Desc) : State :=
  match m with
  | .spring c k => s.onCore c fun x => x.setSpring k l
  | .command die i => { s with movers := s.movers.put (moverKey die i) l [] }

/-- Change one descriptor of a queue. -/
def State.changeDesc (s : State) (m : MoverRef) (d d' : Desc) : State :=
  s.setQueue m ((s.queue m).set ((s.queue m).idxOf d) d')

def State.dropDesc (s : State) (m : MoverRef) (d : Desc) : State := s.setQueue m ((s.queue m).erase d)

/-- The descriptor that is being served. -/
def State.activeDesc (s : State) (m : MoverRef) : Option Desc := (s.queue m).find? fun d => d.st = .active

/-- The core whose pond a mover reads and writes as its own. -/
def moverCore : MoverRef → Nat
  | .spring c _ => c
  | .command _ _ => 0

/-- The mover may move tiles of a descriptor: its segment runs and is not stopping, or its MOVE runs (R110, R202, R317). -/
def State.mayMove (s : State) (m : MoverRef) (d : Desc) : Bool :=
  s.working &&
  match m with
  | .spring c _ => match s.segOf c with
    | some g => g.stop.isNone
    | none => false
  | .command _ _ => match s.cmd d.origin.1 d.origin.2.1 d.origin.2.2 with
    | some k => k.phase = .running
    | none => false

/-- Every mover that holds descriptors: springs of every core, command movers. -/
def State.allMovers (s : State) : List MoverRef :=
  (s.cores.flatMap fun e => e.2.springs.map fun f => MoverRef.spring e.1 f.1) ++
  s.movers.map fun e => MoverRef.command (e.1 / 8) (e.1 % 8)

/-! ## SPR (R98, R121) -/

/-- Hand the descriptor to the queue; it is read from the pond now (R121). -/
def sprAct (c t : Nat) (w : U32) (s : State) : State :=
  let k := s.core c
  let h := k.thread t
  let a := (h.reg (wbits w 19 15)).toNat
  let j := wbits w 21 20
  if !inPond a 128 then haltAt haltPondRange a c t w s
  else if a % 64 ≠ 0 then haltAt haltAlign a c t w s
  else if k.pondBadAt a 128 then haltAt haltPondEcc a c t w s
  else
    let origin := match k.seg with
      | some o => o
      | none => (0, 0, 0)
    let (s', layer) := (s.correctPond c a 128).enterLayer c h.pc
    let d : Desc := { raw := BitVec.ofNat 1024 (leNat (k.pond.bytes a 128)), addr := a, thread := t, pc := h.pc, word := w,
                      layer := layer, origin := origin }
    if sprRefused s c j d then haltAt haltSpringDesc 0 c t w (s.correctPond c a 128)
    else
      let d := if d.dspace = spStair then
          { d with stair := (d.members c).map fun m => { core := m } }
        else d
      s'.onCore c fun k => (k.setSpring j (k.spring j ++ [d])).setThread t
        { h.advance with outstanding := h.outstanding + 1, st := .ready }

/-- A full queue of 16 makes the thread wait (R121). -/
def sprQueued (c t : Nat) (w : U32) (s : State) : State :=
  if 16 ≤ ((s.core c).spring (wbits w 21 20)).length then
    s.onThread c t fun h => { h with st := .waiting (.queueFull (.spring (wbits w 21 20)) w) }
  else sprAct c t w s

/-- SPR's reserved bits [14:0]. -/
def sprChecked (c t : Nat) (w : U32) (s : State) : State := reserveChecked (fun w => wbits w 14 0 ≠ 0) (lockChecked sprQueued) c t w s

/-- R121. SPR. -/
def execSpr (c t : Nat) (w : U32) (s : State) : Res := .next (issue (isOp 0x1C) sprChecked c t w s)

/-! ## The end of a descriptor (R126, R146, R148) -/

/-- Halt codes for springs. -/
def spPartial : Nat := 0x0C
def spCheck : Nat := 0x0D
def spPondEcc : Nat := 0x0E
def spPeer : Nat := 0x0F
def spConvert : Nat := 0x18
def spRange : Nat := 0x19
def spLakeEcc : Nat := 0x1A

/-- A completed or ended SPR no longer counts for its thread's WAITQ (R89). -/
def State.descGone (s : State) (m : MoverRef) (d : Desc) : State :=
  let s := s.dropDesc m d
  let s := { s with fabric := { s.fabric with remotes := s.fabric.remotes.filter fun r =>
    !(r.mover = m && d.flights.any fun f => f.psn = some r.psn) } }
  match m with
  | .spring c _ => s.onThread c d.thread fun h => { h with outstanding := h.outstanding - 1 }
  | .command _ _ => s

/-- A descriptor ends with its cursor for a cause: the halt of R148 and the segment's stop, or the MOVE's PARTIAL; a step not
yet sealed is discarded (R146). -/
def State.endDesc (s : State) (m : MoverRef) (d : Desc) (code vaddr : Nat) : State :=
  let s := s.descGone m d
  match m with
  | .spring c _ => s.halt c d.thread d.pc d.word code d.addr
  | .command _ _ =>
    let o := d.origin
    let s := s.complete o.1 o.2.1 o.2.2 { status := stPartial, cause := cauTransferEnd, arg := code,
                                          detail := fld d.cursor 64 + vaddr % 2 ^ 48 }
    s.transferFault o.1 o.2.1 o.2.2

/-- Every tile is delivered: the descriptor leaves its queue, and its MOVE completes OK (R313). -/
def State.finishDesc (s : State) (m : MoverRef) (d : Desc) : State :=
  let s := s.descGone m d
  match m with
  | .spring _ _ => s
  | .command _ _ => s.complete d.origin.1 d.origin.2.1 d.origin.2.2 .ok

/-- The status that an abort or a FENCE STOP gives a MOVE that it has won (R316, R317, R319). -/
def State.moveWon (s : State) (m : MoverRef) (d : Desc) : Option Nat :=
  match m with
  | .spring _ _ => none
  | .command _ _ =>
    match s.cmd d.origin.1 d.origin.2.1 d.origin.2.2 with
    | none => none
    | some k => if k.phase = .aborting then some stAborted else if k.phase = .stopping then some stPartial else none

/-- The faulting address of a parked descriptor, for a MOVE's completion (R312). -/
def Desc.faultAddr (d : Desc) : Nat :=
  match d.st with
  | .parked _ _ _ va => va
  | _ => 0

/-- A MOVE that an abort or a FENCE STOP ends does so at a tile boundary, when no tile is in flight (R317, R319). The halt code of its
record is 0 (R312). -/
def State.settleMove (s : State) (m : MoverRef) (d : Desc) : State :=
  match s.moveWon m d with
  | none => s
  | some st =>
    if !d.flights.isEmpty then s
    else
      (s.descGone m d).complete d.origin.1 d.origin.2.1 d.origin.2.2
        { status := st, cause := cauTransferEnd, detail := fld d.cursor 64 + d.faultAddr % 2 ^ 48 }

/-! ## Page faults and other stops at a tile (R126, R128, R143 to R147, R475) -/

/-- Park a descriptor at tile t, its cursor (R143): the fault record is posted. -/
def State.parkDesc (s : State) (m : MoverRef) (d : Desc) (t : Nat) (side : Bool) (kind addr : Nat) : State :=
  let p := d.origin.1
  let x := s.partn p
  let first := d.firstFault.getD s.now
  let r : FaultRec :=
    { id := BitVec.ofNat 32 x.faultSeq
      core := match m with
        | .spring c _ => c
        | .command die i => 0x1F00 + 8 * die + i
      spring := match m with
        | .spring _ k => k
        | .command _ _ => 0
      side := side, kind := kind, vaddr := BitVec.ofNat 64 addr, cursor := t
      desc := match m with
        | .spring _ _ => d.addr / 64
        | .command _ _ => 0
      age := s.now - first, mover := m, stream := d.origin.2.1, seq := d.origin.2.2 }
  let s := s.onPartn p fun x => { x with faultSeq := (x.faultSeq + 1) % 2 ^ 32 }
  let d' : Desc := { d with
    stopAt := none
    st := .parked x.faultSeq s.now (s.setting p (0x3020 + p) 1) addr
    firstFault := some first }
  let s := s.changeDesc m d d'
  (s.bumpP p 0x8040 1 1).queueFault p r

/-- Tile t cannot be moved: no further tile is issued, the tiles in flight before it go on, it and what follows it are
discarded. An earlier tile that has stopped the descriptor stays the one that does. -/
def Desc.stopped (d : Desc) (now t : Nat) (w : DescStop) : Desc :=
  if d.stopAt.any fun e => e.1 ≤ t then d
  else { d with
    st := .queued
    next := Max.max d.injected t
    flights := d.flights.filter fun e => e.tile < t
    stopAt := some (t, w)
    firstFault := match w with
      | .fail _ => d.firstFault
      | .fault _ _ _ => some (d.firstFault.getD now) }

/-- Once the tiles before the one that stopped it are delivered, the descriptor ends or parks with its cursor there. One whose MOVE
an abort or a FENCE STOP has won neither parks nor ends for the tile: it ends as that does (R317, R319). -/
def State.settleStop (s : State) (m : MoverRef) (d : Desc) : State :=
  match d.stopAt with
  | none => s
  | some (t, w) =>
    if d.cursor < t then s
    else if (s.moveWon m d).isSome then s.settleMove m d
    else match w with
      | .fail code => s.endDesc m d code 0
      | .fault side kind addr => s.parkDesc m d t side kind addr

/-- The answers to the tiles of a descriptor from t on are not awaited any more. -/
def State.dropRemotes (s : State) (m : MoverRef) (d : Desc) (t : Nat) : State :=
  { s with fabric := { s.fabric with remotes := s.fabric.remotes.filter fun r =>
    !(r.mover = m && r.member.isNone && decide (t ≤ r.tile) && d.flights.any fun f => f.psn = some r.psn && f.tile = r.tile) } }

/-- Stop a descriptor at tile t. -/
def State.stopDesc (s : State) (m : MoverRef) (d : Desc) (t : Nat) (w : DescStop) : State :=
  let d' := d.stopped s.now t w
  ((s.dropRemotes m d t).changeDesc m d d').settleStop m d'

/-- A tile that the program could not read holds tensor-scale entries that are out of reach: event 0x4131 for each (R476). -/
def State.noteEntries (s : State) (d : Desc) (t : Nat) : State :=
  let p := d.origin.1
  if d.sspace ≠ spVirt then s
  else (((s.partn p).slots.zipIdx.filter fun e => decide (d.src t < e.1.decl.entry + 16 ∧ e.1.decl.entry < d.src t + frameBytes) &&
      (s.entryParts p e.1.decl.entry).isNone).foldl (fun s e => s.entryLost p e.2 e.1.decl.entry) s)

/-- Stop it for a translation fault; an entry that read uncorrectable is reported (R160). -/
def State.faultDesc (s : State) (m : MoverRef) (d : Desc) (t : Nat) (side : Bool) (f : XFault) : State :=
  let s := if side then s else s.noteEntries d t
  (s.noteFault d.origin.1 f).stopDesc m d t (.fault side f.kind f.addr)

/-! ## Reading a source tile (R125, R126, R475) -/

/-- What reading a source tile gives. -/
inductive SrcRead where
  | frame (f : List Byte)
  | remote (module vaddr : Nat)
  | fault (f : XFault)
  | failed (why : ReadFailure)
  | range
  | latched
  | awaited
deriving DecidableEq, Repr

/-- The core of a GALLERY space (R123). -/
def galleryCore (c k : Nat) : Nat := c / 16 * 16 + k

/-- The place of a LANDING address in the landing's bytes (R123, R475). An address with any of bits [63:34] set passes SPR and lies
outside the space here (DEDUCED, assumption log 135). -/
def State.landingPlace (s : State) (p a n : Nat) : Option (Nat × Nat) :=
  if a < 2 ^ 34 && s.part.hasDie (a / 2 ^ 32) && a % 2 ^ 32 + n ≤ s.landingShare p then
    some (a / 2 ^ 32, s.landingBase p + a % 2 ^ 32)
  else none

/-- A range that lies wholly in consecutive addresses of one peer (R274). -/
def wholePeer : List (Target × Nat) → Option (Nat × Nat)
  | [] => none
  | (.peer m v, n) :: r =>
    if r.isEmpty then some (m, v)
    else match wholePeer r with
      | some (m', v') => if m' = m && v' = v + n then some (m, v) else none
      | none => none
  | _ :: _ => none

/-- Check a frame against CHECK and TMATCH (R126). -/
def frameFits (d : Desc) (f : List Byte) : Bool :=
  frameCheckOk f && (!d.tmatch || (frameHeader f).tensor = d.tensor)

/-- Build the frame of a payload under SUNIT (R129). -/
def sunitFrame (x : Partition) (d : Desc) (t : Nat) (payload : List Byte) : List Byte :=
  let i := d.index t
  mkFrame { version := x.writeVersion, tensor := d.tensor, fmt := d.dcvt
            origin0 := i.getD 0 0 * tileCols d.dcvt % 2 ^ 32, origin1 := i.getD 1 0 * tileRows d.dcvt % 2 ^ 32
            origin2 := i.getD 2 0, origin3 := i.getD 3 0, origin4 := i.getD 4 0 }
    (List.replicate 512 0) payload

/-- The frame that has arrived in a landing for a mover and tile (R127). -/
def moverTag : MoverRef → Nat
  | .spring c k => c * 4 + k
  | .command die i => 0x10000 + moverKey die i

def State.stagedFor (s : State) (m : MoverRef) (t : Nat) : Option (List Byte) :=
  s.fabric.landings.findSome? fun e => (e.2.staged.find? fun f => f.1 = moverTag m && f.2.1 = t).map (·.2.2)

def State.unstage (s : State) (m : MoverRef) (t : Nat) : State :=
  let ls := s.fabric.landings.map fun e =>
    (e.1, { e.2 with staged := e.2.staged.filter fun f => !(f.1 = moverTag m && f.2.1 = t) })
  { s with fabric := { s.fabric with landings := ls } }

/-- A part of a range lies in host memory: its frames pass through the landing of die 0 (R17). -/
def anyHost (l : List (Target × Nat)) : Bool := l.any fun e => match e.1 with | .host _ => true | _ => false

/-- Read the source of tile t. -/
def State.readSource (s : State) (m : MoverRef) (d : Desc) (t : Nat) : SrcRead :=
  let p := d.origin.1
  let a := d.src t
  let checked := fun f => if frameFits d f then SrcRead.frame f else .failed .check
  let pond := fun c =>
    if !inPond a frameBytes then .range
    else if (s.core c).latch then .latched
    else if (s.core c).pondBadAt a frameBytes then .failed .pondEcc
    else checked ((s.core c).pond.bytes a frameBytes)
  if d.sspace = spPond then pond (moverCore m)
  else if d.sspace = spGallery then pond (galleryCore (moverCore m) (d.f 487 484))
  else if d.sspace = spLanding then
    match s.landingPlace p a frameBytes with
    | none => .range
    | some (die, o) => checked ((s.landing die).mem.bytes o frameBytes)
  else
    match s.translateRange p a (if d.sunit then 4096 else frameBytes) { unit := d.sunit } with
    | .error f => .fault f
    | .ok l =>
      if anyPeer l then
        match wholePeer l with
        | some (q, v) => .remote q v
        | none => .fault { kind := 3, addr := a }
      else match s.badPart l with
        | some pa => .failed (.lakeEcc pa)
        | none =>
          let unit := fun bs => if d.sunit then SrcRead.frame (sunitFrame (s.partn p) d t bs) else checked bs
          if anyHost l then match s.stagedFor m t with
            | some b => unit b
            | none => .awaited
          else unit (s.partBytes l)

/-! ## Writing a destination tile -/

/-- Where a tile goes. -/
inductive DstPlace where
  | parts (l : List (Target × Nat))
  | pond (core addr : Nat)
  | landing (die off : Nat)
  | remote (module vaddr : Nat)
  | stair (addr : Nat)
  | fault (f : XFault)
  | range
deriving DecidableEq, Repr

def State.dstPlace (s : State) (m : MoverRef) (d : Desc) (t : Nat) : DstPlace :=
  let p := d.origin.1
  let a := d.dst t
  let n := if d.dunit then 4096 else frameBytes
  if d.dspace = spPond then (if inPond a frameBytes then .pond (moverCore m) a else .range)
  else if d.dspace = spGallery then
    (if inPond a frameBytes then .pond (galleryCore (moverCore m) (d.f 483 480)) a else .range)
  else if d.dspace = spStair then (if inPond a frameBytes then .stair a else .range)
  else if d.dspace = spLanding then
    match s.landingPlace p a frameBytes with
    | none => .range
    | some (die, o) => .landing die o
  else
    match s.translateRange p a n { write := true, unit := d.dunit } with
    | .error f => .fault f
    | .ok l =>
      if anyPeer l then
        match wholePeer l with
        | some (q, v) => .remote q v
        | none => .fault { kind := 3, addr := a }
      else .parts l

/-- The partition at a peer, or KIND 0x3 (R274). -/
def State.peerFault (s : State) (p q a : Nat) : Option XFault :=
  if (s.peerPartition p q).isNone then some { kind := 3, addr := a } else none

/-- Seed and step of the rounding stream of a descriptor (R47). -/
def State.descSeed (s : State) (m : MoverRef) (d : Desc) : U64 × U64 :=
  let x := s.partn d.origin.1
  match m with
  | .spring c _ => match s.segOf c with
    | some g => (g.seed, g.stepKey)
    | none => (0, 0)
  | .command _ _ =>
    if x.inStep then (x.stepSeed, x.stepNo) else (0, BitVec.ofNat 64 (2 ^ 63 + d.origin.2.2 % 2 ^ 48))

/-- A frame converted (R128): its bytes, the tally, and R39's flag; none when the header does not fit DCVT, or when its BLK is not
permitted for its own FMT (DEDUCED, assumption log 135). -/
structure Converted where
  frame : List Byte
  tally : Tally
  flagged : Bool

def convertFrame (d : Desc) (seed step : U64) (f : List Byte) : Option Converted :=
  let h := frameHeader f
  let g := d.dcvt
  let takes := needsScale g || g = 4
  if fmtWidth h.fmt ≠ fmtWidth g || fmtWidth g = 0 || !blkPermitted h.fmt h.blk then none
  else if needsScale g && blkSize h.blk = 0 then none
  else if takes && !blkPermitted g h.blk then none
  else
    let blk := if takes then h.blk else 0
    let n := d.shape
    let vals := (tileExact h.fmt h.blk (frameSidecar f) (framePayload f)).map fun r =>
      if fmtIsInt h.fmt then r else r.map r32
    let rows := vals.zipIdx.map fun e => e.1.zipIdx.map fun v =>
      ({ v := some v.1
         idx := logicalIndex (n.getD 3 0) (n.getD 2 0) (n.getD 1 0) (n.getD 0 0) h.origin4 h.origin3 h.origin2
           (h.origin1 + e.2) (h.origin0 + v.2) } : OutEl)
    let key : RsKey := { seed := seed, step := step, tensor := BitVec.ofNat 32 h.tensor, purpose := 1, draw := 0 }
    let o := writeTile { fmt := g, blk := blk, rnd := d.rnd, key := key, rt := .fin 1 } (fun _ => .fin 1) rows
    let v := frameHead f
    let head := v - fld (bits v 255 248) 248 + fld g 252 + fld blk 249 + fld (b2n o.flagged) 248
    some { frame := frameSeal (leBytes 64 head ++ o.sidecar ++ o.payload), tally := o.tally, flagged := o.flagged }

/-- Write a frame, or its payload, at a place. -/
def State.writePlace (s : State) (d : Desc) (pl : DstPlace) (f : List Byte) : State :=
  let bs := if d.dunit then framePayload f else f
  match pl with
  | .parts l => s.writeParts l bs
  | .pond c a => s.onCore c fun k => k.pondWrite a f
  | .landing die o =>
    let l := s.landing die
    s.setLanding die { l with mem := l.mem.putBytes o f }
  | _ => s

/-- Send a packet of a descriptor, or of a detached member of its stair chain, to a peer, and remember that it is unanswered
(R276). -/
def State.sendRemote (s : State) (m : MoverRef) (d : Desc) (t q v : Nat) (body : List Byte) (member : Option Nat := none) :
    State × Nat :=
  let p := d.origin.1
  let vl := s.laneOf p d.prio
  let wr := !body.isEmpty
  let (s, psn) := s.takePsn p vl
  let k := mkPacket s.moduleNumber p
    { dstMod := q, dstPart := (s.peerPartition p q).getD 0, ptype := if wr then ptWrite else ptReadReq, vl := vl, prio := d.prio,
      psn := psn, addr := v } body
  let r : Remote := { p := p, psn := psn, vl := vl, mover := m, tile := t, write := wr, packet := k, attempts := 1, since := s.now,
                      member := member }
  let s := s.send k
  ({ s with fabric := { s.fabric with remotes := s.fabric.remotes ++ [r] } }, psn)

/-- The flight of a tile, made or replaced. -/
def Desc.fly (d : Desc) (t : Nat) (written : Bool) (psn : Option Nat) (frame : Option (List Byte)) : Desc :=
  { d with next := Max.max d.next (t + 1)
           flights := (d.flights.filter fun f => f.tile ≠ t) ++ [{ tile := t, written := written, psn := psn, frame := frame }] }

/-! ## Stair chains: members and skid buffers (R139, R140) -/

/-- The first member of a chain from k on that is not detached. -/
def memberFrom (l : List StairMember) (k : Nat) : Option Nat :=
  ((List.range l.length).filter (k ≤ ·)).find? fun j => match l[j]? with
    | some x => !x.detached
    | none => false

/-- The next member downstream of k that is not detached. -/
def nextMember (l : List StairMember) (k : Nat) : Option Nat := memberFrom l (k + 1)

/-- A frame may pass from upstream of member `lo` to member `hi`: it has room, and no frame of a detached member between
them is ahead of it (R140, R142). -/
def passable (l : List StairMember) (lo hi : Nat) : Bool :=
  ((l.take hi).drop lo).all (fun x => x.skid.isEmpty) && match l[hi]? with
    | some x => x.skid.length < 2
    | none => false

/-- A frame enters a member's skid buffer. -/
def pushSkid (l : List StairMember) (j t : Nat) (f : List Byte) : List StairMember :=
  l.modify j fun y => { y with skid := y.skid ++ [{ tile := t, frame := f, written := false }] }

/-- The blocking member (R142): furthest downstream, with a full skid buffer while its downstream neighbour's is not, or the
last member with a full one. -/
def blockingMember (l : List StairMember) : Option Nat :=
  let full := fun j => match l[j]? with
    | some x => !x.detached && 2 ≤ x.skid.length
    | none => false
  ((List.range l.length).reverse).find? fun j => full j && match nextMember l j with
    | none => true
    | some i => !full i

/-- Note since when a member blocks. -/
def noteBlocking (now : Nat) (l : List StairMember) : List StairMember :=
  let b := blockingMember l
  l.zipIdx.map fun e =>
    if b = some e.2 then { e.1 with blockingSince := some (e.1.blockingSince.getD now) } else { e.1 with blockingSince := none }

/-- The frames that a spring holds enter the chain in order while the first member has room (R140); at most n of them. -/
def Desc.inject : Nat → Desc → Desc
  | 0, d => d
  | n + 1, d =>
    match d.flights.find? fun e => e.tile = d.injected with
    | some { frame := some f, .. } =>
      let d' : Desc := { d with injected := d.injected + 1, flights := d.flights.filter fun e => e.tile ≠ d.injected }
      (match memberFrom d.stair 0 with
      | none => Desc.inject n d'
      | some j => if passable d.stair 0 j then Desc.inject n { d' with stair := pushSkid d.stair j d.injected f } else d)
    | _ => d

/-- A chain after a change of its members: what can enter it does, and the blocking member is noted. -/
def Desc.settleStair (d : Desc) (now : Nat) : Desc :=
  let d := Desc.inject 4 d
  { d with stair := noteBlocking now d.stair }

/-! ## Moving a tile (R125, R128) -/

/-- The conversion of a frame under DCVT; a frame that keeps its format, and one built under SUNIT, pass as they are. -/
def State.converted (s : State) (m : MoverRef) (d : Desc) (f : List Byte) : Option Converted :=
  if d.dcvt = 15 || d.sunit then some { frame := f, tally := {}, flagged := false }
  else convertFrame d (s.descSeed m d).1 (s.descSeed m d).2 f

/-- Classify a converted tile once (R46, R128); payload-only transfers are not counted (R189). -/
def State.tallyTile (s : State) (m : MoverRef) (d : Desc) (t : Nat) (tensor : U32) (o : Converted) : State × Desc :=
  if d.dcvt = 15 || d.sunit || d.dunit || d.tallied.contains t then (s, d)
  else
    let seg := match m with
      | .spring c _ => (s.core c).seg.map fun o => (o.2.1, o.2.2, d.layer)
      | .command _ _ => none
    let d' : Desc := { d with tallied := d.tallied ++ [t] }
    ((s.tally d.origin.1 seg tensor o.tally).changeDesc m d d', d')

/-- Put a converted tile at its destination: written, sent to a peer, held for the chain, or held in the landing of die 0 until
it leaves for the host (R17, R125, R140, R276). -/
def State.putDesc (s : State) (m : MoverRef) (d : Desc) (t : Nat) (pl : DstPlace) (f : List Byte) : State :=
  match pl with
  | .remote q v =>
    let (s, psn) := s.sendRemote m d t q v f
    s.changeDesc m d (d.fly t false (some psn) none)
  | .stair _ => s.changeDesc m d ((d.fly t false none (some f)).settleStair s.now)
  | .parts l =>
    if anyHost l then s.changeDesc m d (d.fly t false none (some f))
    else (s.writePlace d pl f).changeDesc m d (d.fly t true none none)
  | pl => (s.writePlace d pl f).changeDesc m d (d.fly t true none none)

/-- R39's flag on a tile that a mover has converted: the overflow of its layer (R200), and whether the tile is held back with no
byte of it written. -/
def State.flagTile (s : State) (m : MoverRef) (d : Desc) (tensor : U32) (flagged : Bool) : State × Bool :=
  if !flagged then (s, false) else match m with
    | .spring c _ => s.overflow c d.layer tensor false
    | .command _ _ => (s.notRecovered d.origin.1 tensor, false)

/-- Move a verified frame on: find its destination, convert and classify it, then put it there (R125, R128). A tile that its
overflow holds back is in flight no longer (R200, R202). -/
def State.placeTile (s : State) (m : MoverRef) (d : Desc) (t : Nat) (f : List Byte) : State :=
  let p := d.origin.1
  let s := s.unstage m t
  match s.dstPlace m d t with
  | .fault e => s.faultDesc m d t true e
  | .range => s.stopDesc m d t (.fail spRange)
  | pl =>
    let refused := match pl with
      | .remote q _ => s.peerFault p q (d.dst t)
      | _ => none
    match refused with
    | some e => s.faultDesc m d t true e
    | none =>
      match s.converted m d f with
      | none => s.stopDesc m d t (.fail spConvert)
      | some o =>
        let tensor : U32 := BitVec.ofNat 32 (frameHeader f).tensor
        let (s, d) := s.tallyTile m d t tensor o
        let (s, held) := s.flagTile m d tensor o.flagged
        if held then s.changeDesc m d { d with flights := d.flights.filter fun e => e.tile ≠ t }
        else s.putDesc m d t pl o.frame

/-- Whether the next tile may be moved now: at most four frames in flight (R125), and for a chain a member that it goes to. -/
def Desc.room (d : Desc) : Bool :=
  decide (d.next < d.total) && d.stopAt.isNone && decide (d.flights.length < 4) &&
    (d.dspace ≠ spStair || (memberFrom d.stair 0).isSome)

/-- Act on what reading the source of tile t gave. `again` is what a failed read does. A fault of the source stands before a
range, and that before a fault of the destination (DEDUCED, assumption log 135). -/
def State.onSource (s : State) (m : MoverRef) (d : Desc) (t : Nat) (again : ReadFailure → State → State) : State :=
  let p := d.origin.1
  match s.dstPlace m d t, s.readSource m d t with
  | _, .fault e => s.faultDesc m d t false e
  | _, .range => s.stopDesc m d t (.fail spRange)
  | .range, _ => s.stopDesc m d t (.fail spRange)
  | .fault e, _ => s.faultDesc m d t true e
  | _, .latched => s
  | _, .awaited => s
  | _, .failed why => again why s
  | _, .remote q v =>
    match s.peerFault p q (d.src t) with
    | some e => s.faultDesc m d t false e
    | none =>
      let (s, psn) := s.sendRemote m d t q v []
      s.changeDesc m d (d.fly t false (some psn) none)
  | _, .frame f => s.placeTile m d t f

/-- An uncorrectable lake read is reported each time it happens (R160). -/
def State.noteFailure (s : State) (p : Nat) : ReadFailure → State
  | .lakeEcc pa => s.lakeUncorrectable p pa
  | _ => s

/-- A pond source is read: its single-bit errors are corrected and counted (R118). -/
def State.readPond (s : State) (m : MoverRef) (d : Desc) (t : Nat) : State :=
  if d.sspace = spPond then s.correctPond (moverCore m) (d.src t) frameBytes
  else if d.sspace = spGallery then s.correctPond (galleryCore (moverCore m) (d.f 487 484)) (d.src t) frameBytes
  else s

/-- A descriptor that has been read a first time in vain. -/
def DescState.rereads : DescState → Bool
  | .reread _ _ _ _ => true
  | _ => false

/-- A descriptor of a higher level waits to be served (R137). -/
def State.outranked (s : State) (m : MoverRef) (d : Desc) : Bool :=
  (s.queue m).any fun e => e.st = .queued && e.stopAt.isNone && decide (e.prio < d.prio)

/-- A tile that leaves for a peer or the host finds its landing full (R17): it is held back. -/
def State.heldBack (s : State) (m : MoverRef) (d : Desc) : Bool :=
  match s.dstPlace m d d.next with
  | .remote q _ => s.landingFull d.origin.1 (s.dieFor q)
  | .parts l => anyHost l && s.landingFull d.origin.1 0
  | _ => false

/-- The object under recovery that stream w pins and one of whose tiles lies at a place (R181). -/
def State.pinnedAt (s : State) (p w place : Nat) : Option Nat :=
  ((s.partn p).objects.find? fun e => e.2.recovery.isSome && e.2.st ≠ .absent && e.2.pins.get w 0 ≠ 0 &&
    decide (e.2.addr ≤ place ∧ place < e.2.addr + e.2.frames.length * frameBytes)).map (·.1)

/-- The object under recovery whose tiles a descriptor uses next while its stream holds a pin on the object (R181). -/
def State.pinnedRecovery (s : State) (d : Desc) (t : Nat) : Option Nat :=
  let at' := fun (space place : Nat) => if space = spVirt then s.pinnedAt d.origin.1 d.origin.2.1 place else none
  (at' d.sspace (d.src t)).or (at' d.dspace (d.dst t))

/-- A fill or a pinned stream waits on the recovery of an object from now on (R178, R181). -/
def State.awaitRecovery (s : State) (p x : Nat) : State :=
  s.onPartn p fun y =>
    let o := y.objects.get x {}
    let o' : TierObj := { o with recovery := o.recovery.map fun r => { r with waitSince := some (r.waitSince.getD s.now) } }
    { y with objects := y.objects.put x o' {} }

/-- R125. One tile of the served descriptor is translated, read, verified and written. A read that fails is read once
more (R126). At a tile boundary a higher level goes first (R137). -/
def execSpringTileMove (m : MoverRef) (s : State) : Res :=
  match s.activeDesc m with
  | none => .next s
  | some d =>
    if !s.mayMove m d || !d.room || s.outranked m d || s.heldBack m d then .next s
    else match s.pinnedRecovery d d.next with
    | some x => .next (s.awaitRecovery d.origin.1 x)
    | none => .next ((s.readPond m d d.next).onSource m d d.next fun why s =>
      (s.noteFailure d.origin.1 why).changeDesc m d { d with st := .reread d.next why none s.now })

/-- The code of a second failure (Halt codes for springs). -/
def failureCode : ReadFailure → Nat
  | .check => spCheck
  | .pondEcc => spPondEcc
  | .lakeEcc _ => spLakeEcc

/-- The second read of a source tile has failed: the descriptor stops there (R126). -/
def State.sourceFailed (s : State) (m : MoverRef) (d : Desc) (t : Nat) (why : ReadFailure) : State :=
  ((s.noteFailure d.origin.1 why).noteEntries d t).stopDesc m d t (.fail (failureCode why))

/-- R137. The mover serves the first descriptor of its highest non-empty level; a parked one is passed over. -/
def execSpringDescriptorStart (m : MoverRef) (s : State) : Res :=
  let q := s.queue m
  if q.any fun d => d.st.rereads then .next s
  else
    let ready := q.filter fun d => (d.st = .queued || d.st = .active) && d.stopAt.isNone
    let top := ready.foldl (fun n d => Min.min n d.prio) 8
    match ready.find? fun d => d.prio = top with
    | none => .next s
    | some d =>
      if !s.mayMove m d then .next s
      else
        let q' := (q.map fun e => if e.st = .active then { e with st := .queued } else e)
        let d0 : Desc := { d with st := .queued }
        let i := q'.idxOf d0
        .next (s.setQueue m (q'.set i { d0 with st := .active }))

/-! ## Delivery (R130, R141) -/

/-- Marks that a delivered tile counts on (R130, R141). -/
def State.countTile (s : State) (d : Desc) : State := if d.markEn then s.markAdd d.origin.1 d.mark else s

/-- Tiles that every member of a stair chain has delivered. -/
def stairDone (l : List StairMember) : Nat :=
  match l with
  | [] => 0
  | h :: r => r.foldl (fun n x => Min.min n x.delivered) h.delivered

/-- The frame of the tile at the cursor that waits in the landing of die 0 to leave for the host. -/
def Desc.leaving (d : Desc) : Option (List Byte) :=
  if d.dspace = spStair then none
  else (d.flights.find? fun f => f.tile = d.cursor && !f.written).bind fun f => f.frame

/-- The tile at the cursor is, or can now be, delivered. -/
def Desc.deliverable (d : Desc) : Bool :=
  if d.dspace = spStair then d.cursor < stairDone d.stair
  else (d.flights.any fun f => f.tile = d.cursor && f.written) || d.leaving.isSome

/-- The descriptor once the tile at its cursor is delivered. -/
def Desc.delivered (d : Desc) : Desc :=
  { d with cursor := d.cursor + 1
           flights := d.flights.filter fun f => f.tile ≠ d.cursor
           tallied := d.tallied.filter fun u => u ≠ d.cursor }

/-- The tile at the cursor is delivered: its mark is counted; a MOVE that an abort or a FENCE has won ends at a tile boundary,
else the last tile ends the descriptor, and so does the tile that stopped it. -/
def State.deliverTile (s : State) (m : MoverRef) (d : Desc) : State :=
  let d' := d.delivered
  let s := s.changeDesc m d d'
  let s := if d.dspace = spStair && d.markMode then s else s.countTile d
  if (s.moveWon m d').isSome then s.settleMove m d'
  else if d'.cursor = d.total then s.finishDesc m d'
  else s.settleStop m d'

/-- R130. The tile at the cursor is delivered and counted; the last one ends the descriptor. A frame for the host leaves the
landing of die 0 now (R17). -/
def execSpringTileDelivered (m : MoverRef) (s : State) : Res :=
  match (s.queue m).find? Desc.deliverable with
  | none => .next s
  | some d =>
    match d.leaving with
    | none => .next (s.deliverTile m d)
    | some f =>
      match s.dstPlace m d d.cursor with
      | .fault e => .next (s.faultDesc m d d.cursor true e)
      | .parts l => .next ((s.writePlace d (.parts l) f).deliverTile m d)
      | _ => .next (s.stopDesc m d d.cursor (.fail spRange))

/-! ## Faults of transfers answered (R145, R146, R320) -/

/-- A segment's stop or an abort has ended the parked descriptors of a mover (R147, R202, R206). -/
def State.parkedLives (s : State) (m : MoverRef) (d : Desc) : Bool :=
  match m with
  | .spring c _ => match s.segOf c with
    | some g => g.stop.isNone
    | none => false
  | .command _ _ => (s.moveWon m d).isNone

/-- The parked descriptor of a record number in a partition, with its mover. -/
def State.parkedDesc (s : State) (p id : Nat) : Option (MoverRef × Desc) :=
  s.allMovers.findSome? fun m =>
    ((s.queue m).find? fun d => d.origin.1 = p && s.parkedLives m d &&
      match d.st with | .parked r _ _ _ => r = id | _ => false).map fun d => (m, d)

/-- R146. The descriptor has stayed parked beyond its timeout. -/
def execSpringFaultTimeout (p recordId : Nat) (s : State) : Res :=
  match s.parkedDesc p recordId with
  | none => .next s
  | some (m, d) =>
    .next (((s.bumpP p 0x8040 2 1).raiseP 0x6131 p [d.origin.2.1, d.origin.2.2, recordId]).endDesc m d spPartial d.faultAddr)

/-- A response names no parked descriptor: it is counted as stale (R145). -/
def State.stale (s : State) (p : Nat) : State := s.bumpP p 0x8040 3 1

/-- R145. RESUME: the mover translates again from the cursor. -/
def execFaultRespResume (p : Nat) (recordId : U32) (s : State) : Res :=
  match s.parkedDesc p recordId.toNat with
  | none => .next (s.stale p)
  | some (m, d) => .next (s.changeDesc m d { d with st := .queued })

/-- R145. FATAL: the descriptor ends at once with its cursor. -/
def execFaultRespFatal (p : Nat) (recordId : U32) (s : State) : Res :=
  match s.parkedDesc p recordId.toNat with
  | none => .next (s.stale p)
  | some (m, d) => .next (s.endDesc m d spPartial d.faultAddr)

/-- R320. A waiting fault record is posted. -/
def execFaultRecordPost (p : Nat) (s : State) : Res := .next (s.postFault p)

/-! ## Stair chains: forwarding and detachment (R140 to R142) -/

/-- Member k has delivered a tile: its own mark under MARK_MODE 1 (R141). -/
def State.countMember (s : State) (d : Desc) (k : Nat) : State :=
  if d.markEn && d.markMode then s.markAdd d.origin.1 ((d.mark + k) % 65536) else s

/-- Member k has something to do now: a frame to write or to pass on, or a tile to fetch (R140, R142), which it does up to the tile
that has stopped the descriptor (R126, R143). -/
def Desc.memberActs (d : Desc) (k : Nat) : Bool :=
  !d.st.rereads && match d.stair[k]? with
    | none => false
    | some x => match x.skid with
      | f :: _ => !(x.detached || f.written) || (match nextMember d.stair k with
          | none => true
          | some j => passable d.stair (k + 1) j)
      | [] => x.detached && !x.fetching && decide (x.delivered < d.total) && d.stopAt.all (fun e => decide (x.delivered < e.1)) &&
          (match d.st with | .parked _ _ _ _ => false | _ => true)

/-- The oldest frame of member k leaves its skid buffer for the next member, if there is one. -/
def Desc.pass (d : Desc) (now k : Nat) (x : StairMember) (f : SkidFrame) : Desc :=
  let l := d.stair.set k { x with skid := x.skid.drop 1 }
  let l := match nextMember d.stair k with
    | none => l
    | some j => pushSkid l j f.tile f.frame
  { d with stair := l }.settleStair now

/-- Member k can pass its oldest frame on: the next member has room, or there is none. -/
def Desc.mayPass (d : Desc) (k : Nat) : Bool :=
  match nextMember d.stair k with
  | none => true
  | some j => passable d.stair (k + 1) j

/-- A member writes the oldest frame of its skid buffer into its pond and delivers it. -/
def State.memberWrites (s : State) (m : MoverRef) (d : Desc) (k : Nat) (x : StairMember) (f : SkidFrame) (d' : Desc) : State :=
  ((s.onCore x.core fun c => c.pondWrite (d.dst f.tile) f.frame).changeDesc m d d').countMember d k

/-- A forward of a frame that stands in a member's pond meets an uncorrectable error there, and reads it once more (R118,
R126). -/
def State.forwardBad (s : State) (d : Desc) (x : StairMember) (f : SkidFrame) : Bool :=
  f.written && (s.core x.core).pondBadAt (d.dst f.tile) frameBytes

/-- A parked descriptor's frame waits in its member until the descriptor is resumed, if its pond bytes are uncorrectable: it cannot
be read again meanwhile (DESIGN CHOICE, assumption log 118). -/
def State.forwardWaits (s : State) (d : Desc) (k : Nat) : Bool :=
  match d.st, d.stair[k]? with
  | .parked _ _ _ _, some x => !x.detached && (x.skid.head?).any fun f => s.forwardBad d x f
  | _, _ => false

/-- The stair descriptor of a mover on which member k acts: the first in its queue on which it can. -/
def State.stairDesc (s : State) (m : MoverRef) (k : Nat) : Option Desc :=
  (s.queue m).find? fun d => d.memberActs k && !s.forwardWaits d k

/-- A stair forward reads the frame in its member's pond: single-bit errors there are corrected and counted (R118). -/
def State.forwardRead (s : State) (d : Desc) (x : StairMember) (f : SkidFrame) : State :=
  if f.written && !x.detached then s.correctPond x.core (d.dst f.tile) frameBytes else s

/-- A detached member delivers a tile that it fetched (R142): converted, and classified and reported as the mover's own tiles are
where the mover has not read it (R46, R128, R200). -/
def State.memberFetched (s : State) (m : MoverRef) (d : Desc) (k : Nat) (x : StairMember) (t : Nat) (f : List Byte) : State :=
  match s.converted m d f with
  | none => s.stopDesc m d t (.fail spConvert)
  | some o =>
    let tensor : U32 := BitVec.ofNat 32 (frameHeader f).tensor
    let (s, d) := s.tallyTile m d t tensor o
    let (s, held) := s.flagTile m d tensor o.flagged
    if held then s.changeDesc m d { d with stair := d.stair.set k { x with fetching := false } }
    else
      let d' : Desc := { d with stair := d.stair.set k { x with delivered := t + 1, fetching := false } }
      ((s.onCore x.core fun c => c.pondWrite (d.dst t) o.frame).changeDesc m d d').countMember d k

/-- What the read of tile t gives a detached member: a destination outside the pond is a range, behind a fault of the source (R475). -/
def State.memberSource (s : State) (m : MoverRef) (d : Desc) (t : Nat) : SrcRead :=
  match s.readSource m d t with
  | .fault e => .fault e
  | r => if inPond (d.dst t) frameBytes then r else .range

/-- A detached member reads its next tile from the descriptor's source (R142); `again` is what a failed read does. A destination
outside the pond ends the descriptor (R475). -/
def State.memberFetch (s : State) (m : MoverRef) (d : Desc) (k : Nat) (x : StairMember) (again : ReadFailure → State → State) :
    State :=
  let t := x.delivered
  match s.memberSource m d t with
  | .fault e => s.faultDesc m d t false e
  | .range => s.stopDesc m d t (.fail spRange)
  | .latched => s
  | .awaited => s
  | .failed why => again why s
  | .remote q v =>
    match s.peerFault d.origin.1 q (d.src t) with
    | some e => s.faultDesc m d t false e
    | none =>
      let (s, _) := s.sendRemote m d t q v [] (some k)
      s.changeDesc m d { d with stair := d.stair.set k { x with fetching := true } }
  | .frame f => (s.unstage m t).memberFetched m d k x t f

/-- R140. A member writes the oldest frame of its skid buffer into its pond and forwards it once the next member has room. A
detached member passes on what it had not forwarded, without writing it, and then fetches its next tile by unicast (R142). -/
def execStairForward (m : MoverRef) (k : Nat) (s : State) : Res :=
  match s.stairDesc m k with
  | none => .next s
  | some d =>
    match d.stair[k]? with
    | none => .next s
    | some x =>
      match x.skid with
      | f :: rest =>
        if x.detached || f.written then
          let s := s.forwardRead d x f
          if s.forwardBad d x f && !x.detached then
            .next (s.changeDesc m d { d with st := .reread f.tile .pondEcc (some k) s.now })
          else .next (s.changeDesc m d (d.pass s.now k x f))
        else
          let y : StairMember := { x with skid := { f with written := true } :: rest, delivered := f.tile + 1 }
          let d' : Desc := { d with stair := d.stair.set k y }
          .next (s.memberWrites m d k x f (if d.mayPass k then d'.pass s.now k y f else d'.settleStair s.now))
      | [] =>
        if !s.mayMove m d then .next s
        else match s.pinnedRecovery d x.delivered with
        | some o => .next (s.awaitRecovery d.origin.1 o)
        | none => .next ((s.readPond m d x.delivered).memberFetch m d k x fun why s =>
            (s.noteFailure d.origin.1 why).changeDesc m d { d with st := .reread x.delivered why (some k) s.now })

/-- The second read of a member: of the pond that it forwards from, or of the source that it fetches from (R126). -/
def State.memberReread (s : State) (m : MoverRef) (d : Desc) (k t : Nat) (why : ReadFailure) : State :=
  match d.stair[k]? with
  | none => s
  | some x =>
    if x.detached then s.memberFetch m d k x fun why s => s.sourceFailed m d t why
    else match x.skid with
      | [] => s
      | f :: _ => if s.forwardBad d x f then s.stopDesc m d t (.fail (failureCode why)) else s.forwardRead d x f

/-- The second read of a lake granule in the copy of a RESIDENT object waits for the repair of R161, up to 2 ms (R126). -/
def State.repairAwaited (s : State) (d : Desc) (t since : Nat) : ReadFailure → Bool
  | .lakeEcc pa => decide (s.now < since + 2000) && (s.lakeBad (pa / 64 * 64) 64).isSome &&
      ((s.partn d.origin.1).objects.any fun e => e.2.st = .resident &&
        decide (e.2.addr < d.src t + frameBytes ∧ d.src t < e.2.addr + e.2.frames.length * frameBytes))
  | _ => false

/-- R126. The second read of a source tile; the retry is counted. It waits for a repair (R161), and for the recovery of an object
that its stream pins (R181). -/
def execSpringSourceReread (m : MoverRef) (s : State) : Res :=
  match (s.queue m).find? fun d => d.st.rereads with
  | none => .next s
  | some d =>
    match d.st with
    | .reread t why who since =>
      let d' : Desc := { d with st := if who.isNone then .active else .queued }
      if (why ≠ .pondEcc && s.readSource m d t = .awaited) || s.repairAwaited d t since why then .next s
      else match s.pinnedRecovery d t with
      | some o => .next (s.awaitRecovery d.origin.1 o)
      | none =>
        let s := (s.bumpP d.origin.1 0x8040 5 1).changeDesc m d d'
        match who with
        | none => .next (s.onSource m d' t fun why s => s.sourceFailed m d' t why)
        | some k => .next (s.memberReread m d' k t why)
    | _ => .next s

/-- R142. The blocking member has stayed so beyond Part.StairLagLimit: it is detached. The frames in its skid buffer are
discarded as far as its own pond is concerned; those that it had not forwarded still go to the next member, since no frame is
dropped on the way down the chain (R140; assumption log 118). -/
def execStairDetach (m : MoverRef) (k : Nat) (s : State) : Res :=
  match (s.queue m).find? fun d => blockingMember d.stair = some k with
  | none => .next s
  | some d =>
    match d.stair[k]? with
    | none => .next s
    | some x =>
      let y : StairMember := { x with detached := true, blockingSince := none,
                                      skid := if (nextMember d.stair k).isSome then x.skid else [] }
      let s := s.changeDesc m d ({ d with stair := d.stair.set k y }.settleStair s.now)
      .next (s.bumpP d.origin.1 0x8040 4 1)

/-! ## Arbiters (R14 to R16, R138) -/

/-- The number of an arbiter; the two directions of a bridge have one (R14). -/
def arbiterKey : ArbiterRef → Nat
  | .channel k ch => k * 32 + ch
  | .bridge a b => 512 + Min.min a b * 4 + Max.max a b
  | .ioLink d h => 600 + d * 4 + h

/-- The arbiter exists: 32 channels of a stack, a bridge for each pair of halls, an I/O link from each die to each hall (R14,
R16, R156). -/
def State.hasArbiter (s : State) : ArbiterRef → Bool
  | .channel k ch => s.part.hasStack k && decide (ch < 32)
  | .bridge a b => decide (a < 4 ∧ b < 4 ∧ a ≠ b)
  | .ioLink d h => s.part.hasDie d && decide (h < 4)

/-- The partition whose requests an arbiter serves: the owner of its hall, and of both halls for a bridge; none where nothing
passes (R15, R138). -/
def State.arbiterPart (s : State) (a : ArbiterRef) : Option Nat :=
  let owner := fun h => if s.hallOwner h < 4 then some (s.hallOwner h) else none
  match a with
  | .channel k _ => owner (k / 4)
  | .bridge x y => if s.hallOwner x = s.hallOwner y then owner x else none
  | .ioLink _ h => owner h

/-- Where a frame comes from or goes to: a hall, or an I/O die. -/
inductive Site where
  | hall (h : Nat)
  | die (d : Nat)
deriving DecidableEq, Repr

/-- An access from a site to a part of a range crosses an arbiter: the channels of a stack, the bridge to another hall's stack,
or the I/O link between a die and a hall (R14, R16, R17). -/
def State.crosses (s : State) (a : ArbiterRef) (site : Site) (e : Target × Nat) : Bool :=
  match e.1 with
  | .lake pa =>
    let h := lakeStack pa / 4
    (match a with
    | .channel k ch => k = lakeStack pa && (granules pa e.2).any fun g => lakeChannel (g * 64) = ch
    | .bridge x y => match site with
      | .hall c => c ≠ h && ((x = c && y = h) || (x = h && y = c))
      | .die _ => false
    | .ioLink d y => site = .die d && y = h)
  | .host _ => (match a, site with
    | .ioLink d y, .hall c => d = 0 && y = c
    | _, _ => false)
  | .peer m _ => match a, site with
    | .ioLink d y, .hall c => d = s.dieFor m && y = c
    | _, _ => false

/-- The site of a mover: a spring's hall, a command mover's die. -/
def moverSite : MoverRef → Site
  | .spring c _ => .hall (hallOf c)
  | .command die _ => .die die

/-- A landing place as a part of a range crosses the I/O link of its die. -/
def landingCrosses (a : ArbiterRef) (site : Site) (place : Nat) : Bool :=
  match a, site with
  | .ioLink d y, .hall c => d = bits place 33 32 && y = c
  | _, _ => false

/-- A descriptor's next tile asks an arbiter for a frame. -/
def State.tileAsks (s : State) (a : ArbiterRef) (m : MoverRef) (d : Desc) : Bool :=
  let p := d.origin.1
  let side := fun (space place n : Nat) (ask : Ask) =>
    if space = spLanding then landingCrosses a (moverSite m) place
    else if space ≠ spVirt then false
    else match s.translateRange p place n ask with
      | .error _ => false
      | .ok l => l.any (s.crosses a (moverSite m))
  side d.sspace (d.src d.next) (if d.sunit then 4096 else frameBytes) { unit := d.sunit } ||
  side d.dspace (d.dst d.next) (if d.dunit then 4096 else frameBytes) { write := true, unit := d.dunit }

/-- The levels at which the movers that could move a tile ask an arbiter (R137, R138). -/
def State.moverLevels (s : State) (a : ArbiterRef) : List Nat :=
  s.allMovers.filterMap fun m => match s.activeDesc m with
    | none => none
    | some d => if s.mayMove m d && d.room && s.tileAsks a m d then some d.prio else none

/-- The lake of a place in a lend region, counted from its beginning (R183). -/
def lendParts : List (Nat × Nat) → Nat → Nat → List (Target × Nat)
  | [], _, _ => []
  | (k, from') :: r, off, n =>
    let size := reservedFrom - from'
    if n = 0 then []
    else if size ≤ off then lendParts r (off - size) n
    else
      let m := Min.min n (size - off)
      (.lake (k * 2 ^ 37 + from' + off), m) :: lendParts r 0 (n - m)

/-- A peer's access that takes the borrower queue: to the lend region, a read for recovery, a read for a load (R138, R183, R451;
their KINDs are assumption log 129). -/
def borrows (k : Packet) : Bool := (k.ptype = ptWrite || k.ptype = ptReadReq) && decide (0 < k.kind ∧ k.kind < 4)

/-- The lake that a peer's access names: a place of the lend region, a frame of an object's lake copy, or an address. -/
def State.peerParts (s : State) (k : Packet) : List (Target × Nat) :=
  let virt := fun (a : Nat) => match s.translateRange k.dstPart a frameBytes { write := k.ptype = ptWrite } with
    | .error _ => []
    | .ok l => l
  if k.kind = 1 then lendParts (s.lendRegion k.dstPart) k.addr frameBytes
  else if k.kind = 2 then
    let o := (s.partn k.dstPart).objects.get k.aux {}
    if o.st = .resident then virt (o.addr + k.addr) else []
  else virt k.addr

/-- The peer accesses that wait in the landings and cross an arbiter. -/
def State.peerAsks (s : State) (a : ArbiterRef) : List Packet :=
  s.fabric.landings.flatMap fun e => e.2.arrived.filter fun k =>
    (k.ptype = ptWrite || k.ptype = ptReadReq) && (s.peerParts k).any (s.crosses a (.die e.1))

/-- The levels of those that are requests of the destination partition (R138, R274). -/
def State.peerLevels (s : State) (a : ArbiterRef) : List Nat := ((s.peerAsks a).filter fun k => !borrows k).map fun k => k.prio

/-- The levels at which the exchange engines ask for the next source tile of a record: Exch.LakePriority (R238). An engine takes the
tiles whose index it has modulo the number of engines. -/
def State.engineLevels (s : State) (a : ArbiterRef) : List Nat :=
  s.existing.flatMap fun p => (s.partn p).xruns.filterMap fun r =>
    if !r.started || r.complete || r.ended || decide (r.nt ≤ r.compressed) then none
    else match s.translateRange p (r.srcAddr + r.compressed * frameBytes) frameBytes {} with
      | .error _ => none
      | .ok l => if l.any (s.crosses a (.die (r.compressed % s.part.ioDies))) then some (s.setting p 0x6010 3 % 8) else none

/-- The levels of the sweep units that work on a stack, Part.SweepPriority of their partitions (R225). -/
def State.sweepLevels (s : State) : ArbiterRef → List Nat
  | .channel k _ => s.existing.filterMap fun p =>
    let x := s.partn p
    if x.step = .sweeping && x.sweep.any fun r => r.recs.any fun e => e.stack = k then some (s.setting p (0x3030 + p) 4 % 8) else none
  | _ => []

/-- The pending levels of an arbiter: those of movers, of peer accesses, of sweep units and of exchange engines, and of the requests
of cores and of tier work, which the command names (assumption log 102). -/
def State.pendingAt (s : State) (a : ArbiterRef) (pend : Byte) : Byte :=
  (s.moverLevels a ++ s.peerLevels a ++ s.sweepLevels a ++ s.engineLevels a).foldl (fun b l => b ||| (1#8 <<< l)) pend

/-- The channel of a stack above its throttle point, which receives at most one grant in two (R433). -/
def State.throttledArbiter (s : State) : ArbiterRef → Bool
  | .channel k _ => s.power.sensors.throttled.contains k
  | _ => false

/-- R138. One grant: the owner's levels under their waits, the borrower queue when the owner has nothing pending or the
borrower has waited through 63 grants. The channels of a throttled stack leave every second slot idle (R433). -/
def execArbiterGrant (a : ArbiterRef) (pend : Byte) (borrower : Bool) (s : State) : Res :=
  match s.hasArbiter a, s.arbiterPart a with
  | true, some p =>
    let key := arbiterKey a
    let x := s.fabric.arbiters.get key {}
    let pend := s.pendingAt a pend
    let borrower := (borrower || (s.peerAsks a).any borrows) && (match a with | .channel _ _ => true | _ => false)
    let put := fun (s : State) (y : Arbiter) => { s with fabric := { s.fabric with arbiters := s.fabric.arbiters.put key y {} } }
    let slow := s.throttledArbiter a
    if slow && x.skip then .next (put s { x with skip := false })
    else if borrower && (pend = 0 || 63 ≤ x.borrower) then .next (put s { x with borrower := 0, last := some 8, skip := slow })
    else (match x.choose pend with
      | none => .next s
      | some (g, due) =>
        let y : Arbiter := { x with wait := x.after pend g, last := some g, skip := slow
                                    borrower := if borrower then x.borrower + 1 else 0 }
        let s := put s y
        .next (if due then s.bumpP p 0x8040 7 1 else s))
  | _, _ => .next s

end Sys2Proof.Machine
end

