-- ==== Sys2Proof/Machine/Commands.lean ====
section
/-! DEFINITION. Stream commands: the checks of an entry (R303 to R307, R397), when a command may start (R305, R310, R323),
and MARK_SET, MARK_WAIT, MOVE and FENCE (R308, R319). -/

namespace Sys2Proof.Machine

/-! ## Features (R395 to R397) -/

/-- The FEATURES of a package (R408); a package that is not held has the seven features of the manual (assumption log 19). -/
def packageFeatures (pkg : List Byte) : Nat := if pkg.isEmpty then 0x7F else bits (leNat (pkg.take 512)) 3887 3760

/-- The slot that runs: PROVISIONAL or ACTIVE; until an activation has come that far, the one it started from (R414). -/
def State.runningSlot (s : State) : Nat :=
  if s.update.st = .handover || s.update.st = .holding || s.update.st = .activating then 1 - s.update.newSlot else ((List.range 2).find? fun i => (s.slots.get i {}).st = .provisional).getD
    (((List.range 2).find? fun i => (s.slots.get i {}).st = .active).getD 0)

/-- FEAT_MODULE: bits 7 to 127 report as 0. -/
def State.features (s : State) : Nat := packageFeatures (s.slots.get s.runningSlot {}).package % 128

/-- A feature bit of a partition's agreed mask. -/
def State.agreed (s : State) (p i : Nat) : Bool := bit (s.partn p).regs.featAgreed.toNat i

/-! ## The checks of an entry -/

/-- The lowest bit that an opcode's body uses, and the ranges above it that stay reserved (R307). -/
def bodyRanges (k : Cmd) : Option (Nat × List (Nat × Nat)) :=
  match k.op with
  | 0x01 => some (295, [])
  | 0x02 => some (400, [])
  | 0x03 => some (400, [])
  | 0x04 => some (368, [])
  | 0x10 => some (320, [])
  | 0x11 => some (384, [])
  | 0x12 => some (320, [])
  | 0x13 => some (384, [])
  | 0x14 => some (384, [])
  | 0x20 => some (320, [])
  | 0x30 => some (348, [])
  | 0x31 => some (351, [(415, 368)])
  | 0x32 => some (416, [])
  | 0x33 => some (416, [])
  | 0x40 => some (227, [])
  | 0x41 => if k.f 447 446 = 0 then some (334, []) else if k.f 447 446 = 1 then some (250, [(365, 334)])
      else if k.f 447 446 = 2 then some (270, []) else none
  | 0x50 => some (322, [])
  | 0x51 => some (383, [])
  | 0x52 => some (448, [])
  | 0x60 => some (446, [])
  | _ => none

/-- The addresses that a body names, which must be 64-byte aligned (R307). -/
def bodyAddrs (k : Cmd) : List Nat :=
  match k.op with
  | 0x01 => [k.f 447 400]
  | 0x02 => [k.f 447 400]
  | 0x12 => [k.f 383 336]
  | 0x20 => [k.f 383 336]
  | 0x30 => [k.f 415 368]
  | 0x40 => [k.f 447 400, k.f 383 336, k.f 319 272]
  | 0x41 => if k.f 447 446 = 2 then [k.f 445 398, k.f 397 350, k.f 333 286] else [k.f 445 398]
  | 0x51 => [k.f 447 400]
  | _ => []

/-- A count outside the range that R307 gives. -/
def bodyCountBad (k : Cmd) : Bool :=
  match k.op with
  | 0x12 => k.f 335 320 = 0
  | 0x20 => k.f 335 320 = 0
  | 0x41 => k.f 447 446 = 0 && (k.f 365 334 = 0 || 1048576 < k.f 365 334)
  | 0x50 => k.f 433 418 = 0
  | 0x51 => k.f 399 384 = 0
  | _ => false

/-- A reserved OPCODE, START or bit, a misaligned address or a count out of range (R304, R307). -/
def Cmd.malformed (k : Cmd) : Bool :=
  match bodyRanges k with
  | none => true
  | some (lo, gaps) =>
    2 ≤ k.start || k.f 500 496 ≠ 0 || k.n % 2 ^ lo ≠ 0 || gaps.any (fun g => k.f g.1 g.2 ≠ 0) ||
    (bodyAddrs k).any (fun a => a % 64 ≠ 0) || bodyCountBad k || (k.serve && k.f 303 296 ≠ 0xFF)

/-- Whether a stream of a kind permits a command (R306). -/
def kindPermits (kind : Nat) (k : Cmd) : Bool :=
  match kind with
  | 0 => k.op < 0x50 && !k.serve || k.op = opFence
  | 1 => 0x50 ≤ k.op
  | 2 => k.serve || [0x02, 0x03, 0x04, 0x30, 0x31, 0x32, 0x33, 0x41, 0x60].contains k.op
  | _ => false

/-- The rejection of an accepted entry, if it has one (R304, R397): FEATURE is first, since R397 gives it to every command on a stream
of a kind outside the mask (DEDUCED, assumption log 143). -/
def State.entryRejection (s : State) (p w : Nat) (k : Cmd) : Option Outcome :=
  let kind := (s.stream p w).kind.toNat
  if kind ≠ 0 && !s.agreed p 1 then some (.rejected cauFeature 1)
  else if k.f 495 448 ≠ k.seq then some (.rejected cauSeqMismatch 0 (k.f 495 448))
  else if (bodyRanges k).isNone || k.malformed then some (.rejected cauReserved)
  else if !kindPermits kind k then some (.rejected cauKind kind)
  else none

/-! ## Starting (R305, R310, R323, R324) -/

/-- A partition is at a step boundary (R400): step state IDLE or DISCARDED, no segment and no EXCHANGE running. One that is
PARKED or EXPORTED, or asleep, is at a boundary throughout. -/
def State.atBoundary (s : State) (p : Nat) : Bool :=
  let x := s.partn p
  x.st = .parked || x.st = .exported || s.power.sleep = .asleep ||
  ((x.step = .idle || x.step = .discarded) && x.segments.isEmpty &&
   !x.commands.any fun e => e.2.op = opExchange && e.2.phase ≠ .accepted)

/-- A change set still needs partition p at a boundary: to be decided, or to give it the values (R400, R401). -/
def ChangeSet.needs (c : ChangeSet) (p : Nat) : Bool :=
  c.affected.contains p && match c.phase with
  | .opened => false
  | .committed => c.eligible.isSome && (c.protection || !c.reached.contains p)
  | .decided => (c.cls = 1 || c.cls = 2) && !c.taken.contains p

/-- A partition at a step boundary whose next step, launch or exchange the module holds: for an apply (R400), an update (R418),
a lake test (R454). -/
def State.held (s : State) (p : Nat) : Bool :=
  s.atBoundary p &&
  (s.update.st = .holding || s.update.st = .activating || s.update.st = .rollingBack ||
   s.mgmt.sets.any (fun c => c.needs p) ||
   match s.power.lakeTest.st with
   | .holding | .parking | .testing | .restoring => s.power.lakeTest.owners.contains p
   | _ => false)

/-- What the lease state lets a stream start (R323): in ORPHAN only the stream whose step is open. -/
def Partition.leaseAllows (x : Partition) (w : Nat) : Bool :=
  match x.st with
  | .detached | .attached => true
  | .orphan => x.inStep && x.stepOwner = w
  | _ => false

/-- The commands before q in the journal of its stream. -/
def Stream.before (m : Stream) (k : Cmd) : List Cmd := m.journal.filter fun j => j.order < k.order

/-- What every start needs, whatever the START field: the module works, the lease state and the stream allow it, and every FENCE
before the command has completed (R305, R310, R323). -/
def State.startAllowed (s : State) (p w : Nat) (k : Cmd) : Bool :=
  let x := s.partn p
  let m := x.stream w
  s.working && x.leaseAllows w && !s.sup.recovering.contains p &&
  k.phase = .accepted && k.img.isNone && m.held.isEmpty && (m.before k).all (fun j => j.op ≠ opFence)

/-- A command of a JOB or SERVICE stream, or a FENCE, may start now (R305). -/
def State.mayStart (s : State) (p w : Nat) (k : Cmd) : Bool :=
  let earlier := (s.stream p w).before k
  s.startAllowed p w k && !((k.op = opStepOpen || k.op = opExchange) && s.held p) && earlier.all (fun j => j.phase ≠ .accepted) &&
  (k.op = opFence || k.start = 1 || !(earlier.any fun j => decide ((k.seq + 2 ^ 48 - j.seq) % 2 ^ 48 = 1)))

/-- REJECTED for a step state, with the state and the step in force (R308, R312). -/
def Outcome.stepState (x : Partition) : Outcome :=
  .rejected cauStepState x.step.code (if x.step = .idle then 0 else x.stepNo.toNat)

/-- Start command q of stream w where a condition on it holds, and act on it; in DISCARDED every command of the owner stream
but STEP_OPEN and STEP_DISCARD is rejected (R227). -/
def State.startIf (s : State) (p w q op : Nat) (may : Cmd → Bool) (act : Cmd → State → State) : State :=
  match s.cmd p w q with
  | none => s
  | some k =>
    if k.op ≠ op || !may k then s
    else
      let x := s.partn p
      let s := s.onCmd p w q fun k => { k with phase := .running, started := s.now }
      if x.step = .discarded && x.stepOwner = w && op ≠ opStepOpen && op ≠ opStepDiscard then
        s.complete p w q (.stepState x)
      else act k s

/-- Start a command as R305 orders it. -/
def State.startCmd (s : State) (p w q op : Nat) (act : Cmd → State → State) : State :=
  s.startIf p w q op (s.mayStart p w) act

/-- A running command. -/
def State.runningCmd (s : State) (p w q op : Nat) : Option Cmd :=
  match s.cmd p w q with
  | some k => if k.op = op && k.phase = .running then some k else none
  | none => none

/-! ## MARK_SET, MARK_WAIT (R136, R308) -/

/-- R136. MARK_SET: the mark unit applies the value. -/
def execMarkSet (p w q : Nat) (s : State) : Res :=
  .next (s.startCmd p w q opMarkSet fun k s =>
    (s.applyMark p (cmdMark k.raw) (cmdMarkValue k.raw)).complete p w q .ok)

/-- A MARK_WAIT that has been satisfied completes OK. -/
def State.settleMarkWait (s : State) (p w q : Nat) : State :=
  match s.runningCmd p w q opMarkWait with
  | some k => if k.satisfied then s.complete p w q .ok else s
  | none => s

/-- R308. MARK_WAIT: it starts, comparing the value in force, and completes once a value has reached the target (R136). -/
def execMarkWait (p w q : Nat) (s : State) : Res :=
  let s := s.startCmd p w q opMarkWait fun k s =>
    if markReached (s.mark p (cmdMark k.raw)) (cmdMarkValue k.raw) then
      s.onCmd p w q fun k => { k with satisfied := true }
    else s
  .next (s.settleMarkWait p w q)

/-- R308. The TIMEOUT of a MARK_WAIT passes first. -/
def execMarkWaitTimeout (p w q : Nat) (s : State) : Res :=
  match s.runningCmd p w q opMarkWait with
  | none => .next s
  | some k =>
    if k.satisfied || k.f 399 368 = 0 then .next s
    else .next (s.complete p w q (.fault cauTimeout (cmdMark k.raw)))

/-! ## MOVE (R308) -/

/-- The command movers that a partition holds on every I/O die (R336): 2 per hall, in ascending partition number. -/
def State.moversOf (s : State) (p : Nat) : List Nat :=
  let base := ((List.range p).map fun i => 2 * (s.halls i).length).sum
  (List.range (2 * (s.halls p).length)).map fun i => base + i

/-- The mover that takes a MOVE of stream w: on die (w mod n), the one with the shortest queue (DESIGN CHOICE, assumption
log 20). -/
def State.moverFor (s : State) (p w : Nat) : MoverRef :=
  let die := w % s.part.ioDies
  let ms := s.moversOf p
  let len := fun (i : Nat) => (s.movers.get (moverKey die i) []).length
  .command die (ms.foldl (fun b i => if len i < len b then i else b) (ms.headD 0))

/-- The absent I/O die that a descriptor's LANDING address names (R8). -/
def absentDie (s : State) (d : Desc) : Option Nat :=
  if d.sspace = spLanding && !s.part.hasDie (d.f 993 992) then some (d.f 993 992)
  else if d.dspace = spLanding && !s.part.hasDie (d.f 929 928) then some (d.f 929 928)
  else none

/-- R308. MOVE: its descriptor is read and checked, and queued on a command mover. -/
def execMove (p w q : Nat) (s : State) : Res :=
  .next (s.startCmd p w q opMove fun k s =>
    let va := k.f 447 400
    match s.vread p va 128 with
    | .ok bs =>
      let d : Desc := { raw := BitVec.ofNat 1024 (leNat bs), addr := 0, thread := 0, pc := 0, word := 0, layer := none,
                        origin := (p, w, q) }
      match absentDie s d with
      | some pos => s.complete p w q (.rejected cauAbsent pos)
      | none =>
        if moveRefused s d then s.complete p w q (.rejected cauReserved)
        else
          let m := s.moverFor p w
          s.setQueue m (s.queue m ++ [d])
    | r => (s.noteRead p r).complete p w q (r.outcome va))

/-! ## FENCE (R319) -/

/-- The requests of a partition. -/
def Partition.requests (x : Partition) : List Request := x.serves.flatMap fun v => v.requests

/-- The open request of a stream. -/
def Partition.openRequest (x : Partition) (w : Nat) : Option Request := x.requests.find? fun r => r.stream = w && !r.ended

/-- The SERVICE stream of the serving RUN that holds a request of stream w. -/
def Partition.serviceOf (x : Partition) (w : Nat) : Nat :=
  ((x.serves.find? fun v => v.requests.any fun r => r.stream = w).map fun v => v.s).getD 0

/-- A running FEED whose request has ended completes as one whose service ended, with the SERVICE stream (R312, assumption log 32). -/
def State.settleFeeds (s : State) (p w service : Nat) : State :=
  if ((s.partn p).openRequest w).isSome then s
  else ((s.stream p w).journal.filter fun k => k.op = opReqFeed && k.phase = .running).foldl
    (fun s k => s.complete p w k.seq { status := stAborted, cause := cauServiceEnded, arg := service }) s

/-- A serving RUN leaves its partition; its open requests complete ABORTED with SERVICE_ENDED (R329). -/
def State.endServe (s : State) (p w q : Nat) : State :=
  match (s.partn p).serves.find? fun v => v.s = w && v.q = q with
  | none => s
  | some v =>
    let s := s.onPartn p fun x => { x with serves := x.serves.filter fun e => !(e.s = w && e.q = q) }
    (v.requests.filter fun r => !r.ended).foldl (fun s r =>
      (s.complete p r.stream r.openSeq { status := stAborted, cause := cauServiceEnded, arg := w, count := r.tokens }).settleFeeds
        p r.stream w) s

/-- The streams that a FENCE's scope covers. -/
def fenceScope (k : Cmd) (w v : Nat) : Bool := bit k.n 447 || v = w

/-- Every command of the scope that was accepted before the FENCE has completed. -/
def State.fenceMet (s : State) (p w : Nat) (k : Cmd) : Bool :=
  (s.partn p).commands.all fun e => !(fenceScope k w e.1 && e.2.order < k.order)

def State.settleFence (s : State) (p w q : Nat) : State :=
  match s.runningCmd p w q opFence with
  | some k => if s.fenceMet p w k then s.complete p w q .ok else s
  | none => s

/-- Start a FENCE of an action. -/
def State.startFence (s : State) (p w q : Nat) (stop : Bool) (act : Cmd → State → State) : State :=
  match s.cmd p w q with
  | none => s
  | some k => if bit k.n 446 = stop then s.startCmd p w q opFence act else s

/-- R319. FENCE with ACTION WAIT. -/
def execFenceWait (p w q : Nat) (s : State) : Res :=
  match s.cmd p w q with
  | none => .next s
  | some k =>
    if bit k.n 446 then .next s else .next ((s.startFence p w q false fun _ s => s).settleFence p w q)

end Sys2Proof.Machine
end

