-- ==== Sys2Proof/Machine/Tiers.lean ====
section
/-! DEFINITION. Tier objects, fills, versions, the recovery ladder, the lake's scrub and repair, the landings' arrival checks
(R127, R158 to R182, R221, R474). -/

namespace Sys2Proof.Machine

/-! ## Objects (R168) -/

def State.obj (s : State) (p x : Nat) : TierObj := (s.partn p).objects.get x {}

def State.setObj (s : State) (p x : Nat) (o : TierObj) : State :=
  s.onPartn p fun y => { y with objects := y.objects.put x o {} }

def State.onObj (s : State) (p x : Nat) (f : TierObj → TierObj) : State := s.setObj p x (f (s.obj p x))

/-- An IMPORT has created the object. -/
def TierObj.created (o : TierObj) : Bool := !o.frames.isEmpty
def TierObj.tiles (o : TierObj) : Nat := o.frames.length
def TierObj.extents (o : TierObj) : Nat := (o.tiles + 63) / 64
def TierObj.pinTotal (o : TierObj) : Nat := (o.pins.map fun e => e.2).sum

/-- A lake copy exists. -/
def TierObj.hasCopy (o : TierObj) : Bool :=
  match o.st with
  | .absent => false
  | .writing => match o.writing with
    | some w => w.keepCopy
    | none => false
  | _ => true

/-- A range of the lake is the object's own (R169): it is not ABSENT, and not only being written from a landing. -/
def TierObj.hasRange (o : TierObj) : Bool :=
  match o.st with
  | .absent => false
  | .writing => match o.writing with
    | some w => w.hadCopy
    | none => false
  | _ => true

/-- The state of a lake copy stands nowhere else, or will (R221): read-only flash keeps it in the lake. -/
def TierObj.inLakeOnly (o : TierObj) : Bool := o.heldInLake || (o.st = .resident && o.writing.isSome)

/-- The lake bytes of the copy: address and length. -/
def TierObj.span (o : TierObj) : Nat × Nat := (o.addr, o.tiles * frameBytes)

/-- A tier event carries OBJECT, EXTENT and VERSION (R186). -/
def State.tierEvent (s : State) (p x code ext : Nat) : State :=
  s.raiseP code p [x, ext, (s.obj p x).version.toNat]

/-- REJECTED, cause TIER, with OBJECT (R312). -/
def Outcome.tier (x : Nat) : Outcome := .rejected cauTier 0 (fld x 96)

/-- POISONED with OBJECT (R174). -/
def Outcome.poisoned (x : Nat) : Outcome := { status := stPoisoned, cause := cauPoison, detail := fld x 96 }

/-! ## Marks of requests (R172, R178) -/

/-- Add n to the mark of a request, if it has one. -/
def State.gain (s : State) (p : Nat) (mark : Option Nat) (n : Nat) : State :=
  match mark with
  | none => s
  | some m => s.applyMark p m (s.mark p m + BitVec.ofNat 32 n)

/-- PROMOTEs leave a fill: the span in which it advanced their marks has ended, and is kept for the waits that go on (R178). -/
def State.endSpans (s : State) (p since : Nat) (l : List TierReq) : State :=
  l.foldl (fun s r => match r with
    | .promote w q _ (some m) _ =>
      if (s.markWaits p m).isEmpty then s
      else s.onPartn p fun x => { x with late := x.late.put m (x.late.get m [] ++ [(Max.max since (x.startOf w q), s.now)]) [] }
    | _ => s) s

/-! ## Stalls (R178) -/

/-- The fills of a die whose array reads are not complete, as partition, object and fill (R165, R177). -/
def State.fillsOn (s : State) (die : Nat) : List (Nat × Nat × Fill) :=
  s.parts.flatMap fun e => e.2.objects.filterMap fun o => match o.2.fill with
    | some f => if o.1 % s.part.ioDies = die && f.extentsRead < o.2.extents then some (e.1, o.1, f) else none
    | none => none

/-- A fill's wait for its flash channels ends, and is counted. -/
def State.endBusy (s : State) (p x : Nat) : State :=
  match (s.obj p x).fill.bind fun f => f.busySince with
  | none => s
  | some t => (s.onObj p x fun o => { o with fill := o.fill.map fun f => { f with busySince := none } }).bumpP p 0x8050 4 (s.now - t)

/-- The channels of a die go to the fill that has waited longest once none holds them (DESIGN CHOICE, assumption log 64). -/
def State.grantFlash (s : State) (die : Nat) : State :=
  let l := s.fillsOn die
  if l.any fun e => e.2.2.busySince.isNone then s
  else match l with
    | [] => s
    | e :: r =>
      let first := r.foldl (fun (b : Nat × Nat × Fill) e =>
        if e.2.2.busySince.getD 0 < b.2.2.busySince.getD 0 then e else b) e
      s.endBusy first.1 first.2.1

/-- A fill or a pinned stream waits on the recovery of an object; its end counts the stall. -/
def State.endLadder (s : State) (p : Nat) (r : Recovery) : State :=
  match r.waitSince with
  | none => s
  | some t => s.bumpP p 0x8050 6 (s.now - t)

/-! ## Transitions that every request shares (R173) -/

/-- The DEMOTEs that wait end: OK, each mark gaining 1, or ABORTED by a cancelled demotion (R172, R173). -/
def State.endDemotes (s : State) (p x : Nat) (ok : Bool) : State :=
  let l := (s.obj p x).demotes
  let s := s.onObj p x fun o => { o with demotes := [], deferred := false }
  l.foldl (fun s r => match r with
    | .demote w q mark =>
      if ok then (s.gain p mark 1).complete p w q .ok else s.complete p w q { status := stAborted }
    | _ => s) s

def State.enterDemoting (s : State) (p x : Nat) : State := s.onObj p x fun o => { o with st := .demoting }

/-- Pins that reach 0 with D set start the demotion of a RESIDENT object, unless it is held in the lake (R173, R221). -/
def State.settlePins (s : State) (p x : Nat) : State :=
  let o := s.obj p x
  if o.st = .resident && o.deferred && o.pinTotal = 0 && !o.inLakeOnly then s.enterDemoting p x else s

/-- A demotion is cancelled: RESIDENT, D cleared, its DEMOTEs ABORTED. -/
def State.cancelDemotion (s : State) (p x : Nat) : State :=
  ((s.onObj p x fun o => { o with st := .resident }).bumpP p 0x8050 8 1).endDemotes p x false

/-- The object becomes ABSENT and its waiting DEMOTEs complete OK (R173, R474). -/
def State.becomeAbsent (s : State) (p x : Nat) : State :=
  (s.onObj p x fun o => { o with st := .absent, fill := none, writing := none, heldInLake := false }).endDemotes p x true

/-! ## PROMOTE (R169, R172, R173) -/

/-- Why a PROMOTE that finds the object ABSENT is refused: an overlap, or a page that is no writable lake page, which faults
with KIND 0x3 when it translates elsewhere. Where both hold the overlap stands (DESIGN CHOICE, assumption log 123). -/
def State.promoteRefused (s : State) (p x addr : Nat) : Option Outcome :=
  let n := (s.obj p x).tiles * frameBytes
  if (s.partn p).objects.any fun e => e.1 ≠ x && e.2.hasRange && e.2.span.1 < addr + n && addr < e.2.span.1 + e.2.span.2 then
    some (.tier x)
  else match s.translateRange p addr n { write := true } with
    | .error f => some (.translation f)
    | .ok l =>
      ((l.zip (pageParts addr n)).find? fun e => match e.1.1 with | .lake _ => false | _ => true).map fun e =>
        .translation { kind := 3, addr := e.2.1 }

/-- What a PROMOTE's refused range raises: an entry of the walk that reads uncorrectable (R160). -/
def State.noteRange (s : State) (p addr n : Nat) : State :=
  match s.translateRange p addr n { write := true } with
  | .error f => s.noteFault p f
  | .ok _ => s

/-- The fill starts; it waits for flash channels that another fill holds, and on a recovery under way (R178). -/
def State.startFill (s : State) (p x addr : Nat) (waiters : List TierReq) : State :=
  let busy := !(s.fillsOn (x % s.part.ioDies)).isEmpty
  let s := (s.onObj p x fun o => { o with
    st := .promoting
    addr := addr
    fill := some { since := s.now, busySince := if busy then some s.now else none, waiters := waiters } }).bumpP p 0x8050 1 1
  s.awaitRecovery p x

/-- A PROMOTE applied in the state it finds; or what it waits for. -/
def State.applyPromote (s : State) (p x w q addr : Nat) (mark : Option Nat) (prio : Nat) : Except TierWait State :=
  let o := s.obj p x
  let resident := fun (s : State) => ((s.bumpP p 0x8050 1 1).gain p mark o.tiles).complete p w q .ok
  if o.poison then .ok (s.complete p w q (.poisoned x))
  else match o.st with
  | .writing => .error .commit
  | .absent => .ok (match s.promoteRefused p x addr with
    | some out => (s.noteRange p addr (o.tiles * frameBytes)).complete p w q out
    | none => s.startFill p x addr [.promote w q addr mark prio])
  | .promoting =>
    if o.addr ≠ addr then .ok (s.complete p w q (.tier x))
    else match o.fill with
      | none => .error .fill
      | some f =>
        let s := (s.bumpP p 0x8050 1 1).gain p mark f.done
        .ok (s.onObj p x fun o => { o with fill := some { f with waiters := f.waiters ++ [.promote w q addr mark prio] } })
  | .resident => .ok (if o.addr = addr then resident s else s.complete p w q (.tier x))
  | .demoting => if o.addr = addr then .ok (resident (s.cancelDemotion p x)) else .error .release

/-! ## DEMOTE, PIN, UNPIN (R171 to R173, R221) -/

/-- A DEMOTE applied. -/
def State.applyDemote (s : State) (p x w q : Nat) (mark : Option Nat) : State :=
  let o := s.obj p x
  let join := fun (s : State) => s.onObj p x fun o => { o with demotes := o.demotes ++ [.demote w q mark] }
  let defer := fun (s : State) =>
    let s := join s
    if o.deferred then s else (s.onObj p x fun o => { o with deferred := true }).bumpP p 0x8050 7 1
  if o.pins.get w 0 ≠ 0 then s.complete p w q (.tier x)
  else match o.st with
  | .absent => (s.gain p mark 1).complete p w q .ok
  | .promoting | .writing => defer s
  | .resident =>
    if o.inLakeOnly then s.complete p w q (.rejected cauReadOnly)
    else if o.pinTotal = 0 then (join s).enterDemoting p x
    else defer s
  | .demoting => join s

/-- A PIN (d = 1) or UNPIN (d = -1) applied. -/
def State.applyPin (s : State) (p x w q : Nat) (pin : Bool) : State :=
  let n := (s.obj p x).pins.get w 0
  if (if pin then 65535 ≤ n else n = 0) then s.complete p w q (.tier x)
  else
    let s := s.onObj p x fun o => { o with pins := o.pins.put w (if pin then n + 1 else n - 1) 0 }
    (s.settlePins p x).complete p w q .ok

/-- A stream that is aborted or released loses its pins as though it had sent the UNPINs (R171). -/
def State.unpinAll (s : State) (p w : Nat) : State :=
  ((s.partn p).objects.filter fun e => e.2.pins.get w 0 ≠ 0).foldl (fun s e =>
    (s.onObj p e.1 fun o => { o with pins := o.pins.put w 0 0 }).settlePins p e.1) s

/-! ## Write requests (R173, R176, R221, R474) -/

/-- A sweep unit's write begins: WRITING from the lake copy; read-only flash grants it without flash and the object stays
RESIDENT (R221). -/
def State.applySweepWrite (s : State) (p x stack : Nat) (mark : Option Nat) : Except TierWait State :=
  let o := s.obj p x
  let grant := fun (s : State) =>
    let s := match o.absentSince with
      | some t => s.bumpP p 0x8050 3 (s.now - t)
      | none => s
    s.onObj p x fun o => { o with
      st := if s.lake.readOnly then .resident else .writing
      absentSince := none
      writing := some { req := .sweepWrite stack mark, frames := [], version := 0, hadCopy := true, keepCopy := true } }
  if o.recovery.isSome then .error .recovery
  else match o.st with
  | .resident => if o.writing.isSome then .error .commit else .ok (grant s)
  | .demoting => .ok (grant (s.cancelDemotion p x))
  | .absent => .error .resident
  | .promoting => .error .fill
  | .writing => .error .commit

/-- Write frames over a lake copy, in order, up to the first place that is no writable lake page. -/
def State.writeCopy (s : State) (p addr : Nat) : List (List Byte) → State × Bool
  | [] => (s, true)
  | f :: r =>
    match s.translateRange p addr frameBytes { write := true } with
    | .error e => (s.noteFault p e, false)
    | .ok l =>
      if l.all fun e => match e.1 with | .lake _ => true | _ => false then
        (s.writeParts l f).writeCopy p (addr + frameBytes) r
      else (s, false)

/-- An IMPORT's new version begins: from the landing, and into the lake copy too when there is one. For an object that exists by
then NTILES must equal its tile count (R308). -/
def State.applyImport (s : State) (p x w q : Nat) (frames : List (List Byte)) : Except TierWait State :=
  let o := s.obj p x
  let begin' := fun (s : State) (had keep : Bool) =>
    s.onObj p x fun o => { o with
      st := .writing
      writing := some { req := .importVersion w q frames, frames := frames, version := BitVec.ofNat 64 q, hadCopy := had,
                        keepCopy := keep } }
  if o.recovery.isSome then .error .recovery
  else if s.lake.readOnly then .ok (s.complete p w q (.rejected cauReadOnly))
  else if o.created && o.tiles ≠ frames.length then .ok (s.complete p w q (.tier x))
  else match o.st with
  | .absent => .ok (begin' s false false)
  | .resident =>
    let (s, keep) := s.writeCopy p o.addr frames
    .ok (begin' s true keep)
  | .promoting => .error .fill
  | .demoting => .error .release
  | .writing => .error .commit

/-! ## One request at a time (R170) -/

/-- Apply a request, or tell what holds it. -/
def State.tierApply (s : State) (p x : Nat) : TierReq → Except TierWait State
  | .promote w q addr mark prio => s.applyPromote p x w q addr mark prio
  | .demote w q mark => .ok (s.applyDemote p x w q mark)
  | .sweepWrite k mark => s.applySweepWrite p x k mark
  | .importVersion w q fs => s.applyImport p x w q fs

/-- A request is held until a transition. -/
def State.holdTier (s : State) (p x : Nat) (w : TierWait) (r : TierReq) : State :=
  s.onObj p x fun o => { o with waiting := o.waiting ++ [(w, r)] }

/-- A request is applied in the state it finds, or held. -/
def State.tierOne (s : State) (p x : Nat) (r : TierReq) : State :=
  match s.tierApply p x r with
  | .ok s' => s'
  | .error w => s.holdTier p x w r

/-- The held requests that wait for a transition are applied, in their order of arrival. -/
def State.releasePass (s : State) (p x : Nat) (done : List TierWait) : State :=
  let l := (s.obj p x).waiting
  l.foldl (fun s e => if done.contains e.1 then s.tierOne p x e.2 else s.holdTier p x e.1 e.2)
    (s.onObj p x fun o => { o with waiting := [] })

/-- A request that arrives is applied in the state it finds, or held. One that cancels a demotion makes the object RESIDENT, which
releases what waits for that (R170, R173). -/
def State.tierArrive (s : State) (p x : Nat) (r : TierReq) : State :=
  let s' := s.tierOne p x r
  if (s.obj p x).st = .demoting && (s'.obj p x).st = .resident then s'.releasePass p x [.resident] else s'

/-- A transition releases the held requests that wait for it, in their order of arrival; one of them that leaves the object RESIDENT
releases those that wait for that (R170, R173). -/
def State.releaseHeld (s : State) (p x : Nat) (done : List TierWait) : State :=
  let s := s.releasePass p x done
  if (s.obj p x).st = .resident then s.releasePass p x [.resident] else s

/-- The transitions of an object that enters ABSENT: what waited for its release need not wait any longer. -/
def gone : List TierWait := [.release, .fill, .commit]

/-- The requests of a command that an abort wins leave the object; the object itself goes on (R317). -/
def TierReq.isOf (w q : Nat) : TierReq → Bool
  | .promote v r _ _ _ => v = w && r = q
  | .demote v r _ => v = w && r = q
  | .importVersion v r _ => v = w && r = q
  | .sweepWrite _ _ => false

def TierObj.forget (w q : Nat) (o : TierObj) : TierObj :=
  let keep := fun (l : List TierReq) => l.filter fun r => !r.isOf w q
  { o with
    waiting := o.waiting.filter fun e => !e.2.isOf w q
    demotes := keep o.demotes
    fill := o.fill.map fun f => { f with waiters := keep f.waiters }
    writing := o.writing.map fun v => match v.req with
      | .importVersion a b fs => if a = w && b = q then { v with req := .importVersion a (2 ^ 48) fs } else v
      | _ => v }

def State.forgetTier (s : State) (p w q : Nat) : State :=
  let s := (s.partn p).objects.foldl (fun s e => match e.2.fill with
    | some f => s.endSpans p f.since (f.waiters.filter (TierReq.isOf w q))
    | none => s) s
  s.onPartn p fun y => { y with objects := y.objects.map fun e => (e.1, e.2.forget w q) }

/-! ## The commands (R169 to R174, R308) -/

/-- Start a TIER command: it waits while the owning Tier Manager is out of service (R354), and names a created object or is
REJECTED with cause TIER. -/
def State.startTier (s : State) (p w q op : Nat) (act : Cmd → Nat → State → State) : State :=
  match s.cmd p w q with
  | none => s
  | some k =>
    if !s.tierServing (k.f 447 416) then s
    else s.startCmd p w q op fun k s =>
      let x := k.f 447 416
      if !(s.obj p x).created then s.complete p w q (.tier x) else act k x s

/-- The mark of a PROMOTE or DEMOTE. -/
def Cmd.tierMark (k : Cmd) : Option Nat := if bit k.n 351 then some (k.f 367 352) else none

/-- R169. TIER_PROMOTE. -/
def execTierPromote (p w q : Nat) (s : State) : Res :=
  .next (s.startTier p w q opPromote fun k x s =>
    s.tierArrive p x (.promote w q (k.f 415 368) k.tierMark (k.f 350 348)))

/-- R173. TIER_DEMOTE. -/
def execTierDemote (p w q : Nat) (s : State) : Res :=
  .next (s.startTier p w q opDemote fun k x s => s.tierArrive p x (.demote w q k.tierMark))

/-- R171. TIER_PIN. -/
def execTierPin (p w q : Nat) (s : State) : Res := .next (s.startTier p w q opPin fun _ x s => s.applyPin p x w q true)

/-- R171. TIER_UNPIN. -/
def execTierUnpin (p w q : Nat) (s : State) : Res := .next (s.startTier p w q opUnpin fun _ x s => s.applyPin p x w q false)

/-! ## IMPORT of an object (R168, R308) -/

/-- The first of a list of frames that fails CHECK. -/
def firstBad : List (List Byte) → Nat → Option Nat
  | [], _ => none
  | f :: r, i => if frameCheckOk f then firstBad r (i + 1) else some i

/-- FAULT, cause VERIFY, with the record or frame index. -/
def Outcome.verify (i : Nat) : Outcome := .fault cauVerify i

/-- Why a frame that an IMPORT names is not taken: its place does not translate, it reads uncorrectable, or it fails CHECK. -/
inductive FrameFail where
  | fault (f : XFault)
  | unreadable (i pa : Nat)
  | check (i : Nat)

/-- Read n frames that an IMPORT names, each checked in a landing (R127). -/
def State.readFrames (s : State) (p va : Nat) : Nat → Except FrameFail (List (List Byte))
  | 0 => .ok []
  | n + 1 =>
    match s.readFrames p va n with
    | .error o => .error o
    | .ok l =>
      match s.vread p (va + n * frameBytes) frameBytes with
      | .fault f => .error (.fault f)
      | .unreadable pa => .error (.unreadable n pa)
      | .ok f => if frameCheckOk f then .ok (l ++ [f]) else .error (.check n)

/-- The outcome of an IMPORT whose frames are not taken: one that reads uncorrectable fails as one with a bad CHECK does. -/
def FrameFail.outcome : FrameFail → Outcome
  | .fault f => .translation f
  | .unreadable i _ => .verify i
  | .check i => .verify i

/-- What it raises and counts: an uncorrectable read (R160), a failed check in a landing (R127). -/
def State.noteFrames (s : State) (p : Nat) : FrameFail → State
  | .fault f => s.noteFault p f
  | .unreadable _ pa => (s.lakeUncorrectable p pa).bumpP p 0x8040 8 1
  | .check _ => s.bumpP p 0x8040 8 1

/-- The flash that a partition's objects use, in bytes (R163): their committed extents, and those of an object's first version from the
moment its IMPORT begins. -/
def Partition.extentBytes (x : Partition) : Nat :=
  ((x.objects.map fun e => if e.2.created then e.2.extents
    else ((e.2.writing.map fun v => v.frames.length).getD 0 + 63) / 64).sum) * 299136

/-- A new object of n tiles does not fit the namespace beside the others (R336). -/
def State.namespaceFull (s : State) (p n : Nat) : Bool :=
  decide (s.setting p 0x3000 (13 + p) * 10 ^ 9 < (s.partn p).extentBytes + (n + 63) / 64 * 299136)

/-- R308. IMPORT mode 0. The whole source translates before anything else is done. One beyond the namespace, or beyond 2,097,152
objects, is refused with cause TIER (DESIGN CHOICE, assumption log 124). -/
def execImportObject (p w q : Nat) (s : State) : Res :=
  match s.cmd p w q with
  | none => .next s
  | some k =>
    if k.f 447 446 ≠ 0 || !s.tierServing (k.f 397 366) then .next s
    else .next (s.startCmd p w q opImport fun k s =>
      let x := k.f 397 366
      let n := k.f 365 334
      let o := s.obj p x
      if s.lake.readOnly then s.complete p w q (.rejected cauReadOnly)
      else if o.created && o.tiles ≠ n then s.complete p w q (.tier x)
      else if !o.created && 2097152 ≤ ((s.partn p).objects.filter fun e => e.2.created).length then s.complete p w q (.tier x)
      else if !o.created && s.namespaceFull p n then s.complete p w q (.tier x)
      else match s.vcheck p (k.f 445 398) (n * frameBytes) false with
        | some f => (s.noteFault p f).complete p w q (.translation f)
        | none => match s.readFrames p (k.f 445 398) n with
          | .error e => (s.noteFrames p e).complete p w q e.outcome
          | .ok fs => s.tierArrive p x (.importVersion w q fs))

/-! ## Fills (R172, R174, R177, R474) -/

/-- A fill ends without a lake copy: its PROMOTEs complete with an outcome, DEMOTEs OK, and the object is ABSENT. -/
def State.endFill (s : State) (p x : Nat) (out : Outcome) : State :=
  let ws := match (s.obj p x).fill with
    | some f => f.waiters
    | none => []
  let s := (s.endSpans p (((s.obj p x).fill.map fun f => f.since).getD 0) ws).becomeAbsent p x
  let s := ws.foldl (fun s r => match r with
    | .promote w q _ _ _ => s.complete p w q out
    | _ => s) s
  (s.releaseHeld p x gone).grantFlash (x % s.part.ioDies)

/-- The recovery ladder begins (R179); a fill waits on it (R178). -/
def State.startRecovery (s : State) (p x ext : Nat) : State :=
  s.onObj p x fun o => { o with
    recovery := some { ext := ext, source := 1, neighbour := 0, since := s.now,
                       waitSince := if o.fill.isSome then some s.now else none } }

/-- R177. The array reads of an extent complete; a decoding failure is counted and starts the recovery ladder (R127, R179). -/
def execFlashReadComplete (p x ext : Nat) (bad : Bool) (s : State) : Res :=
  let o := s.obj p x
  if !o.created || o.extents ≤ ext || o.recovery.isSome || !s.tierServes x compTranslation || !s.flashOn x then .next s
  else if bad then .next ((s.bumpP p 0x8040 8 1).startRecovery p x ext)
  else match o.st, o.fill with
    | .promoting, some f =>
      if f.extentsRead = ext then
        let s := (s.endBusy p x).onObj p x fun o => { o with
          fill := o.fill.map fun f => { f with extentsRead := ext + 1 } }
        .next (s.grantFlash (x % s.part.ioDies))
      else .next s
    | _, _ => .next s

/-- R172. The next frame of a fill is written into the lake copy and counted on the marks of its PROMOTEs; a place that is no
writable lake page ends the fill (R474). -/
def execFillFrameDelivered (p x : Nat) (s : State) : Res :=
  let o := s.obj p x
  match o.st, o.fill with
  | .promoting, some f =>
    match f.landed with
    | [] => .next s
    | fr :: rest =>
      if o.recovery.isSome || !s.tierServing x then .next s
      else
        let va := o.addr + f.done * frameBytes
        match s.translateRange p va frameBytes { write := true } with
        | .error e => .next ((s.noteFault p e).endFill p x (.fault cauTranslation e.kind (e.addr % 2 ^ 48)))
        | .ok l =>
          if l.all fun e => match e.1 with | .lake _ => true | _ => false then
            let s := (s.writeParts l fr).onObj p x fun o => { o with
              fill := some { f with done := f.done + 1, landed := rest } }
            .next (f.waiters.foldl (fun s r => match r with
              | .promote _ _ _ mark _ => s.gain p mark 1
              | _ => s) s)
          else .next (s.endFill p x (.fault cauTranslation 3 (va % 2 ^ 48)))
  | _, _ => .next s

/-- R173. The fill is done. -/
def execFillDone (p x : Nat) (s : State) : Res :=
  let o := s.obj p x
  match o.st, o.fill with
  | .promoting, some f =>
    if f.done ≠ o.tiles || !s.tierServing x then .next s
    else
      let s := (s.endSpans p f.since f.waiters).onObj p x fun o => { o with st := .resident, fill := none }
      let s := f.waiters.foldl (fun s r => match r with
        | .promote w q _ _ _ => s.complete p w q .ok
        | _ => s) s
      .next ((s.settlePins p x).releaseHeld p x [.fill])
  | _, _ => .next s

/-- R175. The drain of a DEMOTING object ends. -/
def execReleaseDone (p x : Nat) (s : State) : Res :=
  if (s.obj p x).st ≠ .demoting || !s.tierServing x then .next s
  else .next ((s.becomeAbsent p x).releaseHeld p x gone)

/-! ## Commit (R166, R176) -/

/-- Every tile of a lake copy lies on writable lake pages of the partition and reads. -/
def State.copySound (s : State) (p : Nat) (o : TierObj) : Bool :=
  (List.range o.tiles).all fun i => match s.translateRange p (o.addr + i * frameBytes) frameBytes { write := true } with
    | .ok l => l.all (fun e => match e.1 with | .lake _ => true | _ => false) && (s.badPart l).isNone
    | .error _ => false

/-- A commit keeps the lake copy: an IMPORT's only if the copy has stayed usable (R474). -/
def State.keepsCopy (s : State) (p : Nat) (o : TierObj) (v : Writing) : Bool :=
  v.keepCopy && match v.req with
    | .importVersion _ _ _ => s.copySound p o
    | _ => true

/-- R176. The translation layer records the new version once its last extent is programmed; a write request's mark gains 1 (R172;
DEDUCED, assumption log 125). -/
def execTierCommit (p x : Nat) (s : State) : Res :=
  let o := s.obj p x
  match o.st, o.writing with
  | .writing, some v =>
    if v.frames.isEmpty || !s.tierServes x compTranslation || !s.flashOn x then .next s
    else
      let ext := (v.frames.length + 63) / 64
      let keep := s.keepsCopy p o v
      let s := s.setObj p x { o with
        st := if keep then .resident else .absent
        version := v.version
        flashVersion := v.version
        frames := v.frames
        seqs := (List.range ext).map fun i => (s.partn p).flashSeq + i
        writing := none
        retiring := o.retiring + o.extents
        heldInLake := false
        poison := match v.req with | .importVersion _ _ _ => false | _ => o.poison }
      let s := s.onPartn p fun y => { y with flashSeq := y.flashSeq + ext }
      let s := { s with lake := { s.lake with
        bytesHost := s.lake.bytesHost + v.frames.length * frameBytes
        bytesFlash := s.lake.bytesFlash + ext * 299136 } }
      let s := match v.req with
        | .importVersion w q _ => s.complete p w q .ok
        | .sweepWrite _ mark => s.gain p mark 1
        | _ => s
      let s := if keep then s.settlePins p x else s.endDemotes p x true
      .next (s.releaseHeld p x (if keep then [.commit] else gone))
  | _, _ => .next s

/-- R176. The old extents are retired once no fill reads them. -/
def execExtentRetire (p x : Nat) (s : State) : Res :=
  let o := s.obj p x
  if o.st = .promoting || o.retiring = 0 || !s.tierServes x compTranslation || !s.flashOn x then .next s
  else .next (s.onObj p x fun o => { o with retiring := 0 })

/-! ## The recovery ladder (R179 to R181) -/

/-- The frames of an extent of an object. -/
def TierObj.extentFrames (o : TierObj) (e : Nat) : List (List Byte) := (o.frames.drop (64 * e)).take 64

/-- A frame is that of an object's tile (R127, R180): CHECK, TENSOR, the object's VERSION, and the origin of the tile. -/
def sameTile (version : U64) (want f : List Byte) : Bool :=
  let a := frameHeader want
  let b := frameHeader f
  f.length = frameBytes && frameCheckOk f && a.tensor = b.tensor && b.version = version.toNat && a.origin0 = b.origin0 &&
  a.origin1 = b.origin1 && a.origin2 = b.origin2 && a.origin3 = b.origin3 && a.origin4 = b.origin4

/-- The frames of a recovered extent pass R180; the index of the first that does not. -/
def framesBad (version : U64) : List (List Byte) → List (List Byte) → Nat → Option Nat
  | [], [], _ => none
  | w :: ws, f :: fs, i => if sameTile version w f then framesBad version ws fs (i + 1) else some i
  | _, _, i => some i

/-- The HCHECK of an extent header: CRC-32C of its 128 bytes with HCHECK taken as zero (R164). -/
def extentCheck (v : Nat) : Nat := (crc32c (leBytes 128 (v / 2 ^ 32 * 2 ^ 32))).toNat

/-- The header of extent e of object x in flash (R164). -/
def TierObj.extentHeader (o : TierObj) (x e : Nat) : List Byte :=
  let v := fld x 992 + fld e 972 + fld o.version.toNat 908 + fld (o.seqs.getD e 0 % 2 ^ 64) 844 +
    fld (o.extentFrames e).length 837
  leBytes 128 (v + extentCheck v)

/-- An extent header may be used (R164, R180). -/
def extentHeaderOk (o : TierObj) (x e : Nat) (h : List Byte) : Bool :=
  let v := leNat h
  h.length = 128 && bits v 31 0 = extentCheck v && bits v 1023 992 = x && bits v 991 972 = e &&
  bits v 971 908 = o.version.toNat

/-- The neighbours that can be asked (R179), as (place in Tier.Neighbour, module), from place i on; none where feature bit 4 is outside
the partition's agreed mask (R397). -/
def State.neighboursFrom (s : State) (p i : Nat) : List (Nat × Nat) :=
  if s.moduleSetting 0x5000 3 ≠ 1 || !s.agreed p 4 then []
  else (((List.range 8).filter (i ≤ ·)).map fun j => (j, s.moduleSetting 0x5011 (j + 1))).filter fun e =>
    e.2 < 64 && e.2 ≠ s.moduleNumber && (s.peerPartition p e.2).isSome && (s.outPort e.2).isSome

/-- The source after one that failed. -/
def State.nextSource (s : State) (p x : Nat) (r : Recovery) : State :=
  let set := fun (s : State) (r : Recovery) => s.onObj p x fun o => { o with recovery := some r }
  let ask := fun (i : Nat) => match s.neighboursFrom p i with
    | e :: _ => set s { r with source := 3, neighbour := e.1 }
    | [] => (set s { r with source := 4 }).tierEvent p x 0x3210 r.ext
  match r.source with
  | 1 => set s { r with source := 2 }
  | 2 => ask 0
  | 3 => ask (r.neighbour + 1)
  | _ => s

/-- A recovery has delivered an extent: it is written to new flash locations, and the fill that waited goes on: the extent's frames
that it still lacks arrive in the landing as any flash frame does (R17, R127). -/
def State.recovered (s : State) (p x : Nat) (r : Recovery) (fs : List (List Byte)) (code : Nat) : State :=
  let s := s.endLadder p r
  let seq := (s.partn p).flashSeq
  let s := s.onObj p x fun o => { o with
    frames := o.frames.take (64 * r.ext) ++ fs ++ o.frames.drop (64 * r.ext + 64)
    seqs := o.seqs.set r.ext seq
    recovery := none
    fill := o.fill.map fun f =>
      if (f.done + f.landed.length) / 64 = r.ext then { f with extentsRead := Max.max f.extentsRead (r.ext + 1) } else f }
  let s := s.onPartn p fun y => { y with flashSeq := y.flashSeq + 1 }
  let s := { s with lake := { s.lake with bytesFlash := s.lake.bytesFlash + 299136 } }
  (s.tierEvent p x code r.ext).releaseHeld p x [.recovery]

/-- R179. A source of the ladder delivers or fails; source 4 ends only by IMPORT or by its timeout. -/
def execRecoverySourceTimeout (p x : Nat) (out : RecoveryOutcome) (s : State) : Res :=
  let o := s.obj p x
  match o.recovery with
  | none => .next s
  | some r =>
    if r.source = 4 || !s.tierServes x compRecovery then .next s
    else match out with
      | .failed => .next (s.nextSource p x r)
      | .delivered d =>
        if extentHeaderOk o x r.ext d.header && (framesBad o.version (o.extentFrames r.ext) d.frames 0).isNone then
          .next (s.recovered p x r d.frames (0x3200 + r.source))
        else .next ((s.bumpP p 0x8040 8 1).nextSource p x r)

/-- Frames of an extent read back from the lake copy, or why one does not read. -/
def State.copyFrames (s : State) (p addr : Nat) : Nat → Except VRead (List (List Byte))
  | 0 => .ok []
  | n + 1 =>
    match s.copyFrames p addr n with
    | .error e => .error e
    | .ok l => match s.vread p (addr + n * frameBytes) frameBytes with
      | .ok f => .ok (l ++ [f])
      | e => .error e

/-- The last row of Tier object transitions (R173, R181). -/
def State.extentUnrecoverable (s : State) (p x : Nat) (r : Recovery) : State :=
  let o := s.obj p x
  let s := (s.endLadder p r).tierEvent p x 0x3205 r.ext
  let s := s.onObj p x fun o => { o with recovery := none }
  let poison := fun (s : State) => (s.onObj p x fun o => { o with poison := true }).bumpP p 0x8050 11 1
  match o.st with
  | .absent => (poison s).releaseHeld p x [.recovery]
  | .promoting => ((poison s).endFill p x (.poisoned x)).releaseHeld p x [.recovery]
  | .demoting => ((poison s).becomeAbsent p x).releaseHeld p x (.recovery :: gone)
  | .writing => s.releaseHeld p x [.recovery]
  | .resident =>
    match s.copyFrames p (o.addr + 64 * r.ext * frameBytes) (o.extentFrames r.ext).length with
    | .ok fs =>
      let seq := (s.partn p).flashSeq
      let s := s.onObj p x fun o => { o with
        frames := o.frames.take (64 * r.ext) ++ fs ++ o.frames.drop (64 * r.ext + 64)
        seqs := o.seqs.set r.ext seq }
      let s := s.onPartn p fun y => { y with flashSeq := seq + 1 }
      { s with lake := { s.lake with bytesFlash := s.lake.bytesFlash + 299136 } }.releaseHeld p x [.recovery]
    | .error e => (s.noteRead p e).releaseHeld p x [.recovery]

/-- R179, R181. The host has not answered within Tier.HostRecoveryTimeout. -/
def execHostRecoveryTimeout (p x : Nat) (s : State) : Res :=
  match (s.obj p x).recovery with
  | none => .next s
  | some r => if r.source ≠ 4 || !s.tierServes x compRecovery then .next s else .next (s.extentUnrecoverable p x r)

/-- R179. IMPORT mode 1 answers the request of source 4, also one sent before the Tier Manager's restart began the ladder again (R356). -/
def execImportRepair (p w q : Nat) (s : State) : Res :=
  match s.cmd p w q with
  | none => .next s
  | some k =>
    if k.f 447 446 ≠ 1 || !s.tierServes (k.f 397 366) compRecovery then .next s
    else .next (s.startCmd p w q opImport fun k s =>
      let x := k.f 397 366
      let o := s.obj p x
      match o.recovery with
      | none => s.complete p w q (.tier x)
      | some r =>
        let want := o.extentFrames r.ext
        if (r.source ≠ 4 && !r.asked) || r.ext ≠ k.f 333 314 || o.version.toNat ≠ k.f 313 250 then s.complete p w q (.tier x)
        else if s.lake.readOnly then s.complete p w q (.rejected cauReadOnly)
        else match s.vcheck p (k.f 445 398) (want.length * frameBytes) false with
          | some f => (s.noteFault p f).complete p w q (.translation f)
          | none => match s.readFrames p (k.f 445 398) want.length with
            | .error e => (s.noteFrames p e).complete p w q e.outcome
            | .ok fs => match framesBad o.version want fs 0 with
              | some i => (s.bumpP p 0x8040 8 1).complete p w q (.verify i)
              | none => (s.complete p w q .ok).recovered p x r fs 0x3204)

/-! ## A lake copy that becomes unusable (R221, R366, R474) -/

/-- The first lost state of a running sweep, for its completion (R474). -/
def State.noteLoss (s : State) (p : Nat) (loss : Nat × Nat × Nat) : State :=
  s.onPartn p fun y => { y with sweep := y.sweep.map fun r => { r with lost := r.lost.or (some loss) } }

/-- The new state of an object is lost before it has reached flash: the object returns to its last committed version, and the
sweep that runs completes STATE_LOST. -/
def State.stateLost (s : State) (p x : Nat) (loss : Nat × Nat × Nat) : State :=
  let s := ((s.onPartn p fun y => { y with stateIntact := false }).tierEvent p x 0x3304 0).noteLoss p loss
  let s := s.onObj p x fun o => { o with version := o.flashVersion }
  (s.becomeAbsent p x).releaseHeld p x gone

/-- The lake copy of an object is lost to a hard loss (R366): a fill ends with HARD_FAULT, an IMPORT goes on without the
copy, a sweep write or a state held in the lake is lost, any other copy makes the object ABSENT. The OBJECT of a lost state stands
in DETAIL [63:32] (DESIGN CHOICE, assumption log 62). -/
def State.copyLost (s : State) (p x kind detail : Nat) : State :=
  let o := s.obj p x
  let loss := (cauHardFault, kind, detail + fld x 32)
  match o.st with
  | .absent => s
  | .promoting => s.endFill p x (.fault cauHardFault kind detail)
  | .demoting => (s.becomeAbsent p x).releaseHeld p x gone
  | .resident => if o.inLakeOnly then s.stateLost p x loss else (s.becomeAbsent p x).releaseHeld p x gone
  | .writing =>
    match o.writing with
    | some v => match v.req with
      | .importVersion _ _ _ => s.onObj p x fun o => { o with writing := some { v with keepCopy := false } }
      | _ => s.stateLost p x loss
    | none => s

/-! ## The lake's repair, scrub and devices (R158 to R162) -/

/-- A poisoned frame of a RESIDENT lake copy is rewritten from the object's current extent (R161); none where that rule does not
apply. -/
def State.repairCopy (s : State) (p x tile : Nat) : Option State :=
  let o := s.obj p x
  match o.st, s.translateRange p (o.addr + tile * frameBytes) frameBytes { write := true } with
  | .resident, .ok l =>
    if (s.badPart l).isNone || o.tiles ≤ tile || o.inLakeOnly || !s.tierServing x then none
    else some ((s.writeParts l (o.frames.getD tile [])).tierEvent p x 0x3103 (tile / 64))
  | _, _ => none

/-- The repair of the lake copy that holds a granule, where R161 applies to it. -/
def State.repairAt (s : State) (p pa : Nat) : Option State :=
  (s.partn p).objects.findSome? fun e =>
    ((List.range e.2.tiles).find? fun i => match s.translateRange p (e.2.addr + i * frameBytes) frameBytes {} with
      | .ok l => s.badPart l = some pa
      | .error _ => false).bind fun i => s.repairCopy p e.1 i

/-- R161. A poisoned frame of a RESIDENT lake copy is rewritten from the object's current extent; a state held in the lake
alone is lost (R221, R474). -/
def execLakeCopyRepair (p x tile : Nat) (s : State) : Res :=
  let o := s.obj p x
  match s.repairCopy p x tile with
  | some s => .next s
  | none =>
    match o.st, s.translateRange p (o.addr + tile * frameBytes) frameBytes { write := true } with
    | .resident, .ok l =>
      if (s.badPart l).isNone || o.tiles ≤ tile || !s.tierServing x then .next s
      else .next (s.stateLost p x (cauUnreadable, 0, fld (frameHeader (o.frames.getD tile [])).tensor 96 + fld x 64))
    | _, _ => .next s

/-- Corrections traced to a device within the last hour, and this one. -/
def State.noteCorrection (s : State) (p stack ch dev : Nat) : State :=
  let key := (stack * 32 + ch) * 16 + dev
  let times := ((s.sup.corrections.get key []).filter fun t => s.now < t + 3600000000) ++ [s.now]
  let s := { s with sup := { s.sup with corrections := s.sup.corrections.put key times [] } }
  let s := s.bumpP p 0x8050 9 1
  if s.moduleSetting 0x5000 5 < times.length && s.sup.failedDevices.get (stack * 32 + ch) 0 = 0 then
    { s with sup := { s.sup with failedDevices := s.sup.failedDevices.put (stack * 32 + ch) (dev + 1) 0 } }.raise
      0x3101 p stack [ch, dev]
  else s

/-- R162. The stack controller reads one granule of the lake. A poisoned granule is uncorrectable; so is an error in another
device of a channel with a failed one (R159). -/
def execLakeScrub (g : Nat) (found : GranuleError) (s : State) : Res :=
  let pa := g * 64
  let k := lakeStack pa
  let ch := lakeChannel pa
  let p := s.hallOwner (k / 4)
  let bad := (s.poisonGranules [g]).lakeUncorrectable p pa
  if !(s.part.hasStack k) || s.sup.lostStacks.contains k || s.sup.lostHalls.contains (k / 4) || !s.working then .next s
  else if (s.lakeBad pa 64).isSome then .next bad
  else match found with
    | .clean => .next s
    | .uncorrectable => .next bad
    | .corrected d =>
      let failed := s.sup.failedDevices.get (k * 32 + ch) 0
      if failed = d + 1 then .next s
      else if failed ≠ 0 then .next bad
      else .next (s.noteCorrection p k ch d)

/-- R166, R167. Background work of the translation layer, and the events of its spare area. -/
def execFlashBackgroundWork (die : Nat) (w : FlashWork) (s : State) : Res :=
  if !s.part.hasDie die || !s.compUp (6 + die) compTranslation then .next s
  else
    let old := s.lake.sparePercent
    let new := Min.min old w.sparePercent
    let s := { s with lake := { s.lake with
      retiredBlocks := s.lake.retiredBlocks + w.retired
      relocations := s.lake.relocations + w.relocations
      bytesFlash := s.lake.bytesFlash + w.bytes
      sparePercent := new
      readOnly := s.lake.readOnly || new < 2 } }
    let s := if new < 10 && 10 ≤ old then s.raiseM 0x3301 die [] else s
    .next (if new < 2 && 2 ≤ old then s.raiseM 0x3302 die [] else s)

/-! ## Arrivals in a landing (R17, R127) -/

/-- A flash frame of a fill arrives: the next frame of an extent whose array reads are complete. It waits for a free frame of the
landing (R17, R178). -/
def State.flashArrival (s : State) (die p x tile : Nat) (ok : Bool) (f : List Byte) : State :=
  let o := s.obj p x
  match o.st, o.fill with
  | .promoting, some fl =>
    if tile ≠ fl.done + fl.landed.length || fl.extentsRead * 64 ≤ tile || o.tiles ≤ tile || o.recovery.isSome then s
    else if s.landingFull p die then
      s.onObj p x fun o => { o with fill := some { fl with fullSince := some (fl.fullSince.getD s.now) } }
    else
      let s := match fl.fullSince with
        | some t => s.bumpP p 0x8050 5 (s.now - t)
        | none => s
      let fl : Fill := { fl with fullSince := none }
      let s := s.onObj p x fun o => { o with fill := some fl }
      if ok && sameTile o.version (o.frames.getD tile []) f then
        s.onObj p x fun o => { o with fill := some { fl with landed := fl.landed ++ [f] } }
      else (s.bumpP p 0x8040 8 1).startRecovery p x (tile / 64)
  | _, _ => s

/-- Put a frame that a mover awaits into the landing of die 0, with the host port (R17). -/
def State.stage (s : State) (m : MoverRef) (t : Nat) (f : List Byte) : State :=
  let l := s.landing 0
  s.setLanding 0 { l with staged := l.staged ++ [(moverTag m, t, f)] }

/-- A tile that a mover reads: its descriptor, the tile, whether it is read once more, and the detached member it is for. -/
structure Awaited where
  desc : Desc
  tile : Nat
  again : Bool
  member : Option Nat

/-- The tiles that a descriptor reads now: one that failed, else its next tile and those that detached members fetch. -/
def Desc.reading (d : Desc) : List Awaited :=
  match d.st with
  | .reread t _ k _ => [{ desc := d, tile := t, again := true, member := k }]
  | _ =>
    (if d.st = .active && d.room then [{ desc := d, tile := d.next, again := false, member := none }] else []) ++
    ((List.range d.stair.length).filterMap fun k => match d.stair[k]? with
      | some x => if x.skid.isEmpty && d.memberActs k then
          some { desc := d, tile := x.delivered, again := false, member := some k } else none
      | none => none)

/-- The first tile in host memory that a mover reads and whose frame has not arrived. -/
def State.awaitedTile (s : State) (m : MoverRef) : Option Awaited :=
  ((s.queue m).flatMap Desc.reading).find? fun a => s.mayMove m a.desc && s.readSource m a.desc a.tile = .awaited

/-- A host frame of a mover arrives: a first failure makes it read once more, a second stops the descriptor (R126, R127). -/
def State.hostArrival (s : State) (m : MoverRef) (unit : Bool) (f : List Byte) : State :=
  match s.awaitedTile m with
  | none => s
  | some a =>
    let d := a.desc
    if d.sunit ≠ unit || s.landingFull d.origin.1 0 then s
    else if unit then (if f.length = 4096 then s.stage m a.tile f else s)
    else if f.length = frameBytes && frameFits d f then s.stage m a.tile f
    else
      let s := s.bumpP d.origin.1 0x8040 8 1
      if a.again then
        let d' : Desc := { d with st := if a.member.isNone then .active else .queued }
        ((s.bumpP d.origin.1 0x8040 5 1).changeDesc m d d').stopDesc m d' a.tile (.fail spCheck)
      else s.changeDesc m d { d with st := .reread a.tile .check a.member s.now }

/-- A source frame of a running IMPORT fails its check before its version begins: the IMPORT ends with nothing written. -/
def State.importArrival (s : State) (p w q tile : Nat) (f : List Byte) : State :=
  match s.runningCmd p w q opImport with
  | none => s
  | some k =>
    let held := (s.partn p).objects.any fun e => e.2.waiting.any fun r => r.2.isOf w q
    if frameCheckOk f || k.f 447 446 ≠ 0 || !held then s
    else (s.bumpP p 0x8040 8 1 |>.forgetTier p w q).complete p w q (.verify tile)

/-- R127. A frame arrives in a landing and is checked according to its source. -/
def execLandingFrameArrival (die p : Nat) (src : ArrivalSource) (f : List Byte) (s : State) : Res :=
  if !s.part.hasDie die || !s.working then .next s
  else match src with
    | .flash x tile decodes headerOk =>
      if die ≠ x % s.part.ioDies || !s.tierServes x compTranslation || !s.flashOn x then .next s
      else .next (s.flashArrival die p x tile (decodes && headerOk) f)
    | .host m => .next (if die = 0 then s.hostArrival m false f else s)
    | .hostPayload m => .next (if die = 0 then s.hostArrival m true f else s)
    | .importSource w q tile => .next (s.importArrival p w q tile f)

end Sys2Proof.Machine
end

