-- ==== Sys2Proof/Machine/SweepMath.lean ====
section
/-! DEFINITION. The arithmetic of the sweep units: record fields (R216), block geometry (R217, R218), remainders (R211 to R213),
optimiser rules (R214), the update of one block (R215, R222) and the digest (R232). -/

namespace Sys2Proof.Machine

/-! ## Record fields (R216) -/

def SweepRec.n (r : SweepRec) : Nat := r.raw.toNat
def SweepRec.f (r : SweepRec) (hi lo : Nat) : Nat := bits r.n hi lo
def SweepRec.wTensor (r : SweepRec) : Nat := r.f 1023 992
def SweepRec.gTensor (r : SweepRec) : Nat := r.f 991 960
def SweepRec.s1Tensor (r : SweepRec) : Nat := r.f 959 928
def SweepRec.s2Tensor (r : SweepRec) : Nat := r.f 927 896
def SweepRec.rmTensor (r : SweepRec) : Nat := r.f 895 864
def SweepRec.sObject (r : SweepRec) : Nat := r.f 863 832
def SweepRec.fp (r : SweepRec) (hi lo : Nat) : Val := ofF32 (BitVec.ofNat 32 (r.f hi lo))
def SweepRec.lr (r : SweepRec) : Val := r.fp 831 800
def SweepRec.b1 (r : SweepRec) : Val := r.fp 799 768
def SweepRec.b2 (r : SweepRec) : Val := r.fp 767 736
def SweepRec.eps (r : SweepRec) : Val := r.fp 735 704
def SweepRec.wd (r : SweepRec) : Val := r.fp 703 672
def SweepRec.gs (r : SweepRec) : Val := r.fp 671 640
def SweepRec.bc1 (r : SweepRec) : Val := r.fp 639 608
def SweepRec.bc2 (r : SweepRec) : Val := r.fp 607 576
def SweepRec.clip (r : SweepRec) : Val := r.fp 575 544
def SweepRec.wAddr (r : SweepRec) : Nat := r.f 543 496
def SweepRec.gAddr (r : SweepRec) : Nat := r.f 495 448
def SweepRec.s1Addr (r : SweepRec) : Nat := r.f 447 400
def SweepRec.s2Addr (r : SweepRec) : Nat := r.f 399 352
def SweepRec.rmAddr (r : SweepRec) : Nat := r.f 351 304
def SweepRec.idxAddr (r : SweepRec) : Nat := r.f 303 256
def SweepRec.n0 (r : SweepRec) : Nat := r.f 255 224
def SweepRec.n1 (r : SweepRec) : Nat := r.f 223 192
def SweepRec.n2 (r : SweepRec) : Nat := r.f 191 176
def SweepRec.n3 (r : SweepRec) : Nat := r.f 175 160
def SweepRec.n4 (r : SweepRec) : Nat := r.f 159 144
def SweepRec.firstBlk (r : SweepRec) : Nat := r.f 143 112
def SweepRec.nblk (r : SweepRec) : Nat := r.f 111 80
def SweepRec.nrows (r : SweepRec) : Nat := r.f 79 48
def SweepRec.rule (r : SweepRec) : Nat := r.f 47 44
def SweepRec.wmode (r : SweepRec) : Nat := r.f 43 42
def SweepRec.s1Fmt (r : SweepRec) : Nat := r.f 41 38
def SweepRec.s2Fmt (r : SweepRec) : Nat := r.f 37 34
def SweepRec.s1Blk (r : SweepRec) : Nat := if r.s1Fmt = 1 then r.f 33 31 else 0
def SweepRec.nesterov (r : SweepRec) : Bool := bit r.n 30
def SweepRec.sparse (r : SweepRec) : Bool := bit r.n 29
def SweepRec.tiered (r : SweepRec) : Bool := bit r.n 28
def SweepRec.markEn (r : SweepRec) : Bool := bit r.n 27
def SweepRec.mark (r : SweepRec) : Nat := r.f 26 11

/-- Optimiser rules. -/
def ruleSgdm : Nat := 1
def ruleAdamw : Nat := 2
def ruleFactored : Nat := 3
def ruleSign : Nat := 4

def SweepRec.factored (r : SweepRec) : Bool := r.rule = ruleFactored
def SweepRec.hasS2 (r : SweepRec) : Bool := r.rule = ruleAdamw || r.rule = ruleFactored
def SweepRec.hasRm (r : SweepRec) : Bool := r.rmTensor ≠ 0

/-! ## Geometry (R217, R218) -/

/-- Tiles of a sweep block in a format. -/
def tilesPerBlock (fmt : Nat) : Nat := (64 / tileRows fmt) * (128 / tileCols fmt)

def SweepRec.blkRows (r : SweepRec) : Nat := (r.n1 + 63) / 64
def SweepRec.blkCols (r : SweepRec) : Nat := (r.n0 + 127) / 128
def SweepRec.allBlks (r : SweepRec) : Nat := r.n4 * r.n3 * r.n2 * r.blkRows * r.blkCols

/-- The blocks that the record updates, in order: all, or those that hold a listed row. -/
def SweepRec.order (r : SweepRec) : List Nat :=
  let l := (List.range r.nblk).map fun i => r.firstBlk + i
  if r.sparse then l.filter fun b => r.rows.any fun c1 => c1 / 64 = b / r.blkCols else l

/-- Tiles of S1 and of S2. -/
def SweepRec.s1Tiles (r : SweepRec) : Nat := if r.factored then (r.n1 + 31) / 32 else r.nblk * tilesPerBlock r.s1Fmt
def SweepRec.s2Tiles (r : SweepRec) : Nat :=
  if r.factored then (r.n0 + 31) / 32 else if r.hasS2 then r.nblk * tilesPerBlock r.s2Fmt else 0

/-- Blocks of the gradient's own tensor: NROWS x N0 under SPARSE, the record's blocks otherwise. -/
def SweepRec.gBlks (r : SweepRec) : Nat := if r.sparse then (r.nrows + 63) / 64 * r.blkCols else r.nblk

/-- The parts of a swept parameter: role, tensor, address, tiles, DRAW (R215, R235). -/
structure SweepPart where
  role : Nat
  tensor : Nat
  addr : Nat
  tiles : Nat
  draw : Nat

def SweepRec.partW (r : SweepRec) : SweepPart := ⟨1, r.wTensor, r.wAddr, r.nblk * tilesPerBlock r.wFmt, 1⟩
def SweepRec.partRm (r : SweepRec) : SweepPart := ⟨2, r.rmTensor, r.rmAddr, if r.hasRm then r.nblk * 2 else 0, 0⟩
def SweepRec.partS1 (r : SweepRec) : SweepPart := ⟨3, r.s1Tensor, r.s1Addr, r.s1Tiles, 3⟩
def SweepRec.partS2 (r : SweepRec) : SweepPart := ⟨4, r.s2Tensor, r.s2Addr, r.s2Tiles, 4⟩

/-- W, RM, S1, S2 as far as the record has them. -/
def SweepRec.parts (r : SweepRec) : List SweepPart := [r.partW, r.partRm, r.partS1, r.partS2].filter fun p => p.tiles ≠ 0

/-- The tier objects of tiles lo to lo + n - 1 of a part (R220). -/
def objectsOf (first lo n : Nat) : List Nat :=
  if n = 0 then [] else (List.range ((lo + n - 1) / 64 + 1 - lo / 64)).map fun i => first + lo / 64 + i

def SweepRec.firstS2 (r : SweepRec) : Nat := r.sObject + (r.s1Tiles + 63) / 64

/-- Every tier object of a record. -/
def SweepRec.objects (r : SweepRec) : List Nat :=
  if r.tiered then objectsOf r.sObject 0 r.s1Tiles ++ objectsOf r.firstS2 0 r.s2Tiles else []

/-- The objects that block number b needs. -/
def SweepRec.blkObjects (r : SweepRec) (b : Nat) : List Nat :=
  if !r.tiered then []
  else if r.factored then r.objects
  else
    let i := b - r.firstBlk
    let t1 := tilesPerBlock r.s1Fmt
    let t2 := if r.hasS2 then tilesPerBlock r.s2Fmt else 0
    objectsOf r.sObject (i * t1) t1 ++ objectsOf r.firstS2 (i * t2) t2

/-- Where an object's lake copy belongs (R220). -/
def SweepRec.objectAddr (r : SweepRec) (x : Nat) : Nat :=
  if x < r.firstS2 then r.s1Addr + 64 * (x - r.sObject) * frameBytes else r.s2Addr + 64 * (x - r.firstS2) * frameBytes

/-- The coordinates c4, c3, c2, first c1 and first c0 of a block. -/
structure BlkPos where
  c4 : Nat
  c3 : Nat
  c2 : Nat
  c1 : Nat
  c0 : Nat

def SweepRec.blkPos (r : SweepRec) (b : Nat) : BlkPos :=
  let o := b / (r.blkRows * r.blkCols)
  { c0 := b % r.blkCols * 128, c1 := b / r.blkCols % r.blkRows * 64, c2 := o % r.n2, c3 := o / r.n2 % r.n3, c4 := o / (r.n2 * r.n3) }

/-- The logical index of an element (R48). -/
def SweepRec.index (r : SweepRec) (p : BlkPos) (row col : Nat) : Nat :=
  logicalIndex r.n3 r.n2 r.n1 r.n0 p.c4 p.c3 p.c2 (p.c1 + row) (p.c0 + col)

/-! ## Rows of a block out of its tiles, and back -/

/-- The rows of a block from the rows of its tiles. -/
def joinTiles {α : Type} (fmt : Nat) (tiles : List (List (List α))) : List (List α) :=
  let per := 128 / tileCols fmt
  (pieces per (tiles.length / per) tiles).flatMap fun g =>
    (List.range (tileRows fmt)).map fun i => g.flatMap fun t => t.getD i []

/-- The rows of tile t of a block of rows. -/
def cutTile {α : Type} (fmt t : Nat) (rows : List (List α)) : List (List α) :=
  let per := 128 / tileCols fmt
  ((rows.drop (t / per * tileRows fmt)).take (tileRows fmt)).map fun r => (r.drop (t % per * tileCols fmt)).take (tileCols fmt)

/-- The elements of a frame: value under R32 with T = Q = 1, and quantum (R211). -/
structure SweepEl where
  v : Val
  q : ℚ

def quantumOf (g : FloatFmt) (b : ℚ) (code : Nat) : ℚ :=
  let e : Int := (code / 2 ^ g.fracBits % 2 ^ g.expBits : Nat)
  b * pow2 (Max.max e 1 - g.bias - g.fracBits)

def frameEls (f : List Byte) : List (List SweepEl) :=
  let h := frameHeader f
  let codes := tileCodes h.fmt (framePayload f)
  let vals := tileExact h.fmt h.blk (frameSidecar f) (framePayload f)
  let scales := tileScales h.fmt h.blk (frameSidecar f)
  (codes.zip vals).zipIdx.map fun e =>
    (e.1.1.zip e.1.2).zipIdx.map fun x =>
      let b := if blkSize h.blk = 0 then 1 else pow2 (((scales.getD e.2 []).getD (x.2 / blkSize h.blk) 127 : Nat) - (127 : Int))
      { v := r32 x.1.2
        q := match floatFmt h.fmt with
          | some g => quantumOf g b x.1.1
          | none => 1 }

def blockEls (frames : List (List Byte)) : List (List SweepEl) :=
  joinTiles (frameHeader (frames.headD [])).fmt (frames.map frameEls)

/-! ## The remainder (R212, R213) -/

/-- x = dec(w) + r x (q / 128). -/
def carried (w : SweepEl) (r : Int) : Val := fAdd w.v (fMul (Val.ofQ (r : ℚ)) (.fin (w.q / 128)))

/-- r2 and its class: k beyond the range saturates, also where the difference or the quotient is not finite. -/
def newRemainder (mode : Nat) (xn : Val) (w2 : SweepEl) : Int × ElClass :=
  if mode = 1 || !xn.isFinite || !w2.v.isFinite then (0, .zero)
  else
    let d := fSub xn w2.v
    let u := fDiv d (.fin (w2.q / 128))
    if !u.isFinite then (if d.isNeg then -128 else 127, .sat)
    else
      let m : Int := roundNat .rne |u.toQ|
      let k := if u.isNeg then -m else m
      if k < -128 then (-128, .sat) else if 127 < k then (127, .sat) else (k, if k = 0 then .zero else .none)

/-! ## Optimiser rules (R214) -/

/-- The constants 1 - B1 and 1 - B2. -/
def SweepRec.omb1 (r : SweepRec) : Val := fSub (.fin 1) r.b1
def SweepRec.omb2 (r : SweepRec) : Val := fSub (.fin 1) r.b2

/-- -LR x (d + WD x x). -/
def SweepRec.delta (r : SweepRec) (d x : Val) : Val := fMul r.lr.neg (fAdd d (fMul r.wd x))

/-- The sign term of SIGN. -/
def signVal (c : Val) : Val := if c = .nan then .nan else if c.isZero then .zero false else .fin (if c.isNeg then -1 else 1)

/-- One element under SGDM, ADAMW or SIGN: delta, new S1, new S2. -/
def SweepRec.rule1 (r : SweepRec) (g x m v : Val) : Val × Val × Val :=
  if r.rule = ruleSgdm then
    let m' := fAdd (fMul r.b1 m) g
    (r.delta (if r.nesterov then fAdd g (fMul r.b1 m') else m') x, m', v)
  else if r.rule = ruleAdamw then
    let m' := fAdd (fMul r.b1 m) (fMul r.omb1 g)
    let v' := fAdd (fMul r.b2 v) (fMul r.omb2 (fMul g g))
    (r.delta (fDiv (fMul m' r.bc1) (fAdd (fSqrt (fMul v' r.bc2)) r.eps)) x, m', v')
  else
    let c := fAdd (fMul r.b1 m) (fMul r.omb1 g)
    (r.delta (signVal c) x, fAdd (fMul r.b2 m) (fMul r.omb2 g), v)

/-- A sum in ascending order from +0. -/
def fSum (l : List Val) : Val := l.foldl fAdd (.zero false)

/-- R' of FACTORED from the rows of g. -/
def SweepRec.newStat (r : SweepRec) (old : List Val) (lines : List (List Val)) (n : Nat) : List Val :=
  (old.zip lines).map fun e =>
    fAdd (fMul r.b2 e.1) (fMul r.omb2 (fDiv (fSum (e.2.map fun g => fAdd (fMul g g) r.eps)) (r32 (Val.ofNat n))))

/-- The columns of rows. -/
def columns (n : Nat) (rows : List (List Val)) : List (List Val) := (List.range n).map fun j => rows.map fun r => r.getD j (.zero false)

/-- rho_R = (sum of R') / N1. -/
def SweepRec.rhoR (r : SweepRec) (rs : List Val) : Val := fDiv (fSum rs) (r32 (Val.ofNat r.n1))

/-- u = g / SQRT((R' x C') / rho_R). -/
def factoredU (rhoR ri cj g : Val) : Val := fDiv g (fSqrt (fDiv (fMul ri cj) rhoR))

/-- rho of FACTORED. -/
def SweepRec.rhoOf (r : SweepRec) (rs cs : List Val) (g : List (List Val)) : Val :=
  let rr := r.rhoR rs
  let us := (rs.zip g).flatMap fun e => (cs.zip e.2).map fun c => factoredU rr e.1 c.1 c.2
  fSqrt (fDiv (fSum (us.map fun u => fMul u u)) (fMul (r32 (Val.ofNat r.n0)) (r32 (Val.ofNat r.n1))))

/-- The update of FACTORED. -/
def SweepRec.factoredDelta (r : SweepRec) (rhoR rho ri cj g x : Val) : Val :=
  r.delta (fDiv (factoredU rhoR ri cj g) (Val.max (.fin 1) (fDiv rho r.clip))) x

/-! ## Reading the tiles of a record (R219, R224) -/

/-- A tile that cannot be used: its tensor, and the lake address that read uncorrectable. -/
structure Unreadable where
  tensor : Nat
  ecc : Option Nat

/-- n frames at an address, each with a valid CHECK and the format and block size given. -/
def State.sweepTiles (s : State) (p tensor va : Nat) (want : Option (Nat × Nat)) : Nat → Except Unreadable (List (List Byte))
  | 0 => .ok []
  | n + 1 =>
    match s.sweepTiles p tensor va want n with
    | .error e => .error e
    | .ok l =>
      match s.vread p (va + n * frameBytes) frameBytes with
      | .ok f =>
        let h := frameHeader f
        if frameCheckOk f && want.all (fun w => h.fmt = w.1 && h.blk = w.2) then .ok (l ++ [f])
        else .error { tensor := tensor, ecc := none }
      | .unreadable pa => .error { tensor := tensor, ecc := some pa }
      | .fault _ => .error { tensor := tensor, ecc := none }

/-- The frames of W, RM, S1 and S2 of a block, and the formats they must have. -/
def SweepRec.wantW (r : SweepRec) : Option (Nat × Nat) := some (r.wFmt, r.wBlk)
def SweepRec.wantG (r : SweepRec) : Option (Nat × Nat) := some (r.gFmt, r.gBlk)

def State.blockTiles (s : State) (p : Nat) (x : SweepPart) (fmt b : Nat) (want : Option (Nat × Nat)) :
    Except Unreadable (List (List Byte)) :=
  let n := tilesPerBlock fmt
  s.sweepTiles p x.tensor (x.addr + b * n * frameBytes) want n

/-- The gradient decoded with the T of its entry, times GS (R214). -/
def SweepRec.gVal (r : SweepRec) (t : Val) (e : SweepEl) : Val := fMul r.gs (if t = .fin 1 then e.v else fMul t e.v)

/-- The rows of g of a block of the gradient's own tensor. -/
def State.gRows (s : State) (p : Nat) (r : SweepRec) (t : Val) (gb : Nat) : Except Unreadable (List (List Val)) :=
  match s.blockTiles p ⟨0, r.gTensor, r.gAddr, 0, 0⟩ r.gFmt gb r.wantG with
  | .error e => .error e
  | .ok fs => .ok ((blockEls fs).map fun row => row.map (r.gVal t))

/-- The rows of g that block b needs, row by row: those of the listed rows alone under SPARSE (R218). -/
def State.gBlock (s : State) (p : Nat) (r : SweepRec) (t : Val) (b : Nat) : Except Unreadable (Nat → List Val) :=
  if !r.sparse then
    match s.gRows p r t (b - r.firstBlk) with
    | .error e => .error e
    | .ok rows => .ok fun i => rows.getD i []
  else
    let base := (r.blkPos b).c1
    let col := b % r.blkCols
    let mine := r.rows.zipIdx.filter fun e => e.1 / 64 * 64 = base
    let blks := (mine.map fun e => e.2 / 64).eraseDups
    match blks.foldl (fun (acc : Except Unreadable (List (Nat × List (List Val)))) k =>
        match acc with
        | .error e => .error e
        | .ok l => match s.gRows p r t (k * r.blkCols + col) with
          | .error e => .error e
          | .ok rows => .ok (l ++ [(k, rows)])) (.ok []) with
    | .error e => .error e
    | .ok l => .ok fun i =>
      match mine.find? fun e => e.1 = base + i with
      | none => []
      | some e => (((l.find? fun k => k.1 = e.2 / 64).map fun k => k.2).getD []).getD (e.2 % 64) []

/-! ## Writing a block (R212, R215, R218, R229) -/

/-- What an update writes: the frames by address, and the tallies by tensor. -/
structure BlockOut where
  writes : List (Nat × List Byte) := []
  tallies : List (Nat × Tally) := []

def BlockOut.add (a b : BlockOut) : BlockOut := { writes := a.writes ++ b.writes, tallies := a.tallies ++ b.tallies }

/-- Rows of bytes of a tile, the old ones kept where a row is not listed. -/
def keepRows (keep : Nat → Bool) (w n : Nat) (old new : List Byte) : List Byte :=
  ((pieces w n old).zip (pieces w n new)).zipIdx.flatMap fun e => if keep e.2 then e.1.1 else e.1.2

/-- A tile of a block as the sweep writes it, over its old frame. -/
def sweepFrame (step fmt blk : Nat) (keep : Nat → Bool) (old : List Byte) (o : OutTile) : List Byte :=
  let nb := if blkSize blk = 0 then 0 else tileCols fmt / blkSize blk
  let sc := keepRows keep nb (tileRows fmt) (frameSidecar old) o.sidecar
  mkFrame { frameHeader old with version := step, fmt := fmt, blk := blk, ovf := o.flagged, sat := false }
    (sc ++ List.replicate (512 - sc.length) 0) (keepRows keep (rowBytes fmt) (tileRows fmt) (framePayload old) o.payload)

/-- The key of a destination's draws. -/
def sweepKey (seed step : U64) (x : SweepPart) : RsKey :=
  { seed := seed, step := step, tensor := BitVec.ofNat 32 x.tensor, purpose := 3, draw := x.draw }

/-- Write one part of a block from its rows of elements. `keep` says which block rows keep their bits. -/
def writePart (r : SweepRec) (seed step : U64) (x : SweepPart) (fmt blk i : Nat) (keep : Nat → Bool) (old : List (List Byte))
    (rows : List (List OutEl)) : BlockOut :=
  let ctx : WriteCtx := { fmt := fmt, blk := blk, rnd := r.wmode ≠ 0, key := sweepKey seed step x, rt := .fin 1 }
  let per := 128 / tileCols fmt
  let outs := old.zipIdx.map fun e =>
    let o := writeTile ctx (fun _ => .fin 1) (cutTile fmt e.2 rows)
    (sweepFrame step.toNat fmt blk (fun k => keep (e.2 / per * tileRows fmt + k)) e.1 o, o.tally)
  { writes := outs.zipIdx.map fun e => (x.addr + (i * tilesPerBlock fmt + e.2) * frameBytes, e.1.1)
    tallies := [(x.tensor, outs.foldl (fun (t : Tally) e => t.add e.2) ({} : Tally))] }

/-- Write the remainder of a block (R213). -/
def writeRemainder (r : SweepRec) (step : U64) (i : Nat) (keep : Nat → Bool) (old : List (List Byte))
    (rows : List (List (Option (Int × ElClass)))) : BlockOut :=
  let outs := old.zipIdx.map fun e =>
    let cells := cutTile 7 e.2 rows
    let tally := cells.foldl (fun (t : Tally) l => l.foldl (fun (t : Tally) c => match c with
      | some k => t.count k.2 (Val.ofQ (k.1 : ℚ))
      | none => t) t) ({} : Tally)
    let o : OutTile :=
      { sidecar := List.replicate 512 0
        payload := cells.flatMap fun l => rowOfCodes 7 (l.map fun c => match c with
          | some k => intCode 8 k.1
          | none => 0)
        flagged := false
        tally := tally }
    (sweepFrame step.toNat 7 0 keep e.1 o, tally)
  { writes := outs.zipIdx.map fun e => (r.rmAddr + (i * 2 + e.2) * frameBytes, e.1.1)
    tallies := [(r.rmTensor, outs.foldl (fun (t : Tally) e => t.add e.2) ({} : Tally))] }

/-- What an update of one element gives. -/
structure ElUpdate where
  xn : Val
  s1 : Val
  s2 : Val

/-- The update of block b: every tile it reads, every element, every tile it writes. `t` is the T of G's entry; `fac` gives
rho_R, rho, R' and C' of a FACTORED record. -/
def State.updateBlock (s : State) (p : Nat) (r : SweepRec) (t : Val) (fac : Val × Val × List Val × List Val) (b : Nat) :
    Except Unreadable BlockOut := do
  let x := s.partn p
  let i := b - r.firstBlk
  let pos := r.blkPos b
  let w ← s.blockTiles p r.partW r.wFmt i r.wantW
  let rm ← if r.hasRm then s.blockTiles p r.partRm 7 i (some (7, 0)) else .ok []
  let s1 ← if r.factored then .ok [] else s.blockTiles p r.partS1 r.s1Fmt i (some (r.s1Fmt, r.s1Blk))
  let s2 ← if r.factored || !r.hasS2 then .ok [] else s.blockTiles p r.partS2 r.s2Fmt i (some (r.s2Fmt, 0))
  let g ← s.gBlock p r t b
  let we := blockEls w
  let re := if r.wmode = 1 then [] else joinTiles 7 (rm.map fun f => tileExact 7 0 [] (framePayload f))
  let e1 := blockEls s1
  let e2 := blockEls s2
  let listed := fun row => !r.sparse || r.rows.contains (pos.c1 + row)
  let valid := fun row col => decide (pos.c1 + row < r.n1 ∧ pos.c0 + col < r.n0) && listed row
  let val := fun (l : List (List SweepEl)) row col => match (l.getD row [])[col]? with
    | some e => e.v
    | none => Val.zero false
  let ups : List (List (Option ElUpdate)) := (List.range 64).map fun row =>
    let gr := g row
    (List.range 128).map fun col =>
      if !valid row col then none
      else match (we.getD row [])[col]? with
        | none => none
        | some e =>
          let rem : Int := match (re.getD row [])[col]? with
            | some v => v.toQ.floor
            | none => 0
          let x := carried e rem
          let gv := gr.getD col (.zero false)
          let u := if r.factored then
              (r.factoredDelta fac.1 fac.2.1 (fac.2.2.1.getD (pos.c1 + row) .nan) (fac.2.2.2.getD (pos.c0 + col) .nan) gv x,
                Val.zero false, Val.zero false)
            else r.rule1 gv x (val e1 row col) (val e2 row col)
          some { xn := fAdd x u.1, s1 := u.2.1, s2 := u.2.2 }
  let cells := fun (sel : ElUpdate → Val) => ups.zipIdx.map fun row => row.1.zipIdx.map fun c =>
    ({ v := c.1.map sel, idx := r.index pos row.2 c.2 } : OutEl)
  let keep := fun row => !listed row
  let ow := writePart r x.stepSeed x.stepNo r.partW r.wFmt r.wBlk i keep w (cells ElUpdate.xn)
  let w2 := blockEls (ow.writes.map fun e => e.2)
  let orm := if !r.hasRm then {} else writeRemainder r x.stepNo i keep rm
    ((ups.zip w2).map fun row => (row.1.zip row.2).map fun c => c.1.map fun u => newRemainder r.wmode u.xn c.2)
  let o1 := if r.factored then {} else writePart r x.stepSeed x.stepNo r.partS1 r.s1Fmt r.s1Blk i keep s1 (cells ElUpdate.s1)
  let o2 := if r.factored || !r.hasS2 then {} else writePart r x.stepSeed x.stepNo r.partS2 r.s2Fmt 0 i keep s2 (cells ElUpdate.s2)
  .ok (((ow.add orm).add o1).add o2)

/-! ## FACTORED (R214, R223) -/

/-- The values of a 1 x n FP32 state tensor: 32 of them in row 0 of each tile. -/
def lineVals (n : Nat) (fs : List (List Byte)) : List Val :=
  (fs.flatMap fun f => ((frameEls f).headD []).map fun e => e.v).take n

/-- The rows of g of a whole tensor. -/
def State.gAll (s : State) (p : Nat) (r : SweepRec) (t : Val) : Except Unreadable (List (List Val)) :=
  let band := fun (k : Nat) => (List.range r.blkCols).foldl (fun (acc : Except Unreadable (List (List Val))) j =>
    match acc with
    | .error e => .error e
    | .ok l => match s.gRows p r t (k * r.blkCols + j) with
      | .error e => .error e
      | .ok rows => .ok (if l.isEmpty then rows else (l.zip rows).map fun e => e.1 ++ e.2)) (.ok [])
  match (List.range r.blkRows).foldl (fun (acc : Except Unreadable (List (List Val))) k =>
    match acc with
    | .error e => .error e
    | .ok l => match band k with
      | .error e => .error e
      | .ok rows => .ok (l ++ rows)) (.ok []) with
  | .error e => .error e
  | .ok l => .ok ((l.take r.n1).map fun row => row.take r.n0)

/-- R' and C' (phase 0). -/
def State.factoredStats (s : State) (p : Nat) (r : SweepRec) (t : Val) : Except Unreadable (List Val × List Val) := do
  let rs ← s.sweepTiles p r.s1Tensor r.s1Addr (some (5, 0)) r.s1Tiles
  let cs ← s.sweepTiles p r.s2Tensor r.s2Addr (some (5, 0)) r.s2Tiles
  let g ← s.gAll p r t
  .ok (r.newStat (lineVals r.n1 rs) g r.n0, r.newStat (lineVals r.n0 cs) (columns r.n0 g) r.n1)

/-- Write R' or C' home. -/
def writeLine (r : SweepRec) (seed step : U64) (x : SweepPart) (n : Nat) (vals : List Val) (old : List (List Byte)) : BlockOut :=
  let ctx : WriteCtx := { fmt := 5, blk := 0, rnd := r.wmode ≠ 0, key := sweepKey seed step x, rt := .fin 1 }
  let outs := old.zipIdx.map fun e =>
    let rows : List (List OutEl) := (List.range 32).map fun row => (List.range 32).map fun c =>
      let k := e.2 * 32 + c
      { v := if row = 0 && decide (k < n) then some (vals.getD k .nan) else none, idx := k }
    let o := writeTile ctx (fun _ => .fin 1) rows
    (sweepFrame step.toNat 5 0 (fun _ => false) e.1 o, o.tally)
  { writes := outs.zipIdx.map fun e => (x.addr + e.2 * frameBytes, e.1.1)
    tallies := [(x.tensor, outs.foldl (fun (t : Tally) e => t.add e.2) ({} : Tally))] }

/-! ## The digest (R232) -/

/-- The canonical bytes of frames. -/
def canonBytes (fs : List (List Byte)) : List Byte := fs.flatMap fun f => f.drop 64

/-- The addresses of the tiles that a record's digest covers: W, RM and the S1 and S2 that are not tiered. -/
def SweepRec.digestTiles (r : SweepRec) : List Nat :=
  (r.parts.filter fun x => !(r.tiered && 3 ≤ x.role)).flatMap fun x => (List.range x.tiles).map fun i => x.addr + i * frameBytes

/-- The bytes of lake frames, without any check; none where one does not read. -/
def State.rawFrames (s : State) (p : Nat) : List Nat → Option (List (List Byte))
  | [] => some []
  | va :: r =>
    match s.vread p va frameBytes, s.rawFrames p r with
    | .ok f, some l => some (f :: l)
    | _, _ => none

/-- The first granule of a record's tiles that reads uncorrectable. -/
def State.badTile (s : State) (p : Nat) (r : SweepRec) : Option Nat :=
  r.digestTiles.findSome? fun va => match s.vread p va frameBytes with
    | .unreadable pa => some pa
    | .fault f => f.ecc
    | .ok _ => none

/-- The shard digest of a record; none where a tile does not read. -/
def State.recDigest (s : State) (p : Nat) (r : SweepRec) : Option U64 :=
  if r.nblk = 0 || (r.sparse && r.nrows = 0) then some 0
  else (s.rawFrames p r.digestTiles).map fun fs => crc64 (canonBytes fs)

end Sys2Proof.Machine
end

