-- ==== Sys2Proof/Machine/Sweep.lean ====
section
/-! DEFINITION. The step contract (R226 to R229), SWEEP and its units (R216 to R225), digests and repair (R232 to R234). -/

namespace Sys2Proof.Machine

/-! ## Record lists that a command names (R308) -/

/-- The records read one by one after the whole range has translated. -/
def State.listRecords (s : State) (p va : Nat) : Nat → Except (Outcome × VRead) (List U1024)
  | 0 => .ok []
  | n + 1 =>
    match s.listRecords p va n with
    | .error e => .error e
    | .ok l =>
      let a := va + 128 * n
      match s.vread p a 128 with
      | .ok bs => .ok (l ++ [BitVec.ofNat 1024 (leNat bs)])
      | .fault f => .error (.translation f, .fault f)
      | .unreadable pa => .error (.rejected cauUnreadable n (a % 2 ^ 48), .unreadable pa)

/-- A record list: its range translates, and every record reads. -/
def State.readList (s : State) (p va n : Nat) : Except (Outcome × VRead) (List U1024) :=
  match s.vcheck p va (128 * n) false with
  | some f => .error (.translation f, .fault f)
  | none => s.listRecords p va n

/-! ## Validation (R210, R219) -/

/-- Why a record is refused: as RECORD, for a granule that reads uncorrectable or for another reason, or as SCALE_ENTRY with slot
and address. -/
inductive RecordBad where
  | record (ecc : Option Nat)
  | scale (slot addr : Nat)

/-- What a refused record raises: an uncorrectable granule is read twice (R160, R219), an entry is out of reach (R476). -/
def State.noteBad (s : State) (p : Nat) : RecordBad → State
  | .record none => s
  | .record (some pa) => (s.lakeUncorrectable p pa).lakeUncorrectable p pa
  | .scale slot addr => s.entryLost p slot addr

/-- The rejection of a list whose record i is refused (R219, R241). -/
def RecordBad.outcome (i : Nat) : RecordBad → Outcome
  | .record _ => .rejected cauRecord i
  | .scale slot addr => .rejected cauScaleEntry slot (addr % 2 ^ 48)

/-- Formats that R209 and Optimiser rules allow for S1 and S2, with a block size that S1's format permits; no format field holds a
reserved code (R23). -/
def SweepRec.stateFormatsOk (r : SweepRec) : Bool :=
  if r.factored then r.s1Fmt = 5 && r.s2Fmt = 5 && blkPermitted 5 (r.f 33 31)
  else (r.s1Fmt = 5 || r.s1Fmt = 3 || r.s1Fmt = 1) && blkPermitted r.s1Fmt (r.f 33 31) &&
    (if r.hasS2 then r.s2Fmt = 5 || r.s2Fmt = 3 else r.s2Fmt ≤ 8)

/-- The checks on the record's own fields; NBLK 0 names no block, whatever FIRST_BLK is (R219). -/
def SweepRec.fieldsOk (r : SweepRec) : Bool :=
  let dims := [r.n0, r.n1, r.n2, r.n3, r.n4]
  let flat := r.n2 = 1 && r.n3 = 1 && r.n4 = 1
  r.f 10 0 = 0 && 1 ≤ r.rule && r.rule ≤ 4 && r.wmode ≠ 3 && dims.all (· ≠ 0) && r.stateFormatsOk &&
  r.s1Tensor ≠ 0 && (r.s2Tensor ≠ 0) = r.hasS2 && (r.wmode = 1 || r.hasRm) &&
  [r.wAddr, r.gAddr, r.s1Addr, r.s2Addr, r.rmAddr, r.idxAddr].all (fun a => a % 64 = 0) &&
  (r.nblk = 0 || r.firstBlk + r.nblk ≤ r.allBlks) && (!r.sparse || flat) &&
  (!r.factored || (flat && !r.sparse && r.firstBlk = 0 && r.nblk = r.allBlks))

/-- Strictly ascending rows below n. -/
def rowsOk (n : Nat) : List Nat → Bool
  | [] => true
  | [a] => decide (a < n)
  | a :: b :: r => decide (a < b) && rowsOk n (b :: r)

/-- The 32-bit values of a list of bytes; a negative one lies outside every extent. -/
def words32 (bs : List Byte) : List Nat := (pieces 4 (bs.length / 4) bs).map leNat

/-- The tensors of a sweep record that have a slot have it with source UNIT (R210). -/
def SweepRec.slotsOk (r : SweepRec) (x : Partition) : Bool :=
  ([r.wTensor, r.s1Tensor] ++ (if r.hasS2 then [r.s2Tensor] else []) ++ (if r.hasRm then [r.rmTensor] else [])).all fun t =>
    match (x.slotOf (BitVec.ofNat 32 t)).bind fun i => x.slots[i]? with
    | some k => k.decl.source = 2
    | none => true

/-- The stacks of a range that lies in writable lake pages; none where a page does not. -/
def State.stackSpan (s : State) (p va n : Nat) : Option (List Nat) :=
  match s.translateRange p va n { write := true } with
  | .error _ => none
  | .ok l => l.foldl (fun (acc : Option (List Nat)) e => match acc, e.1 with
    | some ks, .lake pa => some (if ks.contains (lakeStack pa) then ks else ks ++ [lakeStack pa])
    | _, _ => none) (some [])

/-- The first frame at an address with a valid CHECK (R219): its format and block size. -/
def State.firstTile (s : State) (p va : Nat) : Except RecordBad (Nat × Nat) :=
  match s.vread p va frameBytes with
  | .ok f => if frameCheckOk f then .ok ((frameHeader f).fmt, (frameHeader f).blk) else .error (.record none)
  | .unreadable pa => .error (.record (some pa))
  | .fault f => .error (.record f.ecc)

/-- The entry of a tensor cannot be read (R476). -/
def State.entryBad (s : State) (p tensor : Nat) : Option (Nat × Nat) :=
  let x := s.partn p
  let t : U32 := BitVec.ofNat 32 tensor
  match x.slotOf t with
  | none => none
  | some _ => if (s.entryParts p (x.entryOf t).2).isNone then some (x.entryOf t) else none

/-- Validate one record (R219). G may have every format that holds real numbers, codes 0 to 6, since R209 names none for it (DESIGN
CHOICE, assumption log 138). -/
def State.checkSweep (s : State) (p idx : Nat) (raw : U1024) : Except RecordBad SweepRec := do
  let ok := fun (b : Bool) => if b then Except.ok () else Except.error (RecordBad.record none)
  let x := s.partn p
  let r : SweepRec := { idx := idx, raw := raw, stack := 0, wFmt := 3, wBlk := 0, gFmt := 5, gBlk := 0, rows := [] }
  ok r.fieldsOk
  ok (r.slotsOk x)
  let rows ← if !r.sparse || r.nrows = 0 then .ok [] else match s.vread p r.idxAddr (4 * r.nrows) with
    | .ok bs => .ok (words32 bs)
    | .unreadable pa => .error (RecordBad.record (some pa))
    | .fault f => .error (RecordBad.record f.ecc)
  ok (rowsOk r.n1 rows)
  let r := { r with rows := rows }
  let empty := r.nblk = 0 || (r.sparse && r.nrows = 0)
  let w ← if r.nblk = 0 then .ok (3, 0) else s.firstTile p r.wAddr
  let g ← if empty then .ok (5, 0) else s.firstTile p r.gAddr
  let rm ← if r.nblk = 0 || !r.hasRm then .ok (7, 0) else s.firstTile p r.rmAddr
  ok (w.1 ≤ 5 && blkPermitted w.1 w.2 && g.1 ≤ 6 && blkPermitted g.1 g.2 && rm = (7, 0))
  let r := { r with wFmt := w.1, wBlk := w.2, gFmt := g.1, gBlk := g.2, gScale := s.entryScale p (BitVec.ofNat 32 r.gTensor) }
  let spans := [(r.wAddr, 1), (r.gAddr, r.gBlks * tilesPerBlock r.gFmt * frameBytes), (r.idxAddr, 4 * rows.length)] ++
    r.parts.map fun e => (e.addr, e.tiles * frameBytes)
  let ks := (spans.filter fun e => e.2 ≠ 0).map fun e => s.stackSpan p e.1 e.2
  ok (ks.all fun k => k.isSome)
  let all := (ks.flatMap fun k => k.getD []).eraseDups
  ok (all.length = 1)
  let r := { r with stack := all.headD 0 }
  ok (r.objects.all fun o => (s.obj p o).created)
  ok (match (x.slotOf (BitVec.ofNat 32 r.wTensor)).bind fun i => x.slots[i]? with
    | some k => r.nblk = 0 || k.fmt = r.wFmt
    | none => true)
  match [r.wTensor, r.gTensor].findSome? (s.entryBad p) with
  | some e => .error (RecordBad.scale e.1 e.2)
  | none => .ok r

/-- Validate a list, in order. -/
def State.checkSweeps (s : State) (p : Nat) : List U1024 → Nat → Except (Nat × RecordBad) (List SweepRec)
  | [], _ => .ok []
  | raw :: rest, i =>
    match s.checkSweep p i raw with
    | .error e => .error (i, e)
    | .ok r =>
      match s.checkSweeps p rest (i + 1) with
      | .error e => .error e
      | .ok l => .ok (r :: l)

/-! ## Cursors (R222, R223) -/

/-- The records of a unit. -/
def SweepRun.unit (run : SweepRun) (k : Nat) : List SweepRec := run.recs.filter fun r => r.stack = k

/-- The units of a sweep. -/
def SweepRun.units (run : SweepRun) : List Nat := (run.recs.map fun r => r.stack).eraseDups

/-- Committed units of a record: its blocks, and R' and C' of FACTORED. -/
def SweepRec.steps (r : SweepRec) : Nat := r.order.length + b2n r.factored

/-- Pass over the records that are finished, each adding to its mark; the cursor stands at work to do, or behind the last
record. -/
def State.passRecords (s : State) (p k : Nat) : List SweepRec → State
  | [] => s
  | r :: rest =>
    let c := s.cursor k
    if c.block < r.steps then s
    else
      let s := if r.markEn then s.markAdd p r.mark else s
      (s.setCursor k { c with group := c.group + 1, block := 0, phase := 0, rho := 0 }).passRecords p k rest

/-- The records of a unit from its cursor on. -/
def State.unitRest (s : State) (run : SweepRun) (k : Nat) : List SweepRec := (run.unit k).drop (s.cursor k).group

/-- Advance a cursor by one unit of work, toggling the slot. -/
def State.advanceCursor (s : State) (p k : Nat) (run : SweepRun) : State :=
  let c := s.cursor k
  let s := s.setCursor k { c with block := c.block + 1, shadowValid := false, slot := !c.slot }
  s.passRecords p k (s.unitRest run k)

/-! ## Tiered state (R220, R221, R474) -/

/-- A unit holds a sweep write of an object. -/
def TierObj.heldBy (o : TierObj) (k : Nat) : Bool :=
  match o.writing with
  | some v => v.frames.isEmpty && match v.req with
    | .sweepWrite j _ => j = k
    | _ => false
  | none => false

/-- A request of a unit's own. -/
def TierReq.ofUnit (k : Nat) : TierReq → Bool
  | .sweepWrite j _ => j = k
  | _ => false

/-- A unit no longer asks for an object; a stall on it ends there, and is counted (R178). -/
def State.unask (s : State) (p k x : Nat) : State :=
  let s := match (s.obj p x).absentSince with
    | some t => s.bumpP p 0x8050 3 (s.now - t)
    | none => s
  s.onObj p x fun o => { o with waiting := o.waiting.filter fun e => !e.2.ofUnit k, absentSince := none }

/-- The unit asks for one object: its own PROMOTE when the object is ABSENT, whenever that is so, and the sweep write request once.
The answer says whether the PROMOTE was refused. The stall of R178 begins where the object is not RESIDENT, or its Tier Manager is
restarting (R356). -/
def State.acquire (s : State) (p k : Nat) (r : SweepRec) (x : Nat) : State × Bool :=
  let o := s.obj p x
  let addr := r.objectAddr x
  let s := if (o.st = .resident || o.st = .demoting) && s.tierServing x then s
    else s.onObj p x fun o => { o with absentSince := some (o.absentSince.getD s.now) }
  if !s.tierServing x then (s, false)
  else if o.st = .absent && (s.promoteRefused p x addr).isSome then
    ((s.noteRange p addr (o.tiles * frameBytes)).unask p k x, true)
  else
    let s := if o.st = .absent then s.startFill p x addr [] else s
    if o.waiting.any fun e => e.2.ofUnit k then (s, false)
    else (s.tierArrive p x (.sweepWrite k (if r.markEn then some r.mark else none)), false)

/-- The lost state of an object: the cause with the first failing place (R312, R474). -/
def State.lossOf (s : State) (p : Nat) (o : TierObj) (tensor x : Nat) : Nat × Nat × Nat :=
  match s.vcheck p o.addr (o.tiles * frameBytes) false with
  | some f => (cauTranslation, f.kind, fld x 64 + f.addr % 2 ^ 48)
  | none => (cauUnreadable, 0, fld tensor 96 + fld x 64)

/-- Change the running sweep. -/
def State.onSweep (s : State) (p : Nat) (f : SweepRun → SweepRun) : State :=
  s.onPartn p fun x => { x with sweep := x.sweep.map f }

/-- A tile of an object belongs to a block that a SPARSE record does not list. -/
def SweepRec.unlisted (r : SweepRec) (x tile : Nat) : Bool :=
  let at' := fun (first fmt : Nat) => r.firstBlk + ((x - first) * 64 + tile) / tilesPerBlock fmt
  r.sparse && !r.order.contains (if x < r.firstS2 then at' r.sObject r.s1Fmt else at' r.firstS2 r.s2Fmt)

/-- Tiles of unlisted blocks of a SPARSE record are rewritten with the step's VERSION in a tiered object's new extent (R229). -/
def State.restamp (s : State) (p x : Nat) (run : SweepRun) : State :=
  match run.recs.find? fun r => r.objects.contains x with
  | none => s
  | some r =>
    let o := s.obj p x
    ((List.range o.tiles).filter (r.unlisted x)).foldl (fun s i =>
      let a := o.addr + i * frameBytes
      match s.vread p a frameBytes with
      | .ok f =>
        if frameCheckOk f then
          (match s.vwrite p a (mkFrame { frameHeader f with version := run.step.toNat } (frameSidecar f) (framePayload f)) with
          | .ok s' => s'
          | .error _ => s)
        else s
      | _ => s) s

/-- The sweep leaves an object: its commit is requested; read-only flash keeps the new state in the lake, and that is its commit
(R172, R221). -/
def State.leaveObject (s : State) (p x tensor : Nat) (run : SweepRun) : State :=
  let step := run.step
  let s := s.restamp p x run
  let o := s.obj p x
  match s.copyFrames p o.addr o.tiles with
  | .error e => (s.noteRead p e).stateLost p x (s.lossOf p o tensor x)
  | .ok fs =>
    if o.st = .resident then
      let mark := o.writing.bind fun v => match v.req with
        | .sweepWrite _ m => m
        | _ => none
      let s := s.onObj p x fun o => { o with version := step, heldInLake := true, writing := none }
      let s := if o.heldInLake then s else (s.tierEvent p x 0x3303 0).bumpP p 0x8050 12 1
      (s.gain p mark 1).releaseHeld p x [.commit, .resident]
    else s.onObj p x fun o => { o with writing := o.writing.map fun v => { v with frames := fs, version := step } }

/-- Objects that a unit holds and that its next work does not need. -/
def State.leaveObjects (s : State) (p k : Nat) (run : SweepRun) : State :=
  let c := s.cursor k
  let needs := match (s.unitRest run k).head? with
    | none => []
    | some r => match r.order[c.block]? with
      | some b => r.blkObjects b
      | none => r.objects
  let tensor := match (run.unit k).head? with
    | some r => r.s1Tensor
    | none => 0
  (((s.partn p).objects.filter fun e => e.2.heldBy k && !needs.contains e.1).foldl
    (fun s e => s.leaveObject p e.1 tensor run) s)

/-! ## One block (R221 to R224) -/

/-- A block is skipped because an object it needs is poisoned (R221). -/
def State.skipPoisoned (s : State) (p k : Nat) (run : SweepRun) (r : SweepRec) (x : Nat) : State :=
  let s := ((s.bumpP p 0x8070 11 1).raiseP 0x6152 p [run.step.toNat, x, r.firstBlk]).unask p k x
  let s := s.onSweep p fun q => { q with poisoned := q.poisoned.or (some x) }
  (s.advanceCursor p k run).leaveObjects p k run

/-- A block is skipped because a tile of it cannot be read (R224). -/
def State.skipUnreadable (s : State) (p k : Nat) (run : SweepRun) (r : SweepRec) (b : Nat) (e : Unreadable) : State :=
  let s := match e.ecc with
    | some pa => (s.lakeUncorrectable p pa).lakeUncorrectable p pa
    | none => s
  let s := (s.bumpP p 0x8070 12 1).raiseP 0x6153 p [run.step.toNat, e.tensor, b, r.firstBlk]
  let own := [r.wTensor, r.rmTensor, r.s1Tensor, r.s2Tensor].contains e.tensor
  let mirror := match (s.partn p).image with
    | some i => i.mirrorFactor
    | none => 1
  let s := if own && mirror ≤ 1 then s.onPartn p fun x => { x with stateIntact := false } else s
  let s := s.onSweep p fun q => { q with unreadable := q.unreadable.or (some (e.tensor, b)) }
  (s.advanceCursor p k run).leaveObjects p k run

/-- Every destination of an update is a writable lake page. -/
def State.writable (s : State) (p : Nat) (o : BlockOut) : Bool := o.writes.all fun e => (s.stackSpan p e.1 frameBytes).isSome

/-- Write frames home. -/
def State.writeHome (s : State) (p : Nat) (l : List (Nat × List Byte)) : State :=
  l.foldl (fun s e => match s.vwrite p e.1 e.2 with
    | .ok s' => s'
    | .error _ => s) s

/-- Commit an update through the shadow slot and the cursor, write it home, and advance (R222). -/
def State.commitBlock (s : State) (p k : Nat) (run : SweepRun) (o : BlockOut) : State :=
  let s := s.setShadow k (s.cursor k).slot o.writes
  let s := s.setCursor k { s.cursor k with shadowValid := true }
  let s := s.writeHome p o.writes
  let s := o.tallies.foldl (fun s e => s.tally p none (BitVec.ofNat 32 e.1) e.2) s
  (s.advanceCursor p k run).leaveObjects p k run

/-- Listed rows that a block counts: those of its block row, in the first block of that row that the record covers. -/
def SweepRec.rowsCounted (r : SweepRec) (b : Nat) : Nat :=
  if !r.sparse || (r.firstBlk < b && b % r.blkCols ≠ 0) then 0
  else (r.rows.filter fun c1 => c1 / 64 = b / r.blkCols).length

/-- The statistics of a FACTORED record as its unit keeps them. -/
def SweepStore.stats (x : SweepStore) (r : SweepRec) : List Val × List Val :=
  ((List.range r.n1).map fun i => ofF32 (x.statR.get i 0), (List.range r.n0).map fun j => ofF32 (x.statC.get j 0))

/-- A list of values as a table of codes. -/
def codeTable (l : List Val) : Table U32 :=
  (l.zipIdx.map fun e => (e.2, toF32 e.1)).filter fun e => e.2 ≠ 0

/-- An unreadable tile in a statistics phase of FACTORED leaves every block of the record as it is (assumption log 21). -/
def State.skipFactored (s : State) (p k : Nat) (run : SweepRun) (r : SweepRec) (e : Unreadable) : State :=
  let s := s.bumpP p 0x8070 12 (r.order.length - 1)
  let s := s.setCursor k { s.cursor k with block := r.order.length }
  s.skipUnreadable p k run r r.firstBlk e

/-- A tile that does not read: where R161 repairs it the block is read once more, from the repaired copy, with the unit's next
work; else `skip` leaves the block (R224). -/
def State.readAgain (s : State) (p : Nat) (e : Unreadable) (skip : State → State) : State :=
  match e.ecc with
  | none => skip s
  | some pa => match s.repairAt p pa with
    | none => skip s
    | some s => s.lakeUncorrectable p pa

/-- The work of a unit at its cursor, its objects being held (R222, R224). An unreadable R or C tile at the last unit of FACTORED, whose
blocks are written, is one skipped block and is named by FIRST_BLK (DESIGN CHOICE, assumption log 138). -/
def State.sweepWork (s : State) (p k : Nat) (run : SweepRun) (r : SweepRec) : State :=
  let c := s.cursor k
  let t := tensorScale r.gScale
  let seed := (s.partn p).stepSeed
  if r.factored && c.phase = 0 then
    match s.factoredStats p r t with
    | .error e => s.readAgain p e fun s => s.skipFactored p k run r e
    | .ok st =>
      (s.setStats k (codeTable st.1) (codeTable st.2)).setCursor k { c with phase := 1 }
  else if r.factored && c.phase = 1 then
    match s.gAll p r t with
    | .error e => s.readAgain p e fun s => s.skipFactored p k run r e
    | .ok g =>
      let st := (s.sweepStore k).stats r
      s.setCursor k { c with phase := 2, rho := toF32 (r.rhoOf st.1 st.2 g) }
  else
    let st := if r.factored then (s.sweepStore k).stats r else ([], [])
    match r.order[c.block]? with
    | some b =>
      (match s.updateBlock p r t (r.rhoR st.1, ofF32 c.rho, st.1, st.2) b with
      | .error e => s.readAgain p e fun s => s.skipUnreadable p k run r b e
      | .ok o =>
        if !s.writable p o then s.skipUnreadable p k run r b { tensor := r.wTensor, ecc := none }
        else ((s.bumpP p 0x8070 1 1).bumpP p 0x8070 3 (r.rowsCounted b)).commitBlock p k run o)
    | none =>
      match s.sweepTiles p r.s1Tensor r.s1Addr (some (5, 0)) r.s1Tiles, s.sweepTiles p r.s2Tensor r.s2Addr (some (5, 0)) r.s2Tiles with
      | .ok o1, .ok o2 =>
        s.commitBlock p k run ((writeLine r seed run.step r.partS1 r.n1 st.1 o1).add (writeLine r seed run.step r.partS2 r.n0 st.2 o2))
      | .error e, _ => s.readAgain p e fun s => s.skipUnreadable p k run r r.firstBlk e
      | _, .error e => s.readAgain p e fun s => s.skipUnreadable p k run r r.firstBlk e

/-- The objects that the work at a cursor needs. -/
def SweepRec.needs (r : SweepRec) (block : Nat) : List Nat :=
  match r.order[block]? with
  | some b => r.blkObjects b
  | none => r.objects

/-- Ask for every object in turn, up to the first whose PROMOTE is refused. -/
def State.acquireAll (s : State) (p k : Nat) (r : SweepRec) : List Nat → State × Bool
  | [] => (s, false)
  | x :: rest =>
    if (s.obj p x).heldBy k then s.acquireAll p k r rest
    else match s.acquire p k r x with
      | (s, true) => (s, true)
      | (s, false) => s.acquireAll p k r rest

/-- A repair runs on a record (R234). -/
def Partition.underRepair (x : Partition) (r : SweepRec) : Bool :=
  x.digestRecs.any fun d => x.repairs.contains d.idx && d.wTensor = r.wTensor && d.firstBlk = r.firstBlk

/-- A sweep that waited for a repair goes on: the wait is counted (R225). -/
def State.endRepairWait (s : State) (p : Nat) : State :=
  match (s.partn p).repairWait with
  | none => s
  | some t => (s.onPartn p fun x => { x with repairWait := none }).bumpP p 0x8070 10 (s.now - t)

/-- One block of a unit that may work: it waits for a repair of its record, then for the objects it needs, and updates, commits and
writes home the block. -/
def State.sweepStep (s : State) (p k : Nat) (run : SweepRun) (r : SweepRec) : State :=
  let x := s.partn p
  if x.underRepair r then s.onPartn p fun x => { x with repairWait := some (x.repairWait.getD s.now) }
  else
    let s := s.endRepairWait p
    let c := s.cursor k
    let needs := r.needs c.block
    match needs.find? fun o => (s.obj p o).poison && !(s.obj p o).heldBy k with
    | some o =>
      let s := if r.factored then (s.bumpP p 0x8070 11 (r.order.length - 1)).setCursor k { c with block := r.order.length } else s
      s.skipPoisoned p k run r o
    | none =>
      match s.acquireAll p k r needs with
      | (s, true) => s.skipUnreadable p k run r (r.order.getD c.block r.firstBlk) { tensor := r.s1Tensor, ecc := none }
      | (s, false) => if needs.all fun o => (s.obj p o).heldBy k then s.sweepWork p k run r else s

/-- R222. One sweep block of a unit. -/
def execSweepBlock (p k : Nat) (s : State) : Res :=
  let x := s.partn p
  match x.sweep with
  | none => .next s
  | some run =>
    if x.step ≠ .sweeping || !s.working || s.sup.recovering.contains p || (s.sweepStore k).interrupted then .next s
    else match (s.unitRest run k).head? with
      | none => .next s
      | some r => .next (s.sweepStep p k run r)

/-- A unit goes on from its cursor: a committed block goes home first (R222, R224). -/
def State.resumeUnit (s : State) (p k : Nat) (run : SweepRun) : State :=
  let st := s.sweepStore k
  let r := (s.unitRest run k).head?
  let s := s.setStore k { st with interrupted := false }
  let s := (s.bumpP p 0x8070 2 1).raiseP 0x6151 p
    [run.step.toNat, (r.map SweepRec.wTensor).getD 0, (r.map SweepRec.firstBlk).getD 0, run.s, run.q]
  if (s.cursor k).shadowValid then ((s.writeHome p st.shadow).advanceCursor p k run).leaveObjects p k run else s

/-- A unit cannot read its cursor, or the committed block in its shadow slot (R224), or the FACTORED statistics that its phase needs
(DEDUCED, assumption log 141). -/
def State.unitBlind (s : State) (k : Nat) : Bool :=
  (s.cursorRead k).isNone || ((s.cursor k).phase ≠ 0 && s.statsBad k) || ((s.cursor k).shadowValid && s.shadowBad k (s.cursor k).slot (s.sweepStore k).shadow.length)

/-! ## The step commands (R191, R194, R226 to R229, R308, R369) -/

/-- The STEP field of a step command, EXCHANGE and SWEEP apart: their first body word. -/
def Cmd.step (k : Cmd) : Nat := k.f 447 384

/-- Start a step command, which the owner of the step alone may send (R226). -/
def State.startStep (s : State) (p w q op : Nat) (act : Cmd → State → State) : State :=
  match s.cmd p w q with
  | none => s
  | some _ => s.startCmd p w q op fun k s =>
      let x := s.partn p
      if x.step ≠ .idle && x.step ≠ .discarded && x.stepOwner ≠ w then s.complete p w q (.stepState x) else act k s

/-- R226. STEP_OPEN. -/
def execStepOpen (p w q : Nat) (s : State) : Res :=
  .next (s.startStep p w q opStepOpen fun k s =>
    let x := s.partn p
    if (x.step ≠ .idle && x.step ≠ .discarded) || k.step ≠ (x.version.toNat + 1) % 2 ^ 64 || !x.stateIntact then
      s.complete p w q (.stepState x)
    else match s.startSlots p false with
      | (s, some e) => s.complete p w q (.fault cauScaleEntry e.1 (e.2 % 2 ^ 48))
      | (s, none) =>
        (s.onPartn p fun x => { x.clearWatch with
          step := .opened
          stepNo := BitVec.ofNat 64 k.step
          stepSeed := BitVec.ofNat 64 (k.f 383 320)
          stepOwner := w
          ledger := []
          attempts := []
          periodStarted := false
          abortCommitted := false }).complete p w q .ok)

/-- R194. STEP_SEAL; the evaluation waits for the Hall Schedulers (R354). -/
def execStepSeal (p w q : Nat) (s : State) : Res :=
  if !s.hallsServing p then .next s
  else .next (s.startStep p w q opStepSeal fun k s =>
    let x := s.partn p
    if x.step ≠ .opened || k.step ≠ x.stepNo.toNat then s.complete p w q (.stepState x)
    else
      let s := s.sealEvents p x.slots 0
      match s.stopSlots p with
      | [] => (s.onPartn p fun x => { x with step := .sealed }).complete p w q .ok
      | e :: rest =>
        let t := e.2.decl.tensor.toNat
        let s := s.raiseP 0x4102 p [e.1, t, x.stepNo.toNat, rest.length + 1]
        (s.enterDiscarded p cauNonfinite (some (w, q))).complete p w q (.fault cauNonfinite e.1 (fld t 96)))

/-- R219. SWEEP: every record is validated, then the step is past its commit point. The fresh cursor of a step keeps the SLOT of the
cursor that it replaces (R222: DESIGN CHOICE, assumption log 138). -/
def execSweep (p w q : Nat) (s : State) : Res :=
  .next (s.startStep p w q opSweep fun k s =>
    let x := s.partn p
    if (x.step ≠ .sealed && x.step ≠ .exchanged) || k.step ≠ x.stepNo.toNat || !x.stateIntact then s.complete p w q (.stepState x)
    else match s.readList p (k.f 383 336) (k.f 335 320) with
      | .error (o, r) => (s.noteRead p r).complete p w q o
      | .ok raws => match s.checkSweeps p raws 0 with
        | .error (i, e) => (s.noteBad p e).complete p w q (e.outcome i)
        | .ok recs =>
          if recs.any SweepRec.factored && !s.agreed p 3 then s.complete p w q (.rejected cauFeature 3)
          else
          let run : SweepRun := { s := w, q := q, step := x.stepNo, recs := recs }
          let s := recs.foldl (fun s r => (s.readScale p (BitVec.ofNat 32 r.gTensor)).1) s
          let s := s.onCmd p w q fun k => { k with phase := .completing }
          let s := s.onPartn p fun x => { x with step := .sweeping, sweep := some run, lastSweep := recs }
          run.units.foldl (fun s k =>
            let s := s.setCursor k { step := x.stepNo, slot := (s.cursor k).slot }
            (s.setStore k { s.sweepStore k with interrupted := false }).passRecords p k (run.unit k)) s)

/-- Every unit has finished, and no commit of a tiered object is outstanding. -/
def State.sweepDone (s : State) (p : Nat) (run : SweepRun) : Bool :=
  (run.units.all fun k => (s.unitRest run k).isEmpty && !(s.sweepStore k).interrupted) &&
  !((s.partn p).objects.any fun e => match e.2.writing with
    | some v => match v.req with
      | .sweepWrite _ _ => true
      | _ => false
    | none => false)

/-- The outcome of SWEEP (R221, R224, R474): the lost state first, then an unreadable block, then a poisoned object. -/
def SweepRun.outcome (r : SweepRun) : Outcome :=
  match r.lost, r.unreadable, r.poisoned with
  | some e, _, _ => { status := stStateLost, cause := e.1, arg := e.2.1, detail := e.2.2 }
  | none, some e, _ => .fault cauUnreadable 0 (fld e.1 96 + fld e.2 64)
  | none, none, some x => .poisoned x
  | none, none, none => .ok

/-- The digests of a step at a digest interval (R233). A record with a tile that does not read has none, and is compared with the
mirrors all the same (R234). -/
def State.takeDigests (s : State) (p : Nat) (run : SweepRun) : State :=
  let n := s.setting p (0x3030 + p) 1
  let factor := match (s.partn p).image with
    | some i => i.mirrorFactor
    | none => 1
  if n = 0 || run.step.toNat % n ≠ 0 then s
  else
    let ds := run.recs.filterMap fun r => (s.recDigest p r).map fun d => (r.idx, d)
    let s := (run.recs.filterMap fun r => s.badTile p r).foldl (fun s pa => s.lakeUncorrectable p pa) s
    s.onPartn p fun x => { x with
      digestRecs := run.recs
      digests := ds
      repairs := []
      awaitingDigest := if factor ≤ 1 then [] else run.recs.map fun r => r.idx }

/-- The module commits a step that an abort left past its commit point, and an accepted STEP_COMMIT of it completes OK
(R228, R317). -/
def State.settleOwed (s : State) (p : Nat) : State :=
  let x := s.partn p
  if !x.commitOwed || x.step ≠ .swept then s
  else
    let s := (s.commitStep p).onPartn p fun x => { x with abortCommitted := true }
    ((s.partn p).commands.filter fun e => e.2.op = opStepCommit && e.2.step = x.stepNo.toNat && e.1 = x.stepOwner).foldl
      (fun s e => s.complete p e.1 e.2.seq .ok) s

/-- R226. Every sweep unit has finished: the step is SWEPT and SWEEP's record is written; during a replica recovery that waits for its
end (R367). -/
def execSweepEnd (p : Nat) (s : State) : Res :=
  let x := s.partn p
  match x.sweep with
  | none => .next s
  | some run =>
    if x.step ≠ .sweeping || !s.sweepDone p run || !s.working || s.sup.recovering.contains p then .next s
    else
      let s := s.takeDigests p run
      let s := s.onPartn p fun x => { x with step := .swept }
      .next ((s.complete p run.s run.q run.outcome).settleOwed p)

/-- R229. STEP_COMMIT. -/
def execStepCommit (p w q : Nat) (s : State) : Res :=
  if !s.hallsServing p then .next s
  else .next (s.startStep p w q opStepCommit fun k s =>
    let x := s.partn p
    if x.step = .idle && x.abortCommitted && x.stepOwner = w && k.step = x.version.toNat then
      s.complete p w q { status := stAlready }
    else if x.step ≠ .swept || k.step ≠ x.stepNo.toNat then s.complete p w q (.stepState x)
    else (s.commitStep p).complete p w q .ok)

/-- R226. STEP_DISCARD. -/
def execStepDiscard (p w q : Nat) (s : State) : Res :=
  .next (s.startStep p w q opStepDiscard fun k s =>
    let x := s.partn p
    if x.step = .idle then s.complete p w q .ok
    else if x.step = .sweeping || x.step = .swept || (k.step ≠ 2 ^ 64 - 1 && k.step ≠ x.stepNo.toNat) ||
        (x.step = .discarded && x.stepOwner ≠ w) then
      s.complete p w q (.stepState x)
    else (s.stepToIdle p).complete p w q .ok)

/-! ## Digests and repair (R233, R234) -/

/-- The mirror set of a record: module positions in order. -/
def Partition.mirrorSet (x : Partition) (r : SweepRec) : List Nat :=
  match x.image with
  | none => []
  | some i => ((i.mirrors.find? fun e => e.1.toNat = r.wTensor).map fun e => e.2).getD []

/-- The copy of a tile that stands after a compare: its position and frame, and whether the choice was arbitrated (R234). Copies
are given with their positions, in the order of the mirror set; a copy that does not read is empty. -/
def chooseCopy (factor : Nat) (copies : List (Nat × List Byte)) : Option ((Nat × List Byte) × Bool) :=
  let good := copies.filter fun e => e.2.length = frameBytes && frameCheckOk e.2
  match good with
  | [] => none
  | e :: rest =>
    if rest.all fun f => frameCheckField f.2 = frameCheckField e.2 then some (e, false)
    else
      let votes := fun (f : List Byte) => (good.filter fun g => frameCheckField g.2 = frameCheckField f).length
      match if good.length = copies.length && 3 ≤ factor then good.find? fun g => copies.length < 2 * votes g.2 else none with
      | some g => some (g, false)
      | none => some (e, true)

/-- Repair one tile of this module; the events name the position that the standing copy comes from (R237). -/
def State.repairTile (s : State) (p : Nat) (r : SweepRec) (factor pos va : Nat) (others : List (Nat × List Byte)) : State :=
  let rd := s.vread p va frameBytes
  let mine := match rd with
    | .ok f => f
    | _ => []
  let s := s.noteRead p rd
  let copies := sortBy (fun a b => decide (a.1 ≤ b.1)) (others ++ [(pos, mine)])
  if mine.length = frameBytes && frameCheckOk mine && others.all (fun e => e.2.length = frameBytes && frameCheckOk e.2 &&
      frameCheckField e.2 = frameCheckField mine) then s
  else match chooseCopy factor copies with
    | none => s
    | some (f, arb) =>
      let args := [(s.partn p).version.toNat, r.wTensor, r.firstBlk, f.1]
      let s := if arb then (s.raiseP 0x4222 p args).bumpP p 0x8070 9 1 else s
      if f.2 = mine then s
      else match s.vwrite p va f.2 with
        | .error _ => s
        | .ok s => (s.raiseP 0x4221 p args).bumpP p 0x8070 8 1

/-- Mirror positions in one event quantity: bit n is position n (DESIGN CHOICE, assumption log 126). -/
def positionMask (l : List Nat) : Nat := l.foldl (fun m i => m ||| 2 ^ i) 0

/-- The mirrors' digests agree with the one recorded, or else with one from a second read; the positions that do not (R234). -/
def State.digestOdd (s : State) (p : Nat) (r : SweepRec) (mirrors : List MirrorCopy) : List Nat :=
  let odd := fun (d : Option U64) => (mirrors.filter fun m => d ≠ some m.digest).map fun m => m.pos
  if (odd ((s.partn p).digests.find r.idx)).isEmpty then [] else odd (s.recDigest p r)

/-- The repair of a record, its mirrors' frames having come; a sweep that waits for it goes on (R225, R234). -/
def State.repairRecord (s : State) (p : Nat) (r : SweepRec) (mirrors : List MirrorCopy) : State :=
  let x := s.partn p
  let factor := match x.image with
    | some i => i.mirrorFactor
    | none => 1
  let pos := (x.mirrorSet r).idxOf s.moduleNumber
  let s := r.digestTiles.zipIdx.foldl (fun s e =>
    s.repairTile p r factor pos e.1 (mirrors.map fun m => (m.pos, m.frames.getD e.2 []))) s
  (s.onPartn p fun x => { x with repairs := x.repairs.filter (· ≠ r.idx) }).endRepairWait p

/-- The mirrors have sent the frames of a record. -/
def framesCame (r : SweepRec) (mirrors : List MirrorCopy) : Bool := mirrors.all fun m => m.frames.length = r.digestTiles.length

/-- R234. The mirrors' digests of a record are compared after STEP_COMMIT; a mismatch that a second read confirms is
repaired tile by tile, at once or when the mirrors' frames come. -/
def execDigestExchange (p rec : Nat) (mirrors : List MirrorCopy) (s : State) : Res :=
  let x := s.partn p
  match x.digestRecs.find? fun r => r.idx = rec with
  | none => .next s
  | some r =>
    if !s.working then .next s
    else if x.repairs.contains rec then .next (if framesCame r mirrors then s.repairRecord p r mirrors else s)
    else if !x.awaitingDigest.contains rec || x.step = .sweeping || x.step = .swept then .next s
    else
      let s := s.onPartn p fun x => { x with awaitingDigest := x.awaitingDigest.filter (· ≠ rec) }
      let s := s.bumpP p 0x8070 6 1
      let odd := s.digestOdd p r mirrors
      if odd.isEmpty then .next s
      else
        let s := (s.raiseP 0x4220 p [x.version.toNat, r.wTensor, r.firstBlk, positionMask odd]).bumpP p 0x8070 7 1
        let s := s.onPartn p fun x => { x with repairs := x.repairs ++ [rec] }
        .next (if framesCame r mirrors then s.repairRecord p r mirrors else s)

/-- R234. A mirror's digest does not arrive within Part.DigestTimeout: nothing is repaired. -/
def execDigestTimeout (p rec : Nat) (s : State) : Res :=
  let x := s.partn p
  match x.digestRecs.find? fun r => r.idx = rec with
  | none => .next s
  | some r =>
    if !x.awaitingDigest.contains rec || x.step = .sweeping || x.step = .swept then .next s
    else
      let set := x.mirrorSet r
      let others := (List.range set.length).filter fun i => set.getD i 0 ≠ s.moduleNumber
      let s := s.onPartn p fun x => { x with awaitingDigest := x.awaitingDigest.filter (· ≠ rec) }
      .next (s.raiseP 0x4223 p [x.version.toNat, r.wTensor, r.firstBlk, positionMask others])

end Sys2Proof.Machine
end

