-- ==== Sys2Proof/Machine/XMath.lean ====
section
/-! DEFINITION. The arithmetic of the exchange engines: carried values (R244, R245), TOPK and SIGN blocks (R246, R247),
residuals (R248), saturation (R249), draws (R250), exchange frames (R251) and the tiles of destination tensors. -/

namespace Sys2Proof.Machine

/-! ## Saturation (R249) -/

/-- A value that saturates instead of overflowing, and whether it did. -/
def satIn (f : FloatFmt) : Val → Val × Bool
  | .inf n => (.fin (if n then -f.maxFinite else f.maxFinite), true)
  | v => (v, false)

def satRound (f : FloatFmt) (r : Rnd) (v : Val) : Val × Bool := satIn f (f.round r v)

/-- A saturating FP32 sum. -/
def satAdd (a b : Val) : Val × Bool := satIn fmtFP32 (fAdd a b)

/-- The class of an element whose value v was written as o (R46, R249). -/
def satClass (v o : Val) (sat : Bool) : ElClass :=
  if !v.isFinite || !o.isFinite then .nonfin else if sat then .sat else classify v o

/-! ## Source elements (R244, R245) -/

/-- A source element: g, whether it saturated, whether it is valid (R105), its logical index (R250). -/
structure XEl where
  g : Val
  sat : Bool
  valid : Bool
  idx : Nat

/-- The origin of a tile, innermost first. -/
def Header.origin (h : Header) : List Nat := [h.origin0, h.origin1, h.origin2, h.origin3, h.origin4]

/-- A record without extents has no tail: every payload element counts as valid (DEDUCED, assumption log 24). -/
def XRun.validAt (r : XRun) (c4 c3 c2 c1 c0 : Nat) : Bool :=
  r.dims.any (· = 0) || decide (c0 < r.n0 ∧ c1 < r.n1 ∧ c2 < r.n2 ∧ c3 < r.n3 ∧ c4 < r.n4)

/-- The elements of a source frame in payload order; `t` is the T of the source's entry. -/
def XRun.els (r : XRun) (t : Val) (f : List Byte) : List XEl :=
  let h := frameHeader f
  (tileExact h.fmt h.blk (frameSidecar f) (framePayload f)).zipIdx.flatMap fun row =>
    row.1.zipIdx.map fun e =>
      let c1 := h.origin1 + row.2
      let c0 := h.origin0 + e.2
      let g := satIn fmtFP32 (if t = .fin 1 then r32 e.1 else fMul t (r32 e.1))
      { g := g.1
        sat := g.2
        valid := r.validAt h.origin4 h.origin3 h.origin2 c1 c0
        idx := logicalIndex r.n3 r.n2 r.n1 r.n0 h.origin4 h.origin3 h.origin2 c1 c0 }

/-- A carried value (R245): x, whether it saturated, and the element's validity and index. -/
structure XCar where
  x : Val
  sat : Bool
  valid : Bool
  idx : Nat

def XEl.carry (e : XEl) (res : Val) : XCar :=
  let x := satAdd e.g res
  if e.valid then { x := x.1, sat := e.sat || x.2, valid := true, idx := e.idx }
  else { x := .zero false, sat := false, valid := false, idx := e.idx }

/-! ## Blocks (R246, R247) -/

/-- An encoded block: its bytes, and the transmitted value of each element with its saturation on this module. -/
structure XBlock where
  bytes : List Byte
  vals : List Val
  sats : List Bool

/-- The key of a draw of an exchange engine (R250). -/
def XRun.key (r : XRun) (tensor draw : Nat) : RsKey :=
  { seed := r.seed, step := r.stepKey, tensor := BitVec.ofNat 32 tensor, purpose := 4, draw := draw }

/-- The order of selection: NaN first, then larger magnitude, then lower POS. -/
def topkLe (a b : XCar × Nat) : Bool :=
  if a.1.x = .nan then b.1.x ≠ .nan || decide (a.2 ≤ b.2)
  else if b.1.x = .nan then false
  else if b.1.x.abs.lt a.1.x.abs then true
  else if a.1.x.abs.lt b.1.x.abs then false
  else decide (a.2 ≤ b.2)

/-- The bytes of a TOPK block. -/
def topkBytes (scale : Nat) (sel : List (Nat × Nat)) : List Byte :=
  let n := sel.length
  leBytes 4 (fld scale 24 + n) ++ sel.flatMap (fun e => leBytes 2 e.1) ++ sel.map (fun e => BitVec.ofNat 8 e.2) ++
    List.replicate ((4 - 3 * n % 4) % 4) 0

/-- The transmitted value of a code under a block scale, and whether it saturates (R246, R249). -/
def topkValue (scale : Nat) (code : Val) : Val × Bool :=
  satRound fmtFP32 .rne (code.mul (.fin (pow2 ((scale : Int) - 127))))

/-- R246. -/
def XRun.topk (r : XRun) (b : List XCar) : XBlock :=
  let cand := b.zipIdx.filter fun e => e.1.valid && !e.1.x.isZero
  let sel := sortBy (fun a c => decide (a.2 ≤ c.2)) ((sortBy topkLe cand).take (1024 / 2 ^ r.ksh))
  let scale := (chooseScale fmtE4M3 (sel.map fun e => e.1.x)).1
  let code := fun (e : XCar × Nat) =>
    (satRound fmtE4M3 (rndMode r.rnd (r.key r.srcTensor 1) e.1.idx) (e.1.x.mul (.fin (pow2 (127 - (scale : Int)))))).1
  let out := sel.map fun e => (e.2, code e)
  let sent := (List.range b.length).map fun i => match out.find? fun e => e.1 = i with
    | some e => topkValue scale e.2
    | none => (.zero false, false)
  { bytes := topkBytes scale (out.map fun e => (e.1, fmtE4M3.encode e.2))
    vals := sent.map fun e => e.1
    sats := (b.zip sent).map fun e => e.1.sat || e.2.2 }

/-- The scale of a SIGN block, and whether a sum or the scale saturated; without a valid element it is +0 / 0, a NaN (R31). -/
def signScale (xs : List Val) : Val × Bool :=
  if xs.any (· = .nan) then (.nan, false)
  else
    let sum := xs.foldl (fun (a : Val × Bool) x => let v := satAdd a.1 x.abs; (v.1, a.2 || v.2)) (.zero false, false)
    let q := satIn fmtFP32 (fDiv sum.1 (Val.ofNat xs.length))
    let o := satRound fmtBF16 .rne q.1
    (o.1, sum.2 || q.2 || o.2)

/-- The bytes of a SIGN block. -/
def signBytes (scale : Nat) (nvalid : Nat) (neg : List Bool) : List Byte :=
  leBytes 4 (fld scale 16 + nvalid) ++
    (pieces 8 128 neg).map fun p => BitVec.ofNat 8 ((p.zipIdx.map fun e => b2n e.1 * 2 ^ e.2).sum)

/-- R247. -/
def XRun.sign (_r : XRun) (b : List XCar) : XBlock :=
  let xs := (b.filter fun e => e.valid).map fun e => e.x
  let sc := signScale xs
  let neg := b.map fun e => e.valid && e.x.lt (.zero false)
  { bytes := signBytes (fmtBF16.encode sc.1) xs.length neg
    vals := (b.zip neg).map fun e => if !e.1.valid then .zero false else if e.2 then sc.1.neg else sc.1
    sats := b.map fun e => e.valid && (e.sat || sc.2) }

/-! ## Residuals (R248) -/

/-- The new residual of an element: code, saturation, and its class and value for the watch. -/
def XRun.residual (r : XRun) (c : XCar) (t : Val) (sat : Bool) : Nat × Bool × Option (ElClass × Val) :=
  let f := if r.eFmt = 3 then fmtBF16 else fmtFP32
  if !c.valid then (0, false, none)
  else if c.x = .nan || t = .nan then (0, false, some (.nonfin, .nan))
  else
    let d := satIn fmtFP32 (fSub c.x t)
    let o := satRound f (rndMode r.rnd (r.key r.eTensor 2) c.idx) d.1
    let hit := sat || d.2 || o.2
    (f.encode o.1, hit, some (satClass d.1 o.1 hit, d.1))

/-- A reduced element (R253): code, saturation, class and value. -/
def XRun.reduced (r : XRun) (e : XEl) (v : Val) (sat : Bool) : Nat × Bool × Option (ElClass × Val) :=
  let f := if r.dstFmt = 3 then fmtBF16 else fmtFP32
  if !e.valid then (0, false, none)
  else
    let o := satRound f (rndMode r.rnd (r.key r.dstTensor 3) e.idx) v
    let hit := sat || o.2
    (f.encode o.1, hit, some (satClass v o.1 hit, v))

/-- The tally of written elements. -/
def xTally (l : List (Nat × Bool × Option (ElClass × Val))) : Tally :=
  l.foldl (fun (t : Tally) e => match e.2.2 with
    | some k => t.count k.1 k.2
    | none => t) ({} : Tally)

def xOut (h : Header) (l : List (Nat × Bool × Option (ElClass × Val))) : XOut :=
  { origin := h.origin, codes := l.map fun e => e.1, sats := l.map fun e => e.2.1 }

/-! ## Tiles of a tensor of another format -/

/-- Where an element of tile d of a tensor of format fd comes from, in a tensor of n source tiles of format fs: source tile and
payload position. Equal shapes keep their place; whole sweep blocks keep the coordinates of R114 by the block order of R217;
any other range is packed in payload order (DESIGN CHOICE, assumption log 25). -/
def srcEl (fs fd n d row col : Nat) : Option (Nat × Nat) :=
  let sr := tileRows fs
  let sc := tileCols fs
  let dr := tileRows fd
  let dc := tileCols fd
  let at' := fun (i k : Nat) => if i < n then some (i, k) else none
  if sr = dr && sc = dc then at' d (row * dc + col)
  else if n % tilesPerBlock fs = 0 then
    let t := d % tilesPerBlock fd
    let y := t / (128 / dc) * dr + row
    let x := t % (128 / dc) * dc + col
    at' (d / tilesPerBlock fd * tilesPerBlock fs + y / sr * (128 / sc) + x / sc) (y % sr * sc + x % sc)
  else
    let j := d * dr * dc + row * dc + col
    at' (j / (sr * sc)) (j % (sr * sc))

/-- Elements of a tile, and the tiles that n source tiles make in another format. -/
def tileEls (f : Nat) : Nat := tileRows f * tileCols f
def dstTiles (fs fd n : Nat) : Nat := (n * tileEls fs + tileEls fd - 1) / tileEls fd

/-- The places of a destination tile in payload order. -/
def dstPlaces (fs fd n d : Nat) : List (Option (Nat × Nat)) :=
  (List.range (tileRows fd)).flatMap fun row => (List.range (tileCols fd)).map fun col => srcEl fs fd n d row col

/-- The source tiles that a destination tile needs. -/
def dstNeeds (fs fd n d : Nat) : List Nat := ((dstPlaces fs fd n d).filterMap fun e => e.map Prod.fst).eraseDups

/-- The destination tiles that a source tile reaches. -/
def dstOf (fs fd n i : Nat) : List Nat :=
  let per := if tileRows fs = tileRows fd && tileCols fs = tileCols fd then [i]
    else if n % tilesPerBlock fs = 0 then
      (List.range (tilesPerBlock fd)).map fun k => i / tilesPerBlock fs * tilesPerBlock fd + k
    else
      let lo := i * tileEls fs / tileEls fd
      (List.range ((i * tileEls fs + tileEls fs - 1) / tileEls fd + 1 - lo)).map fun k => lo + k
  per.filter fun d => decide (d < dstTiles fs fd n)

/-- The origin of destination tile d, from those of the source tiles. -/
def dstOrigin (fs fd n d : Nat) (o : Nat → List Nat) : List Nat :=
  if tileRows fs = tileRows fd && tileCols fs = tileCols fd then o d
  else if n % tilesPerBlock fs = 0 then
    let t := d % tilesPerBlock fd
    match o (d / tilesPerBlock fd * tilesPerBlock fs) with
    | o0 :: o1 :: r => (o0 + t % (128 / tileCols fd) * tileCols fd) :: (o1 + t / (128 / tileCols fd) * tileRows fd) :: r
    | l => l
  else o (d * tileEls fd / tileEls fs)

/-- The frame of destination tile d, once every source tile it needs is there. Source tiles are keyed from `base` on. -/
def dstFrame (tensor version fs fd n d base : Nat) (out : Table XOut) : Option (List Byte) :=
  if !(dstNeeds fs fd n d).all fun i => (out.find (base + i)).isSome then none
  else
    let els := (dstPlaces fs fd n d).map fun e => match e with
      | some (i, k) => let x := out.get (base + i) default; (x.codes.getD k 0, x.sats.getD k false)
      | none => (0, false)
    let o := dstOrigin fs fd n d fun i => (out.get (base + i) default).origin
    let h : Header := { version := version, tensor := tensor, origin4 := o.getD 4 0, origin3 := o.getD 3 0,
                        origin2 := o.getD 2 0, origin1 := o.getD 1 0, origin0 := o.getD 0 0, fmt := fd,
                        sat := els.any fun e => e.2 }
    some (mkFrame h (List.replicate 512 0) (els.flatMap fun e => leBytes (fmtWidth fd / 8) e.1))

/-! ## Exchange frames (R251) -/

/-- The header of an exchange frame. -/
def XRun.frame (r : XRun) (rank : Nat) (k : Packing) : List Byte :=
  let h : Header := { version := r.version.toNat, tensor := r.srcTensor, origin3 := r.xid, origin2 := rank, origin1 := k.count,
                      origin0 := k.first, fmt := 7, sat := k.sat }
  mkFrame h (List.replicate 512 0) (k.bytes ++ List.replicate (4096 - k.bytes.length) 0)

/-- Compression blocks of a source tile (R244). -/
def blocksPerTile (fs : Nat) : Nat := tileEls fs / 1024

/-- Decode one block from the front of a payload: the transmitted values with their saturation on this module, and the rest.
None where no block of the record's MODE lies there. -/
def XRun.decode (r : XRun) (p : List Byte) : Option (List (Val × Bool) × List Byte) :=
  let h := leNat (p.take 4)
  if r.mode = xmTopk then
    let n := bits h 10 0
    if 1024 / 2 ^ r.ksh < n || bits h 23 11 ≠ 0 then none
    else
      let b := (p.drop 4).take (3 * n)
      let pos := (pieces 2 n b).map leNat
      let vals := (b.drop (2 * n)).map fun c => topkValue (bits h 31 24) (fmtE4M3.decode c.toNat)
      some ((List.range 1024).map fun i => match (pos.zip vals).find? fun e => e.1 = i with
        | some e => e.2
        | none => (.zero false, false), p.drop (4 + (3 * n + 3) / 4 * 4))
  else if r.mode = xmSign then
    let sc := fmtBF16.decode (bits h 31 16)
    let b := (p.drop 4).take 128
    some ((List.range 1024).map fun i => (if (b.getD (i / 8) 0).getLsbD (i % 8) then sc.neg else sc, false), p.drop 132)
  else none

/-- The blocks of an exchange frame. -/
def XRun.decodeAll (r : XRun) (p : List Byte) : Nat → Option (List (List (Val × Bool)))
  | 0 => some []
  | n + 1 =>
    match r.decode p with
    | none => none
    | some (v, rest) => match r.decodeAll rest n with
      | none => none
      | some l => some (v :: l)

end Sys2Proof.Machine
end

