-- ==== Sys2Proof/Machine/Exchange.lean ====
section
/-! DEFINITION. Gradient exchange (chapter 09): EXCHANGE and its records, compression, reduction, gathers, their ends, what they
wait for, and stage queues. -/

namespace Sys2Proof.Machine

/-! ## Validation (R241, R242) -/

/-- Every byte of a range lies in lake pages that permit the access. -/
def State.lakeRange (s : State) (p va n : Nat) (write : Bool) : Bool :=
  n = 0 || match s.translateRange p va n { write := write } with
    | .error _ => false
    | .ok l => l.all fun e => match e.1 with
      | .lake _ => true
      | _ => false

/-- The entry of a walk over a range that reads uncorrectable (R160). -/
def State.rangeEcc (s : State) (p va n : Nat) (write : Bool) : Option Nat :=
  match s.translateRange p va n { write := write } with
  | .error f => f.ecc
  | .ok _ => none

/-- The checks on the record's own fields; no format field holds a reserved code (R23). -/
def XRun.fieldsOk (r : XRun) (inStep : Bool) : Bool :=
  let sr := r.rnd && (r.mode ≠ xmNone || r.reduces)
  r.f 456 0 = 0 && r.mode ≠ 3 && r.nt ≠ 0 && r.eFmt ≤ 8 && r.dstFmt ≤ 8 && r.trigEn = r.scheduled &&
  (r.mode ≠ xmTopk || (4 ≤ r.ksh && r.ksh ≤ 10)) &&
  (r.mode = xmNone || (r.kind = xkReduceScatter && inStep && (r.eFmt = 3 || r.eFmt = 5))) &&
  (!r.reduces || r.dstFmt = 3 || r.dstFmt = 5) && !(r.scheduled && r.reduces) &&
  (if sr then r.dims.all (· ≠ 0) else r.dims.all (· = 0)) &&
  [r.srcAddr, r.dstAddr, r.eAddr0, r.eAddr1].all (fun a => a % 64 = 0)

/-- Source tiles that this member reads. -/
def State.xSource (s : State) (p : Nat) (r : XRun) : Nat :=
  let me := s.myRank p r
  if r.kind = xkAllGather then r.shardLen (s.ranks p r) me
  else if r.kind = xkBroadcast then (if r.root = me then r.nt else 0)
  else r.nt

/-- The tiles of this member's own reduced shard. -/
def State.xOwn (s : State) (p : Nat) (r : XRun) : Nat :=
  dstTiles r.fs r.dstFmt (r.shardLen (s.ranks p r) (s.myRank p r))

/-- The indices in DST_ADDR of every tile that this member must see written (R243). -/
def State.xWanted (s : State) (p : Nat) (r : XRun) : List Nat :=
  if r.kind = xkReduceScatter then List.range (s.xOwn p r)
  else if r.kind = xkAllReduce then
    let n := s.ranks p r
    (List.range n).flatMap fun k => (List.range (dstTiles r.fs r.dstFmt (r.shardLen n k))).map fun i => r.shardLo n k + i
  else List.range r.nt

/-- Validate one record. -/
def State.checkX (s : State) (p : Nat) (r : XRun) : Except RecordBad XRun :=
  if !r.fieldsOk r.inStep || !s.usesGroup p r.group || (s.others p r ≠ [] && (s.lanes p).isEmpty) ||
      (r.kind = xkBroadcast && s.ranks p r ≤ r.root) then .error (.record none)
  else
    let n := s.xSource p r
    let first := s.vread p r.srcAddr 64
    let fs := match first with
      | .ok h => (frameHeader h).fmt
      | _ => 5
    let r := { r with fs := if n = 0 then 5 else fs }
    let ecc := match first with
      | .unreadable pa => some pa
      | .fault f => f.ecc
      | .ok _ => none
    let readable := n = 0 || (match first with | .ok _ => true | _ => false)
    let dst := ((s.xWanted p r).foldl Max.max 0 + 1) * frameBytes
    let e := if r.mode = xmNone then 0 else dstTiles r.fs r.eFmt r.nt * frameBytes
    let spans := [(r.srcAddr, n * frameBytes, false), (r.dstAddr, (if (s.xWanted p r).isEmpty then 0 else dst), true),
      (r.eRead, e, false), (r.eWrite, e, true)]
    if !readable then .error (.record ecc)
    else if r.reduces && r.fs ≠ 2 && r.fs ≠ 3 && r.fs ≠ 5 then .error (.record none)
    else match spans.find? fun x => !s.lakeRange p x.1 x.2.1 x.2.2 with
    | some x => .error (.record (s.rangeEcc p x.1 x.2.1 x.2.2))
    | none => match s.entryBad p r.srcTensor with
      | some b => .error (.scale b.1 b.2)
      | none => .ok { r with tScale := s.entryScale p (BitVec.ofNat 32 r.srcTensor) }

/-- What a refused record raises: an uncorrectable read of its source (R160), an entry out of reach (R476). -/
def State.noteBadX (s : State) (p : Nat) : RecordBad → State
  | .record none => s
  | .record (some pa) => s.lakeUncorrectable p pa
  | .scale slot addr => s.entryLost p slot addr

/-- Validate records in order. -/
def State.checkXs (s : State) (p : Nat) : List XRun → Except (Nat × RecordBad) (List XRun)
  | [] => .ok []
  | r :: rest =>
    match s.checkX p r with
    | .error e => .error (r.idx, e)
    | .ok r' =>
      match s.checkXs p rest with
      | .error e => .error e
      | .ok l => .ok (r' :: l)

/-- A record of a list or schedule, before it is validated. -/
def Partition.xrun (x : Partition) (w q i : Nat) (raw : U1024) (scheduled inStep : Bool) (seed stepKey : U64) : XRun :=
  { s := w
    q := q
    idx := i
    raw := raw
    scheduled := scheduled
    inStep := inStep
    seed := seed
    stepKey := stepKey
    version := if inStep then x.stepNo else 0
    odd := x.version.toNat % 2 = 1
    fs := 5 }

/-- R241. EXCHANGE. -/
def execExchange (p w q : Nat) (s : State) : Res :=
  .next (s.startStep p w q opExchange fun k s =>
    let x := s.partn p
    let inside := x.step = .sealed
    if (x.step ≠ .idle && !inside) || k.step ≠ (if inside then x.stepNo.toNat else 0) then s.complete p w q (.stepState x)
    else match s.readList p (k.f 383 336) (k.f 335 320) with
      | .error (o, e) => (s.noteRead p e).complete p w q o
      | .ok raws =>
        let seed := if inside then x.stepSeed else 0
        let key := if inside then x.stepNo else BitVec.ofNat 64 (2 ^ 63 + q)
        match s.checkXs p (raws.zipIdx.map fun e => x.xrun w q e.2 e.1 false inside seed key) with
        | .error (i, e) => (s.noteBadX p e).complete p w q (e.outcome i)
        | .ok rs =>
          if rs.any (fun r => r.mode = xmSign) && !s.agreed p 2 then s.complete p w q (.rejected cauFeature 2)
          else (rs.foldl (fun s r => (s.readScale p (BitVec.ofNat 32 r.srcTensor)).1) s).onPartn p fun x => { x with
            step := if inside then .exchanged else x.step
            xruns := x.xruns ++ rs
            lastXList := raws })

/-! ## The end of a record (R259) -/

/-- Packets of a record that wait at their source do not leave any more (R259, R286). -/
def State.recallX (s : State) (p : Nat) (r : XRun) : State :=
  let mine := fun (k : Packet) => (k.ptype = ptXframe || k.ptype = ptMcast) && k.srcMod = s.moduleNumber && k.srcPart = p && k.aux = r.xid
  { s with fabric := { s.fabric with landings := s.fabric.landings.map fun e =>
      (e.1, { e.2 with leaving := e.2.leaving.filter fun k => !mine k }) } }

/-- A record ends without completing. -/
def State.endX (s : State) (p x cause arg detail : Nat) : State :=
  match (s.partn p).xruns[x]? with
  | none => s
  | some r =>
    let s := (if cause = cauVersion then s else s.bumpP p 0x80A0 9 1).recallX p r
    if r.scheduled then (s.onX p x fun r => { r with ended := true }).stopForX p r cause arg detail
    else
      let s := if r.inStep then s.stepFault p cause (some (r.s, r.q)) else s
      let s := s.onPartn p fun y => { y with xruns := y.xruns.filter fun e => !(e.s = r.s && e.q = r.q) }
      s.complete p r.s r.q (.fault cause arg detail)

/-- The same for a cause that names a peer, with the event of the cause where it has one. -/
def State.endPeer (s : State) (p x cause peer : Nat) (event : Option Nat) : State :=
  match (s.partn p).xruns[x]? with
  | none => s
  | some r =>
    let s := match event with
      | some e => s.raiseP e p [r.xid, r.version.toNat, r.group, peer]
      | none => s
    s.endX p x cause peer (fld r.xid 96)

/-- The record at place x is still the one given, and has not ended. -/
def State.xLive (s : State) (p x : Nat) (r : XRun) : Bool :=
  match (s.partn p).xruns[x]? with
  | none => false
  | some e => e.s = r.s && e.q = r.q && e.idx = r.idx && !e.ended

/-! ## Frames out, tiles in -/

/-- Send one frame of a record and await its acknowledgement. -/
def State.sendFrame (s : State) (p x peer index : Nat) (frame : List Byte) : State :=
  match (s.partn p).xruns[x]? with
  | none => s
  | some r =>
    let vl := s.laneOf p r.prio
    let (s, psn) := s.sendX p r peer ptXframe index frame
    (s.onX p x fun r => { r with
      unacked := r.unacked ++ [{ peer := peer, vl := vl, psn := psn, index := index, frame := frame }] }).bumpP p 0x80A0 2 frameBytes

/-- Send a frame that a record still holds to a member again, by unicast (R252, R260). -/
def State.resendX (s : State) (p x : Nat) (u : XSent) : State :=
  match (s.partn p).xruns[x]? with
  | none => s
  | some r =>
    let ptype := if r.kind = xkReduceScatter || (r.reduces && (frameHeader u.frame).tensor = r.srcTensor) then ptXframe else ptMcast
    let (s, psn) := s.sendX p r u.peer ptype u.index u.frame
    (s.onX p x fun r => { r with unacked := r.unacked.map fun e => if e = u then { e with psn := psn } else e }).bumpP p 0x80A0 2
      frameBytes

/-- Members that have asked for a tile that was not sent then get it now (R260). -/
def State.serveFetches (s : State) (p x index : Nat) : State :=
  match (s.partn p).xruns[x]? with
  | none => s
  | some r =>
    let asked := r.unacked.filter fun u => u.index = index && r.fetches.contains (u.peer, index)
    asked.foldl (fun s u => s.resendX p x u) (s.onX p x fun r => { r with fetches := r.fetches.filter fun e => e.2 ≠ index })

/-- Multicast a tile to the other members (R254). -/
def State.multicast (s : State) (p x index : Nat) (frame : List Byte) : State :=
  match (s.partn p).xruns[x]? with
  | none => s
  | some r =>
    let ms := s.others p r
    if ms.isEmpty then s
    else
      let vl := s.laneOf p r.prio
      let (s, psn) := s.sendX p r s.moduleNumber ptMcast index frame
      let s := s.onX p x fun r => { r with
        unacked := r.unacked ++ ms.map fun m => { peer := m, vl := vl, psn := psn, index := index, frame := frame } }
      (s.bumpP p 0x80A0 2 frameBytes).serveFetches p x index

/-- Count in-order tiles of a source rank (R255). -/
def State.countRank (s : State) (p x lo mark rank : Nat) : Nat → State
  | 0 => s
  | n + 1 =>
    match (s.partn p).xruns[x]? with
    | none => s
    | some r =>
      let c := r.counted.get rank 0
      if r.written.contains (lo + c) then
        ((s.onX p x fun r => { r with counted := r.counted.put rank (c + 1) 0 }).markAdd p mark).countRank p x lo mark rank n
      else s

/-- A destination tile has been written: its mark counts it (R255). MARK_MODE 1 of a REDUCE_SCATTER, which R255 excludes,
counts as mode 0 (DESIGN CHOICE, assumption log 26). -/
def State.noteTile (s : State) (p x index rank : Nat) : State :=
  match (s.partn p).xruns[x]? with
  | none => s
  | some r =>
    let s := s.onX p x fun r => { r with written := r.written ++ [index] }
    if !r.markEn then s
    else if r.markMode && r.kind ≠ xkReduceScatter then
      s.countRank p x (if r.kind = xkBroadcast then 0 else r.shardLo (s.ranks p r) rank) ((r.mark + rank) % 65536) rank
        (r.written.length + 1)
    else s.markAdd p r.mark

/-- Write a destination tile; a place that no longer translates ends the record (DEDUCED, assumption log 27). -/
def State.putTile (s : State) (p x index rank : Nat) (frame : List Byte) : State :=
  match (s.partn p).xruns[x]? with
  | none => s
  | some r =>
    match s.vwrite p (r.dstAddr + index * frameBytes) frame with
    | .error f => (s.noteFault p f).endPeer p x cauFrameCheck s.moduleNumber none
    | .ok s => (s.onX p x fun r => { r with
        prints := if r.kind = xkAllGather then r.prints.put index ((frame.drop 56).take 8 ++ frame.take 4) [] else r.prints })
          |>.noteTile p x index rank

/-- One source tile of this member with its checks (R252): none where it fails them. -/
def State.xTile (s : State) (p : Nat) (r : XRun) (i : Nat) : State × Option (List Byte) :=
  let rd := s.vread p (r.srcAddr + i * frameBytes) frameBytes
  match rd with
  | .ok f =>
    let h := frameHeader f
    (s, if frameCheckOk f && h.tensor = r.srcTensor && (!r.reduces || h.fmt = r.fs) then some f else none)
  | _ => (s.noteRead p rd, none)

/-! ## What a record waits for (R253, R256, R258, R264) -/

/-- Where the reduction of a tile of the own shard stands. -/
def XRun.reduction (r : XRun) (tile : Nat) : Reduction :=
  (r.sums.find? fun e => e.tile = tile).getD
    { tile := tile, nextRank := 0, sums := List.replicate (tileEls r.fs) 0, sats := List.replicate (tileEls r.fs) false }

/-- The next rank's contribution to it, as far as it is here: a block each. -/
def XRun.nextParts (r : XRun) (tile : Nat) : List Contribution :=
  (List.range (blocksPerTile r.fs)).filterMap fun b =>
    r.parts.find? fun c => c.block = tile * blocksPerTile r.fs + b && c.rank = (r.reduction tile).nextRank

/-- It is whole. -/
def XRun.ready (r : XRun) (tile : Nat) : Bool := (r.nextParts tile).length = blocksPerTile r.fs

/-- A tile of the own shard can be reduced further now. -/
def State.canReduce (s : State) (p : Nat) (r : XRun) : Bool :=
  r.reduces && (List.range r.nt).any fun t =>
    r.ownerOf (s.ranks p r) t = s.myRank p r && (r.outD.find t).isNone && r.ready t

/-- Every frame of a record has been sent: those of its source, and for ALL_REDUCE those of its reduced shard (R256). -/
def State.allSent (s : State) (p : Nat) (r : XRun) : Bool :=
  let lo := r.shardLo (s.ranks p r) (s.myRank p r)
  r.started && (if r.reduces then r.compressed = r.nt else r.compressed = s.xSource p r) &&
    (r.kind ≠ xkAllReduce || (List.range (s.xOwn p r)).all fun d => r.written.contains (lo + d))

/-- The landing that a record's next tile leaves from is full (R17, R258). -/
def State.sendHeld (s : State) (p : Nat) (r : XRun) : Bool :=
  if !r.reduces then s.others p r ≠ [] && s.landingFull p 0
  else
    let owner := s.memberAt p r (r.ownerOf (s.ranks p r) r.compressed)
    owner ≠ s.moduleNumber && s.landingFull p (s.dieFor owner)

/-- A record that can do nothing before a peer has taken or sent something. -/
def State.waitsForPeers (s : State) (p : Nat) (r : XRun) : Bool :=
  let src := if r.reduces then r.nt else s.xSource p r
  r.live && !s.canReduce p r &&
    ((decide (r.compressed < src) && s.sendHeld p r) ||
     (decide (r.compressed = src) && (!r.unacked.isEmpty || !(s.xWanted p r).all r.written.contains)))

/-- The time that a partition's engines wait for peers counts from here, or up to here (R258, R264). -/
def State.notePeers (s : State) (p : Nat) : State :=
  let x := s.partn p
  if x.xruns.any (s.waitsForPeers p) then s.onPartn p fun x => { x with peerWait := some (x.peerWait.getD s.now) }
  else s.endPeerWait p

/-! ## Starting (R239, R254, R256) -/

/-- The object under recovery that holds a record's next source tile, while the record's stream pins it (R181). -/
def State.xPinned (s : State) (p : Nat) (r : XRun) (tile : Nat) : Option Nat := s.pinnedAt p r.s (r.srcAddr + tile * frameBytes)

/-- A record whose next source tile is of such an object waits for the recovery. -/
def State.xAwait (s : State) (p : Nat) (r : XRun) : State :=
  match s.xPinned p r r.compressed with
  | some o => s.awaitRecovery p o
  | none => s

/-- A gather or broadcast sends its next source tile, and copies an own one; none where it stops (R254). -/
def State.gatherTile (s : State) (p x : Nat) (r : XRun) : Option State :=
  if r.reduces || s.xSource p r ≤ r.compressed || s.sendHeld p r || (s.xPinned p r r.compressed).isSome then none
  else
    let me := s.myRank p r
    let index := (if r.kind = xkAllGather then r.shardLo (s.ranks p r) me else 0) + r.compressed
    some (match s.xTile p r r.compressed with
    | (s, none) => s.endPeer p x cauFrameCheck s.moduleNumber none
    | (s, some f) =>
      let s := (s.onX p x fun r => { r with compressed := r.compressed + 1 }).putTile p x index me f
      if s.xLive p x r then s.multicast p x index f else s)

/-- It sends tiles in ascending order, at most n. -/
def State.gather (s : State) (p x : Nat) : Nat → State
  | 0 => s
  | n + 1 =>
    match (s.partn p).xruns[x]? with
    | none => s
    | some r =>
      if !r.live then s
      else match s.gatherTile p x r with
        | none => if s.xSource p r ≤ r.compressed then s else s.xAwait p r
        | some s' => if s'.xLive p x r then s'.gather p x n else s'

/-- A record starts; one that gathers or broadcasts sends what its landing takes. -/
def State.startX (s : State) (p x : Nat) : State :=
  match (s.partn p).xruns[x]? with
  | none => s
  | some r => (s.onX p x fun r => { r with started := true }).gather p x (s.xSource p r)

/-- The exchange engines' domains are on (R425, R426). -/
def State.enginesOn (s : State) : Bool := (List.range s.part.ioDies).all fun d => s.domOn (82 + 3 * d)

/-- R239. A scheduled record whose trigger has been reached starts; of two, the earlier in the schedule (R256). -/
def execExchangeRecordTrigger (p x : Nat) (s : State) : Res :=
  let y := s.partn p
  match y.xruns[x]? with
  | none => .next s
  | some r =>
    if !r.scheduled || !r.triggered || r.started || r.ended || !s.working || !s.enginesOn ||
        y.xruns.any (fun e => e.s = r.s && e.q = r.q && decide (e.idx < r.idx) && e.triggered && !e.started && !e.ended) then
      .next s
    else .next ((s.startX p x).notePeers p)

/-- R256. A record of a list starts once every frame of the record before it has been sent. -/
def execExchangeRecordStart (p x : Nat) (s : State) : Res :=
  let y := s.partn p
  match y.xruns[x]? with
  | none => .next s
  | some r =>
    if r.scheduled || r.started || !s.working || !s.enginesOn ||
        y.xruns.any (fun e => e.s = r.s && e.q = r.q && decide (e.idx < r.idx) && !s.allSent p e) then .next s
    else .next ((s.startX p x).notePeers p)

/-! ## Compression (R244 to R251, R253) -/

/-- The residual elements of source tile i, in payload order, read from the current buffer; an uncorrectable read is reported
(R160). -/
def State.residuals (s : State) (p : Nat) (r : XRun) (i : Nat) : State × Option (List Val) :=
  let l := (dstOf r.fs r.eFmt r.nt i).foldl (fun (acc : State × Option (List (Nat × Val))) d =>
    let rd := s.vread p (r.eRead + d * frameBytes) frameBytes
    match acc.2, rd with
    | some l, .ok f =>
      let vals := (tileCodes r.eFmt (framePayload f)).flatMap fun row => row.map (codeVal r.eFmt)
      (acc.1, some (l ++ ((dstPlaces r.fs r.eFmt r.nt d).zip vals).filterMap fun e => match e.1 with
        | some (j, k) => if j = i then some (k, e.2) else none
        | none => none))
    | some _, rd => (acc.1.noteRead p rd, none)
    | none, _ => (acc.1, none)) (s, some [])
  (l.1, l.2.map fun l => (sortBy (fun a b => decide (a.1 ≤ b.1)) l).map fun e => e.2)

/-- Write the residual tiles that source tile i completes (R248). -/
def State.writeResiduals (s : State) (p x : Nat) : List Nat → State
  | [] => s
  | d :: rest =>
    match (s.partn p).xruns[x]? with
    | none => s
    | some r =>
      if r.residuals.contains d then s.writeResiduals p x rest
      else match dstFrame r.eTensor r.version.toNat r.fs r.eFmt r.nt d 0 r.outE with
        | none => s.writeResiduals p x rest
        | some f =>
          match s.vwrite p (r.eWrite + d * frameBytes) f with
          | .error e => (s.noteFault p e).endPeer p x cauFrameCheck s.moduleNumber none
          | .ok s =>
            let s := s.onX p x fun r => { r with residuals := r.residuals ++ [d] }
            (if (frameHeader f).sat then s.bumpP p 0x80A0 7 1 else s).writeResiduals p x rest

/-- Send the frame that is being packed for a rank. -/
def State.flushPack (s : State) (p x rank : Nat) : State :=
  match (s.partn p).xruns[x]? with
  | none => s
  | some r =>
    match r.packing.find? fun k => k.rank = rank with
    | none => s
    | some k =>
      let s := s.onX p x fun r => { r with packing := r.packing.filter fun k => k.rank ≠ rank }
      s.sendFrame p x (s.memberAt p r rank) k.first (r.frame (s.myRank p r) k)

/-- Pack one encoded block for its owner; the last block of a shard closes its frame (R251). -/
def State.packBlock (s : State) (p x rank block : Nat) (bytes : List Byte) (sat last : Bool) : State :=
  match (s.partn p).xruns[x]? with
  | none => s
  | some r =>
    let s := match r.packing.find? fun k => k.rank = rank with
      | some k => if 4096 < k.bytes.length + bytes.length then s.flushPack p x rank else s
      | none => s
    let s := s.onX p x fun r => match r.packing.find? fun k => k.rank = rank with
      | some k =>
        let k' := { k with count := k.count + 1, bytes := k.bytes ++ bytes, sat := k.sat || sat }
        { r with packing := r.packing.map fun e => if e.rank = rank then k' else e }
      | none => { r with packing := r.packing ++ [{ rank := rank, first := block, count := 1, bytes := bytes, sat := sat }] }
    if last then s.flushPack p x rank else s

/-- This member's own contribution to a block of its shard. -/
def State.addOwn (s : State) (p x block rank : Nat) (vals : List Val) (sats : List Bool) : State :=
  s.onX p x fun r => { r with
    parts := r.parts ++ [{ block := block, rank := rank, vals := vals.map toF32, sats := sats }] }

/-- The blocks of an encoded tile go to the shard's owner. -/
def State.sendBlocks (s : State) (p x owner me first : Nat) (lastTile : Bool) : List (XBlock × Bool) → Nat → State
  | [], _ => s
  | b :: rest, i =>
    let s := if owner = me then s.addOwn p x (first + i) me b.1.vals b.1.sats
      else s.packBlock p x owner (first + i) b.1.bytes b.2 (lastTile && rest.isEmpty)
    s.sendBlocks p x owner me first lastTile rest (i + 1)

/-- Encode one source tile with error feedback. -/
def State.encodeTile (s : State) (p x : Nat) (r : XRun) (i : Nat) (els : List XEl) (res : List Val) : State :=
  let n := s.ranks p r
  let owner := r.ownerOf n i
  let cars := (els.zip res).map fun e => e.1.carry e.2
  let blocks := (pieces 1024 (cars.length / 1024) cars).map fun b =>
    (if r.mode = xmTopk then r.topk b else r.sign b, b.any fun c => c.sat)
  let out := (cars.zip (blocks.flatMap fun b => b.1.vals.zip b.1.sats)).map fun e => r.residual e.1 e.2.1 e.2.2
  let h : Header := match s.vread p (r.srcAddr + i * frameBytes) 64 with
    | .ok b => frameHeader b
    | _ => {}
  let s := s.onX p x fun r => { r with outE := r.outE.insert i (xOut h out) }
  let s := s.tally p none (BitVec.ofNat 32 r.eTensor) (xTally out)
  let s := s.writeResiduals p x (dstOf r.fs r.eFmt r.nt i)
  if s.xLive p x r then
    s.sendBlocks p x owner (s.myRank p r) (i * blocksPerTile r.fs) (decide (i + 1 = r.shardLo n (owner + 1))) blocks 0
  else s

/-- The next source tile of a reduction is encoded and sent, or kept for the own shard. -/
def State.compressTile (s : State) (p x : Nat) (r : XRun) (tile : Nat) : State :=
  match s.xTile p r tile with
  | (s, none) => s.endPeer p x cauFrameCheck s.moduleNumber none
  | (s, some f) =>
    let els := r.els (tensorScale r.tScale) f
    let s := (s.onX p x fun r => { r with compressed := r.compressed + 1 }).bumpP p 0x80A0 1 frameBytes
    let me := s.myRank p r
    let owner := r.ownerOf (s.ranks p r) tile
    if r.mode = xmNone then
      if owner ≠ me then s.sendFrame p x (s.memberAt p r owner) tile f
      else (pieces 1024 (els.length / 1024) els).zipIdx.foldl (fun s b =>
        s.addOwn p x (tile * blocksPerTile r.fs + b.2) me (b.1.map fun e => if e.valid then e.g else .zero false)
          (b.1.map fun e => e.valid && e.sat)) s
    else match s.residuals p r tile with
      | (s, none) => s.endPeer p x cauFrameCheck s.moduleNumber none
      | (s, some res) => s.encodeTile p x r tile els res

/-- R245. The compression unit encodes the next source tile of a reduction and sends its frames, as far as the landing has room
(R258). The next tile of a gather whose landing was full goes the same way (DESIGN CHOICE, assumption log 128). -/
def execExchangeTileCompress (p x tile : Nat) (s : State) : Res :=
  match (s.partn p).xruns[x]? with
  | none => .next s
  | some r =>
    if !r.live || tile ≠ r.compressed || !s.working then .next s
    else if !r.reduces then .next (((s.gatherTile p x r).getD (if s.xSource p r ≤ tile then s else s.xAwait p r)).notePeers p)
    else if r.nt ≤ tile || s.sendHeld p r then .next (s.notePeers p)
    else if (s.xPinned p r tile).isSome then .next ((s.xAwait p r).notePeers p)
    else .next ((s.compressTile p x r tile).notePeers p)

/-! ## Reduction (R253) -/

/-- Write the tiles of the reduced shard that a source tile completes; ALL_REDUCE multicasts each (R243). -/
def State.writeReduced (s : State) (p x lo n rank : Nat) : List Nat → State
  | [] => s
  | d :: rest =>
    match (s.partn p).xruns[x]? with
    | none => s
    | some r =>
      let index := if r.kind = xkAllReduce then lo + d else d
      if r.written.contains index then s.writeReduced p x lo n rank rest
      else match dstFrame r.dstTensor r.version.toNat r.fs r.dstFmt n d lo r.outD with
        | none => s.writeReduced p x lo n rank rest
        | some f =>
          let s := s.putTile p x index rank f
          if !s.xLive p x r then s
          else
            let s := if r.kind = xkAllReduce then s.multicast p x index f else s
            (if (frameHeader f).sat then s.bumpP p 0x80A0 8 1 else s).writeReduced p x lo n rank rest

/-- Add one rank's values to the sums, element by element. -/
def addSums (sums : List U32) (sats : List Bool) (vals : List U32) (sats' : List Bool) : List U32 × List Bool :=
  let l := ((sums.zip sats).zip (vals.zip sats')).map fun e =>
    let v := satAdd (ofF32 e.1.1) (ofF32 e.2.1)
    (toF32 v.1, e.1.2 || e.2.2 || v.2)
  (l.map fun e => e.1, l.map fun e => e.2)

/-- The sums of a tile are complete: the reduced elements, and the tiles that they complete, are written (R253). -/
def State.reduceTile (s : State) (p x : Nat) (r : XRun) (tile : Nat) (sum : List U32 × List Bool) : State :=
  match s.xTile p r tile with
  | (s, none) => s.endPeer p x cauFrameCheck s.moduleNumber none
  | (s, some f) =>
    let n := s.ranks p r
    let me := s.myRank p r
    let out := ((r.els (.fin 1) f).zip (sum.1.zip sum.2)).map fun e => r.reduced e.1 (ofF32 e.2.1) e.2.2
    let s := s.onX p x fun r => { r with outD := r.outD.insert tile (xOut (frameHeader f) out) }
    let s := s.tally p none (BitVec.ofNat 32 r.dstTensor) (xTally out)
    let lo := r.shardLo n me
    let len := r.shardLen n me
    s.writeReduced p x lo len me (dstOf r.fs r.dstFmt len (tile - lo))

/-- R253. The owner adds the next rank's contribution to a source tile of its shard; the last rank's completes it. The tiles
that ALL_REDUCE then multicasts wait for room in the landing (R17). -/
def execReduceContribution (p x tile : Nat) (s : State) : Res :=
  match (s.partn p).xruns[x]? with
  | none => .next s
  | some r =>
    let n := s.ranks p r
    let red := r.reduction tile
    let last := red.nextRank + 1 = n
    if !r.reduces || !r.live || r.nt ≤ tile || r.ownerOf n tile ≠ s.myRank p r || (r.outD.find tile).isSome || !s.working ||
        !r.ready tile || (last && r.kind = xkAllReduce && s.others p r ≠ [] && s.landingFull p 0) then .next s
    else match if last then s.xPinned p r tile else none with
    | some o => .next (s.awaitRecovery p o)
    | none =>
      let per := blocksPerTile r.fs
      let mine := r.nextParts tile
      let sum := addSums red.sums red.sats (mine.flatMap fun c => c.vals) (mine.flatMap fun c => c.sats)
      let s := s.onX p x fun r => { r with
        parts := r.parts.filter fun c => !(c.block / per = tile && c.rank = red.nextRank)
        sums := r.sums.filter (fun e => e.tile ≠ tile) ++
          (if last then [] else [{ tile := tile, nextRank := red.nextRank + 1, sums := sum.1, sats := sum.2 }]) }
      .next ((if last then s.reduceTile p x r tile sum else s).notePeers p)

/-! ## Completion (R230, R231, R257) -/

/-- Every frame acknowledged, every destination and residual tile written. -/
def State.xComplete (s : State) (p : Nat) (r : XRun) : Bool :=
  s.allSent p r && r.unacked.isEmpty && ((s.xWanted p r).all r.written.contains) &&
  (r.mode = xmNone || r.residuals.length = dstTiles r.fs r.eFmt r.nt)

/-- The gather fingerprint of a shard (R230). -/
def XRun.print (r : XRun) (ranks k : Nat) : U64 :=
  crc64 ((List.range (r.shardLen ranks k)).flatMap fun i => r.prints.get (r.shardLo ranks k + i) [])

/-- Record or compare the fingerprints of a gather from shard k on; the first that differs is answered (R230, R231). -/
def State.checkPrints (s : State) (p : Nat) (r : XRun) (ranks k : Nat) : Nat → State × Option Nat
  | 0 => (s, none)
  | n + 1 =>
    let t : U32 := BitVec.ofNat 32 r.srcTensor
    let f := r.print ranks k
    match (s.partn p).ledger.find? fun e => e.tensor = t && e.shard = k with
    | some e => if e.print = f then s.checkPrints p r ranks (k + 1) n else (s, some k)
    | none =>
      let s := s.onPartn p fun x => { x with
        ledger := if x.ledger.length < 262144 then x.ledger ++ [{ tensor := t, shard := k, print := f }] else x.ledger }
      s.checkPrints p r ranks (k + 1) n

/-- An EXCHANGE completes OK once all its records are complete. -/
def State.settleX (s : State) (p w q : Nat) : State :=
  let rs := (s.partn p).xruns.filter fun r => r.s = w && r.q = q && !r.scheduled
  if rs.isEmpty || rs.any (fun r => !r.complete) then s
  else (s.onPartn p fun x => { x with xruns := x.xruns.filter fun r => !(r.s = w && r.q = q) }).complete p w q .ok

/-- R257. A record is complete. -/
def execExchangeRecordComplete (p x : Nat) (s : State) : Res :=
  match (s.partn p).xruns[x]? with
  | none => .next s
  | some r =>
    if r.complete || r.ended || !s.working || !s.xComplete p r then .next s
    else
      let n := s.ranks p r
      match if r.kind = xkAllGather && r.inStep then s.checkPrints p r n 0 n else (s, none) with
      | (s, some k) =>
        let s := (s.bumpP p 0x8070 5 1).raiseP 0x4210 p [r.srcTensor, k, r.version.toNat]
        .next ((s.endX p x cauVersion 0 (fld r.srcTensor 96 + fld k 64)).notePeers p)
      | (s, none) => .next (((s.onX p x fun r => { r with complete := true }).settleX p r.s r.q).notePeers p)

/-! ## Slow members (R259, R260) -/

/-- The source that a member fetches tile `index` from. -/
def State.sourceOf (s : State) (p : Nat) (r : XRun) (index : Nat) : Nat :=
  s.memberAt p r (if r.kind = xkBroadcast then r.root else
    ((List.range (s.ranks p r)).filter fun k => decide (r.shardLo (s.ranks p r) k ≤ index)).getLastD 0)

/-- A rank still owes a contribution to a tile of the own shard (R253). -/
def XRun.owes (r : XRun) (ranks me k : Nat) : Bool :=
  r.reduces && (List.range r.nt).any fun t => r.ownerOf ranks t = me && (r.outD.find t).isNone &&
    decide ((r.reduction t).nextRank ≤ k) && (List.range (blocksPerTile r.fs)).any fun b =>
      !r.parts.any fun c => c.block = t * blocksPerTile r.fs + b && c.rank = k

/-- A member that the record still needs: it owes an acknowledgement, a contribution, or a tile of which it is the source (R259). -/
def State.xNeeds (s : State) (p : Nat) (r : XRun) (m : Nat) : Bool :=
  (s.others p r).contains m && (r.unacked.any (fun u => u.peer = m) ||
    r.owes (s.ranks p r) (s.myRank p r) (s.rankOf p r m) ||
    (r.kind ≠ xkReduceScatter && (s.xWanted p r).any fun i => !r.written.contains i && s.sourceOf p r i = m))

/-- R259. Nothing has come from a needed member for Exch.PeerTimeout. -/
def execExchangePeerTimeout (p x member : Nat) (s : State) : Res :=
  match (s.partn p).xruns[x]? with
  | none => .next s
  | some r =>
    if !r.started || r.complete || r.ended || !s.xNeeds p r member then .next s
    else .next ((s.endPeer p x cauPeerTimeout member (some 0x5102)).notePeers p)

/-- Ask the sender of a frame for it by unicast (R252, R260): a READ_REQ with the XID in AUX and, in ADDR, 64 times the index
plus 1, which no spring's address is (DESIGN CHOICE, assumption log 28). -/
def State.fetchX (s : State) (p : Nat) (r : XRun) (peer index : Nat) : State :=
  (s.sendX p r peer ptReadReq (64 * index + 1) []).1

/-! ## Stage queues (R262) -/

/-- The gain of a mark that is forwarded goes to the mark at the other end. -/
def State.forwardGain (s : State) (p to' : Nat) (seen v : U32) : State := s.applyMark p to' (s.mark p to' + (v - seen))

/-- R262. The gains of SENT reach FULL, or those of DONE reach FREE. Where the end that gained lies on another module, `told` is
its mark's value as it arrives (assumption log 29). -/
def execStageQueueMarkForward (p sq : Nat) (gain : StageGain) (s : State) : Res :=
  match (s.partn p).stageQueues[sq]? with
  | none => .next s
  | some q =>
    let seen := if gain.done then q.doneForwarded else q.sentForwarded
    let source := if gain.done then q.decl.consumer else q.decl.producer
    let v := if source then s.mark p (if gain.done then q.decl.done else q.decl.sent) else gain.told.getD seen
    let here := if gain.done then q.decl.producer else q.decl.consumer
    if v = seen then .next s
    else
      let s := s.onPartn p fun x => { x with stageQueues := x.stageQueues.modify sq fun e =>
        if gain.done then { e with doneForwarded := v } else { e with sentForwarded := v } }
      .next (if here then s.forwardGain p (if gain.done then q.decl.free else q.decl.full) seen v else s)

end Sys2Proof.Machine
end

