-- ==== Sys2Proof/Machine/Fabric.lean ====
section
/-! DEFINITION. Fabric ports, links, the module switch and the packets that reach a landing (chapter 10; R252, R254, R259, R260
for exchange traffic; R455 for link tests; R463 for cables). -/

namespace Sys2Proof.Machine

/-! ## Packets in a stream of flits (R269, R272, R278)

A receive buffer holds flits as (PKT_OFF, data not yet taken). 256 added to PKT_OFF marks what came before the port last went
down: no credit is returned for it, since training grants new ones. -/

/-- The flits of a receive buffer. -/
abbrev Rx := List (Nat × List Byte)

/-- Bytes of a packet whose route header is h. The first 32 of them are its route header. -/
def packetLen (h : Nat) : Nat := if ptHasFrame (bits h 239 236) then 32 + frameBytes else 32

/-- A packet starts with the first byte of the next flit: what came before it goes no further. -/
def startsHere : Rx → Bool
  | [] => false
  | e :: _ => e.1 % 256 = 0

/-- Take n bytes of the packet at the front, as far as they are here. -/
def pullRx : Nat → Rx → List Byte × Rx
  | _, [] => ([], [])
  | n, e :: r =>
    if n = 0 then ([], e :: r)
    else if e.2.length ≤ n then
      if startsHere r then (e.2, r) else let b := pullRx (n - e.2.length) r; (e.2 ++ b.1, b.2)
    else (e.2.take n, (e.1 / 256 * 256, e.2.drop n) :: r)

/-- Zeros where a header should be, or the rest of a flit that another packet's start follows: filling (assumption log 18). -/
def filling (data : List Byte) (r : Rx) : Bool :=
  if 32 ≤ data.length then (data.take 32).all (· = 0) else startsHere r

/-- The buffer from the next packet start on. -/
def alignRx : Rx → Rx
  | [] => []
  | e :: r =>
    if e.1 % 256 = 255 then alignRx r
    else
      let data := e.2.drop (e.1 % 256)
      if data.isEmpty || filling data r then alignRx r else (e.1 / 256 * 256, data) :: r

/-- Flits of a buffer for which a credit is owed once they are free. -/
def credited (rx : Rx) : Nat := (rx.filter fun e => e.1 < 256).length

/-- A buffer whose port has gone down: no flit follows what it holds. -/
def closeRx (rx : Rx) : Rx := if rx.isEmpty then [] else (rx.map fun e => (e.1 % 256 + 256, e.2)) ++ [(256, [])]

/-- The bytes that a packet begun still lacks. -/
def lacking (old : List Byte) : Nat := packetLen (leNat (old.take 32)) - old.length

/-! ## Routes in and out of service (R283, R285, R286) -/

/-- Whether the Link Manager of a port is in service (R354). -/
def State.linkServing (s : State) (q : Nat) : Bool := s.compUp (10 + q / 4) compTraining

/-- A port is enabled (R285). -/
def State.portEnabled (s : State) (q : Nat) : Bool := s.moduleSetting (0x6100 + q) 1 = 1

/-- Reachability after a change of port q: a destination that has lost its last route raises event 0x5205 (R286, R289). -/
def State.noteRoutes (s : State) (q : Nat) : State :=
  let me := s.moduleNumber
  if 64 ≤ me then s
  else
    let now := (List.range s.domainSize).filter fun m => m ≠ me && (s.outPort m).isSome
    let s := (s.fabric.routes.filter fun m => !now.contains m).foldl (fun s m => s.raiseM 0x5205 q [q, m]) s
    { s with fabric := { s.fabric with routes := now } }

/-- A cut holds for a packet: one of its tree and XID that follows the frame at which it was made, or that frame. A source sends
ascending tile indices (R254), so a lower one belongs to its next record, whose tree has the member again (R260; DESIGN CHOICE,
assumption log 119). -/
def TreeCut.holds (c : TreeCut) (k : Packet) : Bool :=
  k.tree && c.src = k.srcMod && c.xid = k.aux && c.group = k.mgroup && (c.psn = k.psn || decide (c.addr < k.addr))

/-- The members that a tree leads to through this module: those of the group but its source and the detached ones (R260). -/
def State.treeMembers (s : State) (k : Packet) : List Nat :=
  let cut := match (s.existing.filterMap fun p => ((s.partn p).xidAt k.aux).bind fun x => (s.partn p).xruns[x]?).head? with
    | some r => r.detached
    | none => []
  let away := (s.fabric.cuts.filter fun c => c.holds k).map fun c => c.member
  (s.groupMembers 0 k.mgroup).filter fun m => m ≠ k.srcMod && !cut.contains m && !away.contains m && (s.routePath k.srcMod m).contains s.moduleNumber

/-- Those beyond the link to the next module x. -/
def State.beyond (s : State) (k : Packet) (x : Nat) : List Nat :=
  (s.treeMembers k).filter fun m => m ≠ s.moduleNumber && s.nextModule s.moduleNumber m = x

/-- The copy of a tree's packet for one member by unicast. -/
def State.unicast (s : State) (k : Packet) (m : Nat) : Packet :=
  { k with route := sealRoute (k.n - fld k.dstMod 250 - fld k.dstPart 242 + fld m 250 + fld (s.groupPart 0 k.mgroup m % 4) 242) }

/-- A branch of a packet: the module whose route it takes, and the copy that takes it. -/
structure Branch where
  dest : Nat
  copy : Packet
deriving DecidableEq, Repr

/-- The number of a branch among those that have taken a packet; 255 is this module's landing. -/
def Branch.code (b : Branch) : Nat := if b.copy.tree then b.dest else 64 + b.dest

/-- The copies of a tree's packet towards the next module x: one on its link, or, while that is down, one by unicast for each
member beyond it (R284; DESIGN CHOICE, assumption log 119). -/
def State.treeBranch (s : State) (k : Packet) (x : Nat) : List Branch :=
  if (s.portsTo x).isEmpty then (s.beyond k x).map fun m => { dest := m, copy := s.unicast k m } else [{ dest := x, copy := k }]

/-- The outputs of a packet at this switch: whether it ends here, and its branches (R283, R284). -/
def State.branches (s : State) (k : Packet) : Bool × List Branch :=
  let me := s.moduleNumber
  if k.tree then
    let ms := s.treeMembers k
    (ms.contains me, (((ms.filter (· ≠ me)).map fun m => s.nextModule me m).eraseDups).flatMap fun x => s.treeBranch k x)
  else if k.dstMod = me then (true, [])
  else (false, [{ dest := k.dstMod, copy := k }])

/-- A packet that waits at its source, or here, for a route (R286). -/
def State.waitHere (s : State) (k : Packet) : State :=
  let l := s.landing 0
  s.setLanding 0 { l with leaving := l.leaving ++ [k] }

/-- Put a packet at an output, keyed by lane and class. -/
def State.enqueue (s : State) (q key : Nat) (k : Packet) : State :=
  let x := s.port q
  (s.setPort q { x with output := x.output.put key (x.output.get key [] ++ [k]) [] }).drive q

/-- A packet whose port to module x went down takes another route, or waits while there is none (R285, R286): without the hop that
it has not made. -/
def State.rerouteOne (s : State) (x : Nat) (k : Packet) (key : Nat) : State :=
  (if k.tree then s.treeBranch k x else [{ dest := k.dstMod, copy := k }]).foldl (fun s b => match s.outPort b.dest with
    | none => s.waitHere b.copy.unhop
    | some (q, _) => s.enqueue q key b.copy) s

/-! ## Cut-through (R278, R285) -/

/-- Two copies of one packet (R272). -/
def samePacket (a b : Packet) : Bool := a.windowKey = b.windowKey && a.psn = b.psn

/-- A port holds a copy of a packet that is not whole. -/
def Port.partly (x : Port) (k : Packet) : Bool :=
  (x.output.any fun l => l.2.any fun e => !e.whole && samePacket e k) ||
    x.sending.any fun e => !e.2.packet.whole && samePacket e.2.packet k

/-- The outputs hold a copy of a packet that is not whole: a second one waits until it is whole. -/
def State.partlyOut (s : State) (k : Packet) : Bool :=
  (s.fabric.ports.any fun e => e.2.partly k) || (s.landing 0).leaving.any fun e => !e.whole && samePacket e k

/-- More bytes of a packet that is not whole. -/
def moreOf (e k : Packet) (bs : List Byte) : Packet := if !e.whole && samePacket e k then { e with body := e.body ++ bs } else e

def Port.more (x : Port) (k : Packet) (bs : List Byte) : Port :=
  { x with
    output := x.output.map fun l => (l.1, l.2.map fun e => moreOf e k bs)
    sending := x.sending.map fun l =>
      if !l.2.packet.whole && samePacket l.2.packet k then
        (l.1, { packet := moreOf l.2.packet k bs, bytes := l.2.bytes ++ bs })
      else l }

/-- The bytes of a packet that have arrived since go to the outputs that have begun to take it, and the ports send what they can. -/
def State.feedOut (s : State) (k : Packet) (bs : List Byte) : State :=
  if bs.isEmpty || !s.partlyOut k then s
  else
    let qs := (s.fabric.ports.filter fun e => e.2.partly k).map fun e => e.1
    let l := s.landing 0
    let s := s.setLanding 0 { l with leaving := l.leaving.map fun e => moreOf e k bs }
    qs.foldl (fun s q => (s.setPort q ((s.port q).more k bs)).drive q) s

/-- A port ends a packet that it cannot get whole: one of which a part has left ends with a stomp marker (R285). -/
def Port.stomp (x : Port) (k : Packet) : Port :=
  let mine := fun (e : Nat × Sending) => !e.2.packet.whole && samePacket e.2.packet k
  { x with
    output := (x.output.map fun l => (l.1, l.2.filter fun e => e.whole || !samePacket e k)).filter fun l => l.2 ≠ []
    sending := x.sending.filter fun e => !mine e
    stomps := x.stomps ++ (x.sending.filter mine).map fun e => e.1 }

/-- A packet that this switch had partly forwarded is ended (R285). -/
def State.stompOut (s : State) (k : Packet) : State :=
  let qs := (s.fabric.ports.filter fun e => e.2.partly k).map fun e => e.1
  let l := s.landing 0
  let s := s.setLanding 0 { l with leaving := l.leaving.filter fun e => e.whole || !samePacket e k }
  qs.foldl (fun s q => (s.setPort q ((s.port q).stomp k)).drive q) s

/-- The branches that have taken a packet of an input. -/
def State.takenBy (s : State) (input : Nat) (k : Packet) : List Nat :=
  match s.fabric.taken.find? fun e => e.1 = input && e.2.1 = k with
  | some e => e.2.2
  | none => []

def State.setTaken (s : State) (input : Nat) (k : Packet) (l : List Nat) : State :=
  let rest := s.fabric.taken.filter fun e => !(e.1 = input && e.2.1 = k)
  { s with fabric := { s.fabric with taken := if l.isEmpty then rest else rest ++ [(input, k, l)] } }

/-- The number of an input among those that hold packets. -/
def portInput (q key : Nat) : Nat := q * 16 + key
def landingInput (d : Nat) : Nat := 1000 + d

/-- The packet without its body that has these first bytes. -/
def headOf (bytes : List Byte) : Packet := { route := BitVec.ofNat 256 (leNat (bytes.take 32)), body := [] }

/-- What a port keeps without power: its cable, and the counters of its link tests (R456). -/
def Port.unpowered (x : Port) : Port :=
  { cable := x.cable, shorted := x.shorted, testBits := x.testBits, testErrors := x.testErrors }

/-- A port goes down (R285, R286). `next` is the state it is left in, DOWN where a cable-power contact is shorted (R463). Packets of
which a part has left are sent again whole; one that this switch had begun to take and that cannot end any more is stomped. -/
def State.portDown (s : State) (q : Nat) (next : PortState) : State :=
  let x := s.port q
  if x.st ≠ .up then s
  else
    let window := 1000000 * s.moduleSetting 0x6000 4
    let downs := (x.downTimes.filter fun t => s.now - t ≤ window) ++ [s.now]
    let held := 3 ≤ downs.length && next = .training
    let resend := x.sent.map (fun e => (e.2.2, e.2.1)) ++ x.sending.map fun e => (e.2.packet, e.1)
    let waiting := x.output.flatMap fun e => e.2.map fun k => (k, e.1)
    let cut := fun (key : Nat) (old : List Byte) => (pullRx (lacking old) (x.rxData.get key [])).1.length < lacking old
    let stomped : Table (List Byte) := x.passing.filter fun e => cut e.1 e.2
    let y : Port := { st := if held then .heldDown else next, downTimes := downs, cable := x.cable, shorted := x.shorted,
                      testBits := x.testBits, testErrors := x.testErrors, inDim := x.inDim
                      rxData := (x.rxData.map fun e =>
                        (e.1, closeRx (if (stomped.find e.1).isSome then alignRx e.2 else e.2))).filter fun e => e.2 ≠ []
                      passing := x.passing.filter fun e => !cut e.1 e.2 }
    let s := ((s.setPort q y).bump (0x8100 + q) 5 1).raiseM 0x5201 q [q, x.peerModule]
    let s := match x.stallSince with
      | some t => s.bump (0x8100 + q) 8 (s.now - t)
      | none => s
    let s := s.bump 0x8080 3 stomped.length
    let s := s.bump 0x8080 2 resend.length
    let s := if held then s.raiseM 0x5208 q [q, x.peerModule] else s
    let s := (resend ++ waiting).foldl (fun s e => s.rerouteOne x.peerModule e.1 e.2) s
    (stomped.foldl (fun s e => (s.stompOut (headOf e.2)).setTaken (portInput q e.1) (headOf e.2) []) s).noteRoutes q

/-! ## Flits (R269 to R271) -/

/-- The fields of a flit header. -/
def flitF (f : Flit) (hi lo : Nat) : Nat := bits f.header.toNat hi lo

/-- An ACK covers the replay buffer up to its SEQ. -/
def Port.acked (x : Port) (now ack : Nat) : Port :=
  match x.replay.findIdx? fun e => e.1 = ack with
  | none => x
  | some i =>
    let gone := (x.replay.take (i + 1)).map fun e => e.1
    { x with replay := x.replay.drop (i + 1), sent := x.sent.filter (fun e => !gone.contains e.1), lastAck := ack, ackAt := now,
             replays := 0 }

/-- A flit in order gives its ACK and its credits (R269 to R271). -/
def Port.heard (x : Port) (now : Nat) (f : Flit) : Port :=
  let y := x.acked now (flitF f 65 54)
  let key := flitF f 40 38 * 2 + flitF f 37 37
  { y with credits := y.credits.put key (y.credits.get key 0 + flitF f 36 28) 0 }

/-- A flit out of order is dropped, and a NAK is owed once until a flit comes in order (R270). -/
def Port.missed (x : Port) : Port := { x with nakOwed := x.nakOwed || !x.nakSent }

/-- A lane and class of a port has room for a flit: Fabric.VlBufferFlits of them, and 2,048 on the port (R271). -/
def State.rxRoom (s : State) (x : Port) (key : Nat) : Bool :=
  decide (credited (x.rxData.get key []) < s.moduleSetting 0x6201 (key / 2 + 1) ∧ (x.rxData.map fun e => credited e.2).sum < 2048)

/-- R270. A flit arrives. A control flit of a lane and class is the stomp marker of the packet begun there (R285; DESIGN CHOICE,
assumption log 18). Its NAK bit acts through FLIT_NAK_REPLAY. A flit of the reserved FTYPE is dropped, and so is one that
its sender had no credit for (DESIGN CHOICE, assumption log 18). -/
def execFlitReceive (port : Nat) (r : ReceivedFlit) (s : State) : Res :=
  let f := r.flit
  let x := s.port port
  if x.st ≠ .up || f.data.length ≠ flitData then .next s
  else
    let s := (s.bump (0x8100 + port) 1 r.fec.corrected).bump (0x8100 + port) 2 r.fec.uncorrectable
    let seq := flitF f 77 66
    let ftype := flitF f 79 78
    let key := flitF f 52 50 * 2 + flitF f 49 49
    if flitCrc f.header f.data ≠ f.crc then
      .next (((s.setPort port { x with nakOwed := true }).bump (0x8100 + port) 3 1).drive port)
    else if ftype = 3 then .next s
    else if ftype = 1 then .next ((s.setPort port (if seq = x.rxSeq then x.heard s.now f else x.missed)).drive port)
    else if seq ≠ (x.rxSeq + 1) % 4096 || (ftype = 0 && !s.rxRoom x key) then .next ((s.setPort port x.missed).drive port)
    else
      let y := x.heard s.now f
      .next ((s.setPort port { y with
        rxSeq := seq
        nakOwed := false
        nakSent := false
        rxData := if ftype = 0 then y.rxData.put key (y.rxData.get key [] ++ [(flitF f 48 41, f.data)]) []
          else y.rxData.put key (y.rxData.get key [] ++ [(256, [])]) [] }).drive port)

/-- R270. A NAK with its ACK: the transmitter resends from ACK + 1; after 16 replays of one SEQ the port is down. -/
def execFlitNakReplay (port ack : Nat) (s : State) : Res :=
  let x := s.port port
  if x.st ≠ .up then .next s
  else
    let x := x.acked s.now ack
    if x.replay.isEmpty then .next ((s.setPort port x).drive port)
    else
      let s := ((s.setPort port { x with replays := x.replays + 1 }).bump (0x8100 + port) 4 1).bump (0x8100 + port) 7 x.replay.length
      .next (if 16 ≤ x.replays + 1 then s.portDown port .training else s)

/-- R270. 10 µs pass without any ACK progress. -/
def execAckProgressTimeout (port : Nat) (s : State) : Res :=
  let x := s.port port
  .next (if x.st = .up && !x.replay.isEmpty then s.portDown port .training else s)

/-! ## The switch (R273, R278 to R284, R337) -/

/-- The class of a packet at the output for a module: the second hop of an alternate route is on class 1, every other on class 0
(R283); `inPort` is the port it came from. -/
def State.classFor (s : State) (inPort : Option Nat) (m : Nat) : Nat :=
  match inPort with
  | none => 0
  | some i => b2n (some (s.port i).inDim = s.dimBetween s.moduleNumber m)

/-- A branch can take a packet now: its output has credit; where it has no route, a packet from another module waits in landing 0
(R278, R284, R286). -/
def State.canTake (s : State) (inPort : Option Nat) (b : Branch) : Bool :=
  match s.outPort b.dest with
  | some (q, _) => (s.port q).credits.get (b.copy.vl * 2 + s.classFor inPort b.dest) 0 ≠ 0
  | none => inPort.isSome && !s.landingWhole 0

/-- The branch takes it. -/
def State.toOutput (s : State) (inPort : Option Nat) (b : Branch) : State :=
  match s.outPort b.dest with
  | none => s.waitHere b.copy
  | some (q, _) =>
    let key := b.copy.vl * 2 + s.classFor inPort b.dest
    (s.setPort q { s.port q with wanted := (s.port q).wanted.filter (· ≠ key) }).enqueue q key b.copy.hop

/-- A branch that finds no credit at its output waits for it there (R271). -/
def State.noteWait (s : State) (inPort : Option Nat) (b : Branch) : State :=
  match s.outPort b.dest with
  | none => s
  | some (q, _) =>
    let key := b.copy.vl * 2 + s.classFor inPort b.dest
    if s.canTake inPort b || (s.port q).wanted.contains key then s
    else (s.setPort q { s.port q with wanted := (s.port q).wanted ++ [key] }).noteStall q

/-- The die whose landing takes a packet: that of its port. -/
def landDie : Option Nat → Nat
  | some i => i / 4
  | none => 0

/-- The landing can take a packet now: it has room for its frame, and the module is awake (R17, R440). -/
def State.landTakes (s : State) (inPort : Option Nat) (k : Packet) : Bool :=
  s.power.sleep = .awake && (!ptHasFrame k.ptype || !s.landingFull (s.endPart k) (landDie inPort))

/-- The landing takes it, on a lane of its partition (R279, R337). -/
def State.land (s : State) (inPort : Option Nat) (k : Packet) : State :=
  if !(s.lanes (s.endPart k)).contains k.vl then s.bump 0x8080 7 1
  else
    let l := s.landing (landDie inPort)
    s.setLanding (landDie inPort) { l with arrived := l.arrived ++ [k] }

/-- Drop and count a packet that fails a check of the switch (R273, R279, R283, R337); none where it passes. -/
def State.dropped (s : State) (inPort : Option Nat) (k : Packet) : Option State :=
  let far := (s.branches k).2
  if !k.hcheckOk || k.ptype = 0 || 8 < k.ptype || s.domainSize ≤ k.dstMod then some (s.bump 0x8080 4 1)
  else if inPort.isNone && k.srcMod = s.moduleNumber && !(s.lanes k.srcPart).contains k.vl then some (s.bump 0x8080 7 1)
  else if 7 ≤ k.hops + 1 && !far.isEmpty then
    let port := inPort.getD (((far.head?.bind fun b => s.outPort b.dest).map Prod.fst).getD 255)
    some ((s.bump 0x8080 5 1).raiseM 0x5207 port [port, k.dstMod])
  else none

/-- The branches of a packet that have not taken it, its landing among them as 255. -/
def State.openBranches (s : State) (input : Nat) (k : Packet) : Bool × List Branch :=
  let had := s.takenBy input k
  ((s.branches k).1 && !had.contains 255, (s.branches k).2.filter fun b => !had.contains b.code)

/-- The switch may begin to take a packet from an input: it drops it, or some branch can take it (R278). -/
def State.mayBegin (s : State) (input : Nat) (inPort : Option Nat) (k : Packet) : Bool :=
  let o := s.openBranches input k
  (s.dropped inPort k).isSome || o.2.any (s.canTake inPort) || (o.1 && s.landTakes inPort k) || (!o.1 && o.2.isEmpty)

/-- A packet of a new record ends the cuts of its source's earlier one (R260). -/
def State.endCuts (s : State) (k : Packet) : State :=
  let stale := fun (c : TreeCut) => k.tree && c.src = k.srcMod && c.xid = k.aux && c.group = k.mgroup && !c.holds k
  if s.fabric.cuts.any stale then { s with fabric := { s.fabric with cuts := s.fabric.cuts.filter fun c => !stale c } } else s

/-- Every branch that can take a packet does, each output as far as the packet is here (R278), the landing once it is whole; the
switch holds it until all have (R284). The answer says whether it is done. -/
def State.forward (s : State) (input : Nat) (inPort : Option Nat) (k : Packet) : State × Bool :=
  let s := s.endCuts k
  let name := if inPort.isSome then k.head else k
  let had := s.takenBy input name
  match if had.isEmpty then s.dropped inPort k else none with
  | some t => if k.whole then (t.setTaken input name [], true) else (s, false)
  | none =>
    let o := s.openBranches input name
    let withBody := fun (b : Branch) => { b with copy := { b.copy with body := k.body } }
    let go := (o.2.filter (s.canTake inPort)).map withBody
    let here := o.1 && k.whole && s.landTakes inPort k
    let done := k.whole && go.length = o.2.length && here = o.1
    let now := had ++ go.map Branch.code ++ (if here then [255] else [])
    let s := go.foldl (fun s b => s.toOutput inPort b) s
    let s := if here then s.land inPort k else s
    let s := o.2.foldl (fun s b => s.noteWait inPort b) s
    (s.setTaken input name (if done then [] else now), done)

/-- What an input holds after a change; flits that have become free are owed as credit (R271). -/
def State.setRx (s : State) (q key : Nat) (rx : Rx) (passing : List Byte) : State :=
  let x := s.port q
  let free := credited (x.rxData.get key []) - credited rx
  s.setPort q { x with
    rxData := x.rxData.put key rx []
    passing := x.passing.put key passing []
    owed := if x.st = .up then x.owed.put key (x.owed.get key 0 + free) 0 else x.owed }

/-- Take more of a packet that the switch has begun: what is new goes to the outputs that have it, and it goes to further ones
(R278). One that another packet's start, or a stomp marker, cuts short is discarded, and ended where a part of it has left (R285). -/
def State.passMore (s : State) (q key : Nat) (rx : Rx) (old : List Byte) (k : Packet) : State :=
  let n := packetLen k.n
  let got := if !old.isEmpty && old.length < n && startsHere rx then ([], rx) else pullRx (n - old.length) rx
  let bytes := old ++ got.1
  if bytes.length < n && startsHere got.2 then
    (((s.setRx q key got.2 []).stompOut k).setTaken (portInput q key) k []).bump 0x8080 3 1
  else
    let s := (s.setRx q key got.2 bytes).feedOut k (bytes.drop (Max.max 32 old.length))
    let f := s.forward (portInput q key) (some q) { k with body := bytes.drop 32 }
    if f.2 then f.1.setRx q key (alignRx got.2) [] else f.1

/-- Take the packet at the head of an input, cut-through once its route header has come (R278). While a copy of the same packet is
not whole at an output, this one waits for it. -/
def State.passPacket (s : State) (q key : Nat) : State :=
  let x := s.port q
  let old := x.passing.get key []
  if old.isEmpty then
    let rx := alignRx (x.rxData.get key [])
    let head := (pullRx 32 rx).1
    let k := headOf head
    if head.length < 32 || s.partlyOut k then s.setRx q key rx []
    else if !s.mayBegin (portInput q key) (some q) k then
      (s.openBranches (portInput q key) k).2.foldl (fun s b => s.noteWait (some q) b) (s.setRx q key rx [])
    else s.passMore q key rx [] k
  else s.passMore q key (x.rxData.get key []) old (headOf old)

/-- R278. The switch forwards one packet of an input. -/
def execPacketForward (src : PacketSource) (s : State) : Res :=
  if s.phase ≠ .running || s.power.powerFail then .next s
  else match src with
    | .port q vl cls => .next ((s.passPacket q (vl * 2 + b2n cls)).drive q)
    | .landing d =>
      let ready := (s.landing d).leaving.filter Packet.whole
      match ready.find? (s.mayBegin (landingInput d) none) with
      | none => .next (ready.foldl (fun s k => (s.openBranches (landingInput d) k).2.foldl (fun s b => s.noteWait none b) s) s)
      | some k =>
        let f := s.forward (landingInput d) none k
        .next (if f.2 then let l := f.1.landing d; f.1.setLanding d { l with leaving := l.leaving.erase k } else f.1)

/-! ## Packets at their landing (R274 to R277) -/

/-- Take an arrived packet of a type. The answer says whether its PSN is new; an old one is dropped and counted (R277). -/
def State.receive (s : State) (d : Nat) (k : Packet) (ptype : Nat) : Option (State × PsnIs) :=
  if k.ptype ≠ ptype || !s.working then none
  else match s.takeArrived d k with
    | none => none
    | some s =>
      let w := s.psnIs k
      some (if w = .fresh then s else s.bump 0x8080 1 1, w)

/-- Answer a packet. -/
def State.answer (s : State) (k : Packet) (ptype kind : Nat) (body : List Byte) : State :=
  let p := k.dstPart
  let vl := s.laneOf p k.prio
  let (s, psn) := s.takePsn p vl
  s.send (mkPacket s.moduleNumber p
    { dstMod := k.srcMod, dstPart := k.srcPart, ptype := ptype, vl := vl, prio := k.prio, psn := psn, addr := k.addr, aux := k.psn,
      kind := kind } body)

/-- A frame that fails its checks on arrival is discarded and counted (R127). -/
def State.badArrival (s : State) (p : Nat) : State := s.bumpP p 0x8040 8 1

/-- The lake parts of a peer's access, or the KIND of the answer (R274). KIND 1 in a request names a place in the lend region
(R183; DESIGN CHOICE, assumption log 129). -/
def State.peerRange (s : State) (k : Packet) (write : Bool) : Except Nat (List (Target × Nat)) :=
  let p := k.dstPart
  let lent := lendParts (s.lendRegion p) k.addr frameBytes
  if (s.partn p).st = .none || s.peerPartition p k.srcMod ≠ some k.srcPart then .error 3
  else if k.kind = 1 then (if (lent.map Prod.snd).sum = frameBytes then .ok lent else .error 3)
  else match s.translateRange p k.addr frameBytes { write := write } with
    | .error f => .error f.kind
    | .ok l => if l.all fun e => match e.1 with | .lake _ => true | _ => false then .ok l else .error 3

/-- R276. WRITE at its destination. -/
def execFabricWrite (die : Nat) (pk : Packet) (s : State) : Res :=
  match s.receive die pk ptWrite with
  | none => .next s
  | some (s, .old) => .next s
  | some (s, .duplicate) => .next (s.answer pk ptAck 0 [])
  | some (s, .fresh) =>
    if !frameCheckOk pk.body then .next (s.badArrival pk.dstPart)
    else match s.peerRange pk true with
      | .error kind => .next (s.answer pk ptNak kind [])
      | .ok l => .next (((s.writeParts l pk.body).enterPsn pk).answer pk ptAck 0 [])

/-- A fetch of exchange traffic (R252, R260): the frame that the record still holds is sent again by unicast; a tile that was not
sent yet goes to the member with its turn. -/
def State.serveFetch (s : State) (k : Packet) : State :=
  let p := k.dstPart
  match (s.partn p).xidAt k.aux with
  | none => s
  | some x =>
    match (s.partn p).xruns[x]? with
    | none => s
    | some r =>
      let index := k.addr / 64
      match r.unacked.find? fun u => u.peer = k.srcMod && u.index = index with
      | none => if r.kind = xkReduceScatter || s.allSent p r then s
        else s.onX p x fun r => { r with fetches := r.fetches ++ [(k.srcMod, index)] }
      | some u => s.resendX p x u

/-- What a READ_REQ reads: a frame of an object's current version (KIND 2, with the OBJECT in AUX and the frame's offset in
ADDR; R179, R183, assumption log 129), or the lake. -/
def State.readFor (s : State) (k : Packet) : Except (Nat ⊕ Nat) (List Byte) :=
  if k.kind = 2 then
    if s.peerPartition k.dstPart k.srcMod ≠ some k.srcPart then .error (.inl 3)
    else match ((s.partn k.dstPart).objects.get k.aux {}).frames[k.addr / frameBytes]? with
      | some f => .ok f
      | none => .error (.inl 1)
  else match s.peerRange k false with
    | .error kind => .error (.inl kind)
    | .ok l => match s.badPart l with
      | some pa => .error (.inr pa)
      | none => .ok (s.partBytes l)

/-- R274. READ_REQ at the peer: READ_DATA, or NAK_FAULT. A lake read that is uncorrectable is not answered, so the sender's
timeout of R276 applies (DEDUCED, assumption log 30). The answer waits for room in its landing (R17). -/
def execReadReq (die : Nat) (pk : Packet) (s : State) : Res :=
  if s.landingFull pk.dstPart (s.dieFor pk.srcMod) then .next s
  else match s.receive die pk ptReadReq with
  | none => .next s
  | some (s, .old) => .next s
  | some (s, w) =>
    let entered := if w = .fresh then s.enterPsn pk else s
    if pk.addr % 64 = 1 && pk.kind = 0 then .next (entered.serveFetch pk)
    else match s.readFor pk with
      | .error (.inl kind) => .next (s.answer pk ptNak kind [])
      | .error (.inr pa) => .next (s.lakeUncorrectable pk.dstPart pa)
      | .ok f => .next (entered.answer pk ptReadData 0 f)

/-- The unanswered access that a packet answers, on its own lane or on any (assumption log 130). -/
def State.remoteOn (s : State) (k : Packet) (lane : Bool) : Option Remote :=
  s.fabric.remotes.find? fun r => r.p = k.dstPart && r.psn = k.aux && r.packet.dstMod = k.srcMod && (!lane || r.vl = k.vl) &&
    (k.ptype = ptNak || r.write = decide (k.ptype = ptAck))

def State.remoteOf (s : State) (k : Packet) : Option Remote :=
  match s.remoteOn k true with
  | some r => some r
  | none => s.remoteOn k false

def State.dropRemote (s : State) (r : Remote) : State :=
  { s with fabric := { s.fabric with remotes := s.fabric.remotes.erase r } }

def State.setRemote (s : State) (r r' : Remote) : State :=
  { s with fabric := { s.fabric with remotes := s.fabric.remotes.map fun e => if e = r then r' else e } }

/-- Send a request again, with the PSN it has (R126, R276). -/
def State.sendAgain (s : State) (r r' : Remote) : State := (s.setRemote r r').send r.packet

/-- The descriptor that waits for an access: for a tile in flight, or for a tile that a detached member fetches. -/
def State.descOf (s : State) (r : Remote) : Option Desc :=
  (s.queue r.mover).find? fun d => match r.member with
    | none => d.flights.any fun f => f.tile = r.tile && f.psn = some r.psn
    | some k => match d.stair[k]? with
      | some x => x.fetching && x.delivered = r.tile
      | none => false

/-- The mover named by the reads of an IMPORT mode 2; no I/O die has that number. -/
def loadMover : MoverRef := .command 8 0

def State.onLoads (s : State) (p : Nat) (f : List ShardLoad → List ShardLoad) : State :=
  s.onPartn p fun x => { x with loads := f x.loads }

/-- An IMPORT mode 2 no longer reads from a peer. -/
def State.dropLoad (s : State) (p w q : Nat) : State :=
  let s := s.onLoads p fun l => l.filter fun e => !(e.s = w && e.q = q)
  { s with fabric := { s.fabric with remotes := s.fabric.remotes.filter fun r =>
    !(r.p = p && match r.load with
      | some (a, b, _) => a = w && b = q
      | none => false) } }

/-- A failed check or a lost route ends it (R451). -/
def State.failLoad (s : State) (p w q : Nat) : State :=
  match (s.partn p).loads.find? fun e => e.s = w && e.q = q with
  | none => s.dropLoad p w q
  | some e => (s.dropLoad p w q).complete p w q (.fault cauVerify e.recIdx)

/-- What it read arrives (R126, R451): a frame that fails its CHECK is read once more. -/
def State.loadArrived (s : State) (r : Remote) (w q : Nat) (framed : Bool) (body : List Byte) : State :=
  if body.length ≠ frameBytes || (framed && !frameCheckOk body) then
    let s := s.badArrival r.p
    if r.reread then s.failLoad r.p w q
    else (s.bumpP r.p 0x8040 5 1).sendAgain r { r with reread := true, since := s.now }
  else (s.dropRemote r).onLoads r.p fun l => l.map fun e =>
    if e.s = w && e.q = q then { e with got := e.got.put r.tile body [] } else e

/-- A peer's tile arrives for a descriptor: at its destination, or at the detached member that fetched it. -/
def State.tileArrived (s : State) (r : Remote) (d : Desc) (f : List Byte) : State :=
  match r.member with
  | none => s.placeTile r.mover d r.tile f
  | some k => match d.stair[k]? with
    | none => s
    | some x => s.memberFetched r.mover d k x r.tile f

/-- A frame that failed its checks is asked for once more, and a second failure stops the descriptor there (R126, R127). -/
def State.tileBad (s : State) (r : Remote) (d : Desc) : State :=
  let s := s.badArrival r.p
  if r.reread then (s.dropRemote r).stopDesc r.mover d r.tile (.fail spCheck)
  else (s.bumpP r.p 0x8040 5 1).sendAgain r { r with reread := true, since := s.now }

/-- R276. READ_DATA: the frame is checked in the landing and written at the local destination (R127). -/
def execReadData (die : Nat) (pk : Packet) (s : State) : Res :=
  match s.receive die pk ptReadData with
  | none => .next s
  | some (s, .old) => .next s
  | some (s, .duplicate) => .next s
  | some (s, .fresh) =>
    let s := s.enterPsn pk
    match s.remoteOf pk with
    | none => .next s
    | some r =>
      match r.load with
      | some (w, q, framed) => .next (s.loadArrived r w q framed pk.body)
      | none =>
      match s.descOf r with
      | none => .next (s.dropRemote r)
      | some d =>
        if frameCheckOk pk.body && frameFits d pk.body then .next ((s.dropRemote r).tileArrived r d pk.body)
        else .next (s.tileBad r d)

/-- A WRITE is delivered. -/
def State.writeDelivered (s : State) (r : Remote) : State :=
  let s := s.dropRemote r
  match s.descOf r with
  | none => s
  | some d => s.changeDesc r.mover d (d.fly r.tile true none none)

/-- The frames that an ACK acknowledges for records (R257), on its own lane or on any. -/
def ackedFrame (lane : Bool) (k : Packet) (u : XSent) : Bool :=
  u.peer = k.srcMod && u.psn = k.aux && (!lane || u.vl = k.vl)

def State.ackX (s : State) (k : Packet) (lane : Bool) : State :=
  (s.onPartn k.dstPart fun x => { x with
    xruns := x.xruns.map fun r => { r with unacked := r.unacked.filter fun u => !ackedFrame lane k u } }).notePeers k.dstPart

/-- R276. ACK: a WRITE is delivered, or a frame of a record is acknowledged (R257). -/
def execFabricAck (die : Nat) (pk : Packet) (s : State) : Res :=
  match s.receive die pk ptAck with
  | none => .next s
  | some (s, .old) => .next s
  | some (s, .duplicate) => .next s
  | some (s, .fresh) =>
    let s := s.enterPsn pk
    let exchange := (s.partn pk.dstPart).xruns.any fun r => r.unacked.any (ackedFrame true pk)
    match if exchange then s.remoteOn pk true else s.remoteOf pk with
    | some r => .next (s.writeDelivered r)
    | none => .next (s.ackX pk exchange)

/-! ## Exchange traffic at its landing (R252, R254, R256, R259) -/

/-- A frame that carries the version of its record has this record's (R256): an exchange frame, and a reduced tile that is
gathered. -/
def XRun.sameVersion (r : XRun) (k : Packet) : Bool :=
  let h := frameHeader k.body
  let carries := (k.ptype = ptXframe && h.fmt = 7) || (k.ptype = ptMcast && r.kind = xkAllReduce)
  !carries || !frameCheckOk k.body || h.version = r.version.toNat

/-- The record that an exchange packet belongs to, started and not ended (R256). -/
def State.recordOf (s : State) (k : Packet) (p : Nat) : Option (Nat × XRun) :=
  match (s.partn p).xruns.findIdx? fun r => r.xid = k.aux && r.started && !r.ended && r.sameVersion k with
  | none => none
  | some x => ((s.partn p).xruns[x]?).map fun r => (x, r)

/-- A frame fails its checks: it is requested once more, and a second failure ends the record (R252). -/
def State.badFrame (s : State) (p x : Nat) (r : XRun) (peer index : Nat) : State :=
  let s := s.badArrival p
  if r.retried.contains (peer, index) then s.endPeer p x cauFrameCheck peer none
  else (s.onX p x fun r => { r with retried := r.retried ++ [(peer, index)] }).fetchX p r peer index

/-- Members of a record disagree (R256). -/
def State.disagree (s : State) (p x peer : Nat) : State := s.endPeer p x cauMismatch peer (some 0x5104)

/-- The origin of this member's own source tile i, if it can be read. -/
def State.srcOrigin (s : State) (p : Nat) (r : XRun) (i : Nat) : Option (List Nat) :=
  match s.vread p (r.srcAddr + i * frameBytes) 64 with
  | .ok b => some (frameHeader b).origin
  | _ => none

/-- The origin that a tile has for its index (R252): in a reduction that of the member's own source tile, which its reduced tile
keeps (R253). No rule gives the origins that a plain gather expects: they are free values (assumption log 131). -/
def State.expectedOrigin (s : State) (p : Nat) (r : XRun) (gathered : Bool) (index : Nat) : Option (List Nat) :=
  if !r.reduces then some (Config.gatherOrigin r.raw index)
  else if !gathered then s.srcOrigin p r index
  else
    let n := s.ranks p r
    let k := s.rankOf p r (s.sourceOf p r index)
    let lo := r.shardLo n k
    if (s.srcOrigin p r lo).isNone then none
    else some (dstOrigin r.fs r.dstFmt (r.shardLen n k) (index - lo) fun i => (s.srcOrigin p r (lo + i)).getD [])

/-- What a frame of a reduction shows against the record (R256). -/
inductive FrameIs where
  | good (parts : List Contribution)
  | bad
  | mismatch
deriving DecidableEq, Repr

/-- Check an exchange frame (R252, R256) and take its blocks apart (R253). `origin` is the one expected of a tile. -/
def XRun.judge (r : XRun) (origin : Option (List Nat)) (ranks me rank index : Nat) (f : List Byte) : FrameIs :=
  let h := frameHeader f
  if !frameCheckOk f || h.tensor ≠ r.srcTensor then .bad
  else if (h.fmt = 7) = (r.mode = xmNone) then .mismatch
  else if r.mode = xmNone then
    if r.nt ≤ index || r.ownerOf ranks index ≠ me || h.fmt ≠ r.fs || origin.any (· ≠ h.origin) then .bad
    else
      let els := r.els (tensorScale r.tScale) f
      .good ((pieces 1024 (els.length / 1024) els).zipIdx.map fun b =>
        { block := index * blocksPerTile r.fs + b.2, rank := rank, vals := b.1.map fun e => toF32 e.g,
          sats := b.1.map fun e => e.sat })
  else if h.origin3 ≠ r.xid || h.origin2 ≠ rank || h.version ≠ r.version.toNat then .bad
  else
    let per := blocksPerTile r.fs
    let lo := r.shardLo ranks me * per
    let hi := r.shardLo ranks (me + 1) * per
    if h.origin0 < lo || hi < h.origin0 + h.origin1 || h.origin1 = 0 then .bad
    else match r.decodeAll (framePayload f) h.origin1 with
      | none => .mismatch
      | some bs => .good (bs.zipIdx.map fun b =>
        { block := h.origin0 + b.2, rank := rank, vals := b.1.map fun e => toF32 e.1, sats := b.1.map fun e => e.2 })

/-- A contribution that is new to a record: not held, and not yet added. -/
def XRun.lacks (r : XRun) (c : Contribution) : Bool :=
  let tile := c.block / blocksPerTile r.fs
  !r.parts.any (fun e => e.block = c.block && e.rank = c.rank) && (r.outD.find tile).isNone &&
    !r.sums.any (fun e => e.tile = tile && decide (c.rank < e.nextRank))

/-- An exchange frame or tile of a reduction is checked and its contributions are held. -/
def State.takeXframe (s : State) (p x : Nat) (r : XRun) (pk : Packet) : State :=
  if !r.reduces || !(s.groupMembers p r.group).contains pk.srcMod then s.disagree p x pk.srcMod
  else match r.judge (s.expectedOrigin p r false pk.addr) (s.ranks p r) (s.myRank p r) (s.rankOf p r pk.srcMod) pk.addr pk.body with
    | .bad => s.badFrame p x r pk.srcMod pk.addr
    | .mismatch => s.disagree p x pk.srcMod
    | .good parts =>
      let s := s.onX p x fun r => { r with parts := r.parts ++ parts.filter r.lacks }
      (s.enterPsn pk).answer pk ptAck 0 []

/-- R252. An exchange frame at the owner's landing. A frame of a record that has not started here waits in the landing; a
duplicate is dropped (R277). -/
def execXframe (die : Nat) (pk : Packet) (s : State) : Res :=
  match s.receive die pk ptXframe, s.recordOf pk pk.dstPart with
  | none, _ => .next s
  | some (_, .fresh), none => .next s
  | some (s, .fresh), some (x, r) => .next ((s.takeXframe pk.dstPart x r pk).notePeers pk.dstPart)
  | some (s, _), _ => .next s

/-- A gathered tile is checked and written. -/
def State.takeMcast (s : State) (p x : Nat) (r : XRun) (pk : Packet) : State :=
  let ack := fun (s : State) => s.answer { pk with route := BitVec.ofNat 256 (pk.n - fld pk.dstPart 242 + fld (p % 4) 242) } ptAck 0 []
  let tensor := if r.kind = xkAllReduce then r.dstTensor else r.srcTensor
  let h := frameHeader pk.body
  if r.kind = xkReduceScatter || (pk.tree && pk.mgroup ≠ r.group) || !(s.groupMembers p r.group).contains pk.srcMod then
    s.disagree p x pk.srcMod
  else if !(s.xWanted p r).contains pk.addr then s.badFrame p x r pk.srcMod pk.addr
  else if s.sourceOf p r pk.addr ≠ pk.srcMod then s.disagree p x pk.srcMod
  else if !frameCheckOk pk.body || h.tensor ≠ tensor || (s.expectedOrigin p r true pk.addr).any (· ≠ h.origin) then
    s.badFrame p x r pk.srcMod pk.addr
  else if r.written.contains pk.addr then ack (s.enterPsn pk)
  else ack ((s.enterPsn pk).putTile p x pk.addr (s.rankOf p r pk.srcMod) pk.body)

/-- R254. A multicast tile is checked and written at its position in DST_ADDR. -/
def execMcast (die : Nat) (pk : Packet) (s : State) : Res :=
  let p := s.endPart pk
  match s.receive die pk ptMcast, s.recordOf pk p with
  | none, _ => .next s
  | some (_, .fresh), none => .next s
  | some (s, .fresh), some (x, r) => .next ((s.takeMcast p x r pk).notePeers p)
  | some (s, _), _ => .next s

/-- A peer has cancelled a record (R259). -/
def State.cancelled (s : State) (p xid peer : Nat) : State :=
  match (s.partn p).xidAt xid with
  | none => s
  | some x => match (s.partn p).xruns[x]? with
    | none => s
    | some r => if r.complete then s else s.endPeer p x cauPeerCancelled peer (some 0x5103)

/-- R259. A peer's cancel ends the record. -/
def execFabricCancel (die : Nat) (pk : Packet) (s : State) : Res :=
  match s.receive die pk ptCancel with
  | none => .next s
  | some (s, .old) => .next s
  | some (s, .duplicate) => .next s
  | some (s, .fresh) => .next (((s.enterPsn pk).cancelled pk.dstPart pk.aux pk.srcMod).notePeers pk.dstPart)

/-! ## Detachment from a tree (R260, R284) -/

/-- The packets that stand at the inputs of the switch: with the number of the input, its port, and, for a port, the head without
the body. -/
def State.heads (s : State) : List (Nat × Option Nat × Packet) :=
  (s.fabric.ports.flatMap fun e => (List.range 16).filterMap fun key =>
    let old := e.2.passing.get key []
    let head := if old.isEmpty then (pullRx 32 (alignRx (e.2.rxData.get key []))).1 else old.take 32
    if head.length < 32 then none else some (portInput e.1 key, some e.1, headOf head)) ++
  s.fabric.landings.flatMap fun e => (e.2.leaving.filter Packet.whole).map fun k => (landingInput e.1, none, k)

/-- The one branch that has not taken a packet cannot take it: the module whose route it takes, and the copy; this module's landing
where no copy is named. -/
def State.blocking (s : State) (e : Nat × Option Nat × Packet) : Option (Option Branch) :=
  match s.openBranches e.1 e.2.2 with
  | (true, []) => if s.landTakes e.2.1 e.2.2 then none else some none
  | (false, [b]) => if s.canTake e.2.1 b then none else some (some b)
  | _ => none

/-- A frame of a tree is held for a member alone, which blocks the tree (R260). -/
def State.heldFor (s : State) (e : Nat × Option Nat × Packet) (m : Nat) : Bool :=
  e.2.2.tree && match s.blocking e with
    | none => false
    | some none => m = s.moduleNumber
    | some (some b) => if b.copy.tree then (s.beyond e.2.2 b.dest).contains m else b.dest = m

/-- A member blocks a record's tree: a frame is held for the branch that it lies beyond, after every other branch has taken
it. -/
def State.blocksTree (s : State) (r : XRun) (m : Nat) : Bool :=
  s.heads.any fun e => e.2.2.aux = r.xid && e.2.2.mgroup = r.group && s.heldFor e m

/-- The frames of a record that outputs hold for a member alone are discarded. -/
def State.dropHeld (s : State) (xid m : Nat) : State :=
  let only := fun (peer : Nat) (k : Packet) => k.ptype = ptMcast && k.aux = xid &&
    (if k.tree then s.beyond k peer = [m] else k.dstMod = m)
  { s with fabric := { s.fabric with ports := s.fabric.ports.map fun e => (e.1, { e.2 with
      output := (e.2.output.map fun l => (l.1, l.2.filter fun k => !only e.2.peerModule k)).filter fun l => l.2 ≠ [] }) } }

/-- A switch through which a tree leads, without a record of it here, detaches a member that blocks an XID (R284): the frames held
for it are discarded, and the tree leaves it out for the rest of the record. -/
def State.cutMember (s : State) (xid member : Nat) : State :=
  match s.heads.find? fun e => e.2.2.aux = xid && s.heldFor e member with
  | none => s
  | some e =>
    let k := e.2.2
    let c : TreeCut := { src := k.srcMod, xid := xid, group := k.mgroup, member := member, addr := k.addr, psn := k.psn }
    let s := s.dropHeld xid member
    { s with fabric := { s.fabric with cuts := s.fabric.cuts ++ [c] } }

/-- R260. A member that blocks the tree is detached: the frames that this switch holds for it are discarded, and the tree leaves
it out. If this module is the member, whichever switch has detached it, its engine fetches every tile that it has not written
(assumption log 28). In a module without a record of the tree, p is no partition and x the XID (assumption log 119). -/
def execMulticastDetach (p x member : Nat) (s : State) : Res :=
  if 4 ≤ p then
    if !s.working || member = s.moduleNumber || !(s.heads.any fun e => e.2.2.aux = x && s.heldFor e member) then .next s
    else .next ((s.cutMember x member).raiseM 0x5101 255 [x, member])
  else
  match (s.partn p).xruns[x]? with
  | none => .next s
  | some r =>
    if r.kind = xkReduceScatter || !r.live || r.detached.contains member || !(s.groupMembers p r.group).contains member || !s.working ||
        !(member = s.moduleNumber || s.blocksTree r member) then .next s
    else
      let s := (s.dropHeld r.xid member).onX p x fun r => { r with detached := r.detached ++ [member] }
      let s := (s.bumpP p 0x80A0 6 1).raiseP 0x5101 p [r.xid, r.version.toNat, r.group, member]
      if member = s.moduleNumber then
        let missing := (s.xWanted p r).filter fun i => !r.written.contains i && s.sourceOf p r i ≠ member
        .next (missing.foldl (fun s i => s.fetchX p r (s.sourceOf p r i) i) s)
      else .next s

/-! ## Faults and timeouts of remote accesses (R275, R276) -/

/-- A descriptor whose detached member no longer waits for a peer. -/
def Desc.unfetch (d : Desc) (r : Remote) : Desc :=
  match r.member with
  | none => d
  | some k => { d with stair := d.stair.modify k fun x => { x with fetching := false } }

/-- An access ends without its tile: `act` says what becomes of the descriptor, if it still waits. -/
def State.remoteEnds (s : State) (r : Remote) (act : Desc → State → State) : State :=
  let s := s.dropRemote r
  match r.load with
  | some (w, q, _) => s.failLoad r.p w q
  | none =>
    match s.descOf r with
    | none => s
    | some d => act (d.unfetch r) (s.changeDesc r.mover d (d.unfetch r))

/-- R275. NAK_FAULT parks the issuing descriptor; the record carries the issuing partition's own address. -/
def execNakFault (die : Nat) (pk : Packet) (s : State) : Res :=
  match s.receive die pk ptNak with
  | none => .next s
  | some (s, .old) => .next s
  | some (s, .duplicate) => .next s
  | some (s, .fresh) =>
    let s := s.enterPsn pk
    match s.remoteOf pk with
    | none => .next s
    | some r => .next (s.remoteEnds r fun d s =>
      s.faultDesc r.mover d r.tile r.write { kind := pk.kind, addr := if r.write then d.dst r.tile else d.src r.tile })

/-- Copies of a request that wait at their source do not leave any more (R286). -/
def State.recall (s : State) (r : Remote) : State :=
  { s with fabric := { s.fabric with landings := s.fabric.landings.map fun e =>
      (e.1, { e.2 with leaving := e.2.leaving.filter fun k => k ≠ r.packet }) } }

/-- R276. No answer within Fabric.PacketTimeout: the request is sent once more; the second timeout stops the descriptor. -/
def execPacketTimeout (p : Nat) (l : LanePsn) (s : State) : Res :=
  match s.fabric.remotes.find? fun r => r.p = p && r.vl = l.vl && r.psn = l.psn with
  | none => .next s
  | some r =>
    let s := s.bump 0x8080 6 1
    if r.attempts < 2 then .next (s.sendAgain r { r with attempts := 2, since := s.now })
    else
      let port := ((s.outPort r.packet.dstMod).map Prod.fst).getD 255
      let s := (s.recall r).raise 0x5206 p port [port, r.packet.dstMod]
      .next (s.remoteEnds r fun d s => s.stopDesc r.mover d r.tile (.fail spPeer))

/-! ## Links (R268, R282, R285, R287, R463) -/

/-- R285. A lane has lost signal or FEC lock for 1 µs. -/
def execLaneSignalLoss (port lane : Nat) (s : State) : Res :=
  .next (if (s.port port).lanes.getLsbD lane then s.portDown port .training else s)

/-- The lanes of the widest width whose lanes all passed (R268). -/
def widestLanes (l : BitVec 4) : BitVec 4 :=
  if l = 15 then 15 else if l &&& 3 = 3 then 3 else if l &&& 12 = 12 then 12
  else if l.getLsbD 0 then 1 else if l.getLsbD 1 then 2 else if l.getLsbD 2 then 4 else if l.getLsbD 3 then 8 else 0

def laneCount (l : BitVec 4) : Nat := ((List.range 4).filter fun i => l.getLsbD i).length

/-- The identity check of R282: the dimension of the link. -/
def State.linkDim (s : State) (r : TrainResult) : Option Nat :=
  let me := s.moduleNumber
  if s.domainSize ≤ me || s.domainSize ≤ r.peerModule || r.peerExtents.toNat ≠ s.moduleSetting 0x6000 2 then none
  else
    let a := coords s.extents me
    let b := coords s.extents r.peerModule
    match (List.range 3).filter fun d => a.getD d 0 ≠ b.getD d 0 with
    | [d] => some d
    | _ => none

/-- The port's die has its fabric domain on (R425, R426), and SLEEP leaves it on (R439). -/
def State.fabricOn (s : State) (q : Nat) : Bool :=
  s.domOn (80 + 3 * (q / 4)) && (s.power.sleep = .awake || s.moduleSetting 0x7020 3 = 1)

/-- R287. Training ends: identity checked, credits granted, the port is UP. -/
def execLinkTrainingComplete (port : Nat) (r : TrainResult) (s : State) : Res :=
  let x := s.port port
  let lanes := widestLanes r.lanes
  if s.part.ports ≤ port || x.st = .up || x.st = .heldDown || !s.portEnabled port || x.shorted || lanes = 0 || !s.linkServing port ||
      !s.fabricOn port || s.phase = .off || s.phase = .faulted || s.phase = .recovery then .next s
  else match s.linkDim r with
    | none => .next ((s.setPort port { x with st := .heldDown }).raiseM 0x5204 port [port, r.peerModule])
    | some d =>
      let credits := (List.range 16).map fun k => (k, r.credits.getD k 0)
      let y : Port := { x with st := .up, lanes := lanes, peerModule := r.peerModule, peerPort := r.peerPort, dimension := d, inDim := d,
                               txSeq := 4095, replay := [], sent := [], lastAck := 4095, ackAt := s.now, replays := 0, rxSeq := 4095,
                               nakOwed := false, nakSent := false, lastTold := 4095, owed := [], idle := none, sending := [], stomps := [],
                               credits := credits.filter fun e => e.2 ≠ 0 }
      let s := { s with fabric := { s.fabric with farDown := r.down } }
      let s := (s.setPort port y).raiseM 0x5202 port [port, r.peerModule, laneCount lanes]
      let s := if laneCount lanes < 4 then (s.raiseM 0x5203 port [port, r.peerModule, laneCount lanes]).bump (0x8100 + port) 6 1 else s
      .next ((s.noteRoutes port).drive port)

/-- R463. CBL_PRSNT_N changes: cable power follows it. -/
def execCablePresenceChange (port : Nat) (present : Bool) (s : State) : Res :=
  if s.part.ports ≤ port then .next s
  else
    let x := s.port port
    .next (s.setPort port { x with cable := present, shorted := present && x.shorted })

/-- R463. A short on a cable-power contact: the contact is off and the port reports DOWN. -/
def execCablePowerShort (port : Nat) (s : State) : Res :=
  let x := s.port port
  if s.part.ports ≤ port || !x.cable then .next s
  else
    let s := s.portDown port .down
    .next (s.setPort port { s.port port with shorted := true, st := .down })

/-- Whether a port's cable power is on (R463). -/
def Port.cablePower (x : Port) : Bool := x.cable && !x.shorted

/-- A write of a module-wide value; the default is not listed. -/
def State.setValue (s : State) (key : Nat) (v : List Byte) : State :=
  { s with mgmt := { s.mgmt with values := s.mgmt.values.put key v (objDefault s.part key) } }

/-- A port starts to train; with its cable-power contact shorted it stays DOWN (R463). -/
def Port.train (x : Port) : Port := { x with st := if x.shorted then .down else .training }

/-- Bits that the four lanes of a link test carry in a time (R267, R455). -/
def testBitsIn (micros : Nat) : Nat := micros * 896000

/-- A link test ends (R455): its bits and bit errors are added to the port's counters (R456), and the event carries those of the
test. -/
def State.endLinkTest (s : State) (q bits errors : Nat) : State :=
  let x := s.port q
  (s.setPort q { x with testSince := none, testBits := x.testBits + bits, testErrors := x.testErrors + errors }).raiseM 0x1705 q
    [q, bits, errors]

/-- A link test that Port.Enable ends at once: the bits so far, and errors among them, whose number is a free value (assumption log
139). -/
def State.cutLinkTest (s : State) (q : Nat) : State :=
  match (s.port q).testSince with
  | none => s
  | some t =>
    let n := testBitsIn (s.now - t)
    s.fresh.endLinkTest q n ((Config.value64 s.freeUsed).toNat % (n + 1))

/-- R285. Port.Enable written 1: training starts, and a link test ends. -/
def State.enablePort (s : State) (q : Nat) : State :=
  if s.part.ports ≤ q then s
  else
    let s := (s.setValue (okey (0x6100 + q) 1) [1]).cutLinkTest q
    let x := s.port q
    if x.st = .up then s else s.setPort q { x.train with downTimes := [] }

/-- R285. Port.Enable written 0. -/
def State.disablePort (s : State) (q : Nat) : State :=
  if s.part.ports ≤ q then s
  else
    let s := (s.setValue (okey (0x6100 + q) 1) [0]).portDown q .down
    s.setPort q { s.port q with st := .down }

def execPortEnable (port : Nat) (s : State) : Res := .next (if s.phase = .running then s.enablePort port else s)

def execPortDisable (port : Nat) (s : State) : Res := .next (if s.phase = .running then s.disablePort port else s)

/-! ## Link tests (R455) -/

/-- R455. Diag.LinkTestStart on a disabled port. -/
def State.startLinkTest (s : State) (q : Nat) : State :=
  let x := s.port q
  if s.part.ports ≤ q || s.portEnabled q || x.testSince.isSome then s
  else s.setPort q { x with testSince := some s.now }

def execLinkTestStart (port : Nat) (s : State) : Res := .next (if s.phase = .running then s.startLinkTest port else s)

/-- R455. The test ends after Diag.LinkTestSeconds; the event carries bits and bit errors, whose quotient is the ratio. -/
def execLinkTestEnd (port bits errors : Nat) (s : State) : Res :=
  let x := s.port port
  if x.testSince.isNone then .next s else .next (s.endLinkTest port bits errors)

end Sys2Proof.Machine
end

