-- ==== Sys2Proof/Machine/Segments.lean ====
section
/-! DEFINITION. Segments: RUN and its checks (R22, R80, R187, R230, R241, R261, R308), launch (R305), end (R131), the stop of a halted or
aborted segment (R110, R317), the restart of a layer (R202 to R205) and the watch's periods outside steps (R191). -/

namespace Sys2Proof.Machine

/-! ## Parts of a segment -/

/-- Where a descriptor of a segment is: each spring of its cores. -/
def State.segMovers (s : State) (g : Segment) : List MoverRef :=
  g.cores.flatMap fun c => (s.core c).springs.map fun e => MoverRef.spring c e.1

/-- Global core number of a core that an image counts within its partition. -/
def State.globalCore (s : State) (p n : Nat) : Nat := (s.halls p).getD (n / coresPerHall) 0 * coresPerHall + n % coresPerHall

/-- The cores of a variant. -/
def State.variantCores (s : State) (p : Nat) (v : Variant) : List Nat := v.cores.map fun k => s.globalCore p k.core

/-- The halls that cores lie in. -/
def coreHalls (l : List Nat) : List Nat := (l.map hallOf).eraseDups

/-- Every engine queue of the segment is empty and no tile of it is in flight: its cores have stopped (R110, R202). -/
def State.stoppedCores (s : State) (g : Segment) : Bool :=
  g.cores.all fun c =>
    let k := s.core c
    k.matQ.isEmpty && k.vecQ.isEmpty && k.tileQ.isEmpty && k.springs.all fun e => e.2.all fun d => d.flights.isEmpty

/-- Every thread is IDLE or HALTED, and every queue is empty (R131; the engine queues too, DEDUCED, assumption log 31). -/
def State.finishedCores (s : State) (g : Segment) : Bool :=
  g.cores.all fun c =>
    let k := s.core c
    k.matQ.isEmpty && k.vecQ.isEmpty && k.tileQ.isEmpty && (k.springs.all fun e => e.2.isEmpty) &&
      k.threads.all fun e => e.2.st = .idle || e.2.st = .halted

/-- End every descriptor of a segment without a fault response (R147, R202). -/
def State.dropDescs (s : State) (g : Segment) : State :=
  (s.segMovers g).foldl (fun s m => (s.queue m).foldl (fun s d => s.descGone m d) s) s

/-- A core as a segment start leaves it: its threads as named, accumulators clear, tile tags 0 (R80, R85, R95). The thread that
issued last stays known (R82). -/
def Core.restart (k : Core) (threads : Table Thread) : Core :=
  { k with
    threads := threads
    tiles := (k.tiles.map fun e => (e.1, { payload := e.2.payload, sidecar := e.2.sidecar : TileReg })).filter fun e => e.2 ≠ {}
    accs := []
    matQ := []
    vecQ := []
    tileQ := []
    springs := []
    latch := false }

/-- Threads that start at word indices. -/
def startThreads (entries : List (Nat × Nat)) : Table Thread :=
  entries.foldl (fun t e => Table.put t (e.1 % 8) { st := .ready, pc := e.2 } {}) []

/-- The words of an instruction store. -/
def storeTable (ws : List U32) : Table U32 := (ws.zipIdx.map fun e => (e.2, e.1)).filter fun e => e.2 ≠ 0

/-- The words of an instruction store: 48 KiB (R80). -/
def storeWords : Nat := 12288

/-- Load one core (R80). The store takes no word beyond its end (DESIGN CHOICE, assumption log 122). -/
def Core.load (k : Core) (owner : Nat × Nat × Nat) (code : CoreCode) : Core :=
  let k := k.restart (startThreads code.entries)
  let ws := code.words.take storeWords
  { k with seg := some owner, store := storeTable ws, nwords := ws.length, lastCycle := 0, unordered := 0 }

/-- Free a core: a halted thread stays HALTED until the next segment starts (R81). -/
def Core.free (k : Core) : Core :=
  { k with
    seg := none
    matQ := []
    vecQ := []
    tileQ := []
    springs := []
    latch := false
    unordered := 0
    threads := (k.threads.map fun e => (e.1, if e.2.st = .halted then e.2 else { e.2 with st := .idle })).filter fun e => e.2 ≠ {} }

/-- The unordered comparisons of a segment's cores (R190). -/
def State.segUnordered (s : State) (g : Segment) : Nat := (g.cores.map fun c => (s.core c).unordered).sum

/-- The cores of a segment are free; their unordered counts are added (R190). -/
def State.releaseCores (s : State) (g : Segment) : State :=
  let n := s.segUnordered g
  let s := g.cores.foldl (fun s c => s.onCore c Core.free) (s.endMwaits g.cores)
  let s := (if n = 0 then s else s.bumpP g.p 0x8060 5 n).onPartn g.p fun x =>
    if x.discardedWork g then x else { x with unorderedTotal := x.unorderedTotal + n }
  s.onPartn g.p fun x => { x with segments := x.segments.filter fun e => !(e.s = g.s && e.q = g.q) }

/-- A partition that serves REQUEST streams: a serving RUN is installed. -/
def Partition.serving (x : Partition) : Bool := !x.serves.isEmpty

/-- The start of an evaluation period outside steps (R198): the first entry that cannot be written is answered. -/
def State.startPeriod (s : State) (p : Nat) : State × Option (Nat × Nat) :=
  let x := s.partn p
  if x.inStep || x.periodStarted then (s, none)
  else match s.startSlots p false with
    | (s, some e) => (s, some e)
    | (s, none) => (s.onPartn p fun x => { x with periodStarted := true }, none)

/-- Outside steps a RUN's completion ends the evaluation period, unless the partition serves requests (R191). While another
segment runs the next period begins at once; else with the next RUN (R198). A RUN that is REJECTED, or that an abort ends before
its launch, ends no period (DESIGN CHOICE, assumption log 138). -/
def State.runPeriodEnd (s : State) (p : Nat) : State :=
  let x := s.partn p
  if x.inStep || x.serving then s
  else
    let s := s.endPeriod p
    if x.segments.isEmpty then s else (s.startPeriod p).1

/-! ## RUN (R22, R187, R230, R239, R241, R261, R308) -/

/-- An image sets the marks of each queue end that lies here (R262). -/
def State.setQueueMarks (s : State) (p : Nat) (q : StageQueueDecl) : State :=
  let s := if q.producer then (s.applyMark p q.sent 0).applyMark p q.free (BitVec.ofNat 32 (q.slots * q.tiles)) else s
  if q.consumer then (s.applyMark p q.full 0).applyMark p q.done 0 else s

/-- The shape of a partition: working stacks of each hall (R22). -/
def State.shape (s : State) (p : Nat) : List Nat := (s.halls p).map fun h => (s.stacksOf h).length

/-- The first watch entry that does not translate to a writable lake page (R187). -/
def State.badEntry (s : State) (p : Nat) (l : List WatchDecl) : Option Outcome :=
  l.findSome? fun d => match s.translateRange p d.entry 16 { write := true } with
    | .error f => some (.translation f)
    | .ok ts => if ts.all fun e => match e.1 with | .lake _ => true | _ => false then none
      else some (.translation { kind := 3, addr := d.entry })

/-- The records of a schedule (R239); a record that does not read fails as the record it should be. -/
def State.scheduleRuns (s : State) (p w q : Nat) (inStep : Bool) (seed stepKey : U64) (l : List Nat) : Except Nat (List XRun) :=
  l.zipIdx.foldl (fun (acc : Except Nat (List XRun)) e => match acc with
    | .error i => .error i
    | .ok rs => match s.vread p e.1 128 with
      | .ok bs => .ok (rs ++ [(s.partn p).xrun w q e.2 (BitVec.ofNat 1024 (leNat bs)) true inStep seed stepKey])
      | _ => .error e.2) (.ok [])

/-- A RUN works inside the step; a serving RUN works outside every step, since a SERVICE stream owns none (R328). -/
def Partition.runInStep (x : Partition) (serve : Bool) : Bool := x.inStep && !serve

/-- The segment of a RUN is one of a serving RUN. -/
def Partition.serveOwns (x : Partition) (w q : Nat) : Bool := x.serves.any fun v => v.s = w && v.q = q

/-- SEED and STEP of the draws of a RUN (R47, R328). -/
def Partition.runKeys (x : Partition) (k : Cmd) : U64 × U64 :=
  if x.runInStep k.serve then (x.stepSeed, x.stepNo) else (BitVec.ofNat 64 (k.f 367 304), BitVec.ofNat 64 (2 ^ 63 + k.seq))

/-- The segment that a RUN names, and the number of its variant. -/
def runVariant (k : Cmd) (img : Image) : Option (SegDecl × Nat × Variant) :=
  (img.segments.find? fun g => g.num = k.f 399 368).bind fun g =>
    let v := if k.f 303 296 = 0xFF then 0 else k.f 303 296
    (g.variants[v]?).map fun x => (g, v, x)

/-- The rejection of a RUN by its image, if it has one, beside the step state. -/
def State.runRefused (s : State) (p w : Nat) (k : Cmd) (img : Image) : Option Outcome :=
  let x := s.partn p
  let n := (s.halls p).length
  let rd := s.vread p (k.f 447 400) img.bytes
  let keys := x.runKeys k
  if n = 0 then some (.rejected cauShape)
  else match rd with
  | .ok _ =>
    if !img.shapes.contains (s.shape p) then some (.rejected cauShape)
    else if 8192 * n < img.watch.length || 262144 < img.ledger || 8 < img.vstages || 64 < img.stageQueues.length then
      some (.rejected cauLimit)
    else match if x.image = some img then none else s.badEntry p img.watch with
      | some o => some o
      | none =>
        match runVariant k img with
        | none => some (.rejected cauReserved)
        | some (g, _, v) =>
          if v.cores.any fun c => coresPerHall * n ≤ c.core then some (.rejected cauShape)
          else match s.scheduleRuns p w k.seq (x.runInStep k.serve) keys.1 keys.2 g.schedule with
            | .error i => some (.rejected cauRecord i)
            | .ok rs => match s.checkXs p rs with
              | .error (i, e) => some (e.outcome i)
              | .ok _ => none
  | r => some (r.outcome (k.f 447 400))

/-- What a refused RUN raises beside its record. -/
def State.noteRefused (s : State) (p : Nat) (k : Cmd) (img : Image) (o : Outcome) : State :=
  let s := s.noteRead p (s.vread p (k.f 447 400) img.bytes)
  if o.cause = cauScaleEntry then s.entryLost p o.arg o.detail else s

/-- Install an image at its first RUN in the partition: watch slots with fresh counters and histories, every entry, stage queues
with their marks (R187, R262). An entry that cannot be written is answered, and the image is not installed. -/
def State.install (s : State) (p : Nat) (img : Image) : State × Option (Nat × Nat) :=
  if (s.partn p).image = some img then (s, none)
  else
    let s := s.onPartn p fun x => { x with
      slots := img.watch.map fun d => { decl := d, fmt := d.fmt }
      attempts := []
      image := none
      stageQueues := img.stageQueues.map fun q => { decl := q } }
    let s := img.stageQueues.foldl (fun s q => s.setQueueMarks p q) s
    match s.startSlots p true with
    | (s, some e) => (s, some e)
    | (s, none) => (s.onPartn p fun x => { x with image := some img, periodStarted := !x.inStep }, none)

/-- A RUN is refused by the step state: inside a step only its owner's RUN in OPEN runs (R226). -/
def Partition.runStepBad (x : Partition) (w : Nat) : Bool :=
  x.step ≠ .idle && !(x.step = .opened && x.stepOwner = w)

end Sys2Proof.Machine

namespace Sys2Proof

open Machine

/-- The buckets of a pass kind. -/
def ServeDecl.buckets (d : ServeDecl) (feed : Bool) : List (Nat × Nat) := if feed then d.feedBuckets else d.tokenBuckets

/-- The largest bucket of a pass kind. -/
def ServeDecl.most (d : ServeDecl) (feed : Bool) : Nat := ((d.buckets feed).map Prod.fst).foldl Max.max 0

/-- The variant of the smallest bucket that holds n slots (R331). -/
def ServeDecl.variantFor (d : ServeDecl) (feed : Bool) (n : Nat) : Nat :=
  let fit := (d.buckets feed).filter fun b => n ≤ b.1
  match fit with
  | [] => 0
  | b :: r => (r.foldl (fun a c => if c.1 < a.1 then c else a) b).2

end Sys2Proof

namespace Sys2Proof.Machine

/-- What a serving image must declare (R328), for the variants of its segment (DESIGN CHOICE, assumption log 32). -/
def servable (img : Image) (g : SegDecl) : Bool :=
  match img.serve with
  | none => false
  | some d => !d.tokenBuckets.isEmpty && !d.feedBuckets.isEmpty && decide (0 < d.feedLimit) &&
      (d.tokenBuckets ++ d.feedBuckets).all fun b => decide (0 < b.1 ∧ b.2 < g.variants.length)

/-- The rejection of a serving RUN beside those of every RUN: its declarations, and the batch table. -/
def State.serveRefused (s : State) (p : Nat) (k : Cmd) (img : Image) : Option Outcome :=
  match runVariant k img, img.serve with
  | some (g, _, _), some d =>
    if !servable img g then some (.rejected cauReserved)
    else if g.variants.any fun v => v.cores.any fun c => coresPerHall * (s.halls p).length ≤ c.core then
      some (.rejected cauShape)
    else (s.vcheck p d.batchTable (64 * Max.max (d.most true) (d.most false)) true).map .translation
  | _, _ => some (.rejected cauReserved)

/-- Start a RUN, serving or not, with its checks; a RUN that passes waits for its launch (R305). -/
def State.startRun (s : State) (p w q : Nat) (img : Image) (serve : Bool) : State :=
  match s.cmd p w q with
  | none => s
  | some k =>
    if k.serve ≠ serve then s
    else s.startCmd p w q opRun fun k s =>
      if (s.partn p).runStepBad w then s.complete p w q (.stepState (s.partn p))
      else match s.runRefused p w k img with
        | some o => (s.noteRefused p k img o).complete p w q o
        | none =>
          match if serve then s.serveRefused p k img else none with
          | some o => s.complete p w q o
          | none => match s.install p img with
          | (s, some e) => s.complete p w q (.fault cauScaleEntry e.1 (e.2 % 2 ^ 48))
          | (s, none) => s.onCmd p w q fun k => { k with phase := .accepted, started := 0, img := some img }

/-- R308. RUN. -/
def execRun (p s' q : Nat) (img : Image) (s : State) : Res := .next (s.startRun p s' q img false)

/-! ## Launch (R80, R201, R239, R305) -/

/-- The image of a RUN that waits for its launch. -/
def Cmd.waiting (k : Cmd) : Option Image := if k.op = opRun && k.phase = .accepted then k.img else none

/-- Cores are free. -/
def State.coresFree (s : State) (l : List Nat) : Bool := l.all fun c => (s.core c).seg.isNone

/-- Another RUN that waits, goes before this one and shares a core with it (R305). -/
def State.launchBefore (s : State) (p w : Nat) (k : Cmd) (cores : List Nat) : Bool :=
  let x := s.partn p
  x.commands.any fun e => !(e.1 = w && e.2.seq = k.seq) &&
    (match e.2.waiting with
    | none => false
    | some img => match runVariant e.2 img with
      | none => false
      | some (_, _, v) => (s.variantCores p v).any cores.contains &&
        (decide ((x.stream e.1).prio.toNat < (x.stream w).prio.toNat) ||
          ((x.stream e.1).prio = (x.stream w).prio && decide (e.2.order < k.order))))

/-- The marks that the layer records of a variant list, with their values (R201). -/
def State.snapshot (s : State) (p : Nat) (v : Variant) : List (Nat × U32) :=
  ((v.layers.flatMap fun l => l.marks.map fun m => m.1).eraseDups).map fun m => (m, s.mark p m)

/-- Start the cores of a segment. -/
def State.launch (s : State) (p w q : Nat) (num vno batch : Nat) (v : Variant) (keys : U64 × U64) : State :=
  let x := s.partn p
  let cores := s.variantCores p v
  let g : Segment := { p := p, s := w, q := q, num := num, variant := v, variantNo := vno, batch := batch, seed := keys.1,
                       stepKey := keys.2, inStep := x.runInStep (x.serveOwns w q), cores := cores, started := s.now,
                       marks := s.snapshot p v }
  let s := s.onPartn p fun x => { x with segments := x.segments ++ [g] }
  v.cores.foldl (fun s k =>
    let n := s.globalCore p k.core
    s.onCore n fun c => { c.load (p, w, q) k with cycleBase := s.coreCycles n }) s

/-- The records of a segment's schedule begin with its launch (R239). -/
def State.launchRecords (s : State) (p w q : Nat) (g : SegDecl) (keys : U64 × U64) : State :=
  let rs := match s.scheduleRuns p w q ((s.partn p).runInStep ((s.partn p).serveOwns w q)) keys.1 keys.2 g.schedule with
    | .ok l => l
    | .error _ => []
  s.onPartn p fun x => { x with xruns := x.xruns ++ rs.map fun r =>
    { r with triggered := markReached (s.mark p r.trigMark) (BitVec.ofNat 32 r.trigValue) } }

/-- R80. A RUN's segment is launched once its cores are free. -/
def execRunLaunch (p w q : Nat) (s : State) : Res :=
  match s.cmd p w q with
  | none => .next s
  | some k =>
    match k.waiting.bind fun img => runVariant k img with
    | none => .next s
    | some (g, vno, v) =>
      let x := s.partn p
      let cores := s.variantCores p v
      if k.serve || !(x.stream w).held.isEmpty || !s.working || !x.leaseAllows w || s.held p || !s.hallsServe (coreHalls cores) compLaunch || !(coreHalls cores).all s.hallOn ||
          !s.coresFree cores || s.launchBefore p w k cores then .next s
      else if x.runStepBad w then .next (s.complete p w q (.stepState x))
      else match s.startPeriod p with
        | (s, some e) => .next (s.complete p w q (.fault cauScaleEntry e.1 (e.2 % 2 ^ 48)))
        | (s, none) =>
          let keys := (s.partn p).runKeys k
          let s := s.launchRecords p w q g keys
          let s := s.onCmd p w q fun k => { k with phase := .running, started := s.now, img := none }
          .next (s.launch p w q g.num vno 0 v keys)

/-! ## End (R110, R131, R317) -/

/-- Every record of a segment's schedule is complete or has ended (R257). -/
def Partition.scheduleDone (x : Partition) (w q : Nat) : Bool :=
  x.xruns.all fun r => !(r.s = w && r.q = q && r.scheduled) || r.complete || r.ended

/-- R131. A segment ends, and its RUN completes OK. A pass of a serving RUN ends through SERVE_PASS_END. -/
def execSegmentEnd (p w q : Nat) (s : State) : Res :=
  match s.segment p w q, s.cmd p w q with
  | some g, some k =>
    if k.serve || g.stop.isSome || !s.finishedCores g || !(s.partn p).scheduleDone w q || !s.working ||
        !s.hallsServe (coreHalls g.cores) compLaunch || !s.hallsServe (coreHalls g.cores) compWatch then .next s
    else
      let s := (s.releaseCores g).onPartn p fun x => { x with xruns := x.xruns.filter fun r => !(r.s = w && r.q = q) }
      let s := s.complete p w q .ok
      .next (if g.inStep then s else s.runPeriodEnd p)
  | _, _ => .next s

/-- A halt record as its 128 bits (R111). -/
def HaltRecord.val (h : HaltRecord) : Nat :=
  fld (h.core % 8192) 115 + fld h.thread 112 + fld h.pc 98 + fld h.insn.toNat 64 + fld h.code.toNat 56 + h.detail.toNat

/-- The first halt of a stopped segment: the lowest core, then the lowest thread, among those of the earliest gallery cycle.
Halts of one cycle come in command order here, so the first recorded one stands. -/
def Segment.haltVal (g : Segment) : Nat := match g.firstHalt with
  | some h => h.val
  | none => 0

/-- The outcome of a RUN whose segment has stopped. -/
def Segment.outcome (g : Segment) : Outcome :=
  match g.stop with
  | some .abort => { status := stAborted }
  | some .hard => { status := stFault, cause := cauHardFault, count := g.halted, arg := g.causeArg, detail := g.detail.toNat }
  | _ => if g.cause ≠ 0 && g.firstHalt.isNone then { status := stFault, cause := g.cause, arg := g.causeArg, detail := g.detail.toNat }
    else { status := stFault, cause := cauThreadHalt, count := g.halted, detail := g.haltVal }

/-- A stopped segment leaves its cores: descriptors end, its incomplete records are cancelled (R110, R147, R259). -/
def State.teardown (s : State) (g : Segment) : State :=
  let s := s.dropDescs g
  ((s.releaseCores g).cancelWhere g.p fun r => r.s = g.s && r.q = g.q && r.scheduled)

/-- R110. Every core of a stopped segment has stopped: the RUN ends, FAULT with the first halt record, or as the stop says. -/
def execSegmentFaultStopped (p w q : Nat) (s : State) : Res :=
  match s.segment p w q with
  | none => .next s
  | some g =>
    let layer := match g.stop with
      | some (.layer _) => true
      | _ => false
    if g.stop.isNone || layer || !s.stoppedCores g || s.phase ≠ .running || !s.hallsServe (coreHalls g.cores) compHallFaults ||
        !s.hallsServe (coreHalls g.cores) compWatch then .next s
    else
      let o := g.outcome
      let s := s.teardown g
      let s := if o.status = stFault && g.inStep then s.stepFault p o.cause (some (w, q)) else s
      let s := (s.endServe p w q).complete p w q o
      let s := if o.cause = cauThreadHalt then s.raiseP 0x6120 p [g.haltVal / 2 ^ 64, g.haltVal % 2 ^ 64, g.halted, w, q] else s
      .next (if g.inStep then s else s.runPeriodEnd p)

/-! ## Layer repeats (R202 to R205) -/

/-- The next format of a widening chain (Widening chains). -/
def widened (decl : WatchDecl) (level : Nat) : Nat :=
  if level = 0 then decl.fmt
  else if decl.fmt = 0 then (if level = 1 then 1 else 3)
  else if decl.fmt = 1 || decl.fmt = 2 || decl.fmt = 4 then 3 else decl.fmt

/-- The attempt that R203 chooses, and how: 1 A32 repeat, 2 rescale, 3 widening. -/
def Attempt.choose (a : Attempt) (layerA16 accumulator : Bool) : Attempt × Nat :=
  if accumulator && layerA16 && !a.a32 then ({ a with a32 := true }, 1)
  else if a.retry < 2 then ({ a with retry := a.retry + 1 }, 2)
  else ({ level := a.level + 1, retry := 0, a32 := a.a32 }, 3)

/-- The larger of two scales that are powers of two. -/
def largerScale (a b : U32) : U32 := if a.toNat < b.toNat then b else a

/-- A slot of a narrow output for the next attempt of a layer. A level, A32R and a raised SCALE that another layer has given the
slot hold to the end of the step or period (R196, R204). -/
def Slot.attempt (r : ScaleRule) (shift : Nat) (k : Slot) (a : Attempt) (how : Nat) (flagged : Bool) : Slot :=
  let k := { k with a32 := k.a32 || a.a32 }
  if how = 2 then
    let k := { k with retry := a.retry, retries := k.retries + 1 }
    if flagged && k.decl.source ≠ 1 then
      { k with scale := largerScale k.scale (pow2Code (codeExp (derivedScale r k k.fmt) + (a.retry * shift : Nat))) }
    else k
  else if how = 3 then
    let lv := Max.max k.widen a.level
    let f := widened k.decl lv
    { k with fmt := f, retry := 0, widen := lv, scale := if lv = k.widen then k.scale else derivedScale r k f }
  else k

/-- The counts of a repeated attempt leave their slots, AMAX and OVF_TILES apart (R205). -/
def Slot.lessCounts (k : Slot) (c : Counts) : Slot :=
  { k with elems := k.elems - c.elems, zero := k.zero - c.zero, flush := k.flush - c.flush, sat := k.sat - c.sat,
           nonfin := k.nonfin - c.nonfin }

/-- A slot without what a segment has counted for it in a layer or a later one, all of which the repeat does again (R205;
DEDUCED, assumption log 121). -/
def Segment.lessAttempt (g : Segment) (layer slot : Nat) (k : Slot) : Slot :=
  (g.counts.filter fun e => decide (layer ≤ e.1 / 65536) && e.1 % 65536 = slot).foldl (fun k e => k.lessCounts e.2) k

/-- A segment whose layer begins again: earlier layers keep their counts and times (R205). -/
def Segment.reenter (g : Segment) (layer now : Nat) : Segment :=
  { g with
    stop := none
    restored := false
    reports := []
    counts := g.counts.filter fun e => decide (e.1 / 65536 < layer)
    layerStarts := Table.insert (g.layerStarts.filter fun e => decide (e.1 < layer)) layer now }

/-- Restart every core of a segment at a layer entry. -/
def State.restartCores (s : State) (g : Segment) (entries : List (Nat × Nat × Nat)) : State :=
  g.cores.foldl (fun s c => s.onCore c fun k =>
    k.restart (startThreads ((entries.filter fun e => s.globalCore g.p e.1 = c).map fun e => (e.2.1, e.2.2)))) (s.endMwaits g.cores)

/-- The count and event of a repeat (R203). -/
def State.tellRepeat (s : State) (p how : Nat) (layer : Nat) (a : Attempt) : State :=
  if how = 1 then (s.bumpP p 0x8060 3 1).raiseP 0x4112 p [layer, (s.partn p).stepOrPeriod]
  else if how = 2 then s.bumpP p 0x8060 1 1
  else (s.bumpP p 0x8060 2 1).raiseP 0x4111 p [layer, (s.partn p).stepOrPeriod, a.level]

/-- Steps 3, 5 and 6 of a layer stop (R202): every descriptor of the segment ends, the listed marks are restored, the latches are
cleared. -/
def State.restoreLayer (s : State) (p w q : Nat) (g : Segment) (l : LayerRec) : State :=
  let s := s.dropDescs g
  let s := l.marks.foldl (fun s m => match g.marks.find? fun e => e.1 = m.1 with
    | some e => s.applyMark p m.1 (e.2 + BitVec.ofNat 32 m.2)
    | none => s) s
  let s := g.cores.foldl (fun s c => s.onCore c fun k => { k with latch := false }) s
  s.onSegment p w q fun g => { g with restored := true }

/-- Steps 7 and 8 of a layer stop (R202, R203): the next attempt is chosen, entries are written, and the layer restarts in it. An
entry that cannot be written ends the RUN instead (R476). -/
def State.repeatLayer (s : State) (p w q : Nat) (g : Segment) (i : Nat) (l : LayerRec) : State :=
  let key := attemptKey g i
  let acc := g.reports.any fun r => r.accumulator && l.a16
  let c := ((s.partn p).attempts.get key {}).choose l.a16 acc
  let flagged := (g.reports.filter fun r => !r.accumulator).map fun r => r.tensor
  let shift := s.setting p 0x4000 3
  let x := s.partn p
  let next := fun (k : Slot) =>
    if l.outputs.contains k.decl.tensor then
      Slot.attempt (s.scaleRule p) shift k c.1 c.2 (flagged.contains k.decl.tensor) else k
  match (s.onPartn p fun x => { x with slots := x.slots.map next }).writeEntries p false with
  | (s, some e) =>
    (s.onPartn p fun y => { y with slots := x.slots }).onSegment p w q fun g => { g with
      stop := some .halt
      cause := cauScaleEntry
      causeArg := e.1
      detail := BitVec.ofNat 128 (e.2 % 2 ^ 48) }
  | (s, none) =>
    let s := s.onPartn p fun x => { x with
      slots := x.slots.zipIdx.map fun e => g.lessAttempt i e.2 e.1
      attempts := x.attempts.put key c.1 {} }
    let s := (s.tellRepeat p c.2 i c.1).bumpP p 0x8060 7 (s.now - g.layerStarts.get i g.started)
    let entries := match l.entries.find? fun e => e.level = c.1.level && e.a16 = (l.a16 && !c.1.a32) with
      | some e => e.entries
      | none => []
    (s.onSegment p w q fun g => g.reenter i s.now).restartCores g entries

/-- R202. Every core has stopped for a layer. Steps 3 to 6 complete at once, also while a Hall Scheduler restarts; what remains waits
until it serves again (R355). -/
def execLayerRestart (p w q : Nat) (s : State) : Res :=
  match s.segment p w q with
  | none => .next s
  | some g =>
    match g.stop with
    | some (.layer i) =>
      (match g.variant.layers[i]? with
      | none => .next s
      | some l =>
        if !s.stoppedCores g || !s.working then .next s
        else
          let s := if g.restored then s else s.restoreLayer p w q g l
          if s.hallsServe (coreHalls g.cores) compLaunch then .next (s.repeatLayer p w q g i l) else .next s)
    | _ => .next s

/-- R191. Watch.ServeInterval passes in a partition that serves requests: the period is evaluated. -/
def execWatchPeriodEnd (p : Nat) (s : State) : Res :=
  let x := s.partn p
  if !x.serving || x.inStep || !x.periodStarted || !s.hallsServing p || !s.working then .next s
  else
    let s := s.endPeriod p
    .next (s.startPeriod p).1

end Sys2Proof.Machine
end

