-- ==== Sys2Proof/Machine/Serving.lean ====
section
/-! DEFINITION. Request streams and per-token batching (R328 to R332). -/

namespace Sys2Proof.Machine

/-! ## The serving RUN (R328) -/

/-- R328. RUN with SERVE = 1: once checked it is installed and runs, as a sequence of passes. A stream runs one serving RUN at
a time (assumption log 32). -/
def execRunServe (p w q : Nat) (img : Image) (s : State) : Res :=
  if (s.partn p).serves.any fun v => v.s = w then .next s
  else
    let s := s.startRun p w q img true
    match s.cmd p w q with
    | none => .next s
    | some k =>
      if k.waiting.isNone || !k.serve then .next s
      else
        let s := s.onCmd p w q fun k => { k with phase := .running, started := s.now, img := none }
        let v : Serve := { s := w, q := q, segNum := k.f 399 368, seed := BitVec.ofNat 64 (k.f 367 304), img := img }
        .next (s.onPartn p fun x => { x with serves := x.serves ++ [v] })

/-! ## Requests (R329) -/

def Partition.onServes (x : Partition) (f : Serve → Serve) : Partition := { x with serves := x.serves.map f }

/-- Change the requests that a stream opened with a REQUEST_OPEN. -/
def Partition.onRequest (x : Partition) (w q : Nat) (f : Request → Request) : Partition :=
  x.onServes fun v => { v with requests := v.requests.map fun r => if r.stream = w && r.openSeq = q then f r else r }

/-- The lowest free context slot of a serving RUN (DESIGN CHOICE, assumption log 32). -/
def Serve.freeSlot (v : Serve) : Option Nat :=
  (List.range ((v.img.serve.map fun d => d.ctxSlots).getD 0)).find? fun i => v.requests.all fun r => r.ctx ≠ i

/-- An uncompleted REQUEST_OPEN before a command of its stream, the latest first. -/
def Stream.openBefore (m : Stream) (k : Cmd) : Option Cmd := (m.before k).reverse.find? fun j => j.op = opReqOpen

/-- The serving RUN that a SERVICE number names. -/
def Partition.serveOf (x : Partition) (service : Nat) : Option Serve := x.serves.find? fun v => v.s = service

/-- R329. REQUEST_OPEN: it takes a free context slot of its SERVICE stream, and waits where there is none. -/
def execRequestOpen (p w q : Nat) (s : State) : Res :=
  let x := s.partn p
  let may := fun (k : Cmd) =>
    s.startAllowed p w k && ((x.stream w).openBefore k).isNone && (x.openRequest w).isNone &&
    match x.serveOf (k.f 447 434) with
    | none => true
    | some v => v.freeSlot.isSome
  .next (s.startIf p w q opReqOpen may fun k s =>
    match (x.serveOf (k.f 447 434)).bind fun v => v.freeSlot with
    | none => s.complete p w q (.rejected cauKind (x.stream w).kind.toNat)
    | some c =>
      let r : Request := { stream := w, openSeq := q, irq := k.irq, ctx := c, maxTokens := k.f 433 418,
                           endToken := BitVec.ofNat 32 (k.f 417 386), seed := BitVec.ofNat 64 (k.f 385 322), order := k.order }
      s.onPartn p fun x => x.onServes fun v =>
        if some v = x.serveOf (k.f 447 434) then { v with requests := v.requests ++ [r] } else v)

/-- R329. REQUEST_FEED: it starts once its open has started and every earlier FEED has completed, and its token array must
translate (R308). A FEED whose request has ended has nothing to feed and completes as one whose service ended (DESIGN
CHOICE, assumption log 32). -/
def execRequestFeed (p w q : Nat) (s : State) : Res :=
  let x := s.partn p
  let m := x.stream w
  let may := fun (k : Cmd) =>
    s.startAllowed p w k && (m.before k).all (fun j => j.op ≠ opReqFeed) &&
    match m.openBefore k with
    | none => true
    | some j => j.phase = .running
  .next (s.startIf p w q opReqFeed may fun k s =>
    match m.openBefore k with
    | none => s.complete p w q { status := stAborted, cause := cauServiceEnded }
    | some j =>
      match s.vcheck p (k.f 447 400) (4 * k.f 399 384) false with
      | some f => (s.noteFault p f).complete p w q (.translation f)
      | none =>
        let d : Feed := { seq := q, addr := k.f 447 400, ntok := k.f 399 384, used := 0, last := bit k.n 383 }
        s.onPartn p fun x => x.onRequest w j.seq fun r => { r with feeds := [d] })

/-- R329. REQUEST_CLOSE: it starts once the open has completed, and frees the context slot. -/
def execRequestClose (p w q : Nat) (s : State) : Res :=
  let may := fun (k : Cmd) => s.startAllowed p w k && ((s.stream p w).openBefore k).isNone
  .next (s.startIf p w q opReqClose may fun _ s =>
    (s.onPartn p fun x => x.onServes fun v => { v with
      requests := v.requests.filter fun r => !(r.stream = w && r.ended) }).complete p w q .ok)

/-! ## Choosing a batch (R331) -/

/-- No request of a stream that holds a record is batched (R310). -/
def Partition.batchable (x : Partition) (r : Request) : Bool := !r.ended && (x.stream r.stream).held.isEmpty

def Partition.fedList (x : Partition) (v : Serve) : List Request :=
  v.requests.filter fun r => x.batchable r && !r.feeds.isEmpty

def Partition.readyList (x : Partition) (v : Serve) : List Request :=
  v.requests.filter fun r => x.batchable r && r.prompted && r.feeds.isEmpty

/-- The order of R331: starved requests first, then stream PRIO, then acceptance of the opens. -/
def Partition.reqLe (x : Partition) (limit : Nat) (a b : Request) : Bool :=
  let starved := fun (r : Request) => decide (limit ≤ r.left)
  let pa := (x.stream a.stream).prio.toNat
  let pb := (x.stream b.stream).prio.toNat
  if starved a ≠ starved b then starved a
  else decide (pa < pb) || (decide (pa = pb) && decide (a.order ≤ b.order))

/-- The order without starvation: what the limit forces is measured against it. -/
def Partition.reqOrder (x : Partition) (limit : Option Nat) (l : List Request) : List Request :=
  sortBy (fun a b => match limit with
    | some n => x.reqLe n a b
    | none => x.reqLe (1 + (l.map fun r => r.left).foldl Max.max 0) a b) l

/-- A choice: pass kind, the requests of the batch, and those that were ready. -/
structure Choice where
  feed : Bool
  batch : List Request
  ready : List Request
  forced : Nat

/-- The pseudo-code of R331. -/
def Partition.chooseBatch (x : Partition) (v : Serve) (d : ServeDecl) (limit : Nat) : Option Choice :=
  let fed := x.fedList v
  let ready := x.readyList v
  let pick := fun (feed : Bool) (l : List Request) =>
    let n := Min.min l.length (d.most feed)
    let b := (x.reqOrder (some limit) l).take n
    let plain := (x.reqOrder none l).take n
    let forced := (b.filter fun r => decide (limit ≤ r.left) && !plain.contains r).length
    ({ feed := feed, batch := b, ready := ready, forced := forced } : Choice)
  if !fed.isEmpty && (!v.lastFeed || ready.isEmpty) then some (pick true fed)
  else if !ready.isEmpty then some (pick false ready)
  else none

/-- The tokens a request feeds in a feed pass. -/
def Request.feedCount (r : Request) (limit : Nat) : Nat :=
  match r.feeds with
  | [] => 0
  | f :: _ => Min.min limit (f.ntok - f.used)

/-- The slot a request takes in a batch. -/
def Request.slot (r : Request) (feed : Bool) (limit : Nat) : BatchSlot :=
  { stream := r.stream, openSeq := r.openSeq, feedSeq := (r.feeds.map fun f => f.seq).headD 0
    n := if feed then r.feedCount limit else 0 }

/-- A batch slot as its 512 bits (R330). -/
def Request.slotVal (r : Request) (feed : Bool) (limit : Nat) : Nat :=
  let addr := match r.feeds with
    | [] => 0
    | f :: _ => (f.addr + 4 * f.used) % 2 ^ 48
  fld r.stream 498 + fld (b2n feed) 496 + fld (r.ctx % 2 ^ 16) 480 + fld (r.pos % 2 ^ 16) 464 +
  (if feed then fld (r.feedCount limit % 2 ^ 16) 448 + fld addr 400 else 0) + fld r.seed.toNat 336 + fld r.endToken.toNat 304

/-- Write the batch table (R330). -/
def State.writeBatch (s : State) (p : Nat) (d : ServeDecl) (c : Choice) : Except XFault State :=
  s.vwrite p d.batchTable (c.batch.flatMap fun r => leBytes 64 (r.slotVal c.feed d.feedLimit))

/-- The lease states in which passes go on (R323). -/
def Partition.passesGoOn (x : Partition) : Bool := x.st = .detached || x.st = .attached || x.st = .orphan

/-- SEED and STEP of the draws of a serving RUN, inside a step of another stream too (R47, R328). -/
def Serve.keys (v : Serve) : U64 × U64 := (v.seed, BitVec.ofNat 64 (2 ^ 63 + v.q))

/-- Launch a pass (R328, R330). -/
def State.launchPass (s : State) (p : Nat) (v : Serve) (d : ServeDecl) (g : SegDecl) (c : Choice) : State :=
  let vno := d.variantFor c.feed c.batch.length
  match g.variants[vno]? with
  | none => s
  | some va =>
    let inBatch := fun (r : Request) => c.batch.any fun b => b.stream = r.stream && b.openSeq = r.openSeq
    let isReady := fun (r : Request) => c.ready.any fun b => b.stream = r.stream && b.openSeq = r.openSeq
    let upd := fun (r : Request) =>
      if c.feed || !isReady r then r else { r with left := if inBatch r then 0 else r.left + 1 }
    let b : Batch := { feed := c.feed, slots := c.batch.map fun r => r.slot c.feed d.feedLimit }
    let s := s.onPartn p fun x => x.onServes fun e =>
      if e.s = v.s && e.q = v.q then { e with requests := e.requests.map upd, batch := some b, lastFeed := c.feed } else e
    let s := s.bumpP p 0x80B0 (if c.feed then 10 else 11) 1
    let s := if c.forced = 0 then s else s.bumpP p 0x80B0 12 c.forced
    let s := s.launchRecords p v.s v.q g v.keys
    s.launch p v.s v.q g.num vno c.batch.length va v.keys

/-- R331. At a pass boundary, the Hall Scheduler of the partition's lowest hall chooses a batch, writes its slots and launches
a variant once its cores are free. While the batch table does not translate, the pass waits (DESIGN CHOICE, assumption
log 32). -/
def execServePassStart (p w : Nat) (s : State) : Res :=
  let x := s.partn p
  match x.serves.find? fun v => v.s = w with
  | none => .next s
  | some v =>
    match v.img.serve, (v.img.segments.find? fun g => g.num = v.segNum), s.cmd p w v.q with
    | some d, some g, some k =>
      (match x.chooseBatch v d (s.setting p (0x3040 + p) 3) with
      | none => .next s
      | some c =>
        let cores := ((g.variants[d.variantFor c.feed c.batch.length]?).map fun va => s.variantCores p va).getD []
        let halls := (s.halls p).take 1 ++ coreHalls cores
        if v.batch.isSome || v.stopping || k.phase ≠ .running || !s.working || !x.passesGoOn || s.held p ||
            s.sup.recovering.contains p || !s.hallsServe halls compLaunch ||
            !s.hallsServe ((s.halls p).take 1) compBatching || !halls.all s.hallOn || !s.coresFree cores ||
            s.launchBefore p w k cores then .next s
        else match s.startPeriod p with
          | (s, some e) => .next (((s.endServe p w v.q).complete p w v.q (.fault cauScaleEntry e.1 (e.2 % 2 ^ 48))).runPeriodEnd p)
          | (s, none) =>
            match s.writeBatch p d c with
            | .error f => .next (s.noteFault p f)
            | .ok s => .next (s.launchPass p v d g c))
    | _, _, _ => .next s

/-! ## The end of a pass (R332) -/

/-- One slot of a feed pass: its tokens are consumed, and a FEED whose last token is consumed completes OK. -/
def State.endFeedSlot (s : State) (p : Nat) (b : BatchSlot) : State :=
  match (s.partn p).requests.find? fun r => r.stream = b.stream && r.openSeq = b.openSeq && !r.ended with
  | none => s
  | some r =>
    match r.feeds.find? fun f => f.seq = b.feedSeq with
    | none => s.onPartn p fun x => x.onRequest b.stream b.openSeq fun r => { r with pos := r.pos + b.n }
    | some f =>
      let done := decide (f.ntok ≤ f.used + b.n)
      let s := s.onPartn p fun x => x.onRequest b.stream b.openSeq fun r => { r with
        pos := r.pos + b.n
        prompted := r.prompted || (done && f.last)
        feeds := if done then [] else [{ f with used := f.used + b.n }] }
      if done then s.complete p b.stream b.feedSeq .ok else s

/-- The OUT fields of slot i; a table that can no longer be read gives free values. -/
def State.readSlot (s : State) (p : Nat) (d : ServeDecl) (i : Nat) : Nat × State :=
  let a := d.batchTable + 64 * i
  match s.vread p a 64 with
  | .ok bs => (leNat bs, s)
  | r => (leNat ((Config.bytes s.freeUsed).take 64), (s.noteRead p r).fresh)

/-- One slot of a token pass: its token record, and the end of its request. -/
def State.endTokenSlot (s : State) (p : Nat) (d : ServeDecl) (e : BatchSlot × Nat) : State :=
  let b := e.1
  match (s.partn p).requests.find? fun r => r.stream = b.stream && r.openSeq = b.openSeq && !r.ended with
  | none => s
  | some r =>
    let (v, s) := s.readSlot p d e.2
    let tok := bits v 303 272
    let last := (r.endToken.toNat ≠ 0xFFFFFFFF && tok = r.endToken.toNat) || bit v 239 || decide (r.maxTokens ≤ r.tokens + 1)
    let s := s.putRecord p { seq := BitVec.ofNat 48 r.openSeq, stream := r.stream, opcode := 0x5F, status := 0,
                             count := r.tokens, irq := r.irq
                             detail := BitVec.ofNat 128 (fld tok 96 + fld (bits v 271 240) 64 + fld (b2n last) 32) }
    let s := s.bumpP p 0x80B0 9 1
    let s := s.onPartn p fun x => x.onRequest b.stream b.openSeq fun r => { r with
      tokens := r.tokens + 1
      pos := r.pos + 1
      ended := last }
    if last then (s.complete p b.stream b.openSeq { status := stOk, count := r.tokens + 1 }).settleFeeds p b.stream ((s.partn p).serviceOf b.stream) else s

/-- After a FENCE STOP a serving RUN whose last pass has ended completes OK (R313); like every completion of a RUN that waits for
the Hall Schedulers (R354). -/
def State.endStopped (s : State) (p w : Nat) : State :=
  match (s.partn p).serves.find? fun v => v.s = w with
  | none => s
  | some v =>
    if v.stopping && v.batch.isNone && s.working && s.hallsServe (s.halls p) compLaunch && s.hallsServe (s.halls p) compWatch then
      ((s.endServe p w v.q).complete p w v.q .ok).runPeriodEnd p
    else s

/-- R332. A pass ends under R131, also during a restart of a Hall Scheduler (R355): feeds are consumed, or token records are
written in slot order, and the requests that finish end. -/
def execServePassEnd (p w : Nat) (s : State) : Res :=
  match (s.partn p).serves.find? fun v => v.s = w with
  | none => .next s
  | some v =>
    match s.segment p w v.q, v.batch, v.img.serve with
    | some g, some b, some d =>
      if g.stop.isSome || !s.finishedCores g || !(s.partn p).scheduleDone w v.q || !s.working then .next s
      else
        let s := (s.releaseCores g).onPartn p fun x => { x with xruns := x.xruns.filter fun r => !(r.s = w && r.q = v.q) }
        let s := s.onPartn p fun x => x.onServes fun e => if e.s = w && e.q = v.q then { e with batch := none } else e
        let s := if b.feed then b.slots.foldl (fun s b => s.endFeedSlot p b) s
          else b.slots.zipIdx.foldl (fun s e => s.endTokenSlot p d e) s
        .next (s.endStopped p w)
    | _, _, _ => .next (s.endStopped p w)

/-- What a FENCE STOP ends: a running MOVE stops at a tile boundary, a MARK_WAIT completes ABORTED, started or not, unless
its target was reached first, a serving RUN finishes its pass (R313, R319). -/
def State.stopOne (s : State) (p v : Nat) (j : Cmd) : State :=
  if j.op = opMarkWait then s.complete p v j.seq (if j.phase = .running && j.satisfied then .ok else { status := stAborted })
  else if j.phase ≠ .running then s
  else if j.op = opMove then
    let s := s.onCmd p v j.seq fun k => { k with phase := .stopping }
    s.allMovers.foldl (fun s m => match (s.queue m).find? fun d => d.origin = (p, v, j.seq) with
      | some d => s.settleMove m d
      | none => s) s
  else if j.serve then
    (s.onPartn p fun x => { x with serves := x.serves.map fun g =>
      if g.s = v && g.q = j.seq then { g with stopping := true } else g }).endStopped p v
  else s

/-- R319. FENCE with ACTION STOP. -/
def execFenceStop (p w q : Nat) (s : State) : Res :=
  match s.cmd p w q with
  | none => .next s
  | some k =>
    if !bit k.n 446 then .next s
    else
      let s := s.startFence p w q true fun k s =>
        ((s.partn p).commands.filter fun e => fenceScope k w e.1).foldl (fun s e => s.stopOne p e.1 e.2) s
      .next (s.settleFence p w q)

end Sys2Proof.Machine
end

