-- ==== Sys2Proof/Machine/Shards.lean ====
section
/-! DEFINITION. Shard records (R235): EXPORT and IMPORT mode 2 (R308, R369), the load from a neighbour (R451), and the records of
an orphan-hold export (R325). -/

namespace Sys2Proof.Machine

/-! ## The parts that a command names -/

/-- One part to export or restore: its record's index in its list, the fields of its header, its lake address, and the tile
counts it may have: as many as the header's format gives, or one of those listed. -/
structure ShardPart where
  idx : Nat
  tensor : Nat
  role : Nat
  fmt : Option Nat
  blk : Option Nat
  rule : Nat := 0
  wmode : Nat := 0
  dims : List Nat
  firstBlk : Nat := 0
  nblk : Nat := 0
  addr : Nat
  tiles : List Nat

/-- The parts of a sweep record for roles W, RM, S1, S2. W's format is its first tile's. -/
def SweepRec.shardParts (r : SweepRec) (roles : Nat) : List ShardPart :=
  let mk := fun (e : SweepPart) (fmt blk : Option Nat) (tiles : List Nat) =>
    ({ idx := r.idx, tensor := e.tensor, role := e.role, fmt := fmt, blk := blk, rule := r.rule, wmode := r.wmode,
       dims := [r.n0, r.n1, r.n2, r.n3, r.n4], firstBlk := r.firstBlk, nblk := r.nblk, addr := e.addr,
       tiles := tiles } : ShardPart)
  (if bit roles 0 then [mk r.partW none none []] else []) ++
  (if bit roles 1 && r.hasRm then [mk r.partRm (some 7) (some 0) [r.nblk * 2]] else []) ++
  (if bit roles 2 then [mk r.partS1 (some r.s1Fmt) (some r.s1Blk) [r.s1Tiles]] else []) ++
  (if bit roles 3 && r.hasS2 then [mk r.partS2 (some r.s2Fmt) (some 0) [r.s2Tiles]] else [])

/-- The residual of an exchange record, in its current buffer (R245); `fss` are the formats its source may have. Its shard
record has the record's extents and no sweep blocks (DEDUCED, assumption log 33). -/
def XRun.shardPart (r : XRun) (fss : List Nat) : ShardPart :=
  { idx := r.idx, tensor := r.eTensor, role := 5, fmt := some r.eFmt, blk := some 0, dims := r.dims, addr := r.eRead
    tiles := fss.map fun fs => dstTiles fs r.eFmt r.nt }

/-- The parts of two record lists. -/
def Partition.shardParts (x : Partition) (roles : Nat) (recs xrecs : List U1024) (fsOf : XRun → List Nat) : List ShardPart :=
  (recs.zipIdx.flatMap fun e =>
    ({ idx := e.2, raw := e.1, stack := 0, wFmt := 3, wBlk := 0, gFmt := 5, gBlk := 0, rows := [] : SweepRec}).shardParts roles) ++
  if bit roles 4 then
    ((xrecs.zipIdx.map fun e => x.xrun 0 0 e.2 e.1 false false 0 0).filter fun r => r.mode ≠ xmNone).map fun r =>
      r.shardPart (fsOf r)
  else []

/-- The lists that a command names: both translate, and every record reads (R308). -/
def State.readLists (s : State) (p la n xl nx : Nat) : Except (Outcome × VRead) (List U1024 × List U1024) :=
  match s.readList p la n with
  | .error e => .error e
  | .ok l => match s.readList p xl nx with
    | .error e => .error e
    | .ok m => .ok (l, m)

/-! ## Records (R235) -/

/-- The header of a shard record as its 1,024 bits, HCHECK zero. -/
def ShardPart.headerVal (e : ShardPart) (fmt blk tiles version digest : Nat) : Nat :=
  fld e.tensor 992 + fld e.role 988 + fld fmt 984 + fld blk 981 + fld e.rule 977 + fld e.wmode 975 + fld 1 960 +
  fld (e.dims.getD 0 0) 928 + fld (e.dims.getD 1 0) 896 + fld (e.dims.getD 2 0) 880 + fld (e.dims.getD 3 0) 864 +
  fld (e.dims.getD 4 0) 848 + fld e.firstBlk 816 + fld e.nblk 784 + fld tiles 752 + fld version 688 + fld digest 624

/-- The header with its HCHECK. -/
def sealHeader (v : Nat) : List Byte :=
  let h := leBytes 128 v
  leBytes 4 (crc32c h).toNat ++ h.drop 4

/-- The check of a header. -/
def hcheckOk (h : List Byte) : Bool :=
  h.length = 128 && leNat (h.take 4) = (crc32c ([0, 0, 0, 0] ++ h.drop 4)).toNat

/-- A header whose fields are those of a part; TENSOR to NBLK, the revision, and the reserved bits as zeros. -/
def ShardPart.fits (e : ShardPart) (h : List Byte) : Bool :=
  let v := leNat h
  let f := fun (hi lo : Nat) => bits v hi lo
  let fmt := f 987 984
  let want := if e.role = 1 then [e.nblk * tilesPerBlock fmt] else e.tiles
  f 1023 992 = e.tensor && f 991 988 = e.role && (e.fmt.getD fmt) = fmt && (e.blk.getD (f 983 981)) = f 983 981 &&
  f 980 977 = e.rule && f 976 975 = e.wmode && f 974 968 = 0 && f 967 960 = 1 && f 959 928 = e.dims.getD 0 0 &&
  f 927 896 = e.dims.getD 1 0 && f 895 880 = e.dims.getD 2 0 && f 879 864 = e.dims.getD 3 0 && f 863 848 = e.dims.getD 4 0 &&
  f 847 816 = e.firstBlk && f 815 784 = e.nblk && f 623 32 = 0 && want.contains (f 783 752)

/-- A part whose first tile does not read: its record's index, the address, and what the read gave. -/
abbrev UnreadPart := Nat × Nat × VRead

/-- FMT, BLK and tile count of a part that is exported: W's from its first tile. -/
def State.shape3 (s : State) (p : Nat) (e : ShardPart) : Except UnreadPart (Nat × Nat × Nat) :=
  match e.fmt, e.blk with
  | some f, some b => .ok (f, b, e.tiles.headD 0)
  | _, _ =>
    if e.nblk = 0 then .ok (3, 0, 0)
    else match s.vread p e.addr 64 with
      | .ok h => .ok ((frameHeader h).fmt, (frameHeader h).blk, e.nblk * tilesPerBlock (frameHeader h).fmt)
      | r => .error (e.idx, e.addr, r)

/-- The parts with their shapes, in order, up to the first that does not read. -/
def State.shapes (s : State) (p : Nat) : List ShardPart → List (ShardPart × Nat × Nat × Nat) × Option UnreadPart
  | [] => ([], none)
  | e :: r =>
    match s.shape3 p e with
    | .error o => ([], some o)
    | .ok x =>
      let l := s.shapes p r
      ((e, x) :: l.1, l.2)

/-- Bytes of the records of a list of parts. -/
def shardBytes (l : List (ShardPart × Nat × Nat × Nat)) : Nat := (l.map fun e => 128 + e.2.2.2 * frameBytes).sum

/-- The frames of a part as the lake holds them, or the first place that does not read. -/
def State.partFrames (s : State) (p addr : Nat) : Nat → Except (Nat × VRead) (List (List Byte))
  | 0 => .ok []
  | n + 1 =>
    match s.partFrames p addr n with
    | .error e => .error e
    | .ok l =>
      let a := addr + n * frameBytes
      match s.vread p a frameBytes with
      | .ok f => .ok (l ++ [f])
      | r => .error (a, r)

/-- One shard record: header and frames. -/
def State.shardRecord (s : State) (p : Nat) (e : ShardPart × Nat × Nat × Nat) : Except (Nat × VRead) (List Byte × List (List Byte)) :=
  match s.partFrames p e.1.addr e.2.2.2 with
  | .error x => .error x
  | .ok fs =>
    let v := e.1.headerVal e.2.1 e.2.2.1 e.2.2.2 (s.partn p).version.toNat (crc64 (canonBytes fs)).toNat
    .ok (sealHeader v, fs)

/-! ## EXPORT (R308, R369) -/

/-- The source format of an exchange record, from the frame at SRC_ADDR. -/
def State.sourceFmt (s : State) (p : Nat) (r : XRun) : List Nat :=
  match s.vread p r.srcAddr 64 with
  | .ok h => [(frameHeader h).fmt]
  | _ => [5]

/-- Write the records one after the other; state that does not read ends the EXPORT, and the records before it stand. -/
def State.writeShards (s : State) (p dst : Nat) : List (ShardPart × Nat × Nat × Nat) → State × Outcome
  | [] => (s, .ok)
  | e :: r =>
    match s.shardRecord p e with
    | .error (a, why) => (s.noteRead p why, .fault cauUnreadable e.1.idx (a % 2 ^ 48))
    | .ok (h, fs) =>
      match s.vwrite p dst (h ++ fs.flatten) with
      | .error f => (s.noteFault p f, .translation f)
      | .ok s => s.writeShards p (dst + 128 + e.2.2.2 * frameBytes) r

/-- A poisoned tier object that holds state which an EXPORT of these roles would write (R174). -/
def State.poisonedPart (s : State) (p roles : Nat) (recs : List U1024) : Option Nat :=
  (recs.flatMap fun raw =>
    let r : SweepRec := { idx := 0, raw := raw, stack := 0, wFmt := 3, wBlk := 0, gFmt := 5, gBlk := 0, rows := [] }
    r.objects.filter fun x => if x < r.firstS2 then bit roles 2 else bit roles 3).find? fun x => (s.obj p x).poison

/-- R308. EXPORT; one that depends on a poisoned object completes POISONED (R174). -/
def execExportState (p w q : Nat) (s : State) : Res :=
  .next (s.startCmd p w q opExport fun k s =>
    let x := s.partn p
    if x.step ≠ .idle || !x.stateIntact then s.complete p w q (.stepState x)
    else match s.readLists p (k.f 447 400) (k.f 399 384) (k.f 383 336) (k.f 335 320) with
      | .error (o, e) => (s.noteRead p e).complete p w q o
      | .ok (recs, xrecs) =>
        match s.shapes p (x.shardParts (k.f 231 227) recs xrecs (s.sourceFmt p)), s.poisonedPart p (k.f 231 227) recs with
        | _, some o => s.complete p w q (.poisoned o)
        | (_, some (_, _, .fault f)), none => (s.noteFault p f).complete p w q (.translation f)
        | (l, unread), none =>
          let need := shardBytes l
          if k.f 271 232 < need then s.complete p w q (.rejected cauCapacity 0 (need % 2 ^ 40))
          else match s.vcheck p (k.f 319 272) need true with
            | some f => (s.noteFault p f).complete p w q (.translation f)
            | none =>
              match s.writeShards p (k.f 319 272) l, unread with
              | (s, .ok), some (i, a, r) => (s.noteRead p r).complete p w q (.fault cauUnreadable i (a % 2 ^ 48))
              | (s, o), _ => s.complete p w q o)

/-! ## IMPORT mode 2 (R308, R369, R451) -/

/-- What reading the source gives: bytes, offsets that must be read from the peer first (with whether each is a frame), an
outcome that ends the IMPORT, or a read that fails its check. -/
inductive SourceRead where
  | ok (bs : List Byte)
  | want (offs : List (Nat × Bool))
  | ends (o : Outcome) (why : VRead)
  | failed (why : VRead)

/-- Read the header at an offset of the source, from this module's pages or from what has arrived. -/
def State.shardHeader (s : State) (p src : Nat) (load : Option ShardLoad) (off : Nat) : SourceRead :=
  match load with
  | some l => match l.got.find off with
    | some f => .ok (f.take 128)
    | none => match s.translate p (src + off) {} with
      | .ok _ => .want [(off, false)]
      | .error f => .ends (.translation f) (.fault f)
  | none => match s.vread p (src + off) 128 with
    | .ok h => .ok h
    | .fault f => .ends (.translation f) (.fault f)
    | .unreadable pa => .ends (.unreadable (src + off)) (.unreadable pa)

/-- The frames after a header: those that have arrived, or that the lake and the host hold; each must pass its CHECK (R127). -/
def State.shardFrames (s : State) (p src : Nat) (load : Option ShardLoad) (off n : Nat) : Except SourceRead (List (List Byte)) :=
  let offs := (List.range n).map fun i => off + 128 + i * frameBytes
  match load with
  | some l =>
    let miss := offs.filter fun o => (l.got.find o).isNone
    if miss.isEmpty then .ok (offs.map fun o => l.got.get o []) else .error (.want (miss.map fun o => (o, true)))
  | none => match s.partFrames p (src + off + 128) n with
    | .ok l => if l.all frameCheckOk then .ok l else .error (.failed (.ok []))
    | .error (_, .fault f) => .error (.ends (.translation f) (.fault f))
    | .error (_, e) => .error (.failed e)

/-- Verify every record of the source (R308): what to write where, or what is missing, with the index of the part. -/
def State.planShards (s : State) (p src : Nat) (load : Option ShardLoad) :
    Nat → Nat → List ShardPart → Except (Nat × SourceRead) (List (Nat × List (List Byte)))
  | _, _, [] => .ok []
  | i, off, e :: r =>
    match s.shardHeader p src load off with
    | .ok h =>
      if !hcheckOk h || !e.fits h then .error (i, .failed (.ok []))
      else
        let n := bits (leNat h) 783 752
        (match s.shardFrames p src load off n with
        | .error x => .error (i, x)
        | .ok fs =>
          if (crc64 (canonBytes fs)).toNat ≠ bits (leNat h) 687 624 || (s.vcheck p e.addr (n * frameBytes) true).isSome then
            .error (i, .failed (.ok []))
          else match s.planShards p src load (i + 1) (off + 128 + n * frameBytes) r with
            | .error x => .error x
            | .ok l => .ok ((e.addr, fs) :: l))
    | x => .error (i, x)

/-- The roles that the source holds of the sweep records, whose headers follow one another: EXPORT writes the same roles of every
record (R235, R308; DEDUCED, assumption log 134). -/
def State.sourceRoles (s : State) (p src : Nat) (load : Option ShardLoad) : Nat → Nat → List ShardPart → Except SourceRead Nat
  | _, m, [] => .ok m
  | off, m, e :: r =>
    match s.shardHeader p src load off with
    | .ok h =>
      let v := leNat h
      if bits v 1023 992 = e.tensor && bits v 991 988 = e.role then
        s.sourceRoles p src load (off + 128 + bits v 783 752 * frameBytes) (m ||| 2 ^ (e.role - 1)) r
      else s.sourceRoles p src load off m r
    | .want l => .error (.want l)
    | _ => s.sourceRoles p src load off m r

/-- The whole source translates, as far as its headers tell how long it is (R308): the first failure, or what must be read of a peer
first. -/
def State.sourceRange (s : State) (p src : Nat) (load : Option ShardLoad) : Nat → List ShardPart → Except SourceRead Unit
  | _, [] => .ok ()
  | off, _ :: r =>
    match s.shardHeader p src load off with
    | .ok h =>
      let n := bits (leNat h) 783 752 * frameBytes
      if !hcheckOk h then .ok ()
      else match s.translateRange p (src + off + 128) n {} with
        | .error f => .error (.ends (.translation f) (.fault f))
        | .ok _ => s.sourceRange p src load (off + 128 + n) r
    | .want l => .error (.want l)
    | .ends o (.fault f) => .error (.ends o (.fault f))
    | _ => .ok ()

/-- What an IMPORT mode 2 writes where, or what stops it: the parts are those of the roles that its source holds. -/
def State.planImport (s : State) (p src : Nat) (load : Option ShardLoad) (recs xrecs : List U1024) :
    Except (Nat × SourceRead) (List (Nat × List (List Byte))) :=
  let parts := fun (roles : Nat) => (s.partn p).shardParts roles recs xrecs fun _ => [2, 3, 5]
  match s.sourceRoles p src load 0 0 (parts 15) with
  | .error x => .error (0, x)
  | .ok m =>
    let l := parts (if m = 0 then 31 else m + 16)
    match s.sourceRange p src load 0 l with
    | .error x => .error (0, x)
    | .ok _ => s.planShards p src load 0 0 l

/-- The source of an IMPORT mode 2 lies in a peer. -/
def State.peerSource (s : State) (p src : Nat) : Bool :=
  match s.translate p src {} with
  | .ok (.peer _ _) => true
  | _ => false

/-- Read an offset of the source from the peer that its page names (R274, R451). -/
def State.askLoad (s : State) (p w q src i : Nat) (e : Nat × Bool) : State :=
  if s.fabric.remotes.any fun r => r.p = p && r.tile = e.1 && (match r.load with
      | some (a, b, _) => a = w && b = q
      | none => false) then s
  else match s.translate p (src + e.1) {} with
    | .ok (.peer m v) =>
      let vl := s.laneOf p 7
      let (s, psn) := s.takePsn p vl
      let k := mkPacket s.moduleNumber p
        { dstMod := m, dstPart := (s.peerPartition p m).getD 0, ptype := ptReadReq, vl := vl, prio := 7, psn := psn, addr := v,
          kind := 3 } []
      let r : Remote := { p := p, psn := psn, vl := vl, mover := loadMover, tile := e.1, write := false, packet := k,
                          attempts := 1, since := s.now, load := some (w, q, e.2) }
      let s := s.send k
      let s := s.onLoads p fun l => l.map fun d => if d.s = w && d.q = q then { d with recIdx := i } else d
      { s with fabric := { s.fabric with remotes := s.fabric.remotes ++ [r] } }
    | .ok _ => s.failLoad p w q
    | .error f => ((s.noteFault p f).dropLoad p w q).complete p w q (.translation f)

/-- The sweep records whose state an IMPORT mode 2 has written: what a hard loss before the next SWEEP would lose (R368). -/
def State.importedRecs (s : State) (p : Nat) (recs : List U1024) : List SweepRec :=
  recs.zipIdx.map fun e =>
    let r : SweepRec := { idx := e.2, raw := e.1, stack := 0, wFmt := 3, wBlk := 0, gFmt := 5, gBlk := 0, rows := [] }
    match s.vread p r.wAddr 64 with
    | .ok h => { r with wFmt := (frameHeader h).fmt, wBlk := (frameHeader h).blk }
    | _ => r

/-- Go on with a started IMPORT mode 2: it writes once every record is verified, and sets Part.StateIntact (R369). -/
def State.continueImport (s : State) (p w q : Nat) : State :=
  match s.runningCmd p w q opImport with
  | none => s
  | some k =>
    let x := s.partn p
    let src := k.f 445 398
    match s.readLists p (k.f 397 350) (k.f 349 334) (k.f 333 286) (k.f 285 270) with
    | .error (o, e) => ((s.noteRead p e).dropLoad p w q).complete p w q o
    | .ok (recs, xrecs) =>
      match s.planImport p src (x.loads.find? fun l => l.s = w && l.q = q) recs xrecs with
      | .error (i, .want offs) => offs.foldl (fun s o => s.askLoad p w q src i o) s
      | .error (_, .ends o e) => ((s.noteRead p e).dropLoad p w q).complete p w q o
      | .error (i, .failed e) => (((s.noteRead p e).bumpP p 0x8040 8 1).dropLoad p w q).complete p w q (.fault cauVerify i)
      | .error (i, .ok _) => ((s.bumpP p 0x8040 8 1).dropLoad p w q).complete p w q (.fault cauVerify i)
      | .ok l =>
        let s := l.foldl (fun s e => (e.2.zipIdx).foldl (fun s f => match s.vwrite p (e.1 + f.2 * frameBytes) f.1 with
          | .ok s' => s'
          | .error _ => s) s) (s.dropLoad p w q)
        let rs := s.importedRecs p recs
        (s.onPartn p fun x => { x with stateIntact := true, imported := true, importRecs := rs }).complete p w q .ok

/-- R308. IMPORT mode 2: it starts, and goes on once what it asked a peer for has arrived. -/
def execImportShard (p w q : Nat) (s : State) : Res :=
  match s.cmd p w q with
  | none => .next s
  | some k =>
    if k.f 447 446 ≠ 2 || !s.working then .next s
    else
      let s := s.startCmd p w q opImport fun k s =>
        if (s.partn p).step ≠ .idle then s.complete p w q (.stepState (s.partn p))
        else if s.peerSource p (k.f 445 398) then s.onLoads p fun l => l ++ [{ s := w, q := q }]
        else s
      .next (s.continueImport p w q)

/-! ## The orphan-hold export (R325) -/

/-- A shard record as the frames of a tier object: tile 0 is an I8 frame whose payload ends with the 128-byte header, and the
record's frames follow, so that a promoted object holds the record in one piece from its byte 4,544 on (DESIGN CHOICE,
assumption log 34). -/
def shardObject (h : List Byte) (fs : List (List Byte)) : List (List Byte) :=
  mkFrame { fmt := 7, tensor := bits (leNat h) 1023 992 } (List.replicate 512 0) (List.replicate 3968 0 ++ h) :: fs

/-- Bytes of flash that objects use (R163). -/
def objectBytes (tiles : Nat) : Nat := (tiles + 63) / 64 * 299136

/-- The records of the last committed SWEEP and the last EXCHANGE, with every role; where state does not read, what the read gave. -/
def State.orphanRecords (s : State) (p : Nat) : Except VRead (List (List (List Byte))) :=
  let x := s.partn p
  match s.shapes p (x.shardParts 31 (x.lastSweep.map fun r => r.raw) x.lastXList (s.sourceFmt p)) with
  | (_, some (_, _, e)) => .error e
  | (l, none) => l.foldl (fun acc e => match acc with
    | .error e => .error e
    | .ok a => match s.shardRecord p e with
      | .ok (h, fs) => .ok (a ++ [shardObject h fs])
      | .error (_, e) => .error e) (.ok [])

/-- Write objects of the orphan-hold export, each extent with the next write sequence number of the namespace (R164). -/
def State.putOrphans (s : State) (p first : Nat) (version : U64) : List (List (List Byte)) → State
  | [] => s
  | fs :: r =>
    let n := (fs.length + 63) / 64
    let seq := (s.partn p).flashSeq
    let s := s.setObj p first
      { version := version, flashVersion := version, frames := fs, seqs := (List.range n).map fun i => seq + i }
    let s := s.onPartn p fun x => { x with flashSeq := seq + n }
    { s with lake := { s.lake with bytesFlash := s.lake.bytesFlash + n * 299136 } }.putOrphans p (first + 1) version r

/-- The export of R325: an uncommitted step is discarded with cause ORPHAN, the records become tier objects, and the state
becomes EXPORTED; when the namespace lacks space, the flash tier is read-only (DEDUCED, assumption log 140), or state does not read,
event 0x6104 reports 0 objects. -/
def State.orphanExport (s : State) (p : Nat) : State :=
  let x := s.partn p
  let s := if x.step = .opened || x.step = .sealed || x.step = .exchanged then s.enterDiscarded p cauOrphan else s
  let x := s.partn p
  let first := (x.objects.map fun e => e.1).foldl (fun m n => Max.max m (n + 1)) 0
  let space := s.setting p 0x3000 (13 + p) * 10 ^ 9
  match s.orphanRecords p with
  | .error e => (s.noteRead p e).raiseP 0x6104 p [0, 0]
  | .ok l =>
    if s.lake.readOnly || space < x.extentBytes + (l.map fun fs => objectBytes fs.length).sum || 2097152 < x.objects.length + l.length ||
        l.any (fun fs => decide (1048576 < fs.length)) || 2 ^ 32 ≤ first + l.length then s.raiseP 0x6104 p [0, 0]
    else
      let s := s.putOrphans p first x.version l
      let s := s.onPartn p fun x => { x with st := .exported, orphanExport := first }
      s.raiseP 0x6104 p [first, l.length]

end Sys2Proof.Machine
end

