-- ==== Sys2Proof/Machine/Streams.lean ====
section
/-! DEFINITION. The host interface of chapter 11: BAR registers, stream contexts, doorbells, acceptance, aborts, sessions, leases
and orphan mode (R290 to R302, R316 to R318, R321 to R327). -/

namespace Sys2Proof.Machine

/-! ## Configuration space (R290) -/

/-- The class code that every function reports: processing accelerator. -/
def classCode : BitVec 24 := 0x120000

/-- The PCI Express link status register: negotiated width in [9:4], the code of the rate in [3:0], 6 for 64 GT/s (PRESUMED,
assumption log 133: the layout is that of the PCI Express specification). -/
def State.linkStatus (s : State) : BitVec 16 :=
  BitVec.ofNat 16 (16 * s.power.hostWidth + if s.power.hostGts = 0 then 0 else Nat.log2 s.power.hostGts)

/-- The functions are ready: PERST_N is high and the module has left its start (R446). -/
def State.functionsReady (s : State) : Bool :=
  s.power.perstN && match s.phase with
    | .off | .starting => false
    | _ => true

/-- The answer to a configuration read of a word of function p; none is Request Retry Status (R446). BARs 0, 2 and 4 are 64-bit memory
BARs that are not prefetchable (R292). -/
def State.configRead (s : State) (p off : Nat) : Option U32 :=
  let c := (s.partn p).regs.config
  if !s.functionsReady then none
  else if off = 0x04 then some (c.command.setWidth 32)
  else if off = 0x08 then some (classCode.setWidth 32 <<< 8)
  else if 0x10 ≤ off && off < 0x28 then
    let i := (off - 0x10) / 4
    some (if i % 2 = 0 then c.bars.get i 0 ||| 4 else c.bars.get i 0)
  else some (Config.configWord p off)

/-! ## Contexts (R296, R297) -/

/-- A stream of an existing partition (R295). -/
def State.streamExists (s : State) (p w : Nat) : Bool := decide (p < 4 ∧ w < s.contexts p)

/-- STATE. BLOCKED: a record is held, or acceptance is paused. -/
def Stream.stateCode (m : Stream) (paused : Bool) : Nat :=
  if !m.en then 0
  else if !m.held.isEmpty || paused then 3
  else if m.journal.isEmpty then 1 else 2

/-- A context as its 512 bits. -/
def Stream.val (m : Stream) (paused : Bool) : Nat :=
  fld m.cmdBase.toNat 464 + fld m.cmdLog2.toNat 460 + fld m.cplBase.toNat 412 + fld m.cplLog2.toNat 408 + fld m.prio.toNat 405 +
  fld m.kind.toNat 403 + fld m.vector.toNat 392 + fld (b2n m.en) 391 + fld (m.stateCode paused) 388 + fld m.accept.toNat 340 +
  fld m.cplTail.toNat 292 + fld m.startSeq.toNat 244

/-- The writable fields of a context from its 512 bits, EN apart. -/
def Stream.fields (m : Stream) (v : Nat) : Stream :=
  { m with
    cmdBase := BitVec.ofNat 48 (bits v 511 464)
    cmdLog2 := BitVec.ofNat 4 (bits v 463 460)
    cplBase := BitVec.ofNat 48 (bits v 459 412)
    cplLog2 := BitVec.ofNat 4 (bits v 411 408)
    prio := BitVec.ofNat 3 (bits v 407 405)
    kind := BitVec.ofNat 2 (bits v 404 403)
    vector := BitVec.ofNat 11 (bits v 402 392)
    startSeq := BitVec.ofNat 48 (bits v 291 244) }

/-- Setting EN. -/
def Stream.enable (m : Stream) : Stream :=
  if m.en then m
  else { m with en := true, accept := m.startSeq, doorbell := m.startSeq, cplTail := 0, cplHead := 0 }

/-- The module is RUNNING with power. -/
def State.up (s : State) : Bool := s.phase = .running && !s.power.powerFail

/-- The functions take writes: the module is up and PERST_N is high (R446, R447). -/
def State.hostWrites (s : State) : Bool := s.up && s.power.perstN

/-- R297. Setting EN. -/
def State.enableStream (s : State) (p w : Nat) : State :=
  if s.streamExists p w then s.onStream p w Stream.enable else s

/-- R297. Clearing EN: ignored while an accepted command has not completed; a held record counts as one, since no record is
dropped (DEDUCED, assumption log 35). -/
def State.disableStream (s : State) (p w : Nat) : State :=
  let m := s.stream p w
  if !s.streamExists p w || !m.en || !m.journal.isEmpty || !m.held.isEmpty then s
  else (s.onStream p w fun m => { m with en := false }).unpinAll p w

/-- R297. Setting EN loads ACCEPT, clears CPL_TAIL and makes the stream IDLE. -/
def execStreamEnable (p w : Nat) (s : State) : Res := .next (if s.hostWrites then s.enableStream p w else s)

/-- R297. Clearing EN. -/
def execStreamDisable (p w : Nat) (s : State) : Res := .next (if s.hostWrites then s.disableStream p w else s)

/-! ## Acceptance (R299 to R301) -/

/-- a comes before or at b, modulo 2^48 (R299). -/
def seqLe (a b : U48) : Bool := decide ((b - a).toNat < 2 ^ 47)

/-- The journal tail that the hold-up energy writes to flash (R437) bounds what an acceptance may leave unmirrored (R301). Below 512 KiB
an acceptance adds nothing to it, since its record is mirrored first. -/
def State.tailFull (s : State) : Bool :=
  let tail := Min.min 4194304 s.power.sensors.holdupTail
  decide (tail < s.sup.unmirrored + if tail < 524288 then 0 else 64)

/-- Acceptance of a stream pauses (R301, R437). -/
def State.acceptPaused (s : State) (p w : Nat) : Bool :=
  let x := s.partn p
  decide (256 ≤ (x.stream w).journal.length) || x.st = .orphan || x.st = .parked || x.st = .exported || s.sup.failover || s.tailFull

/-- Accept the next command of a stream (R300, R304); an acceptance in SLEEP starts the wake (R440). -/
def State.acceptOne (s : State) (p w : Nat) : State :=
  let x := s.partn p
  let m := x.stream w
  let q := m.accept.toNat
  let va := m.cmdBase.toNat + 64 * (q % m.cmdEntries)
  let rd := s.vread p va 64
  let k : Cmd := { seq := q, order := s.sup.acceptOrder, raw := match rd with
    | .ok bs => BitVec.ofNat 512 (leNat bs)
    | _ => 0 }
  let s := s.noteRead p rd
  let s := s.onStream p w fun m => { m with journal := m.journal ++ [k], accept := m.accept + 1 }
  let s := { s with sup := { s.sup with
    unmirrored := s.sup.unmirrored + 64
    acceptOrder := s.sup.acceptOrder + 1 } }
  let s := (s.bumpP p 0x80B0 1 1).startWake
  match rd with
  | .ok _ => match s.entryRejection p w k with
    | some o => s.complete p w q o
    | none => s
  | r => s.complete p w q (r.outcome va)

/-- The end of a pause is counted (R301). -/
def State.endPause (s : State) (p w : Nat) : State :=
  match (s.stream p w).pausedSince with
  | none => s
  | some t => (s.onStream p w fun m => { m with pausedSince := none }).bumpP p 0x80B0 6 (s.now - t)

/-- A doorbell covers a command that is not accepted yet. -/
def Stream.covered (m : Stream) : Bool := m.en && m.accept ≠ m.doorbell

/-- Whether acceptance of a stream is paused is noted: a pause begins, or ends and is counted (R301). It is noted whenever time
passes (Machine/Clock.lean). -/
def State.settlePause (s : State) (p w : Nat) : State :=
  let m := s.stream p w
  if m.en && s.acceptPaused p w then s.onStream p w fun m => { m with pausedSince := some (m.pausedSince.getD s.now) }
  else s.endPause p w

/-- The same for every stream. -/
def State.settlePauses (s : State) : State :=
  s.existing.foldl (fun s p => (s.partn p).streams.foldl (fun s e => s.settlePause p e.1) s) s

/-- R300. The System Supervisor accepts the next command of a stream. Where the hold-up energy allows no 512 KiB, the acceptance
waits for its journal record to be mirrored (R437). -/
def execCommandAccept (p w : Nat) (s : State) : Res :=
  if !s.streamExists p w || !(s.stream p w).covered || !s.up then .next s
  else if s.acceptPaused p w then .next s
  else if 524288 ≤ s.power.sensors.holdupTail then .next (s.acceptOne p w)
  else if s.sup.acceptWaits.any fun e => e.1 = p && e.2.1 = w then .next s
  else .next { s with sup := { s.sup with
    acceptWaits := s.sup.acceptWaits ++ [(p, w, s.sup.unmirrored + 64)]
    unmirrored := s.sup.unmirrored + 64 } }

/-- The acceptance of a command whose record stands in the mirrored journal; one that a pause of another kind has met since is left to the
doorbell. -/
def State.acceptMirrored (s : State) (p w : Nat) : State :=
  if (s.stream p w).covered && !s.acceptPaused p w then
    let n := s.sup.unmirrored
    let s := s.acceptOne p w
    { s with sup := { s.sup with unmirrored := n } }
  else s

/-- R301, R437. Some bytes of the journal tail, oldest first, have been mirrored to flash; an acceptance is made once its own record is. -/
def execJournalTailMirrored (n : Nat) (s : State) : Res :=
  let waits := s.sup.acceptWaits.map fun e => (e.1, e.2.1, e.2.2 - n)
  let s := { s with sup := { s.sup with unmirrored := s.sup.unmirrored - n, acceptWaits := waits } }
  if !s.up || s.sup.failover then .next s
  else
    let s := { s with sup := { s.sup with acceptWaits := waits.filter fun e => e.2.2 ≠ 0 } }
    .next ((waits.filter fun e => e.2.2 = 0).foldl (fun s e => s.acceptMirrored e.1 e.2.1) s)

/-! ## Aborts (R316 to R318) -/

/-- Accept the commands that the doorbell covers up to A, pause or not (R316). -/
def State.acceptTo (s : State) (p w : Nat) (a : U48) : Nat → State
  | 0 => s
  | n + 1 =>
    let m := s.stream p w
    if m.covered && seqLe m.accept a then (s.acceptOne p w).acceptTo p w a n else s

/-- The abort wins against a command: it has not reached its commit point, which for a MARK_WAIT is the target reached (R313, R316), and
it is no STEP_COMMIT of a step that
a sweep has passed (R317). -/
def Partition.abortWins (x : Partition) (a : U48) (k : Cmd) : Bool :=
  seqLe (BitVec.ofNat 48 k.seq) a && (k.phase = .accepted || k.phase = .running || k.phase = .stopping) &&
  !(k.op = opMarkWait && k.phase = .running && k.satisfied) && !(k.op = opStepCommit && (x.step = .sweeping || x.step = .swept) && k.step = x.stepNo.toNat)

/-- A running RUN is stopped; its record follows when its cores have stopped (R110, R317). -/
def State.abortRun (s : State) (p w q : Nat) : State :=
  match s.segment p w q with
  | some _ =>
    let s := s.onCmd p w q fun k => { k with phase := .aborting }
    s.onSegment p w q fun g => { g with
      stopAt := if g.stop.isNone then s.now else g.stopAt
      stop := match g.stop with
        | some .hard => some .hard
        | _ => some .abort }
  | none => (s.endServe p w q).complete p w q { status := stAborted }

/-- The tokens that a request has delivered: the COUNT of its REQUEST_OPEN (R309). -/
def Partition.tokensOf (x : Partition) (w q : Nat) : Nat :=
  match x.requests.find? fun r => r.stream = w && r.openSeq = q with
  | some r => r.tokens
  | none => 0

/-- What R317 leaves of a command that an abort has won. -/
def State.abortOne (s : State) (p w : Nat) (k : Cmd) : State :=
  let ended : Outcome := { status := stAborted }
  if k.phase = .accepted then s.complete p w k.seq ended
  else if k.op = opRun then s.abortRun p w k.seq
  else if k.op = opMove then
    let s := s.onCmd p w k.seq fun k => { k with phase := .aborting }
    s.allMovers.foldl (fun s m => match (s.queue m).find? fun d => d.origin = (p, w, k.seq) with
      | some d => s.settleMove m d
      | none => s) s
  else if k.op = opExchange then
    (s.cancelWhere p fun r => r.s = w && r.q = k.seq && !r.scheduled).complete p w k.seq ended
  else if k.op = opPromote || k.op = opDemote || k.op = opPin || k.op = opUnpin then
    (s.forgetTier p w k.seq).complete p w k.seq ended
  else if k.op = opImport then ((s.forgetTier p w k.seq).dropLoad p w k.seq).complete p w k.seq ended
  else if k.op = opReqOpen then
    let n := (s.partn p).tokensOf w k.seq
    (s.onPartn p fun x => x.onRequest w k.seq fun r => { r with ended := true }).complete p w k.seq { ended with count := n }
  else if k.op = opReqFeed then
    (s.onPartn p fun x => x.onServes fun v => { v with
      requests := v.requests.map fun r =>
        if r.stream = w then { r with feeds := r.feeds.filter fun f => f.seq ≠ k.seq } else r }).complete p w k.seq ended
  else s.complete p w k.seq ended

/-- R316 to R318. An abort up to A. -/
def State.abortStream (s : State) (p w : Nat) (a : U48) : State :=
  let m := s.stream p w
  if !s.streamExists p w || !m.en then s
  else
    let s := s.acceptTo p w a (m.doorbell - m.accept).toNat
    let x := s.partn p
    let hits := (x.stream w).journal.filter (x.abortWins a)
    let s := s.onStream p w fun m => { m with
      aborts := m.aborts ++ [{ upTo := a, count := hits.length, waiting := hits.map fun k => k.seq }] }
    let s := s.unpinAll p w
    let past := x.step = .sweeping || x.step = .swept
    let s := if x.step ≠ .idle && x.stepOwner = w && (past || !hits.isEmpty) then s.abortStep p w else s
    let s := hits.foldl (fun s k => s.abortOne p w k) s
    let s := (s.settleOwed p).settleFeeds p w (x.serviceOf w)
    s.writeAborts p w (s.stream p w).aborts

/-! ## Doorbells (R298, R299, R310) -/

/-- A doorbell value D (R299): ignored, counted and reported when it lies behind an earlier one or exceeds ACCEPT + entries. -/
def State.ringDoorbell (s : State) (p w : Nat) (d : U48) : State :=
  let m := s.stream p w
  if !s.streamExists p w || !m.en then s
  else if !seqLe m.doorbell d || decide (m.cmdEntries < (d - m.accept).toNat) then
    (s.bumpP p 0x80B0 7 1).raiseP 0x6110 p [w, d.toNat]
  else s.onStream p w fun m => { m with doorbell := d }

/-- CPL_HEAD (R310). -/
def State.setCplHead (s : State) (p w : Nat) (h : U48) : State :=
  if !s.streamExists p w || !(s.stream p w).en then s
  else (s.onStream p w fun m => { m with cplHead := h }).flushHeld p w

/-- A write to a doorbell page: kind 0 CMD_DOORBELL, 1 ABORT_DOORBELL, 2 CPL_HEAD. -/
def State.pageWrite (s : State) (kind p w : Nat) (v : U64) : State :=
  let x := v.setWidth 48
  if kind = 0 then s.ringDoorbell p w x else if kind = 1 then s.abortStream p w x else s.setCplHead p w x

/-- Doorbell writes are latched before the module is RUNNING and while a failover runs, and acted on afterwards (R359, R446). -/
def State.pageWriteOrLatch (s : State) (kind p w : Nat) (v : U64) : State :=
  if s.power.powerFail || !s.power.perstN then s
  else if s.phase = .running && !s.sup.failover then s.pageWrite kind p w v
  else if s.phase = .off || s.phase = .faulted then s
  else { s with sup := { s.sup with latched := s.sup.latched ++ [(kind, p, w, v)] } }

/-- The latched writes are acted on, in order. -/
def State.releaseLatched (s : State) : State :=
  let l := s.sup.latched
  l.foldl (fun s e => s.pageWrite e.1 e.2.1 e.2.2.1 e.2.2.2) { s with sup := { s.sup with latched := [] } }

/-- R299. CMD_DOORBELL; `hostWrites` is what host software has stored in its memory before it. -/
def execCmdDoorbell (p w : Nat) (d : U64) (hostWrites : List (Nat × List Byte)) (s : State) : Res :=
  let s := hostWrites.foldl (fun s e => { s with host := s.host.putBytes e.1 e.2 }) s
  .next (s.pageWriteOrLatch 0 p w d)

/-- R316. ABORT_DOORBELL. -/
def execAbortDoorbell (p w : Nat) (a : U64) (s : State) : Res := .next (s.pageWriteOrLatch 1 p w a)

/-- R310. CPL_HEAD. -/
def execCplHead (p w : Nat) (h : U64) (s : State) : Res := .next (s.pageWriteOrLatch 2 p w h)

/-! ## Sessions and leases (R321 to R327, R396) -/

def Partition.onRegs (x : Partition) (f : FnRegs → FnRegs) : Partition := { x with regs := f x.regs }

/-- A token that is not zero and that the partition has not had (R321). -/
def newToken (old : List U64) (t : U64) : U64 :=
  if t ≠ 0 && !old.contains t then t
  else ((List.range (old.length + 1)).map fun i => BitVec.ofNat 64 (i + 1)).find? (fun v => !old.contains v) |>.getD 1

/-- An ATTACH that is refused (R321). -/
def State.refuseAttach (s : State) (p : Nat) (v : U64) : State := (s.bumpP p 0x80B0 15 1).raiseP 0x6106 p [v.toNat]

/-- The session starts or resumes: features are agreed (R396), the lease runs, the orphan hold ends. -/
def State.beginSession (s : State) (p : Nat) (token : U64) : State :=
  s.onPartn p fun x => { x with
    st := .attached
    leaseFrom := s.now
    leaseExpired := false
    orphanSince := none
    holdElapsed := false
    parkedByLoss := false
    tokens := if x.tokens.contains token then x.tokens else x.tokens ++ [token]
    regs := { x.regs with
      session := token
      featAgreed := x.regs.featHost &&& BitVec.ofNat 128 s.features } }

/-- One entry of a list of R326: stream, opcode, status, SEQ. -/
def listEntry (w op status q : Nat) : List Byte :=
  leBytes 2 w ++ [BitVec.ofNat 8 op, BitVec.ofNat 8 status] ++ leBytes 6 q ++ List.replicate 6 0

/-- The place of a SEQ among those that a stream has accepted: SEQs compare modulo 2^48 (R299). -/
def Stream.rank (m : Stream) (q : Nat) : Nat := (BitVec.ofNat 48 q - m.accept - BitVec.twoPow 48 47).toNat

/-- Commands of a stream in SEQ order. -/
def Stream.inOrder (m : Stream) (l : List Cmd) : List Cmd := sortBy (fun a b => decide (m.rank a.seq ≤ m.rank b.seq)) l

/-- The entries of a stream: uncompleted commands as HELD, held records with their own status, in SEQ order. -/
def Stream.entries (w : Nat) (m : Stream) : List (List Byte) :=
  let l := (m.journal.map fun k => (k.seq, listEntry w k.op stHeld k.seq)) ++
    m.held.map fun c => (c.seq.toNat, listEntry w c.opcode.toNat c.status.toNat c.seq.toNat)
  (sortBy (fun a b => decide (m.rank a.1 ≤ m.rank b.1)) l).map fun e => e.2

/-- R326. The new session replaces the old: every stream is disabled, and the list names what never gets a record. -/
def State.replaceSession (s : State) (p : Nat) : State :=
  let x := s.partn p
  let es := x.streams.flatMap fun e => Stream.entries e.1 e.2
  let s := x.streams.foldl (fun s e => s.unpinAll p e.1) s
  let s := s.bump 0x8010 4 (x.streams.map fun e => e.2.journal.length).sum
  let s := s.onPartn p fun x => { x with
    replaced := es.flatten
    loads := []
    serves := []
    streams := (x.streams.map fun e => (e.1, { e.2 with
      en := false
      journal := []
      held := []
      aborts := [] })).filter fun e => e.2 ≠ {} }
  (if x.serves.isEmpty then s else s.runPeriodEnd p).raiseP 0x6105 p [es.length]

/-- Held records of every stream are written as ring space allows. -/
def State.flushAll (s : State) (p : Nat) : State := (s.partn p).streams.foldl (fun s e => s.flushHeld p e.1) s

/-- ATTACH (R321, R324, R326). -/
def State.attach (s : State) (p : Nat) (v : U64) : State :=
  let x := s.partn p
  if x.st = .none then s
  else if v ≠ 0 && v = x.regs.session && x.st = .attached then s.onPartn p fun x => { x with leaseFrom := s.now }
  else
    let fresh := v = 0 && (x.st = .detached || x.st = .exported)
    let resume := v ≠ 0 && v = x.regs.session && (x.st = .orphan || x.st = .parked || x.st = .exported)
    if (!fresh && !resume) || !x.regs.featHost.getLsbD 0 then s.refuseAttach p v
    else if fresh then
      let s := if x.st = .exported then s.replaceSession p else s
      (s.fresh.beginSession p (newToken x.tokens (Config.token s.freeUsed)))
    else ((s.beginSession p v).raiseP 0x6102 p []).flushAll p

/-- R321. ATTACH; in SLEEP it starts the wake (R440). -/
def execAttach (p : Nat) (v : U64) (s : State) : Res := .next (if s.hostWrites then (s.attach p v).startWake else s)

/-- R322. LEASE: the current token renews the lease of an attached session; any other value is counted. -/
def State.renewLease (s : State) (p : Nat) (v : U64) : State :=
  let x := s.partn p
  if x.st = .none then s
  else if v = 0 || v ≠ x.regs.session then s.bumpP p 0x80B0 15 1
  else if x.st = .attached && !x.leaseExpired then s.onPartn p fun x => { x with leaseFrom := s.now }
  else s

def execLease (p : Nat) (v : U64) (s : State) : Res := .next (if s.hostWrites then s.renewLease p v else s)

/-- The state becomes ORPHAN (R323 step 1). -/
def State.enterOrphan (s : State) (p : Nat) : State :=
  let s := s.onPartn p fun x => { x with st := .orphan, leaseExpired := false, orphanSince := some s.now }
  (s.bumpP p 0x80B0 8 1).raiseP 0x6101 p []

/-- The lease expires; while a failover runs the expiry is latched (R359). -/
def State.expireLease (s : State) (p : Nat) : State :=
  if (s.partn p).st ≠ .attached then s
  else if s.sup.failover then s.onPartn p fun x => { x with leaseExpired := true }
  else s.enterOrphan p

/-- R323. The lease has expired; lease timers do not run during a warm reset (R448). -/
def execLeaseExpiry (p : Nat) (s : State) : Res := .next (if s.up then s.expireLease p else s)

/-- Work of an ORPHAN partition goes on: a command runs, a serving RUN between passes apart, a request is open, or the stream
of an open step may start its next command or waits for the launch of a RUN (R323). -/
def State.orphanWork (s : State) (p : Nat) : Bool :=
  let x := s.partn p
  x.requests.any (fun r => !r.ended) ||
  x.commands.any fun e =>
    (e.2.phase ≠ .accepted && !(e.2.serve && x.serves.any fun v => v.s = e.1 && v.q = e.2.seq && v.batch.isNone)) ||
    s.mayStart p e.1 e.2 || (e.2.img.isSome && x.leaseAllows e.1)

/-- R323. An ORPHAN partition without work becomes PARKED; an export that is due is written (R325). -/
def execPartitionPark (p : Nat) (s : State) : Res :=
  let x := s.partn p
  if x.st ≠ .orphan || s.orphanWork p || !s.up then .next s
  else
    let s := (s.onPartn p fun x => { x with st := .parked }).raiseP 0x6103 p []
    .next (if x.holdElapsed then (s.orphanExport p).onPartn p fun x => { x with holdElapsed := false } else s)

/-- R325. Part.OrphanHold after entry to ORPHAN. -/
def execOrphanHoldExpiry (p : Nat) (s : State) : Res :=
  let x := s.partn p
  if x.orphanSince.isNone || !s.up then .next s
  else
    let s := s.onPartn p fun x => { x with orphanSince := none }
    .next (if x.st = .parked then s.orphanExport p
      else if x.st = .orphan then s.onPartn p fun x => { x with holdElapsed := true } else s)

/-- The mailbox's open change set and staging buffer are discarded (R393). -/
def Session.discard (x : Session) : Session := { x with openSet := none, staging := [], stagingOn := false }

def State.onSession (s : State) (n : Nat) (f : Session → Session) : State :=
  { s with mgmt := { s.mgmt with sessions := s.mgmt.sessions.put n (f (s.mgmt.sessions.get n {})) {} } }

/-- A set that is still open goes with its session. -/
def State.dropOpenSet (s : State) (n : Nat) : State :=
  { s with mgmt := { s.mgmt with sets := s.mgmt.sets.filter fun c => !(c.sess = n && c.phase = .opened) } }

/-- The configuration space and the MSI-X table of a function take their reset values, with no message pending (R327, R447). -/
def FnRegs.msixClear (r : FnRegs) : FnRegs := { r with msixTable := [], msixPending := [], config := {} }

/-- R327. A Function Level Reset of PF p. -/
def execFunctionLevelReset (p : Nat) (s : State) : Res :=
  if 4 ≤ p || !s.hostWrites then .next s
  else
    let s := s.onPartn p fun x => x.onRegs FnRegs.msixClear
    let s := if p = 0 then (s.dropOpenSet 0).onSession 0 Session.discard else s
    .next (s.expireLease p)

/-! ## Partition registers and the other registers (R293, R294) -/

/-- PT_ROOT keeps [40:12] and V. -/
def ptRootMask : U64 := 0x1FFFFFFF001

/-- R294. PT_ROOT. -/
def State.setPtRoot (s : State) (p : Nat) (v : U64) : State :=
  if (s.partn p).st = .none then s else s.onPartn p fun x => x.onRegs fun r => { r with ptRoot := v &&& ptRootMask }

def execPtRoot (p : Nat) (v : U64) (s : State) : Res := .next (if s.hostWrites then s.setPtRoot p v else s)

/-- Post the waiting fault records while there is room. -/
def State.postFaults (s : State) (p : Nat) : Nat → State
  | 0 => s
  | n + 1 => (s.postFault p).postFaults p n

/-- R320. FQ_HEAD. -/
def State.setFqHead (s : State) (p : Nat) (v : U64) : State :=
  if (s.partn p).st = .none then s
  else
    let s := s.onPartn p fun x => x.onRegs fun r => { r with fqHead := v }
    s.postFaults p (s.partn p).faultWaiting.length

def execFqHead (p : Nat) (v : U64) (s : State) : Res := .next (if s.hostWrites then s.setFqHead p v else s)

/-- A discarded access is counted (R293). -/
def State.badAccess (s : State) (p : Nat) : State :=
  if (s.partn p).st = .none then s
  else (s.onPartn p fun x => x.onRegs fun r => { r with accessErr := r.accessErr + 1 }).bumpP p 0x80B0 13 1

/-- MB_CTRL (R392, R393): the request begins with the frame in MB_REQ; a write while BUSY is discarded and counted. -/
def State.mailboxCtrl (s : State) (v : U64) : State :=
  if s.mgmt.mbBusy then s.badAccess 0
  else { s with mgmt := { s.mgmt with mbBusy := true, mbReady := false, mbCtrl := v } }

/-- R393. A write to MB_CTRL starts a mailbox request; PF0 shows its mailbox only while partition 0 exists (R291). -/
def execMbCtrl (v : U64) (s : State) : Res := .next (if s.hostWrites && (s.partn 0).st ≠ .none then s.mailboxCtrl v else s)

/-- MB_REQ (R392, R393). -/
def State.mailboxReq (s : State) (offset : Nat) (v : U64) : State :=
  if s.mgmt.mbBusy then s.badAccess 0
  else { s with mgmt := { s.mgmt with mbReq := s.mgmt.mbReq.putBytes offset (leBytes 8 v.toNat) } }

/-- Replace 64-bit word i of a value. -/
def setQword (v i : Nat) (x : U64) : Nat := v - fld (bits v (64 * i + 63) (64 * i)) (64 * i) + fld x.toNat (64 * i)

/-- A write of a context's word i: any field while the stream is disabled, EN alone while it is enabled (R297). -/
def State.contextWrite (s : State) (p w i : Nat) (v : U64) : State :=
  if !s.streamExists p w then s
  else
    let m := s.stream p w
    let new := setQword (m.val false) i v
    let s := if m.en then s else s.onStream p w fun m => m.fields new
    if i ≠ 6 then s else if bit new 391 then s.enableStream p w else s.disableStream p w

/-- A 64-bit aligned write to BAR0; a function without a partition exposes its identity page alone (R291). -/
def State.bar0Write (s : State) (p offset : Nat) (v : U64) : State :=
  let regs := fun (f : FnRegs → FnRegs) => s.onPartn p fun x => x.onRegs f
  let exist := (s.partn p).st ≠ .none
  if offset = 0x20 then regs fun r => { r with featHost := (r.featHost >>> 64 <<< 64) ||| v.setWidth 128 }
  else if offset = 0x28 then regs fun r => { r with featHost := (v.setWidth 128 <<< 64) ||| (r.featHost.setWidth 64).setWidth 128 }
  else if !exist then s
  else if 0x2000 ≤ offset && offset < 0x3000 then
    if p ≠ 0 then s
    else if offset = 0x2000 then s.mailboxCtrl v
    else if 0x2400 ≤ offset && offset < 0x2800 then s.mailboxReq (offset - 0x2400) v
    else s
  else if 0x100000 ≤ offset then s.contextWrite p ((offset - 0x100000) / 64) (offset % 64 / 8) v
  else if offset = 0x1000 then s.setPtRoot p v
  else if offset = 0x1010 then s.attach p v
  else if offset = 0x1018 then s.renewLease p v
  else if offset = 0x1028 then regs fun r => { r with fqBase := v }
  else if offset = 0x1030 then regs fun r => { r with fqCtrl := v &&& 0x7FF000F }
  else if offset = 0x1040 then s.setFqHead p v
  else if offset = 0x1048 then
    match execFaultRespResume p (v.setWidth 32) s, execFaultRespFatal p (v.setWidth 32) s with
    | .next a, .next b => if v >>> 62 = 1 then a else if v >>> 62 = 2 then b else s
    | _, _ => s
  else if offset = 0x1050 then regs fun r => { r with evtVector := v &&& 0x80000000000007FF }
  else s

/-- Messages that are pending and no longer masked are sent (R292). -/
def State.sendPending (s : State) (p : Nat) : State :=
  let ready := (s.partn p).regs.msixPending.filter fun v => !(s.partn p).regs.masked v
  ready.foldl (fun s v => s.signal p v) (s.onPartn p fun x => x.onRegs fun r =>
    { r with msixPending := r.msixPending.filter fun v => r.masked v })

/-- A write to the MSI-X table; the pending-bit array behind it takes none (R292). -/
def State.msixWrite (s : State) (p offset size : Nat) (v : U64) : State :=
  if (s.partn p).st = .none || 0x8000 < offset + size then s
  else
    let bs := (leBytes (Min.min size 8) v.toNat).zipIdx.map fun e => e.1 ^^^ msixReset (offset + e.2)
    (s.onPartn p fun x => x.onRegs fun r => { r with msixTable := r.msixTable.putBytes offset bs }).sendPending p

/-- What a read of BAR4 gives: the MSI-X table, and from 0x8000 its pending bits. -/
def FnRegs.bar4 (r : FnRegs) (offset size : Nat) : List Byte :=
  (List.range size).map fun i =>
    let a := offset + i
    if a < 0x8000 then r.msixByte a
    else (List.range 8).foldl (fun b j => if r.msixPending.contains (8 * (a - 0x8000) + j) then b ||| BitVec.twoPow 8 j else b) 0

/-- R293. A write to a BAR register, whichever it is. BAR4 holds the MSI-X table, whose accesses R293 does not restrict. -/
def execRegisterWrite (p bar offset size : Nat) (v : U64) (s : State) : Res :=
  if 4 ≤ p || !s.hostWrites && bar ≠ 2 then .next s
  else if bar = 4 then
    .next (s.msixWrite p offset size v)
  else if size ≠ 8 || offset % 8 ≠ 0 then .next (s.badAccess p)
  else if bar = 0 then .next (s.bar0Write p offset v)
  else if bar = 2 && offset % 0x1000 / 8 < 3 then .next (s.pageWriteOrLatch (offset % 0x1000 / 8) p (offset / 0x1000) v)
  else .next s

/-- What a 64-bit read of BAR0 gives (R294, R296, R392). Nothing a read returns changes the state but the count of R293. -/
def State.bar0Read (s : State) (p offset : Nat) : U64 :=
  let x := s.partn p
  let r := x.regs
  if s.phase ≠ .running then 0
  else if offset = 0 then BitVec.ofNat 64 p
  else if offset = 8 then BitVec.ofNat 64 (s.contexts p)
  else if offset = 0x10 then BitVec.ofNat 64 s.features
  else if offset = 0x20 then r.featHost.setWidth 64
  else if offset = 0x28 then (r.featHost >>> 64).setWidth 64
  else if offset = 0x30 then r.featAgreed.setWidth 64
  else if offset = 0x38 then (r.featAgreed >>> 64).setWidth 64
  else if x.st = .none then 0
  else if 0x2000 ≤ offset && offset < 0x3000 then
    if p ≠ 0 then 0
    else if offset = 0x2008 then
      BitVec.ofNat 64 (fld (b2n s.mgmt.mbBusy) 63 + fld (b2n s.mgmt.mbReady) 62 + s.mgmt.mbRsp.length)
    else if offset = 0x2010 then BitVec.ofNat 64 s.nextEvent
    else if 0x2800 ≤ offset && offset < 0x2C00 then
      BitVec.ofNat 64 (leNat ((s.mgmt.mbRsp.drop (offset - 0x2800)).take 8))
    else 0
  else if 0x100000 ≤ offset then
    let w := (offset - 0x100000) / 64
    if s.streamExists p w then BitVec.ofNat 64 (((x.stream w).val (s.acceptPaused p w)) / 2 ^ (8 * (offset % 64))) else 0
  else if offset = 0x1000 then r.ptRoot
  else if offset = 0x1008 then (if x.st = .detached then 0 else r.session)
  else if offset = 0x1020 then BitVec.ofNat 64 (match x.st with
    | .none => 0
    | .detached => 1
    | .attached => 2
    | .orphan => 3
    | .parked => 4
    | .exported => 5)
  else if offset = 0x1028 then r.fqBase
  else if offset = 0x1030 then r.fqCtrl
  else if offset = 0x1038 then BitVec.ofNat 64 r.fqTail
  else if offset = 0x1040 then r.fqHead
  else if offset = 0x1050 then r.evtVector
  else if offset = 0x1058 then BitVec.ofNat 64 r.accessErr
  else 0

/-- R293, R298. A read of a BAR register: one that is not an aligned 64-bit access is answered with 0 and counted; the doorbell
pages read 0. The table has no row for a read, so this is a definition beside the commands. -/
def State.registerRead (s : State) (p bar offset size : Nat) : State × U64 :=
  if bar = 4 then (s, if (s.partn p).st = .none then 0 else BitVec.ofNat 64 (leNat ((s.partn p).regs.bar4 offset (Min.min size 8))))
  else if size ≠ 8 || offset % 8 ≠ 0 then (s.badAccess p, 0)
  else (s, if bar = 0 then s.bar0Read p offset else 0)

end Sys2Proof.Machine
end

