-- ==== Sys2Proof/Machine/Clock.lean ====
section
/-! DEFINITION. The passing of time. -/

namespace Sys2Proof.Machine

/-- What a step does on an empty queue: pauses of acceptance are noted, and module life (Id.LifeMicros) gains one
microsecond. -/
def tick (s : State) : State := { s.settlePauses with now := s.now + 1 }

end Sys2Proof.Machine
end

