-- ==== Sys2Proof/Machine/Flags.lean ====
section
/-! DEFINITION. The predicates: comparisons (R50, R93), and the unordered-comparison counter of a core (R190). -/

namespace Sys2Proof.Machine

/-- Format R of CMP: pD = f sA sB, with pD in [19:17]. -/
def formCmp (f : U64 → U64 → Bool) (h : Thread) (w : U32) : Thread :=
  h.setPred (wbits w 19 17) (f (h.reg (wSa w)) (h.reg (wSb w)))

/-- CMP's reserved bits SD [4:3] (Major opcodes). -/
def cmpReserved (w : U32) : Bool := wbits w 21 20 ≠ 0

/-- The unordered-comparison counter stops at 0xFFFF_FFFF (R190). -/
def addUnordered (n : Nat) (k : Core) : Core := { k with unordered := min (k.unordered + n) 0xFFFFFFFF }

/-- An FP32 comparison of two registers. -/
def fcmp (f : Val → Val → Bool) (a b : U64) : Bool := f (ofF32 (lowWord a)) (ofF32 (lowWord b))

/-- A pair with a NaN operand (R50). -/
def fcmpUnordered (a b : U64) : Bool := Val.unordered (ofF32 (lowWord a)) (ofF32 (lowWord b))

end Sys2Proof.Machine
end

