-- ==== Sys2Proof/Machine/Alu.lean ====
section
/-! DEFINITION. The scalar instructions: ALU and the immediate forms (R91, R93), LIS, LD and ST with the pond load's result
(R83, R88), and CMP (R50, R93). -/

namespace Sys2Proof.Machine

/-- ADD. -/
def aluAddOp (a b : U64) : U64 := a + b

/-- R93. ALU with FN ADD. -/
def execAluAdd (c t : Nat) (w : U32) (s : State) : Res :=
  .next (issue (isAlu 0x00) (onThreadAct (formR aluAddOp)) c t w s)

/-- SUB. -/
def aluSubOp (a b : U64) : U64 := a - b

/-- R93. ALU with FN SUB. -/
def execAluSub (c t : Nat) (w : U32) (s : State) : Res :=
  .next (issue (isAlu 0x01) (onThreadAct (formR aluSubOp)) c t w s)

/-- AND. -/
def aluAndOp (a b : U64) : U64 := a &&& b

/-- R93. ALU with FN AND. -/
def execAluAnd (c t : Nat) (w : U32) (s : State) : Res :=
  .next (issue (isAlu 0x02) (onThreadAct (formR aluAndOp)) c t w s)

/-- OR. -/
def aluOrOp (a b : U64) : U64 := a ||| b

/-- R93. ALU with FN OR. -/
def execAluOr (c t : Nat) (w : U32) (s : State) : Res :=
  .next (issue (isAlu 0x03) (onThreadAct (formR aluOrOp)) c t w s)

/-- XOR. -/
def aluXorOp (a b : U64) : U64 := a ^^^ b

/-- R93. ALU with FN XOR. -/
def execAluXor (c t : Nat) (w : U32) (s : State) : Res :=
  .next (issue (isAlu 0x04) (onThreadAct (formR aluXorOp)) c t w s)

/-- SHL. -/
def aluShlOp (a b : U64) : U64 := a <<< shiftAmount b

/-- R93. ALU with FN SHL. -/
def execAluShl (c t : Nat) (w : U32) (s : State) : Res :=
  .next (issue (isAlu 0x05) (onThreadAct (formR aluShlOp)) c t w s)

/-- SHR. -/
def aluShrOp (a b : U64) : U64 := a >>> shiftAmount b

/-- R93. ALU with FN SHR. -/
def execAluShr (c t : Nat) (w : U32) (s : State) : Res :=
  .next (issue (isAlu 0x06) (onThreadAct (formR aluShrOp)) c t w s)

/-- SRA. -/
def aluSraOp (a b : U64) : U64 := a.sshiftRight (shiftAmount b)

/-- R93. ALU with FN SRA. -/
def execAluSra (c t : Nat) (w : U32) (s : State) : Res :=
  .next (issue (isAlu 0x07) (onThreadAct (formR aluSraOp)) c t w s)

/-- MUL. -/
def aluMulOp (a b : U64) : U64 := a * b

/-- R93. ALU with FN MUL. -/
def execAluMul (c t : Nat) (w : U32) (s : State) : Res :=
  .next (issue (isAlu 0x08) (onThreadAct (formR aluMulOp)) c t w s)

/-- MULHU. -/
def aluMulhuOp (a b : U64) : U64 := BitVec.ofNat 64 (a.toNat * b.toNat / 2 ^ 64)

/-- R93. ALU with FN MULHU. -/
def execAluMulhu (c t : Nat) (w : U32) (s : State) : Res :=
  .next (issue (isAlu 0x09) (onThreadAct (formR aluMulhuOp)) c t w s)

/-- DIVU: a quotient by 0 is 0. -/
def aluDivuOp (a b : U64) : U64 := if b = 0 then 0 else BitVec.ofNat 64 (a.toNat / b.toNat)

/-- R93. ALU with FN DIVU. -/
def execAluDivu (c t : Nat) (w : U32) (s : State) : Res :=
  .next (issue (isAlu 0x0A) (onThreadAct (formR aluDivuOp)) c t w s)

/-- REMU: a remainder by 0 is the dividend. -/
def aluRemuOp (a b : U64) : U64 := if b = 0 then a else BitVec.ofNat 64 (a.toNat % b.toNat)

/-- R93. ALU with FN REMU. -/
def execAluRemu (c t : Nat) (w : U32) (s : State) : Res :=
  .next (issue (isAlu 0x0B) (onThreadAct (formR aluRemuOp)) c t w s)

/-- MIN (signed). -/
def aluMinOp (a b : U64) : U64 := if a.slt b then a else b

/-- R93. ALU with FN MIN (signed). -/
def execAluMin (c t : Nat) (w : U32) (s : State) : Res :=
  .next (issue (isAlu 0x0C) (onThreadAct (formR aluMinOp)) c t w s)

/-- MAX (signed). -/
def aluMaxOp (a b : U64) : U64 := if a.slt b then b else a

/-- R93. ALU with FN MAX (signed). -/
def execAluMax (c t : Nat) (w : U32) (s : State) : Res :=
  .next (issue (isAlu 0x0D) (onThreadAct (formR aluMaxOp)) c t w s)

/-- FADD. -/
def aluFaddOp (a b : U64) : U64 := zeroExt (f32Op fAdd (lowWord a) (lowWord b))

/-- R93. ALU with FN FADD. -/
def execAluFadd (c t : Nat) (w : U32) (s : State) : Res :=
  .next (issue (isAlu 0x10) (onThreadAct (formR aluFaddOp)) c t w s)

/-- FSUB. -/
def aluFsubOp (a b : U64) : U64 := zeroExt (f32Op fSub (lowWord a) (lowWord b))

/-- R93. ALU with FN FSUB. -/
def execAluFsub (c t : Nat) (w : U32) (s : State) : Res :=
  .next (issue (isAlu 0x11) (onThreadAct (formR aluFsubOp)) c t w s)

/-- FMUL. -/
def aluFmulOp (a b : U64) : U64 := zeroExt (f32Op fMul (lowWord a) (lowWord b))

/-- R93. ALU with FN FMUL. -/
def execAluFmul (c t : Nat) (w : U32) (s : State) : Res :=
  .next (issue (isAlu 0x12) (onThreadAct (formR aluFmulOp)) c t w s)

/-- FDIV. -/
def aluFdivOp (a b : U64) : U64 := zeroExt (f32Op fDiv (lowWord a) (lowWord b))

/-- R93. ALU with FN FDIV. -/
def execAluFdiv (c t : Nat) (w : U32) (s : State) : Res :=
  .next (issue (isAlu 0x13) (onThreadAct (formR aluFdivOp)) c t w s)

/-- FMIN (R51). -/
def aluFminOp (a b : U64) : U64 := zeroExt (f32Op Val.min (lowWord a) (lowWord b))

/-- R93. ALU with FN FMIN (R51). -/
def execAluFmin (c t : Nat) (w : U32) (s : State) : Res :=
  .next (issue (isAlu 0x14) (onThreadAct (formR aluFminOp)) c t w s)

/-- FMAX (R51). -/
def aluFmaxOp (a b : U64) : U64 := zeroExt (f32Op Val.max (lowWord a) (lowWord b))

/-- R93. ALU with FN FMAX (R51). -/
def execAluFmax (c t : Nat) (w : U32) (s : State) : Res :=
  .next (issue (isAlu 0x15) (onThreadAct (formR aluFmaxOp)) c t w s)

/-- ADDI. -/
def addiOp (a b : U64) : U64 := a + b

/-- R91. ADDI. -/
def execAddi (c t : Nat) (w : U32) (s : State) : Res :=
  .next (issue (isOp 0x01) (onThreadAct (formI addiOp)) c t w s)

/-- ANDI. -/
def andiOp (a b : U64) : U64 := a &&& b

/-- R91. ANDI. -/
def execAndi (c t : Nat) (w : U32) (s : State) : Res :=
  .next (issue (isOp 0x02) (onThreadAct (formI andiOp)) c t w s)

/-- ORI. -/
def oriOp (a b : U64) : U64 := a ||| b

/-- R91. ORI. -/
def execOri (c t : Nat) (w : U32) (s : State) : Res :=
  .next (issue (isOp 0x03) (onThreadAct (formI oriOp)) c t w s)

/-- XORI. -/
def xoriOp (a b : U64) : U64 := a ^^^ b

/-- R91. XORI. -/
def execXori (c t : Nat) (w : U32) (s : State) : Res :=
  .next (issue (isOp 0x04) (onThreadAct (formI xoriOp)) c t w s)

/-- SHLI. -/
def shliOp (a b : U64) : U64 := a <<< shiftAmount b

/-- R91. SHLI. -/
def execShli (c t : Nat) (w : U32) (s : State) : Res :=
  .next (issue (isOp 0x05) (onThreadAct (formI shliOp)) c t w s)

/-- SHRI. -/
def shriOp (a b : U64) : U64 := a >>> shiftAmount b

/-- R91. SHRI. -/
def execShri (c t : Nat) (w : U32) (s : State) : Res :=
  .next (issue (isOp 0x06) (onThreadAct (formI shriOp)) c t w s)

/-- SRAI. -/
def sraiOp (a b : U64) : U64 := a.sshiftRight (shiftAmount b)

/-- R91. SRAI. -/
def execSrai (c t : Nat) (w : U32) (s : State) : Res :=
  .next (issue (isOp 0x07) (onThreadAct (formI sraiOp)) c t w s)

/-- R91. LIS; bit [16] is reserved. -/
def execLis (c t : Nat) (w : U32) (s : State) : Res :=
  .next (issue (isOp 0x08) (reserveChecked (fun w => w.getLsbD 16) (onThreadAct formL)) c t w s)

/-- The halt of a scalar pond access, if it has one (R109, R117): the address must lie in the pond and be a multiple of 8.
-/
def scalarFault (a : Nat) : Option Nat :=
  if !inPond a 8 then some haltPondRange else if a % 8 ≠ 0 then some haltAlign else none

/-- LD: the value is read at issue (R88), its single-bit errors corrected (R118), and the thread waits for its result (R83). -/
def ldAct (c t : Nat) (w : U32) (s : State) : State :=
  let k := s.core c
  let a := ldstAddr (k.thread t) w
  match scalarFault a with
  | some code => haltAt code a c t w s
  | none =>
    if k.pondBadAt a 8 then haltAt haltPondEcc a c t w s
    else
      let v := BitVec.ofNat 64 (leNat (k.pond.bytes a 8))
      (s.correctPond c a 8).onThread c t fun h => { h.advance with st := .waiting (.load (wSd w) v) }

/-- R83. LD. -/
def execLd (c t : Nat) (w : U32) (s : State) : Res := .next (issue (isOp 0x09) (lockChecked ldAct) c t w s)

/-- R83. The result of a pond load reaches its register, and its thread becomes READY. -/
def execPondLoadResult (c t : Nat) (s : State) : Res :=
  match ((s.core c).thread t).st with
  | .waiting (.load sd v) => .next (s.onThread c t fun h => { h.setReg sd v with st := .ready })
  | _ => .next s

/-- ST: the store takes effect at issue (R88). -/
def stAct (c t : Nat) (w : U32) (s : State) : State :=
  let k := s.core c
  let a := ldstAddr (k.thread t) w
  match scalarFault a with
  | some code => haltAt code a c t w s
  | none =>
    let bs := leBytes 8 ((k.thread t).reg (wSd w)).toNat
    (s.onCore c fun k => k.pondWrite a bs).onThread c t Thread.advance

/-- R88. ST. -/
def execSt (c t : Nat) (w : U32) (s : State) : Res := .next (issue (isOp 0x0A) (lockChecked stAct) c t w s)

/-- EQ. -/
def cmpEqOp (a b : U64) : Bool := decide (a = b)

/-- R93. CMP with FN EQ. -/
def execCmpEq (c t : Nat) (w : U32) (s : State) : Res :=
  .next (issue (isCmp 0x00) (reserveChecked cmpReserved (onThreadAct (formCmp cmpEqOp))) c t w s)

/-- NE. -/
def cmpNeOp (a b : U64) : Bool := decide (a ≠ b)

/-- R93. CMP with FN NE. -/
def execCmpNe (c t : Nat) (w : U32) (s : State) : Res :=
  .next (issue (isCmp 0x01) (reserveChecked cmpReserved (onThreadAct (formCmp cmpNeOp))) c t w s)

/-- LT (signed). -/
def cmpLtOp (a b : U64) : Bool := a.slt b

/-- R93. CMP with FN LT (signed). -/
def execCmpLt (c t : Nat) (w : U32) (s : State) : Res :=
  .next (issue (isCmp 0x02) (reserveChecked cmpReserved (onThreadAct (formCmp cmpLtOp))) c t w s)

/-- LTU. -/
def cmpLtuOp (a b : U64) : Bool := decide (a.toNat < b.toNat)

/-- R93. CMP with FN LTU. -/
def execCmpLtu (c t : Nat) (w : U32) (s : State) : Res :=
  .next (issue (isCmp 0x03) (reserveChecked cmpReserved (onThreadAct (formCmp cmpLtuOp))) c t w s)

/-- GE (signed). -/
def cmpGeOp (a b : U64) : Bool := !a.slt b

/-- R93. CMP with FN GE (signed). -/
def execCmpGe (c t : Nat) (w : U32) (s : State) : Res :=
  .next (issue (isCmp 0x04) (reserveChecked cmpReserved (onThreadAct (formCmp cmpGeOp))) c t w s)

/-- GEU. -/
def cmpGeuOp (a b : U64) : Bool := decide (b.toNat ≤ a.toNat)

/-- R93. CMP with FN GEU. -/
def execCmpGeu (c t : Nat) (w : U32) (s : State) : Res :=
  .next (issue (isCmp 0x05) (reserveChecked cmpReserved (onThreadAct (formCmp cmpGeuOp))) c t w s)

/-- An FP32 comparison: the predicate, and one count for a pair with a NaN operand (R50). -/
def fcmpAct (f : U64 → U64 → Bool) (c t : Nat) (w : U32) (s : State) : State :=
  let h := (s.core c).thread t
  let n := if fcmpUnordered (h.reg (wSa w)) (h.reg (wSb w)) then 1 else 0
  onThreadAct (formCmp f) c t w (s.onCore c (addUnordered n))

/-- FEQ. -/
def cmpFeqOp (a b : U64) : Bool := fcmp Val.eq a b

/-- R50. CMP with FN FEQ. -/
def execCmpFeq (c t : Nat) (w : U32) (s : State) : Res :=
  .next (issue (isCmp 0x10) (reserveChecked cmpReserved (fcmpAct cmpFeqOp)) c t w s)

/-- FNE: the negation of FEQ. -/
def cmpFneOp (a b : U64) : Bool := !fcmp Val.eq a b

/-- R50. CMP with FN FNE. -/
def execCmpFne (c t : Nat) (w : U32) (s : State) : Res :=
  .next (issue (isCmp 0x11) (reserveChecked cmpReserved (fcmpAct cmpFneOp)) c t w s)

/-- FLT. -/
def cmpFltOp (a b : U64) : Bool := fcmp Val.lt a b

/-- R50. CMP with FN FLT. -/
def execCmpFlt (c t : Nat) (w : U32) (s : State) : Res :=
  .next (issue (isCmp 0x12) (reserveChecked cmpReserved (fcmpAct cmpFltOp)) c t w s)

/-- FLE. -/
def cmpFleOp (a b : U64) : Bool := fcmp Val.le a b

/-- R50. CMP with FN FLE. -/
def execCmpFle (c t : Nat) (w : U32) (s : State) : Res :=
  .next (issue (isCmp 0x13) (reserveChecked cmpReserved (fcmpAct cmpFleOp)) c t w s)

/-- FGT. -/
def cmpFgtOp (a b : U64) : Bool := fcmp Val.lt b a

/-- R50. CMP with FN FGT. -/
def execCmpFgt (c t : Nat) (w : U32) (s : State) : Res :=
  .next (issue (isCmp 0x14) (reserveChecked cmpReserved (fcmpAct cmpFgtOp)) c t w s)

/-- FGE. -/
def cmpFgeOp (a b : U64) : Bool := fcmp Val.le b a

/-- R50. CMP with FN FGE. -/
def execCmpFge (c t : Nat) (w : U32) (s : State) : Res :=
  .next (issue (isCmp 0x15) (reserveChecked cmpReserved (fcmpAct cmpFgeOp)) c t w s)

end Sys2Proof.Machine
end

