-- ==== Sys2Proof/Machine/Control.lean ====
section
/-! DEFINITION. Control flow, barriers, waits and special registers (R83, R87, R89, R94, R98, R109). -/

namespace Sys2Proof.Machine

/-- A taken branch to a word index: outside the segment's words it halts at the branch (R111); otherwise the thread waits
in the branch's shadow (R83). -/
def takeBranch (target : Int) (c t : Nat) (w : U32) (s : State) : State :=
  if 0 ≤ target ∧ target < (s.core c).nwords then
    s.onThread c t fun h => { h.jump target.toNat with st := .waiting .branchShadow }
  else haltAt haltPcRange 0 c t w s

/-- BR: PC = PC + OFF. -/
def brAct (c t : Nat) (w : U32) (s : State) : State :=
  takeBranch (((s.core c).thread t).pc + wOff w) c t w s

/-- R83. BR. -/
def execBr (c t : Nat) (w : U32) (s : State) : Res := .next (issue (isOp 0x10) brAct c t w s)

/-- R83. The 2-cycle shadow of a taken branch ends. -/
def execBranchShadowEnd (c t : Nat) (s : State) : Res :=
  match ((s.core c).thread t).st with
  | .waiting .branchShadow => .next (s.onThread c t fun h => { h with st := .ready })
  | _ => .next s

/-- JR: PC = sA. -/
def jrAct (c t : Nat) (w : U32) (s : State) : State :=
  takeBranch (((s.core c).thread t).reg (wSa w)).toNat c t w s

/-- R94. JR; SD, SB and FN, to which JR gives no meaning, are ignored (R92: DEDUCED, assumption log 120). -/
def execJr (c t : Nat) (w : U32) (s : State) : Res := .next (issue (isOp 0x11) jrAct c t w s)

/-- LOOP: the body is the next LEN words; LEN 0, a fifth level and a body that ends beyond its enclosing body halt (R94,
R109); 0 iterations skip the body, but are checked like any others (DESIGN CHOICE, assumption log 120). -/
def loopAct (c t : Nat) (w : U32) (s : State) : State :=
  let h := (s.core c).thread t
  let len := wbits w 16 8
  let first := h.pc + 1
  let nested := match h.loops.getLast? with
    | none => true
    | some l => decide (first + len ≤ l.first + l.len)
  if len = 0 || h.loops.length ≥ 4 || !nested then haltAt haltLoop 0 c t w s
  else
    let n := (h.reg (wSd w)).toNat
    if n = 0 then s.onThread c t fun h => h.goOn (first + len)
    else s.onThread c t fun h =>
      { h with pc := first, loops := h.loops ++ [{ first := first, len := len, left := n - 1, index := 0 }] }

/-- R94. LOOP; bits [7:0] are reserved (format P). -/
def execLoop (c t : Nat) (w : U32) (s : State) : Res :=
  .next (issue (isOp 0x12) (reserveChecked (fun w => wbits w 7 0 ≠ 0) loopAct) c t w s)

/-- R81. SYS END. -/
def execEndThread (c t : Nat) (w : U32) (s : State) : Res :=
  .next (issue (isSys 0x00) (fun c t _ s => s.onThread c t fun h => { h with st := .idle }) c t w s)

/-- HALT, and the reserved FN codes, which halt with ILLEGAL_OP (R93, R109). -/
def haltAct (c t : Nat) (w : U32) (s : State) : State :=
  if isSys 0x01 w then haltAt (0x80 + wSb w) 0 c t w s else haltAt haltIllegal 0 c t w s

/-- A major opcode that exists (R91). -/
def opcExists (w : U32) : Bool := [0x00, 0x0C, 0x14].contains (wOpc w) || plainOps.contains (wOpc w)

/-- R109. The row covers SYS HALT, the reserved words, and a PC outside the segment's words (PC_RANGE, INSN 0). A reserved
major opcode has no guard that the manual lays out, so it halts whatever its bits (assumption log 12). -/
def execHalt (c t : Nat) (w : U32) (s : State) : Res :=
  let h := (s.core c).thread t
  if canIssue s c t && ((s.core c).fetch h.pc).isNone then
    .next ((s.onCore c fun k => { k with lastIssued := t }).halt c t h.pc 0 haltPcRange 0)
  else if issuesWord s c t w && !opcExists w then
    .next (haltAt haltIllegal 0 c t w (s.onCore c fun k => { k with lastIssued := t }))
  else .next (issue isHaltRow haltAct c t w s)

/-- BAR: the mask is the low eight bits of sA; the thread waits (R89). Bits [63:8] of sA are ignored (DEDUCED, assumption log 120). -/
def barAct (c t : Nat) (w : U32) (s : State) : State :=
  s.onThread c t fun h => { h.advance with st := .waiting (.bar ((h.reg (wSa w)).setWidth 8)) }

/-- R89. BAR. -/
def execBar (c t : Nat) (w : U32) (s : State) : Res := .next (issue (isSys 0x02) barAct c t w s)

/-- A thread of a BAR mask counts as reached: IDLE, HALTED, or in a BAR with the same mask (R89). -/
def barReached (mask : Byte) (h : Thread) : Bool :=
  match h.st with
  | .idle => true
  | .halted => true
  | .waiting (.bar m) => m = mask
  | _ => false

/-- A thread that waits in a BAR with this mask becomes READY. -/
def Thread.barFree (mask : Byte) (h : Thread) : Thread :=
  if h.st = .waiting (.bar mask) then { h with st := .ready } else h

/-- R89. Every thread of the mask has reached: every thread that waits in a BAR with the mask is released. -/
def execBarRelease (c : Nat) (mask : Byte) (s : State) : Res :=
  let k := s.core c
  if (List.range 8).all fun i => !mask.getLsbD i || barReached mask (k.thread i) then
    .next (s.setCore c { k with threads := k.threads.map fun e => (e.1, e.2.barFree mask) })
  else .next s

/-- WAITQ: it waits while an engine instruction of the thread has not completed (R89). -/
def waitqAct (c t : Nat) (_w : U32) (s : State) : State :=
  s.onThread c t fun h => if h.outstanding = 0 then h.advance else { h.advance with st := .waiting .waitq }

/-- R89. WAITQ. -/
def execWaitq (c t : Nat) (w : U32) (s : State) : Res := .next (issue (isSys 0x03) waitqAct c t w s)

/-- R89. The last outstanding engine instruction of a thread in WAITQ has completed. -/
def execWaitqRelease (c t : Nat) (s : State) : Res :=
  let h := (s.core c).thread t
  if h.st = .waiting .waitq && h.outstanding = 0 then .next (s.onThread c t fun h => { h with st := .ready })
  else .next s

/-- The iteration index of a loop level, 0 when inactive (R87). -/
def Thread.loopIndex (h : Thread) (n : Nat) : Nat :=
  match h.loops[n]? with
  | some l => l.index
  | none => 0

/-- CYCLE of a core (R87): what its gallery has counted since the segment started. The model's time moves in microseconds, so the
cycles of the current microsecond are a free value, at least what an earlier read has given (assumption log 6). -/
def State.cycleOf (s : State) (c : Nat) : Nat :=
  Max.max (s.core c).lastCycle
    (s.coreCycles c - (s.core c).cycleBase + (Config.cycles s.freeUsed).toNat % s.coreClock c)

/-- A special register (R87). -/
def specialReg (s : State) (c t n : Nat) : U64 :=
  match s.segOf c with
  | none => 0
  | some g =>
    if n = 0 then BitVec.ofNat 64 t
    else if n = 1 then BitVec.ofNat 64 c
    else if n = 2 then BitVec.ofNat 64 g.p
    else if n = 3 then BitVec.ofNat 64 (s.cycleOf c)
    else if n = 4 then g.seed
    else if n = 5 then g.stepKey
    else if n = 6 then BitVec.ofNat 64 g.variantNo
    else if n = 7 then BitVec.ofNat 64 g.batch
    else if n < 12 then BitVec.ofNat 64 (((s.core c).thread t).loopIndex (n - 8))
    else 0

/-- CSRR: the special register's number is in the SA field. -/
def csrrAct (c t : Nat) (w : U32) (s : State) : State :=
  let v := specialReg s c t (wSa w)
  let s := if wSa w = 3 then s.fresh.onCore c fun k => { k with lastCycle := v.toNat + 1 } else s
  s.onThread c t fun h => (h.setReg (wSd w) v).advance

/-- R87. CSRR. -/
def execCsrr (c t : Nat) (w : U32) (s : State) : Res := .next (issue (isSys 0x04) csrrAct c t w s)

/-- MWAIT: a mark number above 65,535 halts with MARK_RANGE and sSA [47:0]; a mark that has reached its target does not hold
the thread (R98, R133, R136). -/
def mwaitAct (c t : Nat) (w : U32) (s : State) : State :=
  let h := (s.core c).thread t
  let m := (h.reg (wbits w 19 15)).toNat
  let target := (h.reg (wbits w 14 10)).setWidth 32
  if 65535 < m then haltAt haltMarkRange m c t w s
  else
    match (s.core c).seg with
    | none => s
    | some (p, _, _) =>
      if markReached (s.mark p m) target then s.onThread c t Thread.advance
      else s.onThread c t fun h => { h.advance with st := .waiting (.mark m target s.now false) }

/-- R98. MWAIT; bits [9:0] are reserved (format M). Bits [21:20], to which MWAIT gives no meaning, are ignored (R92: DEDUCED, assumption
log 120). -/
def execMwait (c t : Nat) (w : U32) (s : State) : Res :=
  .next (issue (isOp 0x1D) (reserveChecked (fun w => wbits w 9 0 ≠ 0) mwaitAct) c t w s)

/-- R136. A value that the mark unit applied has reached the target of a waiting MWAIT. -/
def execMwaitRelease (c t : Nat) (s : State) : Res :=
  match ((s.core c).thread t).st with
  | .waiting (.mark _ _ _ true) => .next ((s.endMwait c t).onThread c t fun h => { h with st := .ready })
  | _ => .next s

end Sys2Proof.Machine
end

