-- ==== Sys2Proof/Machine/Sha.lean ====
section
/-! DEFINITION. SHA-384 (FIPS 180-4), which R346 and R408 name. -/

namespace Sys2Proof.Machine

/-- The greatest r of b more bits below the bits of r with r ^ k ≤ n. -/
def rootBelow (k n : Nat) : Nat → Nat → Nat
  | 0, r => r
  | b + 1, r => rootBelow k n b (if (r + 2 ^ b) ^ k ≤ n then r + 2 ^ b else r)

/-- The first 64 bits of the fraction of the k-th root of p. -/
def rootFraction (k p : Nat) : U64 := BitVec.ofNat 64 (rootBelow k (p * 2 ^ (64 * k)) 70 0)

/-- The primes up to 409, the eightieth: no other number up to 19 divides one. -/
def shaPrimes : List Nat :=
  (List.range 410).filter fun n => decide (2 ≤ n) && (List.range 18).all fun d => n % (d + 2) ≠ 0 || n = d + 2

/-- The round constants, from the cube roots of the first eighty primes. -/
def shaK : List U64 := shaPrimes.map (rootFraction 3)

/-- The initial hash value of SHA-384, from the square roots of the ninth to the sixteenth prime. -/
def shaInit : List U64 := ((shaPrimes.drop 8).take 8).map (rootFraction 2)

/-- Rotate right. -/
def rotr (x : U64) (n : Nat) : U64 := (x >>> n) ||| (x <<< (64 - n))

def shaBig0 (x : U64) : U64 := rotr x 28 ^^^ rotr x 34 ^^^ rotr x 39
def shaBig1 (x : U64) : U64 := rotr x 14 ^^^ rotr x 18 ^^^ rotr x 41
def shaSmall0 (x : U64) : U64 := rotr x 1 ^^^ rotr x 8 ^^^ (x >>> 7)
def shaSmall1 (x : U64) : U64 := rotr x 19 ^^^ rotr x 61 ^^^ (x >>> 6)

/-- Extend the message schedule by n words; the latest word comes first. -/
def shaExtend (ws : List U64) : Nat → List U64
  | 0 => ws
  | n + 1 =>
    shaExtend ((shaSmall1 (ws.getD 1 0) + ws.getD 6 0 + shaSmall0 (ws.getD 14 0) + ws.getD 15 0) :: ws) n

/-- One round on the eight working variables. -/
def shaRound (v : List U64) (kw : U64) : List U64 :=
  match v with
  | [a, b, c, d, e, f, g, h] =>
    let t1 := h + shaBig1 e + ((e &&& f) ^^^ (~~~e &&& g)) + kw
    let t2 := shaBig0 a + ((a &&& b) ^^^ (a &&& c) ^^^ (b &&& c))
    [t1 + t2, a, b, c, d + t1, e, f, g]
  | v => v

/-- Big-endian value and bytes. -/
def beNat (bs : List Byte) : Nat := leNat bs.reverse
def beBytes (n v : Nat) : List Byte := (leBytes n v).reverse

/-- One block of 128 bytes. -/
def shaBlock (h : List U64) (blk : List Byte) : List U64 :=
  let ws := (pieces 8 16 blk).map fun w => BitVec.ofNat 64 (beNat w)
  let sched := (shaExtend ws.reverse 64).reverse
  let v := (shaK.zip sched).foldl (fun v e => shaRound v (e.1 + e.2)) h
  (h.zip v).map fun e => e.1 + e.2

/-- The padded message. -/
def shaPad (m : List Byte) : List Byte :=
  m ++ 0x80 :: List.replicate ((239 - m.length % 128) % 128) 0 ++ beBytes 16 (8 * m.length)

/-- SHA-384 of a message, 48 bytes. -/
def sha384 (m : List Byte) : List Byte :=
  let p := shaPad m
  let h := (pieces 128 (p.length / 128) p).foldl shaBlock shaInit
  (h.flatMap fun x => beBytes 8 x.toNat).take 48

end Sys2Proof.Machine
end

