-- ==== Sys2Proof/Machine/Ecdsa.lean ====
section
/-! DEFINITION. ECDSA on P-384 (FIPS 186), which R409 names: the curve y^2 = x^3 - 3x + b over the field of p elements, and
the check of a signature. -/

namespace Sys2Proof.Machine

def ecP : Nat := 0xfffffffffffffffffffffffffffffffffffffffffffffffffffffffffffffffeffffffff0000000000000000ffffffff
def ecN : Nat := 0xffffffffffffffffffffffffffffffffffffffffffffffffc7634d81f4372ddf581a0db248b0a77aecec196accc52973
def ecB : Nat := 0xb3312fa7e23ee7e4988e056be3f82d19181d9c6efe8141120314088f5013875ac656398d8a2ed19d2a85c8edd3ec2aef
def ecG : Nat × Nat :=
  (0xaa87ca22be8b05378eb1c71ef320ad746e1d3b628ba79b9859f741e082542a385502f25dbf55296c3a545e3872760ab7,
   0x3617de4a96262c6f5d9e98bf9292dc29f8f41dbd289a147ce9da3113b5f0b8c00a60b1ce1d7e819d7a431d7c90ea0e5f)

/-- b^e modulo m, for an exponent of `fuel` bits. -/
def powMod (m b e : Nat) : Nat → Nat
  | 0 => 1 % m
  | fuel + 1 => let h := powMod m (b * b % m) (e / 2) fuel; if e % 2 = 1 then b * h % m else h

/-- The inverse modulo a prime m of 384 bits. -/
def invMod (m a : Nat) : Nat := powMod m (a % m) (m - 2) 384

/-- Addition of points; none is the point at infinity. -/
def ecAdd (a b : Option (Nat × Nat)) : Option (Nat × Nat) :=
  match a, b with
  | none, b => b
  | a, none => a
  | some (x1, y1), some (x2, y2) =>
    if x1 = x2 && (y1 + y2) % ecP = 0 then none
    else
      let l := if x1 = x2 then (3 * x1 * x1 + ecP - 3) * invMod ecP (2 * y1) % ecP
        else (y2 + ecP - y1) * invMod ecP (x2 + ecP - x1) % ecP
      let x3 := (l * l + 2 * ecP - x1 - x2) % ecP
      some (x3, (l * (x1 + ecP - x3) + ecP - y1) % ecP)

/-- k times a point, for a k of `fuel` bits. -/
def ecMul (k : Nat) (a : Option (Nat × Nat)) : Nat → Option (Nat × Nat)
  | 0 => none
  | fuel + 1 => let h := ecMul (k / 2) (ecAdd a a) fuel; if k % 2 = 1 then ecAdd a h else h

/-- The point of a SEC 1 uncompressed encoding of 97 bytes. -/
def ecPoint (bs : List Byte) : Option (Nat × Nat) :=
  let x := beNat ((bs.drop 1).take 48)
  let y := beNat ((bs.drop 49).take 48)
  if bs.length = 97 && bs.headD 0 = 4 && x < ecP && y < ecP && y * y % ecP = (x * x * x + ecB + 3 * (ecP - x)) % ecP then
    some (x, y) else none

/-- The signature (r, s) of 96 bytes verifies for a digest of 48 bytes under a key. -/
def ecdsaOk (key digest sig : List Byte) : Bool :=
  match ecPoint key with
  | none => false
  | some q =>
    let r := beNat (sig.take 48)
    let s := beNat ((sig.drop 48).take 48)
    let e := beNat digest
    if r = 0 || s = 0 || ecN ≤ r || ecN ≤ s || sig.length ≠ 96 then false
    else
      let w := invMod ecN s
      match ecAdd (ecMul (e * w % ecN) (some ecG) 384) (ecMul (r * w % ecN) (some q) 384) with
      | none => false
      | some p => p.1 % ecN = r

end Sys2Proof.Machine
end

