-- ==== Sys2Proof/Machine/Supervision.lean ====
section
/-! DEFINITION. Firmware supervision, faults and recovery (chapter 13): restarts (R350 to R357), Supervisor failover (R358 to R360),
journal copies (R362), hard losses and replica recovery (R364 to R369), input power loss (R370), fatal errors and dumps (R372
to R375). -/

namespace Sys2Proof.Machine

/-! ## Processors (R353, R376) -/

/-- Processor n exists on this part. -/
def State.hasProc (s : State) (n : Nat) : Bool :=
  decide (n < 15) && (if 6 ≤ n && n < 10 then s.part.hasDie (n - 6) else if 10 ≤ n && n < 14 then s.part.hasDie (n - 10) else true)

def State.proc (s : State) (n : Nat) : Proc := s.sup.procs.get n {}

def State.setProc (s : State) (n : Nat) (x : Proc) : State :=
  { s with sup := { s.sup with procs := s.sup.procs.put n x {} } }

/-- Ten minutes of module life. -/
def tenMinutes : Nat := 600000000

/-- Times within the last ten minutes. -/
def recent (now : Nat) (l : List Nat) : List Nat := l.filter fun t => now < t + tenMinutes

/-! ## Fatal errors and dumps (R372 to R375) -/

/-- A field of a package header (R408). -/
def pkgField (pkg : List Byte) (hi lo : Nat) : Nat := bits (leNat (pkg.take 512)) hi lo

/-- FW_VERSION and SEC_VERSION of a package; the image a module is delivered with has those of Config. -/
def pkgVersion (pkg : List Byte) : U32 :=
  if pkg.isEmpty then Config.deliveredFirmware else BitVec.ofNat 32 (pkgField pkg 4031 4000)
def pkgSecVersion (pkg : List Byte) : U32 :=
  if pkg.isEmpty then Config.deliveredSecVersion else BitVec.ofNat 32 (pkgField pkg 3967 3936)

def State.slot (s : State) (i : Nat) : FwSlot := s.slots.get i {}

def State.setSlot (s : State) (i : Nat) (x : FwSlot) : State := { s with slots := s.slots.put i x {} }

/-- The running firmware's version. -/
def State.fwVersion (s : State) : U32 := pkgVersion (s.slot s.runningSlot).package

/-- A trigger of R422 for a PROVISIONAL image: its rollback begins, for a reason. -/
def State.failUpdate (s : State) (reason : Nat) : State :=
  if s.update.st = .provisional then
    { s with update := { s.update with st := .rollingBack, rollback := some reason } }
  else s

/-- Everything that runs stops at a tile boundary and leaves the cores; no record is written. Command movers keep the cursors
of their MOVEs, tier requests and sweeps their places (R370, R372, R448). -/
def State.haltWork (s : State) : State :=
  let s := s.endMwaits (s.cores.map fun e => e.1)
  { s with
    cores := []
    movers := s.movers.map fun e => (e.1, e.2.map fun d => { d with flights := [] })
    parts := s.parts.map fun e => (e.1, { e.2 with
      segments := []
      serves := e.2.serves.map fun v => { v with batch := none }
      xruns := [] })
    fabric := { s.fabric with
      remotes := []
      landings := (s.fabric.landings.map fun l => (l.1, { l.2 with staged := [] })).filter fun l => l.2 ≠ {} } }

/-- An instruction of the EXTEST class is loaded (R453). -/
def extestClass (ir : Byte) : Bool := ir = 0 || ir = 3 || ir = 4

/-- MOD_RESET_N or the TAP holds a warm reset at its second row (R448, R453). -/
def State.resetHeld (s : State) : Bool := !s.power.modResetN || (s.power.trstN && extestClass s.power.tapIr)

/-- The flash write of a dump is still going on: how long it takes is left open (R375; assumption log 142). -/
def State.dumpWriting (s : State) (d : Dump) : Bool := decide (s.now < d.time + Config.dumpMicros)

/-- A fatal error: all work stops, and a dump is written and kept with the one before it. One whose write it interrupts gives way,
and the dump before that stays (R375). -/
def State.fatalStop (s : State) (cause proc : Nat) : State :=
  let s := (s.failUpdate 3).haltWork
  let s := { s with phase := .faulted, sup := { s.sup with fatal := some (cause, proc) } }
  let s := (s.bump 0x8010 10 1).raiseM 0x1401 proc [cause]
  let d : Dump := { id := s.sup.dumpCount, time := s.now, cause := cause, proc := proc, fw := s.fwVersion, complete := true
                    body := Config.dumpBody s.sup.dumpCount }
  let kept := s.sup.dumps.filter fun e => !s.dumpWriting e
  let s := { s with sup := { s.sup with dumps := (d :: kept).take 2, dumpCount := s.sup.dumpCount + 1 } }
  let s := s.raiseM 0x1402 proc [d.id]
  if s.moduleSetting 0x2030 1 = 1 then { s with phase := .warmReset 4 s.now s.resetHeld } else s

/-- A fatal error while the module works, starts or is in a warm reset. -/
def State.fatalNow (s : State) (cause proc : Nat) : State :=
  match s.phase with
  | .running | .starting | .warmReset _ _ _ => s.fatalStop cause proc
  | _ => s

/-- R372. A fatal cause. -/
def execFatalError (cause proc : Nat) (s : State) : Res := .next (s.fatalNow cause proc)

/-- R376. A write of 1 to Dump.Release discards both dumps. -/
def State.releaseDumps (s : State) : State := { s with sup := { s.sup with dumps := [] } }

def execDumpRelease (s : State) : Res := .next (if s.phase = .running then s.releaseDumps else s)

/-- The header of a dump as its 64 bytes (R374): of the flash copy, or of a whole copy in the lake (R375). -/
def Dump.header (d : Dump) : List Byte :=
  let h := leBytes 64 (fld 0x444E534B 480 + fld ((64 + d.body.length) % 2 ^ 32) 448 + fld (d.time % 2 ^ 64) 384 +
    fld (d.id % 2 ^ 32) 352 + fld (d.cause % 256) 344 + fld (d.proc % 256) 336 + fld d.fw.toNat 304 + fld (b2n (d.complete || d.lake)) 303)
  leBytes 4 (crc32c h).toNat ++ h.drop 4

/-! ## Restarts (R351 to R356) -/

/-- A whole restart: the fourth within ten minutes is a failure (R353). -/
def State.restartWhole (s : State) (n : Nat) : State :=
  let x := s.proc n
  let past := recent s.now x.wholeTimes
  let s := s.failUpdate 2
  if 3 ≤ past.length then
    let s := (s.setProc n { x with st := .failed, comps := [], wholeTimes := past }).raiseM 0x1006 n []
    if n ≤ 1 then { s with sup := { s.sup with standby := false } }
    else if n = 14 then s else s.fatalNow 2 n
  else s.setProc n { x with st := .restarting, whole := true, comps := [], since := s.now, wholeTimes := past ++ [s.now] }

/-- A Supervisor restarts whole: the standby takes over from the active one, or the fault is fatal (R359, R360). While the standby is
taking over there is no other: a fault of it is fatal, and the one that failed before restarts once more. -/
def State.supervisorFault (s : State) (n : Nat) : State :=
  if s.sup.failover then (if n = s.sup.activeSup then s.restartWhole n else s.fatalNow 1 n)
  else if n = s.sup.activeSup then
    if !s.sup.standby then s.fatalNow 1 n
    else { s.restartWhole n with sup := { (s.restartWhole n).sup with failover := true, standby := false } }
  else ({ s.restartWhole n with sup := { (s.restartWhole n).sup with standby := false } }).raiseM 0x1004 n []

/-- A processor restarts as a whole. -/
def State.restartProc (s : State) (n : Nat) : State := if n ≤ 1 then s.supervisorFault n else s.restartWhole n

/-- One component is restarted alone, or the whole processor when it is its third within ten minutes (R352). -/
def State.restartComponent (s : State) (n c : Nat) : State :=
  let x := s.proc n
  let past := x.compTimes.filter fun e => s.now < e.1 + tenMinutes
  if 2 ≤ (past.filter fun e => e.2 = c).length then (s.setProc n { x with compTimes := past }).restartProc n
  else s.setProc n { x with comps := x.comps ++ [(c, s.now)], compTimes := past ++ [(s.now, c)] }

/-- How many components a processor runs (R350). -/
def procComps (n : Nat) : Nat := if n < 2 then 6 else if n < 6 then 4 else 3

/-- Components of a processor fault: one restarts alone, two hung at once restart the processor (R352). A component that it does
not run, or that is restarting, is no fault. The active Supervisor hands over instead (R359). -/
def State.componentsFault (s : State) (n : Nat) (hung : List Nat) : State :=
  let x := s.proc n
  let new := hung.eraseDups.filter fun c => decide (c < procComps n) && !x.comps.any fun e => e.1 = c
  if !s.hasProc n || s.phase ≠ .running || x.st ≠ .running then s
  else match new with
    | [] => s
    | [c] => if n = s.sup.activeSup || (s.sup.failover && n ≤ 1) then s.supervisorFault n else s.restartComponent n c
    | _ => s.restartProc n

/-- R351. The watchdog declares components hung. -/
def execWatchdogExpiry (n : Nat) (hung : List Nat) (s : State) : Res := .next (s.componentsFault n hung)

/-- The processors that a handover updates before the two Supervisors, in order (R415); absent positions are skipped. -/
def State.handoverOrder (s : State) : List Nat :=
  [14, 10, 11, 12, 13, 6, 7, 8, 9, 2, 3, 4, 5].filter s.hasProc

/-- A processor that has been declared failed runs no code: a handover passes over it. -/
def State.handoverSkips (s : State) (n : Nat) : Bool :=
  (s.proc n).st = .failed || (2 ≤ n && n < 6 && s.sup.lostHalls.contains (n - 2))

/-- The place in the order that the handover comes to next. -/
def State.handoverPlace (s : State) : Nat :=
  s.update.handoverAt + ((s.handoverOrder.drop s.update.handoverAt).takeWhile s.handoverSkips).length

/-- The standby has been declared failed: the module runs without one (R360). -/
def State.noStandby (s : State) : Bool := (s.proc (1 - s.sup.activeSup)).st = .failed

/-- The Supervisor that the handover comes to next (R415): the standby, which takes control with the new code; then the other one. Where
a fault has given control back to the one that still runs the old code, the updated one takes control again first. Without a standby the
active one is updated where it stands. -/
def State.handoverSup (s : State) : Nat :=
  match s.update.supDone with
  | none => if s.noStandby then s.sup.activeSup else 1 - s.sup.activeSup
  | some u => if u = s.sup.activeSup || (s.proc u).st = .failed then 1 - u else u

/-- The processor that the handover comes to next: in the order, then the Supervisors. -/
def State.handoverNext (s : State) : Nat := s.handoverOrder.getD s.handoverPlace s.handoverSup

/-- Processor n already runs the new code of the handover in progress. -/
def State.handedOver (s : State) (n : Nat) : Bool :=
  s.update.st = .handover && !s.handoverSkips n && ((s.handoverOrder.take s.update.handoverAt).contains n || s.update.supDone = some n)

/-- Both copies of the boot control record are written (R414): the slot that is PROVISIONAL, if one is, and the ACTIVE one. -/
def State.writeBoot (s : State) (prov : Option Nat) (active : Nat) : State :=
  { s with update := { s.update with bootCopies := s.update.bootCopies.map fun c =>
      { writes := c.writes + 1, valid := true, prov := prov, active := active } } }

/-- R417. The handover is undone: every updated processor runs the old code again, and the new slot is INVALID. Control returns to the
Supervisor that was not updated; where a failover to it is under way, that does it. -/
def State.handoverBack (s : State) : State :=
  let back := s.update.supDone = some s.sup.activeSup && !s.sup.failover && s.sup.standby
  let new := s.update.newSlot
  let pkg := (s.slot new).package
  let s := (s.setSlot new { s.slot new with st := .invalid }).writeBoot none (1 - new)
  let s := { s with update := { s.update with st := .idle, supDone := none, saved := [] }
                    sup := if back then { s.sup with activeSup := 1 - s.sup.activeSup } else s.sup }
  s.raiseM 0x1606 255 [1, 0, (pkgVersion pkg).toNat]

/-- R350. A component breaches its protection; a breach of new code undoes a handover (R417). -/
def execProtectionBreach (n comp : Nat) (s : State) : Res :=
  let undo := s.handedOver n && s.hasProc n && s.phase = .running
  let s := s.componentsFault n [comp]
  .next (if undo then s.handoverBack else s)

/-- R352. A processor's own memory reports an uncorrectable error: it restarts whole. -/
def execProcessorMemoryUncorrectable (n : Nat) (s : State) : Res :=
  if !s.hasProc n || s.phase ≠ .running || (s.proc n).st ≠ .running then .next s
  else .next (s.restartProc n)

/-- A command waits for a Hall Scheduler: a RUN for its launch or its completion, STEP_SEAL and STEP_COMMIT for their evaluation. -/
def State.hallWait (s : State) (p : Nat) (e : Nat × Cmd) : Bool :=
  let k := e.2
  if k.phase = .accepted then (k.op = opRun || k.op = opStepSeal || k.op = opStepCommit) && s.mayStart p e.1 k
  else k.op = opRun && match s.segment p e.1 k.seq with
    | some g => if g.stop.isSome then s.stoppedCores g else s.finishedCores g
    | none => false

/-- A command waits for a Tier Manager. -/
def State.tierWait (s : State) (p t : Nat) (e : Nat × Cmd) : Bool :=
  let k := e.2
  let x := if k.op = opImport then k.f 397 366 else k.f 447 416
  k.phase = .accepted && (decide (opPromote ≤ k.op ∧ k.op ≤ opUnpin) || (k.op = opImport && k.f 447 446 ≠ 2)) && x % s.part.ioDies = t &&
    s.mayStart p e.1 k

/-- Work on an object waits for its Tier Manager: a held request, a fill, a release, a commit, a recovery. -/
def TierObj.waits (o : TierObj) : Bool :=
  !o.waiting.isEmpty || o.fill.isSome || o.st = .demoting || o.writing.any (fun v => !v.frames.isEmpty) || o.recovery.isSome ||
    o.absentSince.isSome

/-- Work waits on processor n (R354): acceptance, completion records and management frames on a Supervisor; launches, completions and
evaluations on a Hall Scheduler; requests on their objects on a Tier Manager; training on a Link Manager; entry to and wake from SLEEP
on the Power Manager. -/
def State.waitsOn (s : State) (n : Nat) : Bool :=
  if n ≤ 1 then
    !s.sup.latched.isEmpty || !s.sup.acceptWaits.isEmpty || !s.mgmt.held.isEmpty || s.mgmt.sets.any (fun c => c.phase ≠ .opened) ||
      s.existing.any fun p => (s.partn p).leaseExpired || (s.partn p).streams.any fun e => !e.2.held.isEmpty
  else if n < 6 then
    s.existing.any fun p => (s.halls p).contains (n - 2) &&
      ((s.partn p).commands.any (s.hallWait p) || (s.partn p).segments.any fun g => match g.stop with
        | some (.layer _) => s.stoppedCores g
        | _ => false)
  else if n < 10 then
    s.existing.any fun p => (s.partn p).commands.any (s.tierWait p (n - 6)) ||
      (s.partn p).objects.any fun e => e.1 % s.part.ioDies = n - 6 && e.2.waits
  else if n < 14 then (List.range s.part.ports).any fun q => q / 4 = n - 10 && (s.port q).st = .training
  else s.power.sleep ≠ .awake || s.mgmt.sets.any fun c => c.phase = .committed

/-- A recovery of an object of Tier Manager t starts again at source 1 (R356). -/
def State.restartRecoveries (s : State) (t : Nat) : State :=
  { s with parts := s.parts.map fun e => (e.1, { e.2 with
      objects := e.2.objects.map fun o =>
        if o.1 % s.part.ioDies = t then (o.1, { o.2 with recovery := o.2.recovery.map fun r =>
          { r with source := 1, neighbour := 0, asked := r.asked || r.source = 4 } })
        else o }) }

/-- Work that a restart held up goes on: its wait is counted (R354), and the recovery ladder starts again (R356). -/
def State.afterRestart (s : State) (n micros : Nat) (ladder : Bool) : State :=
  let s := if s.waitsOn n then s.bump 0x8010 6 micros else s
  if ladder && 6 ≤ n && n < 10 then s.restartRecoveries (n - 6) else s

/-- R352. A restarted processor, or the component that has been restarting longest, serves again. -/
def execProcessorRestartComplete (n : Nat) (s : State) : Res :=
  let x := s.proc n
  if !s.hasProc n || s.phase ≠ .running then .next s
  else match x.st, x.comps with
    | .restarting, _ =>
      let d := s.now - x.since
      let s := (s.setProc n { x with st := .running, whole := false, restarts := x.restarts + 1, lastMicros := d }).afterRestart n d true
      let s := (s.bump 0x8010 1 1).raiseM 0x1002 n []
      .next (if n ≤ 1 && n ≠ s.sup.activeSup then
        ({ s with sup := { s.sup with standby := true } }).raiseM 0x1005 n [] else s)
    | .running, (c, since) :: rest =>
      let d := s.now - since
      let s := (s.setProc n { x with comps := rest, lastMicros := d }).afterRestart n d (c = compRecovery)
      .next ((s.bump 0x8010 2 1).raiseM 0x1001 n [c])
    | _, _ => .next s

/-! ## Change sets and submissions that a takeover or a reset ends (R349, R359, R402) -/

/-- The partition that a key names, for an object whose index or subindex names one. -/
def keyPart (r : ObjRow) (key : Nat) : Option Nat :=
  match r.scope with
  | .byIndex => some (key / 256 - r.ilo)
  | .bySub => some (key % 256 - r.slo)
  | _ => none

/-- The partitions that an entry affects (R399): a value that is the one in force affects none. -/
def State.affectedBy (s : State) (e : Entry) : List Nat :=
  match objRow e.key with
  | none => []
  | some r =>
    if r.access ≠ .wo && s.value s.viewPart e.key = e.value then []
    else if e.key / 256 = 0x3000 && e.key % 256 ≤ 4 then
      s.existing.filter fun p => p = s.hallOwner (e.key % 256 - 1) || p = leNat e.value
    else match r.scope with
      | .moduleWide => s.existing
      | .position => []
      | _ => s.existing.filter fun p => keyPart r e.key = some p

/-- The partitions that a list of entries affects, ascending. -/
def State.affectedByAll (s : State) (es : List Entry) : List Nat :=
  sortBy (fun a b => decide (a ≤ b)) ((es.flatMap s.affectedBy).dedup)

/-- An earlier set holds a later one back (R403): they share an object or an affected partition; a RESTART set that waits for the
reset holds back by its objects alone (DEDUCED, assumption log 43). -/
def ChangeSet.blocks (a b : ChangeSet) : Bool :=
  a.entries.any (fun e => b.entries.any fun f => f.key = e.key) ||
  (!(a.phase = .decided && a.cls = 3) && a.affected.any b.affected.contains)

/-- Committed sets that nothing holds back become eligible, in commit order (R403). `aff` gives the partitions that a set affects by
the values now in force: what R399 says of a set is settled when it becomes eligible. -/
def eligibleNow (now : Nat) (aff : List Entry → List Nat) : List ChangeSet → List ChangeSet → List ChangeSet
  | past, [] => past
  | past, c :: r =>
    let c := if c.phase = .committed && c.eligible.isNone then { c with affected := aff c.entries } else c
    let c := if c.phase = .committed && c.eligible.isNone && !(past.any fun a => a.phase ≠ .opened && a.blocks c) then
      { c with eligible := some now } else c
    eligibleNow now aff (past ++ [c]) r

def State.refreshEligible (s : State) : State :=
  { s with mgmt := { s.mgmt with sets := eligibleNow s.now s.affectedByAll [] s.mgmt.sets } }

/-- A change set is rolled back: event 0x1502 with the CSID, the reason, and for TIMEOUT the partition. A protection change
reports 0x7004 as well (R349). -/
def State.rollbackSet (s : State) (csid reason : Nat) (part : Option Nat) : State :=
  match s.mgmt.sets.find? fun c => c.csid = csid && c.phase ≠ .opened with
  | none => s
  | some c =>
    let s := { s with mgmt := { s.mgmt with
      sets := s.mgmt.sets.filter fun e => e.csid ≠ csid
      lastEnded := csid
      lastOutcome := 2 } }
    let s := s.refreshEligible.bump 0x8020 7 1
    let s := s.raiseM 0x1502 255 ([csid, reason] ++ (match part with
      | some p => [p]
      | none => []))
    if c.protection then s.raiseM 0x7004 255 [reason] else s

/-- Every set that is committed and not decided is rolled back. -/
def State.rollbackUndecided (s : State) (reason : Nat) : State :=
  (s.mgmt.sets.filter fun c => c.phase = .committed).foldl (fun s c => s.rollbackSet c.csid reason none) s

/-- An open protection window ends without agreement (R349): event 0x7002 with the reason. -/
def State.endWindow (s : State) (reason : Nat) : State :=
  match s.mgmt.submission with
  | none => s
  | some _ => ({ s with mgmt := { s.mgmt with submission := none } }).raiseM 0x7002 255 [reason]

/-! ## Journal copies (R362) -/

/-- A stack is gone: the copies it held are lost; with the last one gone the error is fatal. -/
def State.loseCopies (s : State) (ks : List Nat) : State :=
  let left := s.sup.journalCopies.filter fun k => !ks.contains k
  if left = s.sup.journalCopies then s
  else
    let s := { s with sup := { s.sup with journalCopies := left } }
    if left.isEmpty then s.fatalNow 3 255 else s

/-- The place of a new copy: the lowest stack of the lowest working hall that does not hold the other. -/
def State.copyPlace (s : State) : Option Nat :=
  let held := s.sup.journalCopies.map fun k => k / 4
  ((List.range 4).filter fun h => !held.contains h && !s.sup.lostHalls.contains h && !(s.stacksOf h).isEmpty).head?.bind fun h =>
    (s.stacksOf h).head?

/-- R362. A lost copy is rebuilt from the other. -/
def execJournalCopyRebuild (s : State) : Res :=
  if s.sup.journalCopies.length ≠ 1 || s.phase ≠ .running then .next s
  else match s.copyPlace with
    | none => .next s
    | some k =>
      .next (({ s with sup := { s.sup with journalCopies := s.sup.journalCopies ++ [k] } }).raiseM 0x1101 k [])

/-! ## Hard losses (R364 to R368) -/

/-- What is lost: CAUSE_ARG, the position and channel of DETAIL, and the granules. -/
structure Loss where
  kind : Nat
  pos : Nat
  ch : Nat
  gone : Nat → Bool

/-- DETAIL of HARD_FAULT. -/
def Loss.detail (l : Loss) : Nat := fld l.pos 96 + (if l.kind = 1 then fld l.ch 64 else 0)

/-- A range touches what is lost. -/
def State.rangeLost (s : State) (p va n : Nat) (l : Loss) : Bool :=
  match s.translateRange p va n {} with
  | .error _ => false
  | .ok ps => ps.any fun e => match e.1 with
    | .lake pa => (granules pa e.2).any l.gone
    | _ => false

/-- Objects whose lake copy is touched. -/
def State.copiesLost (s : State) (p : Nat) (l : Loss) : List Nat :=
  ((s.partn p).objects.filter fun e => e.2.hasCopy && s.rangeLost p e.2.addr (e.2.tiles * frameBytes) l).map fun e => e.1

/-- The sweep records whose state a partition holds: those of the sweep that runs, else of the last one, else of the last IMPORT mode 2. -/
def Partition.stateRecs (x : Partition) : List SweepRec :=
  match x.sweep with
  | some run => if x.step = .sweeping || x.step = .swept then run.recs else x.lastSweep
  | none => if x.lastSweep.isEmpty then x.importRecs else x.lastSweep

/-- Tiles of sweep records that are lost: (record index, address). -/
def State.tilesLost (s : State) (p : Nat) (l : Loss) : List (Nat × Nat) :=
  (s.partn p).stateRecs.flatMap fun r => (r.digestTiles.filter fun va => s.rangeLost p va frameBytes l).map fun va => (r.idx, va)

/-- The exchange records whose residuals a partition holds: those that run and those of the last EXCHANGE. -/
def Partition.residualRecs (x : Partition) : List XRun :=
  (x.xruns ++ x.lastXList.map fun raw => x.xrun 0 0 0 raw false false 0 0).filter fun r => r.mode ≠ xmNone

/-- Residual tiles that are lost, with their tensor and format, each once. -/
def State.residualsLost (s : State) (p : Nat) (l : Loss) : List (Nat × Nat × Nat) :=
  ((s.partn p).residualRecs.flatMap fun r =>
    let n := dstTiles ((s.sourceFmt p r).headD 5) r.eFmt r.nt
    ([r.eAddr0, r.eAddr1].flatMap fun a => (List.range n).map fun i => a + i * frameBytes).filterMap fun va =>
      if s.rangeLost p va frameBytes l then some (va, r.eTensor, r.eFmt) else none).eraseDups

/-- A lost residual tile is rewritten as +0 and counted (R366); one whose place is lost too cannot be. -/
def State.zeroResidual (s : State) (p : Nat) (e : Nat × Nat × Nat) : State :=
  let f := mkFrame { version := (s.partn p).version.toNat, tensor := e.2.1, fmt := e.2.2 } (List.replicate 512 0) (List.replicate 4096 0)
  match s.vwrite p e.1 f with
  | .ok s => s.bump 0x8010 7 1
  | .error _ => s

/-- Descriptors of a partition's MOVEs end without a record of their own. -/
def State.dropMoves (s : State) (p : Nat) : State :=
  s.allMovers.foldl (fun s m => match m with
    | .command _ _ => ((s.queue m).filter fun d => d.origin.1 = p).foldl (fun s d => s.descGone m d) s
    | .spring _ _ => s) s

/-- Every segment of a partition stops without a halt record. -/
def State.stopHard (s : State) (p : Nat) (l : Loss) : State :=
  s.onPartn p fun x => { x with segments := x.segments.map fun g => { g with
    stopAt := if g.stop.isNone then s.now else g.stopAt
    stop := some .hard
    causeArg := l.kind
    detail := BitVec.ofNat 128 l.detail } }

/-- A FAULT of a hard loss. -/
def Loss.fault (l : Loss) : Outcome := .fault cauHardFault l.kind l.detail

/-- Running transfers and exchanges of a partition, and a serving RUN between passes, end as after any fault (R367 step 1). -/
def State.endTransfers (s : State) (p : Nat) (l : Loss) : State :=
  let s := s.dropMoves p
  let s := s.cancelWhere p fun r => !r.scheduled
  let idle := (s.partn p).serves.filter fun v => (s.segment p v.s v.q).isNone
  let s := idle.foldl (fun s v => ((s.endServe p v.s v.q).complete p v.s v.q l.fault).runPeriodEnd p) s
  ((s.partn p).commands.filter fun e => e.2.phase ≠ .accepted && (e.2.op = opMove || e.2.op = opExchange || e.2.op = opExport ||
      (e.2.op = opImport && e.2.f 447 446 = 2))).foldl
    (fun s e => (s.dropLoad p e.1 e.2.seq).complete p e.1 e.2.seq l.fault) s

/-- Uncompleted commands of a partition complete HELD, with the list and event of R368; outside steps the completion of a RUN that ran
ends its evaluation period (R191). -/
def State.holdWhich (s : State) (p pos arg detail : Nat) (which : Nat × Cmd → Bool) : State :=
  let cs := (s.partn p).streams.flatMap fun e => (e.2.inOrder (e.2.journal.filter fun k => which (e.1, k))).map fun k => (e.1, k)
  if cs.isEmpty then s
  else
    let x := s.partn p
    let s := cs.foldl (fun s e => ((s.forgetTier p e.1 e.2.seq).dropLoad p e.1 e.2.seq).complete p e.1 e.2.seq
      { status := stHeld, cause := cauHardFault, count := x.tokensOf e.1 e.2.seq, arg := arg, detail := detail }) s
    let s := s.onPartn p fun x => { x with heldList := (cs.map fun e => listEntry e.1 e.2.op stHeld e.2.seq).flatten }
    let s := s.raise 0x1212 p pos [cs.length, arg]
    if cs.any fun e => e.2.op = opRun && e.2.phase ≠ .accepted then s.runPeriodEnd p else s

/-- A segment leaves its cores at once. -/
def State.teardownAll (s : State) (p : Nat) : State := (s.partn p).segments.foldl (fun s g => s.teardown g) s

/-- Recovery does not apply (R368). -/
def State.holdAll (s : State) (p : Nat) (l : Loss) (stateGone : Bool) : State :=
  let s := ((s.teardownAll p).dropMoves p).cancelWhere p fun _ => true
  let s := s.onPartn p fun x => { x with sweep := none, commitOwed := false }
  let st := (s.partn p).step
  let s := if st = .idle || st = .discarded then s else s.enterDiscarded p cauHardFault
  let s := if stateGone then s.onPartn p fun x => { x with stateIntact := false } else s
  (s.onPartn p fun x => { x with serves := [] }).holdWhich p l.pos l.kind l.detail fun _ => true

/-- A second hard loss during a recovery (R361): the started commands whose progress nothing that is left records complete HELD with
CAUSE_ARG 5; those that had not started stay queued, and so do waits and tier requests, whose state the journal and the tier table
hold (DEDUCED, assumption log 69). -/
def State.holdStarted (s : State) (p : Nat) (l : Loss) (stateGone : Bool) : State :=
  let s := ((s.teardownAll p).dropMoves p).cancelWhere p fun _ => true
  let s := s.onPartn p fun x => { x with sweep := none, commitOwed := false }
  let st := (s.partn p).step
  let s := if st = .idle || st = .discarded then s else s.enterDiscarded p cauHardFault
  let s := if stateGone then s.onPartn p fun x => { x with stateIntact := false } else s
  (s.onPartn p fun x => { x with serves := [], loads := [] }).holdWhich p l.pos 5 l.detail fun e =>
    e.2.phase ≠ .accepted && [opRun, opMove, opExchange, opSweep, opExport, opStepSeal, opStepCommit].contains e.2.op ||
      (e.2.phase ≠ .accepted && e.2.op = opImport && e.2.f 447 446 = 2)

/-- Whether replica recovery applies (R367): every record with a lost tile has a mirror on another module that a route leads to (the
copy there counts as intact until its frames say otherwise: DEDUCED, assumption log 141), the remaining shape
is permitted, and no context slot is lost (any slot in use counts as lost: DESIGN CHOICE, assumption log 36). -/
def State.recoverable (s : State) (p : Nat) (l : Loss) (recs : List Nat) : Bool :=
  let x := s.partn p
  let mirrored := recs.all fun i => match x.stateRecs.find? fun r => r.idx = i with
    | some r => (x.mirrorSet r).any fun m => m ≠ s.moduleNumber && (s.outPort m).isSome
    | none => false
  let shape := match x.image with
    | none => !(s.halls p).isEmpty
    | some img => if l.kind = 1 then img.channelLossRecovery else img.shapes.contains (s.shape p)
  mirrored && shape && x.requests.isEmpty

/-- A RUN that passed its checks and waits for its launch is checked again: the shape may have changed (R22). -/
def State.recheckRuns (s : State) (p : Nat) : State :=
  s.onPartn p fun x => { x with streams := x.streams.map fun e =>
    (e.1, { e.2 with journal := e.2.journal.map fun k => if k.phase = .accepted then { k with img := none } else k }) }

/-- The outcome of a hard loss for its partition; `before` is the state before the loss was recorded. -/
def State.afterLoss (s : State) (before' : State) (p : Nat) (l : Loss) : State :=
  if (s.partn p).st = .none then s
  else
    let tiles := before'.tilesLost p l
    let residuals := before'.residualsLost p l
    let s := (before'.copiesLost p l).foldl (fun s o => s.copyLost p o l.kind l.detail) s
    let again := s.sup.recovering.contains p
    if !again && s.recoverable p l (tiles.map fun e => e.1) then
      let s := (s.stopHard p l).endTransfers p l
      let s := s.stepFault p cauHardFault
      let s := residuals.foldl (fun s e => s.zeroResidual p e) s
      let s := s.recheckRuns p
      let s := { s with sup := { s.sup with
        recovering := s.sup.recovering ++ [p]
        recoveryPos := s.sup.recoveryPos.put p l.pos 0 } }
      s.raise 0x1210 p l.pos [residuals.length]
    else
      let s := if again then s.holdStarted p l (!tiles.isEmpty) else s.holdAll p l (!tiles.isEmpty)
      let s := residuals.foldl (fun s e => s.zeroResidual p e) s
      let s := if residuals.isEmpty then s else s.raise 0x1210 p l.pos [residuals.length]
      { s with sup := { s.sup with recovering := s.sup.recovering.filter (· ≠ p) } }

/-- The cursors and stores of stacks are gone with them. -/
def State.clearStacks (s : State) (ks : List Nat) : State :=
  ks.foldl (fun s k => (s.setCursor k {}).setStore k {}) s

/-- A stack is lost (R364, R366). -/
def State.stackGone (s : State) (k : Nat) : State :=
  let before' := s
  let p := s.hallOwner (k / 4)
  let s := { s with sup := { s.sup with lostStacks := s.sup.lostStacks ++ [k] } }
  let s := (s.raise 0x1202 (if p < 4 then p else 15) k []).clearStacks [k]
  let l : Loss := { kind := 2, pos := k, ch := 0, gone := fun g => lakeStack (g * 64) = k }
  let s := if p < 4 then s.afterLoss before' p l else s
  s.loseCopies [k]

/-- R224. A unit that a fault has interrupted resumes from its cursor, and so does one whose reset this command reports (DEDUCED,
assumption log 132). One that cannot read its cursor or its shadow slot treats its stack as lost. -/
def execSweepResume (p k : Nat) (s : State) : Res :=
  match (s.partn p).sweep with
  | none => .next s
  | some run =>
    if !run.units.contains k || (s.partn p).step ≠ .sweeping || !s.working then .next s
    else if s.unitBlind k then .next (s.stackGone k)
    else .next (s.resumeUnit p k run)

/-- A stack is there to be lost. -/
def State.stackWorks (s : State) (k : Nat) : Bool := (s.stacksOf (k / 4)).contains k && !s.sup.lostHalls.contains (k / 4)

/-- R364, R365. A channel is lost; the second of a stack loses the stack. A copy of the journal and tier table in the stack loses
bytes with any of its channels, so it counts as lost and is rebuilt (R362; DEDUCED, assumption log 136). -/
def State.channelGone (s : State) (k ch : Nat) : State :=
  match s.sup.lostChannels.find k with
  | some c =>
    if c = ch then s
    else
      let p := s.hallOwner (k / 4)
      (s.raise 0x1201 (if p < 4 then p else 15) k [ch]).stackGone k
  | none =>
    let before' := s
    let p := s.hallOwner (k / 4)
    let l : Loss := { kind := 1, pos := k, ch := ch, gone := fun g => lakeStack (g * 64) = k &&
      (lakeChannel (g * 64) = ch || decide (lakeOffset (g * 64) < spareEnd)) }
    let s := { s with sup := { s.sup with lostChannels := s.sup.lostChannels.insert k ch } }
    let s := { s with lake := { s.lake with
      poison := s.lake.poison.filter fun g => !l.gone g
      zeroed := s.lake.zeroed.filter (· ≠ k) } }
    let s := s.raise 0x1201 (if p < 4 then p else 15) k [ch]
    let s := if p < 4 then s.afterLoss before' p l else s
    s.loseCopies [k]

def execChannelLoss (k ch : Nat) (s : State) : Res :=
  .next (if s.stackWorks k && decide (ch < 32) && s.phase = .running then s.channelGone k ch else s)

/-- R366. A stack is lost. -/
def execStackLoss (k : Nat) (s : State) : Res := .next (if s.stackWorks k && s.phase = .running then s.stackGone k else s)

/-- The cores of a lost hall do nothing more: their queues are empty. -/
def State.stopCores (s : State) (h : Nat) : State :=
  { s with cores := s.cores.map fun e => if hallOf e.1 ≠ h then e else (e.1, { e.2 with
      matQ := []
      vecQ := []
      tileQ := []
      springs := e.2.springs.map fun q => (q.1, q.2.map fun d => { d with flights := [] }) }) }

/-- A hall is out, with its stacks. -/
def State.hallOut (s : State) (h : Nat) : State :=
  let p := s.hallOwner h
  let ks := s.stacksOf h
  let s := (s.stopCores h).clearStacks ks
  let s := { s with sup := { s.sup with lostHalls := s.sup.lostHalls ++ [h], lostStacks := s.sup.lostStacks ++ ks } }
  s.raise 0x1203 (if p < 4 then p else 15) h []

/-- A hall is lost with its stacks (R364, R366). -/
def State.hallGone (s : State) (h : Nat) : State :=
  let before' := s
  let p := s.hallOwner h
  let ks := s.stacksOf h
  let s := s.hallOut h
  let l : Loss := { kind := 3, pos := h, ch := 0, gone := fun g => lakeStack (g * 64) / 4 = h }
  let s := if p < 4 then s.afterLoss before' p l else s
  s.loseCopies ks

/-- R366. A hall is lost. -/
def execHallLoss (h : Nat) (s : State) : Res :=
  .next (if h < 4 && !s.sup.lostHalls.contains h && s.phase = .running then s.hallGone h else s)

/-- Part of what R367 step 3 asks: SWEEP completes OK and the step is SWEPT, the mirrors having committed it. -/
def State.finishSweep (s : State) (p : Nat) : State :=
  match (s.partn p).sweep with
  | none => s
  | some run =>
    if (s.partn p).step ≠ .sweeping then s
    else
      let held := (s.partn p).objects.filter fun e => run.units.any e.2.heldBy
      let s := held.foldl (fun s e => s.leaveObject p e.1 0 run) s
      let lost := ((s.partn p).sweep.getD run).lost
      let s := (s.takeDigests p run).onPartn p fun x => { x with step := .swept }
      (s.complete p run.s run.q (if lost.isSome then { run with lost := lost }.outcome else .ok)).settleOwed p

/-- The format of a part's tiles (R209, R215). -/
def SweepRec.partFmt (r : SweepRec) (x : SweepPart) : Nat :=
  if x.role = 1 then r.wFmt else if x.role = 2 then 7 else if x.role = 3 then r.s1Fmt else r.s2Fmt

/-- The origin expected of tile i of a part that lies in block order (R114, R217): c0 to c4. -/
def SweepRec.tileOrigin (r : SweepRec) (fmt i : Nat) : List Nat :=
  let b := r.blkPos (r.firstBlk + i / tilesPerBlock fmt)
  let t := i % tilesPerBlock fmt
  let per := 128 / tileCols fmt
  [b.c0 + t % per * tileCols fmt, b.c1 + t / per * tileRows fmt, b.c2, b.c3, b.c4]

/-- The part and tile index of a record at an address. -/
def SweepRec.tileAt (r : SweepRec) (va : Nat) : Option (SweepPart × Nat) :=
  ((r.parts.filter fun x => !(r.tiered && 3 ≤ x.role)).find? fun x =>
    decide (x.addr ≤ va ∧ va < x.addr + x.tiles * frameBytes) && (va - x.addr) % frameBytes = 0).map fun x => (x, (va - x.addr) / frameBytes)

/-- R180 for a mirror's frame of a record's tile. R and C of FACTORED lie outside the block numbering (R217), so no origin is expected
of them, and a lost tile leaves no version to compare (DEDUCED, assumption log 136). -/
def SweepRec.tileSound (r : SweepRec) (va : Nat) (f : List Byte) : Bool :=
  match r.tileAt va with
  | none => false
  | some (x, i) =>
    let h := frameHeader f
    f.length = frameBytes && frameCheckOk f && h.tensor = x.tensor &&
      ((r.factored && decide (3 ≤ x.role)) || h.origin = r.tileOrigin (r.partFmt x) i)

/-- R232 for the records that frames were written to: each has the digest that its mirrors sent. -/
def State.digestsSound (s : State) (p : Nat) (frames : ReplicaFrames) : Bool :=
  (s.partn p).stateRecs.all fun r => !(frames.tiles.any fun e => (r.tileAt e.1).isSome) ||
    (frames.digests.find? fun e => e.1 = r.idx).any fun e => s.recDigest p r = some e.2

/-- R367. The mirrors' frames of the lost tiles have arrived. Each must pass R180, and each record written must have its mirrors'
digest (R232); otherwise nothing is kept. The recovery is complete once no tile of a record reads as lost. -/
def execReplicaRecoveryComplete (p : Nat) (frames : ReplicaFrames) (s : State) : Res :=
  let u := s.writeHome p frames.tiles
  if !s.sup.recovering.contains p || !s.working || !(frames.tiles.all fun e => (s.partn p).stateRecs.any fun r => r.tileSound e.1 e.2) ||
      !u.digestsSound p frames then .next s
  else
    let s := u
    let whole := (s.partn p).stateRecs.all fun r => r.digestTiles.all fun va => match s.vread p va frameBytes with
      | .ok _ => true
      | _ => false
    if !whole then .next s
    else
      let s := { s with sup := { s.sup with recovering := s.sup.recovering.filter (· ≠ p) } }
      let s := (s.bump 0x8010 8 1).raise 0x1211 p (s.sup.recoveryPos.get p 0) []
      .next (s.finishSweep p)

/-! ## Input power loss (R370) -/

/-- POWER_FAIL: acceptance stops, the clocks and stack controllers halt, and the journal tail is flushed. A dump whose flash write it
cuts short stays incomplete, and the lake's copy is gone (R375). -/
def State.losePower (s : State) (flushed : Bool) : State :=
  if s.phase = .off || s.power.powerFail then s
  else
    let s := s.haltWork
    { s with
      phase := .off
      power := { s.power with powerFail := true, hostWidth := 0, hostGts := 0 }
      fabric := { s.fabric with
        ports := s.fabric.ports.map fun e => (e.1, e.2.unpowered)
        landings := [] }
      sup := { s.sup with
        flushLost := !flushed
        lostAt := some s.now
        dumps := s.sup.dumps.map fun d => { d with complete := d.complete && !s.dumpWriting d, lake := false } } }

/-- R370. The input has stayed below 43 V for 20 µs. -/
def execPowerFail (flushed : Bool) (s : State) : Res := .next (s.losePower flushed)

end Sys2Proof.Machine
end

