-- ==== Sys2Proof/Machine/Power.lean ====
section
/-! DEFINITION. Power domains, clocks, capping, thermal rules, hold-up energy and the sleep state (chapter 16; R357). -/

namespace Sys2Proof.Machine

/-! ## Input and budget (R423, R424, R431) -/

def State.onSensors (s : State) (f : Sensors → Sensors) : State :=
  { s with power := { s.power with sensors := f s.power.sensors } }

/-- Power.Cap, or less while the input lies between 43 and 45 V (R423): watts. -/
def State.effectiveCap (s : State) : Nat :=
  let cap := s.moduleSetting 0x7000 1
  if s.power.sensors.low then Min.min cap (s.power.sensors.millivolts * 54 / 1000) else cap

/-- The flash of a part at its rated load (R424), in watts. -/
def PartNo.flashWatts (v : PartNo) : Nat :=
  match v with
  | .m08x2f16 | .m12x2f16 => 40
  | .m08x2f32 | .m12x2f32 => 48
  | .m08x4f32 | .m12x4f32 | .m16x4f32 => 96
  | .m12x4f64 | .m16x4f64 => 120

/-- A of R431: I/O dies, flash and base. -/
def PartNo.otherWatts (v : PartNo) : Nat := 70 * v.ioDies + v.flashWatts + 60

/-- B of R431 for a cap, in hundredths of a watt. -/
def PartNo.loadBudget (v : PartNo) (cap : Nat) : Nat := 91 * cap - 100 * v.otherWatts

/-- The budget of a partition as a fraction of hundredths of a watt: (numerator, denominator) (R431). -/
def State.budget (s : State) (p : Nat) : Nat × Nat :=
  let cap := fun (i : Nat) => s.setting i 0x7001 (i + 1)
  if cap p ≠ 0 then (100 * cap p, 1)
  else
    let rest := s.part.loadBudget s.effectiveCap - (s.existing.map fun i => 100 * cap i).sum
    let shares := ((s.existing.filter fun i => cap i = 0).map fun i => (s.halls i).length).sum
    (rest * (s.halls p).length, Max.max 1 shares)

/-- R423. The input lies between 43 and 45 V. -/
def execInputVoltageLow (mv : Nat) (s : State) : Res :=
  if s.phase = .off || mv < 43000 || 45000 ≤ mv then .next s
  else .next ((s.onSensors fun x => { x with millivolts := mv, low := true }).raiseM 0x2001 255 [mv])

/-- R423. The input is back at 45 V or above. -/
def execInputVoltageInRange (mv : Nat) (s : State) : Res :=
  if mv < 45000 then .next s else .next (s.onSensors fun x => { x with millivolts := mv, low := false })

/-- R423. The input stays above 57 V. -/
def execInputVoltageHigh (mv : Nat) (s : State) : Res :=
  if s.phase = .off || mv ≤ 57000 then .next s
  else .next ((s.onSensors fun x => { x with millivolts := mv }).raiseM 0x2002 255 [0])

/-- R423. The input stays above 58.5 V: POWER_FAIL, and 0x2002 again at the next start. -/
def execInputOvervoltage (mv : Nat) (s : State) : Res :=
  if s.phase = .off || s.power.powerFail || mv ≤ 58500 then .next s
  else .next ((s.onSensors fun x => { x with millivolts := mv, overvoltage := true }).losePower true)

/-! ## Domains (R425, R426) -/

/-- What a domain covers (Power domain map). -/
inductive DomKind where
  | hall (h : Nat)
  | stack (k : Nat)
  | fabric (d : Nat)
  | flash (d : Nat)
  | engine (d : Nat)
  | always
deriving DecidableEq, Repr

def domKind (d : Nat) : DomKind :=
  if d < 64 then .hall (d / 16) else if d < 80 then .stack (d - 64)
  else if d < 92 then (match (d - 80) % 3 with
    | 0 => .fabric ((d - 80) / 3)
    | 1 => .flash ((d - 80) / 3)
    | _ => .engine ((d - 80) / 3))
  else .always

/-- A domain at a populated position. -/
def PartNo.hasDomain (v : PartNo) (d : Nat) : Bool :=
  decide (d < 96) && match domKind d with
  | .stack k => v.hasStack k
  | .fabric x | .flash x | .engine x => v.hasDie x
  | _ => true

/-- The number that an event of a domain carries as its position. -/
def DomKind.pos : DomKind → Nat
  | .hall h => h
  | .stack k => k
  | .fabric d | .flash d | .engine d => d
  | .always => 255

/-- Domains of a hall without owner, with its stacks, stay OFF (R425). -/
def State.domUnowned (s : State) (d : Nat) : Bool :=
  match domKind d with
  | .hall h => decide (4 ≤ s.hallOwner h)
  | .stack k => decide (4 ≤ s.hallOwner (k / 4))
  | _ => false

/-- A warm reset is under way. -/
def State.inWarmReset (s : State) : Bool :=
  match s.phase with
  | .warmReset _ _ _ => true
  | _ => false

/-- The stacks are in self-refresh (R439, R448). -/
def State.selfRefresh (s : State) : Bool := s.power.sleep = .asleep || s.inWarmReset

/-- Domains that SLEEP, a warm reset, the loss of the hall or a phase without power leaves off (R364, R439, R444, R448). A warm reset is
one phase here, and its domains are off throughout (assumption log 144). -/
def State.domIdle (s : State) (d : Nat) : Bool :=
  match domKind d with
  | .hall h => s.phase = .off || s.phase = .recovery || s.selfRefresh || s.sup.lostHalls.contains h
  | .always => s.phase = .off
  | .stack _ => s.phase = .off || s.phase = .recovery
  | .fabric _ => s.phase = .off || s.phase = .recovery || (s.power.sleep = .asleep && s.moduleSetting 0x7020 3 = 0)
  | _ => s.phase = .off || s.phase = .recovery || s.selfRefresh

/-- Power.DomainState (R442). -/
def State.domainState (s : State) (d : Nat) : Nat :=
  if !s.part.hasDomain d then 3
  else match (s.power.domains.get d {}).st with
    | .faulted => 2
    | .off => 0
    | .on => if s.domUnowned d || s.domIdle d then 0 else 1

def State.setDomain (s : State) (d : Nat) (x : Domain) : State :=
  { s with power := { s.power with domains := s.power.domains.put d x {} } }

/-- A hall domain's fault stops its partition's segments like a hard loss that may still pass (R426). -/
def State.hallFault (s : State) (h : Nat) : State :=
  let p := s.hallOwner h
  let s := s.stopCores h
  if 4 ≤ p then s
  else (s.stopHard p { kind := 3, pos := h, ch := 0, gone := fun _ => false }).stepFault p cauHardFault

/-- The exchange records of a partition that run end for a fault of an engine's domain (R426). -/
def State.endEngineX (s : State) (p d : Nat) : Nat → State
  | 0 => s
  | n + 1 =>
    match (s.partn p).xruns.findIdx? fun r => r.started && !r.complete && !r.ended with
    | none => s
    | some i =>
      let s := match (s.partn p).xruns[i]? with
        | some r => s.cancelX p r
        | none => s
      (s.endX p i cauHardFault 6 (fld d 96)).endEngineX p d n

/-- A port whose domain has faulted is down; beyond recovery it is held down, with event 0x5208 and the module at its other end as long as
that is known. One with a shorted cable-power contact stays DOWN (R463). -/
def State.fabricDown (s : State) (q : Nat) (beyond : Bool) : State :=
  let peer := (s.port q).peerModule
  let s := s.portDown q .training
  let x := s.port q
  if !beyond || x.st = .heldDown || x.shorted then s else (s.setPort q { x with st := .heldDown }).raiseM 0x5208 q [q, peer]

/-- The outcome at a fault, and beyond recovery (Domain faults). A hall that is lost already has nothing more to lose. -/
def State.domainFaulted (s : State) (d : Nat) (beyond : Bool) : State :=
  match domKind d with
  | .hall h => if s.sup.lostHalls.contains h then s else if beyond then s.hallGone h else s.hallFault h
  | .stack k => if s.stackWorks k then s.stackGone k else s
  | .fabric x =>
    ((List.range 4).map fun j => 4 * x + j).foldl (fun s q => s.fabricDown q beyond) s
  | .flash _ => if beyond then s.fatalNow 4 255 else s
  | .engine x =>
    if beyond then s.fatalNow 4 255
    else s.existing.foldl (fun s p => s.endEngineX p x (s.partn p).xruns.length) s
  | .always => s.fatalNow 5 255

/-- R426. A regulator fault. -/
def execDomainFault (d : Nat) (s : State) : Res :=
  let x := s.power.domains.get d {}
  if s.domainState d ≠ 1 || s.phase ≠ .running then .next s
  else
    let past := x.faults.filter fun t => s.now < t + 3600000000
    let beyond := !past.isEmpty
    let s := s.setDomain d { x with
      st := .faulted
      faults := past ++ [s.now]
      retriedAt := if beyond then some s.now else none }
    .next ((s.raiseM 0x2201 (domKind d).pos [d]).domainFaulted d beyond)

/-- Fills whose flash channels were off count the wait under the error ladder (R426, R178). -/
def State.countFlashWait (s : State) (die since : Nat) : State :=
  s.existing.foldl (fun s p =>
    let n := ((s.partn p).objects.filter fun e => e.1 % s.part.ioDies = die && e.2.fill.isSome).length
    if n = 0 then s else s.bumpP p 0x8050 6 (s.now - since)) s

/-- R426. The Power Manager switches the domain on once more; an attempt that fails puts the fault beyond recovery. -/
def execDomainRetry (d : Nat) (regulates : Bool) (s : State) : Res :=
  let x := s.power.domains.get d {}
  if x.st ≠ .faulted || x.retriedAt.isSome || !s.compUp 14 compClocks || s.phase ≠ .running then .next s
  else if regulates then
    let since := x.faults.getLast?.getD s.now
    let s := s.setDomain d { x with st := .on, retriedAt := some s.now }
    .next (match domKind d with
      | .flash die => s.countFlashWait die since
      | _ => s)
  else .next ((s.setDomain d { x with retriedAt := some s.now }).domainFaulted d true)

/-- R426. The domain has stayed in regulation for 1 s. -/
def execDomainRestored (d : Nat) (s : State) : Res :=
  let x := s.power.domains.get d {}
  if x.st ≠ .on || x.retriedAt.isNone || s.phase ≠ .running then .next s
  else .next ((s.setDomain d { x with retriedAt := none }).raiseM 0x2202 (domKind d).pos [d])

/-! ## Clocks (R427 to R430) -/

/-- The domain of gallery g of hall h. -/
def galleryDomain (h g : Nat) : Nat := 16 * h + g / 6

/-- A gallery is clock-gated while no segment runs on it (R429); when a segment launches, it is ungated. -/
def State.clockGated (s : State) (h g : Nat) : Bool :=
  s.cores.all fun e => !(hallOf e.1 = h && localOf e.1 / 16 = g && e.2.seg.isSome)

/-- The clock that the voltage of a domain follows: that of the fastest of its six galleries (R429). -/
def State.voltageClock (s : State) (h i : Nat) : Nat :=
  (List.range 6).foldl (fun m j => Max.max m (s.galleryClock h (6 * i + j))) 0

/-- The frequency that a gallery should run at (R430). -/
def State.clockTarget (s : State) (h g : Nat) : Nat :=
  let p := s.hallOwner h
  let own := if p < 4 then Min.min (s.setting p 0x7002 (p + 1)) (s.partn p).capClock else 2000
  Min.min own (s.power.domains.get (galleryDomain h g) {}).thermalClock

/-- Every gallery. -/
def galleries : List (Nat × Nat) := (List.range 4).flatMap fun h => (List.range 96).map fun g => (h, g)

/-- A gallery lowers its clock to a target in a series of steps of up to 100 MHz, each at a cycle boundary (R429). -/
def State.lowerTo (s : State) (h g target : Nat) : Nat → State
  | 0 => s
  | n + 1 =>
    let now := s.galleryClock h g
    if target < now then (s.setClock h g (Max.max target (now - 100))).lowerTo h g target n else s

/-- Clocks above their targets are lowered, which needs no wait (R429): at most 16 steps lead from 2,000 to 400 MHz. -/
def State.lowerClocks (s : State) : State :=
  galleries.foldl (fun s e => s.lowerTo e.1 e.2 (s.clockTarget e.1 e.2) 16) s

/-- Gallery clocks are locked at their targets, as a hall comes up (R441, R444, R448). -/
def State.lockClocks (s : State) : State := galleries.foldl (fun s e => s.setClock e.1 e.2 (s.clockTarget e.1 e.2)) s

/-- R429. A raise of up to 100 MHz, in steps of 25, once the voltage has followed. -/
def execClockRaiseStep (h g mhz : Nat) (s : State) : Res :=
  let now := s.galleryClock h g
  if 4 ≤ h || 96 ≤ g || !s.compUp 14 compClocks || !s.working || mhz % 25 ≠ 0 || mhz ≤ now || now + 100 < mhz || s.clockTarget h g < mhz then .next s
  else .next (s.setClock h g mhz)

/-! ## Capping (R432) -/

/-- The draw of a partition: its hall and stack domains, in watts. -/
def State.draw (s : State) (p : Nat) (w : List Nat) : Nat :=
  ((s.halls p).map fun h => ((List.range 16).map fun g => w.getD (16 * h + g) 0).sum +
    ((s.stacksOf h).map fun k => w.getD (64 + k) 0).sum).sum

/-- The comparison of one partition (R432): its cap clock. -/
def State.capOne (s : State) (w : List Nat) (p : Nat) : State :=
  let x := s.partn p
  let top := s.setting p 0x7002 (p + 1)
  let (num, den) := s.budget p
  let draw := 100 * s.draw p w * den
  let (clock, since) :=
    if num < draw then (Max.max 400 (Min.min x.capClock top - 25), none)
    else if 100 * draw < 95 * num then
      let t := x.capBelowSince.getD s.now
      (if 1000 ≤ s.now - t then Min.min top (x.capClock + 25) else x.capClock, some t)
    else (x.capClock, none)
  s.onPartn p fun x => { x with capClock := clock, capBelowSince := since }

/-- The time that a partition's cap clock stands below its Power.PartitionClock is counted, whoever enforces the cap, and event 0x2011 is
raised once an hour (R432). -/
def State.countCapped (s : State) (p : Nat) : State :=
  let clock := (s.partn p).capClock
  if s.setting p 0x7002 (p + 1) ≤ clock then s
  else
    let s := s.bump 0x7040 (p + 1) 100
    let tell := match (s.partn p).capToldAt with
      | none => true
      | some t => decide (t + 3600000000 ≤ s.now)
    if tell then (s.onPartn p fun x => { x with capToldAt := some s.now }).raiseP 0x2011 p [clock] else s

/-- R431, R432. The input is measured whenever the module has power; every 100 µs the Power Manager compares each partition's draw with
its budget. -/
def execPowerCapTick (r : PowerReading) (s : State) : Res :=
  if s.phase = .off then .next s
  else
    let s := s.onSensors fun x => { x with millivolts := r.millivolts, milliamps := r.milliamps, watts := r.inputWatts }
    if !s.up then .next s
    else
      let s := if s.compUp 14 compCapping then (s.existing.foldl (fun s p => s.capOne r.domainWatts p) s).lowerClocks else s
      .next (s.existing.foldl (fun s p => s.countCapped p) s)

/-! ## Thermal (R433 to R436) -/

/-- The thermal clock of a domain after a sample (R434). -/
def Domain.thermal (x : Domain) (now : Nat) (hot cool : Bool) : Domain :=
  if hot then { x with thermalClock := Max.max 400 (x.thermalClock - 25), coolSince := none }
  else if !cool then { x with coolSince := none }
  else
    let t := x.coolSince.getD now
    if 1000 ≤ now - t then { x with thermalClock := Min.min 2000 (x.thermalClock + 25), coolSince := some now }
    else { x with coolSince := some t }

/-- One quarter of a hall: its two sensors set the thermal clocks of its four domains (DEDUCED, assumption log 41). -/
def State.thermalQuarter (s : State) (junctions : List Int) (h q : Nat) : State :=
  let limit : Int := 100 * (s.moduleSetting 0x7010 1 : Int)
  let l := [junctions.getD (8 * h + 2 * q) 0, junctions.getD (8 * h + 2 * q + 1) 0]
  let hot := l.any fun t => decide (limit < t)
  let cool := l.all fun t => decide (t < limit - 200)
  (List.range 4).foldl (fun s i =>
    let d := 16 * h + 4 * q + i
    s.setDomain d ((s.power.domains.get d {}).thermal s.now hot cool)) s

/-- Event 0x2301 for a hall that reads above the throttle point, once an hour (R434). -/
def State.tellThrottle (s : State) (h : Nat) : State :=
  let told := s.power.sensors.toldThrottle.get h 0
  if told ≠ 0 && s.now + 1 < told + 3600000000 then s
  else (s.onSensors fun x => { x with toldThrottle := x.toldThrottle.put h (s.now + 1) 0 }).raiseM 0x2301 h [h]

/-- A hall's thermal rule: its clocks, and the event once per hour (R434). -/
def State.thermalHall (s : State) (r : ThermalReading) (h : Nat) : State :=
  let limit : Int := 100 * (s.moduleSetting 0x7010 1 : Int)
  let s := (List.range 4).foldl (fun s q => s.thermalQuarter r.junctions h q) s
  if (List.range 8).any fun i => decide (limit < r.junctions.getD (8 * h + i) 0) then s.tellThrottle h else s

/-- The highest reading of a hall is kept, and the time that its thermal clocks cost is counted, whoever lowered them (R433, R470). -/
def State.sampleHall (s : State) (r : ThermalReading) (h : Nat) : State :=
  let ts := (List.range 8).map fun i => r.junctions.getD (8 * h + i) 0
  let top := if s.hallOwner h < 4 then s.setting (s.hallOwner h) 0x7002 (s.hallOwner h + 1) else 2000
  let slowed := s.working && (List.range 16).any fun g => decide ((s.power.domains.get (16 * h + g) {}).thermalClock < top)
  let s := if slowed then s.bump 0x7041 (h + 1) 100 else s
  s.onSensors fun x => { x with hallMax := x.hallMax.set h (ts.foldl Max.max (ts.headD 0)) }

/-- A domain's thermal clock as the fallback governor sets it: it never raises one (R357, R434). -/
def State.governQuarter (s : State) (junctions : List Int) (h q : Nat) : State :=
  let limit : Int := 100 * (s.moduleSetting 0x7010 1 : Int)
  if (List.range 2).any fun i => decide (limit < junctions.getD (8 * h + 2 * q + i) 0) then
    ((List.range 4).foldl (fun s i =>
      let d := 16 * h + 4 * q + i
      s.setDomain d ((s.power.domains.get d {}).thermal s.now true false)) s).tellThrottle h
  else s

/-- R434 under the fallback governor, while the thermal component is out of service. -/
def State.governThermal (s : State) (junctions : List Int) : State :=
  if s.compUp 14 compThermal then s
  else (List.range 4).foldl (fun s h => (List.range 4).foldl (fun s q => s.governQuarter junctions h q) s) s

/-- R357. The fallback governor lowers every gallery clock by 25 MHz while the input power exceeds the cap or a junction reads
above the throttle point, each in the place of the component that is out of service. -/
def execFallbackGovernorTick (watts : Nat) (junctions : List Int) (s : State) : Res :=
  let above := !s.compUp 14 compCapping && decide (s.effectiveCap < watts)
  let hot := !s.compUp 14 compThermal && junctions.any fun t => decide (100 * (s.moduleSetting 0x7010 1 : Int) < t)
  if !s.working || !(above || hot) then .next s
  else .next (galleries.foldl (fun s e => s.setClock e.1 e.2 (Max.max 400 (s.galleryClock e.1 e.2 - 25))) (s.governThermal junctions))

/-- A stack above its throttle point gets at most one grant in two until it is 3 °C below it (R433). -/
def State.thermalStack (s : State) (r : ThermalReading) (k : Nat) : State :=
  let limit : Int := 100 * (s.moduleSetting 0x7010 2 : Int)
  let t := r.stackTemps.getD k 0
  let slow := s.power.sensors.throttled.contains k
  let s := s.onSensors fun x => { x with stackTemps := x.stackTemps.put k t 0 }
  if limit < t && !slow then (s.onSensors fun x => { x with throttled := x.throttled ++ [k] }).raiseM 0x2302 k [k]
  else if t < limit - 300 && slow then s.onSensors fun x => { x with throttled := x.throttled.filter (· ≠ k) }
  else s

/-- The coolant check (R436): one event for each excursion of the inlet. -/
def State.coolantCheck (s : State) (r : ThermalReading) : State :=
  let out := decide (r.inlet < 1500 ∨ 4500 < r.inlet)
  let told := s.power.sensors.coolantTold
  let s := s.onSensors fun x => { x with inlet := r.inlet, outlet := r.outlet, coolantTold := out }
  if out && !told then s.raiseM 0x2304 255 [(BitVec.ofInt 32 r.inlet).toNat] else s

/-- R433 to R436. Every sensor is sampled each 100 µs, and the grant limit of the stacks follows; the thermal clocks are the work of the
Power Manager's thermal component, or of the governor in its place. -/
def execThermalSample (r : ThermalReading) (s : State) : Res :=
  if s.phase = .off || s.phase = .recovery then .next s
  else
    let rules := s.working && s.compUp 14 compThermal
    let s := if rules then (List.range 4).foldl (fun s h => s.thermalHall r h) s else s
    let s := (List.range 4).foldl (fun s h => s.sampleHall r h) s
    let s := s.part.stackList.foldl (fun s k => s.thermalStack r k) s
    let s := (s.onSensors fun x => { x with dies := r.dies }).coolantCheck r
    .next (if rules then s.lowerClocks else s)

/-- R435. A junction or stack sensor at 105 °C or more: POWER_FAIL. Sensors 0 to 31 are junctions, 32 to 47 stacks. -/
def execThermalTrip (sensor : Nat) (s : State) : Res :=
  if s.phase = .off || s.power.powerFail || 48 ≤ sensor || (32 ≤ sensor && !s.part.hasStack (sensor - 32)) then .next s
  else .next ((s.onSensors fun x => { x with trip := some sensor }).losePower true)

/-! ## Hold-up energy (R437) -/

/-- The measured journal tail, and its events. -/
def State.measureHoldup (s : State) (n : Nat) : State :=
  let tail := Min.min n 4194304
  let s := s.onSensors fun x => { x with holdupTail := tail }
  let s := if tail < 4194304 then s.raiseM 0x2101 255 [tail] else s
  if tail < 524288 then s.raiseM 0x2102 255 [tail] else s

/-- R437. The hold-up energy is measured. -/
def execHoldupCheck (n : Nat) (s : State) : Res := .next (if s.phase = .running then s.measureHoldup n else s)

/-! ## The sleep state (R438 to R441) -/

/-- A partition meets the three conditions of R438. -/
def Partition.idleNow (x : Partition) : Bool :=
  x.streams.all (fun e => e.2.journal.isEmpty && e.2.held.isEmpty) && x.requests.all fun r => r.ended

/-- The partitions that do not. -/
def State.notIdle (s : State) : List Nat := s.existing.filter fun p => !(s.partn p).idleNow

/-- Entry to SLEEP begins; entry waits while the Power Manager restarts (R354), during an update and a lake test. -/
def State.canSleep (s : State) : Bool :=
  s.working && s.phase = .running && s.compUp 14 compClocks && s.notIdle.isEmpty && s.power.lakeTest.owners.isEmpty &&
  (s.update.st = .idle || s.update.st = .staging || s.update.st = .provisional)

def State.beginSleep (s : State) : State :=
  if s.canSleep then { s with power := { s.power with sleep := .entering } } else s

/-- R438. Every partition has been idle for Power.SleepIdleSeconds; 0 disables it. -/
def execSleepIdleTimeout (s : State) : Res := .next (if s.moduleSetting 0x7020 2 ≠ 0 then s.beginSleep else s)

/-- The ports are down while the fabric domains are off (R439, R440). -/
def State.sleepPorts (s : State) : State :=
  (List.range s.part.ports).foldl (fun s q =>
    let s := s.portDown q .down
    if (s.port q).st = .training then s.setPort q { s.port q with st := .down } else s) s

/-- The ports that are enabled and DOWN begin their training. -/
def State.trainPorts (s : State) : State :=
  (List.range s.part.ports).foldl (fun s q =>
    if s.portEnabled q && (s.port q).st = .down then s.setPort q (s.port q).train else s) s

/-- R438, R439. Entry to SLEEP completes: hall domains are off, and with SleepFabric 0 the ports are down. Where the conditions no longer
hold, the module stays awake (DESIGN CHOICE, assumption log 144). -/
def execSleepEntered (s : State) : Res :=
  if s.power.sleep ≠ .entering || s.phase ≠ .running then .next s
  else if !s.notIdle.isEmpty then .next { s with power := { s.power with sleep := .awake } }
  else
    let s := if s.moduleSetting 0x7020 3 = 0 then s.sleepPorts else s
    let s := { s with cores := [], power := { s.power with sleep := .asleep, sleepEntries := s.power.sleepEntries + 1 } }
    .next (s.raiseM 0x2401 255 [])

/-- A new value of Power.SleepFabric acts on a module in SLEEP at once: it is LIVE (R439). -/
def State.sleepFabric (s : State) (on : Bool) : State :=
  if s.power.sleep ≠ .asleep then s else if on then s.trainPorts else s.sleepPorts

/-- R440. A wake trigger. One that is the acceptance of a command finds an accepted command. -/
def execWake (t : WakeTrigger) (s : State) : Res :=
  let there := match t with
    | .commandAccepted => !s.notIdle.isEmpty
    | .lakePacket | .exchangeFrame => s.moduleSetting 0x7020 3 = 1
    | _ => true
  .next (if there then s.startWake else s)

/-- R441. The wake sequence ends; entry to and wake from SLEEP wait while the Power Manager restarts (R354). -/
def execWakeComplete (s : State) : Res :=
  if s.power.sleep ≠ .waking || !s.compUp 14 compClocks || s.phase ≠ .running then .next s
  else
    let off := s.moduleSetting 0x7020 3 = 0
    let s := { s with power := { s.power with sleep := .awake } }
    let s := if off then s.trainPorts else s
    .next (s.lockClocks.raiseM 0x2402 255 [])

end Sys2Proof.Machine
end

