-- ==== Sys2Proof/Machine/Layout.lean ====
section
/-! DEFINITION. What a new dictionary value does (R399 to R401), and the creation, change and end of partitions (R335 to R343). -/

namespace Sys2Proof.Machine

/-! ## Partitions (R340, R341) -/

/-- A tier object that a rebuild leaves: ABSENT, every pin removed (R341). -/
def TierObj.rebuilt (o : TierObj) : TierObj :=
  { o with
    st := .absent
    pins := []
    deferred := false
    heldInLake := false
    fill := none
    writing := none
    recovery := none
    waiting := []
    demotes := []
    absentSince := none }

/-- A partition as its creation or a rebuild leaves it: DETACHED, with its namespace, and at a rebuild its version (R340, R341). -/
def Partition.fresh (x : Partition) (st : PartState) (keep : Bool) : Partition :=
  { st := st
    tokens := x.tokens
    objects := x.objects.map fun e => (e.1, e.2.rebuilt)
    flashSeq := x.flashSeq
    version := if keep then x.version else 0
    stateIntact := !keep || x.stateIntact
    imported := keep && x.imported
    regs := if keep then { x.regs with ptRoot := 0 } else {} }

/-- The addressable part of a stack is written with zeros, and its cursor and store are cleared (R341). -/
def State.zeroStack (s : State) (k : Nat) : State :=
  let inside := fun (pa : Nat) => decide (lakeStack pa = k ∧ lakeOffset pa < reservedFrom)
  let s := { s with lake := { s.lake with
    mem := s.lake.mem.filter fun e => !inside e.1
    poison := s.lake.poison.filter fun g => !inside (g * 64)
    healed := s.lake.healed.filter fun g => !inside (g * 64)
    zeroed := (s.lake.zeroed.filter (· ≠ k)) ++ [k] } }
  s.clearStacks [k]

/-- The halls that an owner list gives a partition. -/
def ownedBy (owners : List Nat) (p : Nat) : List Nat := (List.range 4).filter fun h => owners.getD h 255 = p

/-- The owners of the four halls now. -/
def State.owners (s : State) : List Nat := (List.range 4).map s.hallOwner

/-- A partition after its hall set changed from `old` to `new`. -/
def State.resettle (s : State) (old new : List Nat) (p : Nat) : State :=
  let a := ownedBy old p
  let b := ownedBy new p
  if a = b then s
  else if b.isEmpty then s.onPartn p fun x => x.fresh .none true
  else s.onPartn p fun x => x.fresh .detached !a.isEmpty

/-- The hall owners have changed: stacks that passed on are zeroed, partitions are created, rebuilt or end (R341). -/
def State.rebuild (s : State) (old : List Nat) : State :=
  let new := s.owners
  let moved := (List.range 4).filter fun h => old.getD h 255 < 4 && old.getD h 255 ≠ new.getD h 255
  let s := moved.foldl (fun s h => (s.stacksOf h).foldl (fun s k => s.zeroStack k) (s.stopCores h)) s
  (List.range 4).foldl (fun s p => s.resettle old new p) s

/-- Partitions that a new owner list rebuilds or ends. -/
def State.rebuilt (s : State) (new : List Nat) : List Nat :=
  s.existing.filter fun p => ownedBy s.owners p ≠ ownedBy new p

/-- R342: every stream is disabled and the step is IDLE. -/
def Partition.quiet (x : Partition) : Bool := x.step = .idle && x.streams.all fun e => !e.2.en

/-! ## Values (R399, R401) -/

/-- A value takes effect for the whole module, with what it starts or stops. -/
def State.applyValue (s : State) (key : Nat) (v : List Byte) : State :=
  let old := s.value s.viewPart key
  if 0x6100 ≤ key / 256 && key / 256 < 0x6110 && key % 256 = 1 then
    if leNat v = 1 then s.enablePort (key / 256 - 0x6100) else s.disablePort (key / 256 - 0x6100)
  else
    let s := s.setValue key v
    if key = okey 0x7020 1 then
      (if leNat v = 1 then s.beginSleep else s.startWake)
    else if key = okey 0x7020 3 then s.sleepFabric (leNat v = 1)
    else if key = okey 0xA010 3 then (if leNat v = 1 && leNat old = 0 then s.raiseM 0x7006 255 [] else s)
    else if key / 256 = 0x7002 || key / 256 = 0x7000 then s.lowerClocks
    else s

/-- A partition takes one value of a set: its own object's, or its view of a module-wide one. -/
def State.takeValue (s : State) (p : Nat) (e : Entry) : State :=
  match objRow e.key with
  | none => s
  | some r => match r.scope with
    | .moduleWide =>
      { s with mgmt := { s.mgmt with inForce := s.mgmt.inForce.insert (p * 2 ^ 24 + e.key) e.value } }
    | .position => s
    | _ => if keyPart r e.key = some p then s.applyValue e.key e.value else s

/-- The partitions' views of a key end: every partition uses the module's value. -/
def State.dropViews (s : State) (key : Nat) : State :=
  { s with mgmt := { s.mgmt with inForce := s.mgmt.inForce.filter fun e => e.1 % 2 ^ 24 ≠ key } }

/-- All values of a set take effect at once; hall owners are settled together (R341, R349), and the clocks of a hall follow its new owner
(R430). -/
def State.applyAll (s : State) (es : List Entry) : State :=
  let old := s.owners
  let s := es.foldl (fun s e => (s.dropViews e.key).applyValue e.key e.value) s
  let s := if s.owners = old then s else (s.rebuild old).lowerClocks
  let gone := (List.range 4).filter fun p => s.setting p 0x3000 (13 + p) = 0
  if es.any fun e => e.key / 256 = 0x3000 && 13 ≤ e.key % 256 then
    gone.foldl (fun s p => if (s.partn p).objects.isEmpty then s else s.onPartn p fun x => { x with objects := [] }) s
  else s

/-! ## The end of a change set (R401, R349) -/

/-- A set has been applied: event 0x1501 with the CSID and the longest pause; a protection change adds 1 to Prot.Sequence and
raises 0x7001. -/
def State.setApplied (s : State) (c : ChangeSet) (pause : Nat) : State :=
  let s := { s with mgmt := { s.mgmt with
    sets := s.mgmt.sets.filter fun e => e.csid ≠ c.csid
    lastEnded := c.csid
    lastOutcome := 1
    lastPause := pause
    protSeq := if c.protection then s.mgmt.protSeq + 1 else s.mgmt.protSeq } }
  let s := if (s.update.st = .provisional || s.update.st = .rollingBack) && !c.protection then
    { s with update := { s.update with setsApplied := s.update.setsApplied + 1 } } else s
  let s := (s.refreshEligible.bump 0x8020 6 1).raiseM 0x1501 255 [c.csid, pause]
  if c.protection then s.raiseM 0x7001 255 [] else s

end Sys2Proof.Machine
end

