-- ==== Sys2Proof/Machine/Packages.lean ====
section
/-! DEFINITION. Firmware packages, the service port, activation, confirmation and rollback (chapter 15; R444's choice of a slot). -/

namespace Sys2Proof.Machine

/-! ## The package (R408, R409) -/

/-- Staging and check status. -/
def upBusy : Nat := 0x01
def upFormat : Nat := 0x02
def upKey : Nat := 0x03
def upSignature : Nat := 0x04
def upHash : Nat := 0x05
def upHardware : Nat := 0x06
def upSecurity : Nat := 0x07
def upSchema : Nat := 0x08
def upSize : Nat := 0x09
def upWrite : Nat := 0x0A

def pkgBody (pkg : List Byte) : List Byte := pkg.drop 512
def pkgModes (pkg : List Byte) : Nat := pkgField pkg 4047 4046

/-- Check 1. -/
def pkgFormatOk (pkg : List Byte) : Bool :=
  pkgField pkg 4095 4064 = 0x4B534E46 && pkgField pkg 4063 4056 = 1 && pkgField pkg 4045 4032 = 0 && pkgField pkg 2471 768 = 0 &&
  pkgModes pkg ≠ 0 && 1 ≤ pkgField pkg 3919 3888 && pkgField pkg 3919 3888 ≤ 62914560 &&
  pkg.length = 512 + pkgField pkg 3919 3888

/-- PUBKEY as its 97 bytes, and SIGNATURE. -/
def pkgKey (pkg : List Byte) : List Byte := (pkg.drop 309).take 97

/-- A boot key slot (R344). -/
def State.bootKey (s : State) (i : Nat) : List Byte := s.value s.viewPart (okey 0xA011 i)

/-- Check 2. -/
def State.pkgKeyOk (s : State) (pkg : List Byte) : Bool :=
  let k := pkgField pkg 4055 4048
  if k = 0 then pkgKey pkg = Config.romKey
  else k ≤ 4 && s.bootKey k ≠ List.replicate 48 0 && s.bootKey k = sha384 (pkgKey pkg)

/-- The checks of R409 in order: the status of the first that fails, 0 when none does. -/
def State.packageStatus (s : State) (pkg : List Byte) : Nat :=
  if !pkgFormatOk pkg then upFormat
  else if !s.pkgKeyOk pkg then upKey
  else if !ecdsaOk (pkgKey pkg) (sha384 ((pkg.take 512).drop 96)) (pkg.take 96) then upSignature
  else if sha384 (pkgBody pkg) ≠ (pkg.drop 406).take 48 then upHash
  else if Config.hardwareRevision.toNat < pkgField pkg 3935 3928 || pkgField pkg 3927 3920 < Config.hardwareRevision.toNat then upHardware
  else if pkgSecVersion pkg < s.update.floor then upSecurity
  else if !Config.schemaOk (pkgBody pkg) then upSchema
  else 0

/-- A slot may be booted: its package passes R409; the delivered image passes every check but that of the security floor
(assumption log 19). -/
def State.slotBoots (s : State) (i : Nat) : Bool :=
  let pkg := (s.slot i).package
  if pkg.isEmpty then !(pkgSecVersion pkg < s.update.floor) else s.packageStatus pkg = 0

/-- An event of an update: its quantities, then FW_VERSION in ARG2 (R422). -/
def State.raiseFw (s : State) (code a0 a1 : Nat) (v : U32) : State := s.raiseM code 255 [a0, a1, v.toNat]

def State.onUpdate (s : State) (f : Update → Update) : State := { s with update := f s.update }

/-! ## The service port (R410 to R412) -/

/-- The 16-byte result of a connection: status, and FW_VERSION. -/
def stageResult (status : Nat) (v : U32) : List Byte :=
  BitVec.ofNat 8 status :: List.replicate 7 0 ++ leBytes 4 v.toNat ++ List.replicate 4 0

/-- The slot that staging writes: the one that is not ACTIVE. -/
def State.targetSlot (s : State) : Nat := 1 - s.runningSlot

/-- The connection ends with a result. -/
def State.closePort (s : State) (status : Nat) (v : U32) : State :=
  s.onUpdate fun u => { u with
    connection := none
    result := stageResult status v
    st := if u.st = .staging then .idle else u.st }

/-- Staging fails: the slot is INVALID and the image is refused. -/
def State.refuseImage (s : State) (status : Nat) (pkg : List Byte) : State :=
  let v := pkgVersion pkg
  let s := s.setSlot s.targetSlot { st := .invalid }
  (s.raiseFw 0x1602 status 0 v).closePort status v

/-- The package length that a request states. -/
def requestLength (request : List Byte) : Nat := leNat ((request.drop 4).take 8)

/-- R410. A connection on the service port: a request and the data that followed it. -/
def execServicePortConnect (request package : List Byte) (s : State) : Res :=
  if (s.phase ≠ .running && s.phase ≠ .recovery) || s.power.powerFail || s.moduleSetting 0xA010 2 ≠ 1 || s.update.connection.isSome then
    .next s
  else if request.length ≠ 16 || leNat (request.take 4) ≠ 0x4B534E46 || leNat (request.drop 12) ≠ 0 then
    .next (s.closePort upFormat (pkgVersion package))
  else if s.update.st ≠ .idle then .next (s.closePort upBusy (pkgVersion package))
  else
    let s := s.setSlot s.targetSlot { st := .invalid }
    let s := s.onUpdate fun u => { u with st := .staging, connection := some (request, package) }
    .next (if requestLength request < package.length then s.refuseImage upSize package else s)

/-- R410. No data arrives for 30 s. -/
def execServicePortDataTimeout (s : State) : Res :=
  match s.update.connection with
  | none => .next s
  | some (request, package) =>
    if requestLength request ≤ package.length then .next s else .next (s.refuseImage upSize package)

/-! ## Rollback and confirmation (R421, R422) -/

/-- A writable object of the protection set-up. -/
def isProtection (key : Nat) : Bool :=
  match objRow key with
  | some r => r.access = .rw2
  | none => false

/-- Every setting outside the protection set-up returns to the value it had when the update started, for every partition. At a cold
start the values are stored, and the start acts on them. -/
def State.restoreSettings (s : State) : State :=
  let keys : List Nat := (s.mgmt.values.map fun e => e.1) ++ (s.mgmt.inForce.map fun e => e.1 % 2 ^ 24) ++ (s.update.saved.map fun e => e.1)
  (keys.dedup.filter fun k => !isProtection k).foldl (fun s k =>
    let d := objDefault s.part k
    let v := s.update.saved.get k d
    let s := s.dropViews k
    if s.mgmt.values.get k d = v then s else if s.phase = .starting then s.setValue k v else s.applyValue k v) s

/-- The PROVISIONAL image is rolled back: the fallback slot is ACTIVE, settings return, the failed slot is INVALID. -/
def State.completeRollback (s : State) (reason : Nat) : State :=
  let new := s.update.newSlot
  let v := pkgVersion (s.slot new).package
  let s := s.restoreSettings
  let s := s.setSlot new { s.slot new with st := .invalid }
  let s := (s.setSlot (1 - new) { s.slot (1 - new) with st := .active }).writeBoot none (1 - new)
  let n := s.update.setsApplied
  (s.onUpdate fun u => { u with st := .idle, rollback := none, saved := [], setsApplied := 0 }).raiseFw 0x1606 reason n v

/-- The image is confirmed. -/
def State.confirmImage (s : State) : State :=
  if s.update.st ≠ .provisional then s
  else
    let new := s.update.newSlot
    let pkg := (s.slot new).package
    let s := s.setSlot new { s.slot new with st := .active }
    let s := s.setSlot (1 - new) { s.slot (1 - new) with
      st := if (s.slot (1 - new)).st = .active then .previous else (s.slot (1 - new)).st }
    let s := (s.writeBoot none new).onUpdate fun u => { u with
      st := .idle
      floor := if u.floor < pkgSecVersion pkg then pkgSecVersion pkg else u.floor
      saved := []
      setsApplied := 0 }
    s.raiseFw 0x1605 0 0 (pkgVersion pkg)

/-- R421. Fw.ConfirmSeconds passes without a rollback trigger. -/
def execConfirmTimeout (s : State) : Res := .next (if s.up then s.confirmImage else s)

/-- R421. 1 written to Fw.Confirm. -/
def execFwConfirm (s : State) : Res := .next (if s.up then s.confirmImage else s)

/-- R422. 1 written to Fw.Rollback. -/
def execFwRollback (s : State) : Res := .next (if s.up then s.failUpdate 5 else s)

/-! ## Activation (R413, R414) -/

/-- The agreed mask of a session; the mailbox uses PF0's (R396). -/
def State.sessionMask (s : State) (n : Nat) : Nat :=
  if n = 0 then (s.partn 0).regs.featAgreed.toNat else ((s.mgmt.sessions.get n {}).agreed.getD 0).toNat

/-- The slot that holds a version to activate. -/
def State.slotOf (s : State) (v : U32) : Option Nat :=
  (List.range 2).find? fun i =>
    ((s.slot i).st = .staged || (s.slot i).st = .previous) && pkgVersion (s.slot i).package = v

/-- An update is in progress (R410, R413, R450); a PROVISIONAL slot apart. -/
def State.updating (s : State) : Bool := s.update.st ≠ .idle && s.update.st ≠ .provisional

/-- The objects in whose stored format the schemas of two slots differ, ascending (R413, R420). -/
def State.schemaDiff (s : State) (old new : Nat) : List Nat :=
  sortBy (fun a b => decide (a ≤ b)) <|
    (Config.schemaChanges (pkgBody (s.slot old).package) (pkgBody (s.slot new).package)).dedup.filter fun k => !isProtection k

/-- Why a write of a version to Fw.Activate is answered FEATURE or CONSTRAINT (R413); 0 when it is not. -/
def State.activateStatus (s : State) (n : Nat) (v : U32) : Nat :=
  let handover := s.moduleSetting 0xB000 2 = 0
  if handover && !bit (s.sessionMask n) 6 then 0x16
  else match s.slotOf v with
    | none => 0x25
    | some i =>
      let pkg := (s.slot i).package
      let removed := if pkg.isEmpty then 0 else pkgField pkg 3759 3632
      let agreed := (s.existing.map fun p => (s.partn p).regs.featAgreed.toNat) ++
        (s.mgmt.sessions.filter fun e => e.2.alive).map fun e => s.sessionMask e.1
      if s.update.st ≠ .idle || (!pkg.isEmpty && !bit (pkgModes pkg) (if handover then 0 else 1)) ||
          pkgSecVersion pkg < s.update.floor ||
          (handover && (decide (s.fwVersion < BitVec.ofNat 32 (if pkg.isEmpty then 0 else pkgField pkg 3999 3968)) ||
            !(s.schemaDiff s.runningSlot i).isEmpty)) ||
          agreed.any (fun m => m &&& removed ≠ 0) then 0x25
      else 0

/-- Activation starts (R414); a write to Fw.Activate wakes the module (R440). -/
def State.activate (s : State) (n : Nat) (v : U32) : State :=
  if s.activateStatus n v ≠ 0 then s
  else match s.slotOf v with
    | none => s
    | some i =>
      let handover := s.moduleSetting 0xB000 2 = 0
      let was := (s.slot i).st
      let s := (s.setSlot i { s.slot i with st := .provisional }).writeBoot (some i) s.runningSlot
      let s := s.onUpdate fun u => { u with
        slotWas := was
        supDone := none
        st := if handover then .handover else .holding
        newSlot := i
        handoverAt := 0
        saved := s.mgmt.values
        setsApplied := 0
        rollback := none
        maxPause := 0
        since := s.now }
      (s.raiseFw 0x1603 0 0 v).startWake

/-- R413. A write of Fw.Activate by a session. -/
def execFwActivate (n : Nat) (v : U32) (s : State) : Res := .next (if s.up then s.activate n v else s)

/-! ## HANDOVER (R415 to R417) -/

/-- The image is PROVISIONAL. -/
def State.becomeProvisional (s : State) : State :=
  let v := pkgVersion (s.slot s.update.newSlot).package
  (s.onUpdate fun u => { u with st := .provisional, lastPause := u.maxPause }).raiseFw 0x1604 0 0 v

/-- Processor n runs the new code. A Supervisor that takes it as the standby takes control as well; the other one, or the active one
where there is no standby, is the last. -/
def State.handoverDone (s : State) (n : Nat) : State :=
  if s.handoverPlace < s.handoverOrder.length then s
  else if n = s.sup.activeSup || (s.update.supDone.isSome && s.update.supDone ≠ some n) then s.becomeProvisional
  else ({ s with sup := { s.sup with activeSup := n } }).onUpdate fun u => { u with supDone := some n }

/-- R415. The next processor pauses, hands its state over and resumes. `ok` is false when its successor rejects the state; a
pause above 1 ms is a miss of the bound. A processor that is being restarted delays the sequence, and so does a wake that the write to
Fw.Activate has started (R440). -/
def execHandoverProcessor (ok : Bool) (pause : Nat) (s : State) : Res :=
  let place := s.handoverPlace
  let n := s.handoverNext
  if s.update.st ≠ .handover || !s.up || s.power.sleep ≠ .awake then .next s
  else if (s.proc n).st = .failed then .next (s.handoverDone n)
  else if (s.proc n).st = .restarting || !(s.proc n).comps.isEmpty || s.sup.failover then .next s
  else if !ok || 1000 < pause then .next s.handoverBack
  else
    let s := s.handoverDone n
    .next (s.onUpdate fun u => { u with
      handoverAt := place + 1
      maxPause := Max.max u.maxPause pause
      lastPause := if u.st = .provisional then Max.max u.maxPause pause else u.lastPause })

/-! ## ACTIVATE (R418 to R420) -/

/-- Objects whose stored format changed take their defaults; the list and the event name them (R420). -/
def State.resetFormats (s : State) : State :=
  let new := s.update.newSlot
  let l := s.schemaDiff (1 - new) new
  let s := l.foldl (fun s k => (s.dropViews k).applyValue k (objDefault s.part k)) s
  let s := s.onUpdate fun u => { u with resetList := l }
  if l.isEmpty then s else s.raiseFw 0x1607 l.length 0 (pkgVersion (s.slot new).package)

/-- Every DTLS session ends, with its open change set (R382, R418). -/
def State.endSession (s : State) (n : Nat) : State :=
  let x := s.mgmt.sessions.get n {}
  if !x.alive then s
  else
    let s := s.dropOpenSet n
    ({ s with mgmt := { s.mgmt with sessions := s.mgmt.sessions.put n { sent := x.sent } {} } }).raiseM 0x1504 255 []

def State.endSessions (s : State) : State := s.mgmt.sessions.foldl (fun s e => s.endSession e.1) s

/-- Every firmware processor restarts through the boot ROM and runs again (R418, R448), also one declared failed: R353's permanent
outcome lasts until such a restart (DEDUCED, assumption log 141). A failover under way is over, and there is a standby. -/
def State.restartAll (s : State) : State :=
  let s := { s with sup := { s.sup with
    procs := (s.sup.procs.map fun e => (e.1, { e.2 with st := .running, comps := [], whole := false })).filter fun e => e.2 ≠ {}
    failover := false
    standby := true } }
  (List.range s.part.ioDies).foldl (fun s d => s.restartRecoveries d) s

/-- The partitions that have not reached a step boundary. -/
def State.notHeld (s : State) : List Nat := s.existing.filter fun p => !s.atBoundary p

/-- R419. Not every partition is held in time: the update is abandoned, the boot control record is restored, and the slot is what it was,
STAGED or PREVIOUS. -/
def execUpdateAbandon (s : State) : Res :=
  match s.update.st, s.notHeld with
  | .holding, p :: _ =>
    if !s.up then .next s
    else
    let new := s.update.newSlot
    let v := pkgVersion (s.slot new).package
    let s := (s.setSlot new { s.slot new with st := s.update.slotWas }).writeBoot none (1 - new)
    .next ((s.onUpdate fun u => { u with st := .idle, saved := [] }).raise 0x1608 p 255 [p, 0, v.toNat])
  | _, _ => .next s

/-! ## The slot of a boot (R444, R450) -/

/-- The boot control record as the ROM reads it: of the copies whose check value is valid, the one written more often (R444). -/
def State.bootRecord (s : State) : Option BootCopy :=
  (s.update.bootCopies.filter fun c => c.valid).foldl (fun m c => match m with
    | some b => if b.writes < c.writes then some c else some b
    | none => some c) none

/-- What the boot ROM loads: the rollback that waits takes the fallback; otherwise PROVISIONAL, then ACTIVE, then another that
passes. A PROVISIONAL slot that fails is rolled back with reason 4, also where its fallback fails too. False: no slot passes. -/
def State.boot (s : State) : State × Bool :=
  let s := if s.update.st = .staging then s.closePort upSize 0 else s
  match s.bootRecord with
  | none => (s, false)
  | some c => match c.prov with
    | some new =>
      if s.update.st = .rollingBack then (s.completeRollback (s.update.rollback.getD 5), s.slotBoots (1 - new))
      else if s.slotBoots new then
        ((if s.update.st = .holding || s.update.st = .activating then s.resetFormats.becomeProvisional
          else if s.update.st = .handover then s.becomeProvisional else s), true)
      else (s.completeRollback 4, s.slotBoots (1 - new))
    | none =>
      let a := c.active
      if s.slotBoots a then (s, true)
      else if (s.slot (1 - a)).st = .previous && s.slotBoots (1 - a) then
        (((s.setSlot a { s.slot a with st := .invalid }).setSlot (1 - a) { s.slot (1 - a) with st := .active }).writeBoot none (1 - a), true)
      else (s, false)

end Sys2Proof.Machine
end

