-- ==== Sys2Proof/Machine/Reset.lean ====
section
/-! DEFINITION. Start-up, resets and boundary scan (R371, R373, R443 to R453). -/

namespace Sys2Proof.Machine

/-- The cause RESET (R449). -/
def cauReset : Nat := 0x0032

/-! ## What a warm reset leaves of started commands (R373, R449) -/

/-- The commands of a partition that had started, by stream and SEQ. -/
def Partition.started (x : Partition) : List (Nat × Cmd) :=
  x.streams.flatMap fun e => (e.2.inOrder (e.2.journal.filter fun k => k.phase ≠ .accepted)).map fun k => (e.1, k)

/-- A version that an IMPORT was writing is dropped: the old one stands in flash (R166, R449). -/
def State.dropImport (s : State) (p w q : Nat) : State :=
  let hit := fun (o : TierObj) => match o.writing with
    | some v => v.req.isOf w q
    | none => false
  let xs := ((s.partn p).objects.filter fun e => hit e.2).map fun e => e.1
  let s := xs.foldl (fun s x => s.becomeAbsent p x) s
  xs.foldl (fun s x => s.releaseHeld p x gone) (s.forgetTier p w q)

/-- The MOVE of a command leaves its mover: PARTIAL with the cursor. -/
def State.resetMove (s : State) (p w : Nat) (k : Cmd) : State :=
  match s.allMovers.findSome? fun m => ((s.queue m).find? fun d => d.origin = (p, w, k.seq)).map fun d => (m, d) with
  | none => s.complete p w k.seq { status := stPartial, cause := cauReset }
  | some (m, d) =>
    if k.phase = .aborting || k.phase = .stopping then s.settleMove m d
    else (s.descGone m d).complete p w k.seq { status := stPartial, cause := cauReset, detail := fld d.cursor 64 }

/-- A step of a stream that is not past its commit point is discarded by a fault of that stream's RUN, EXCHANGE or STEP_SEAL. -/
def State.resetStep (s : State) (p w q : Nat) : State :=
  if (s.partn p).stepOwner = w then s.stepFault p cauReset (some (w, q)) else s

/-- The outcome of one started command (Outcome of a warm reset). -/
def State.resetOne (s : State) (p w : Nat) (k : Cmd) : State :=
  let out := Outcome.fault cauReset
  if k.op = opRun then
    if k.phase = .aborting then ((s.endServe p w k.seq).complete p w k.seq { status := stAborted }).runPeriodEnd p
    else (((s.resetStep p w k.seq).endServe p w k.seq).complete p w k.seq out).runPeriodEnd p
  else if k.op = opMove then s.resetMove p w k
  else if k.op = opExchange || k.op = opStepSeal then (s.resetStep p w k.seq).complete p w k.seq out
  else if k.op = opExport then s.complete p w k.seq out
  else if k.op = opImport then
    if k.f 447 446 = 2 then
      ((s.dropLoad p w k.seq).onPartn p fun x => { x with stateIntact := false }).complete p w k.seq out
    else (s.dropImport p w k.seq).complete p w k.seq out
  else s

/-- The sweep units that had not ended resume at their cursors (R224). -/
def State.interruptSweep (s : State) (p : Nat) : State :=
  match (s.partn p).sweep with
  | none => s
  | some run => (run.units.filter fun k => !(s.unitRest run k).isEmpty).foldl
      (fun s k => s.setStore k { s.sweepStore k with interrupted := true }) s

/-- A warm reset during a replica recovery is a second fault (R361): a sweep whose cursor went with its stack cannot be gone on with, so
SWEEP and STEP_COMMIT complete HELD with CAUSE_ARG 5 and the step is discarded. -/
def State.holdSwept (s : State) (p : Nat) : State :=
  let x := s.partn p
  let cut := match x.sweep with
    | some run => run.units.any fun k => s.sup.lostStacks.contains k || s.unitBlind k
    | none => false
  if !s.sup.recovering.contains p || !cut then s
  else
    let s := (s.onPartn p fun x => { x with sweep := none, commitOwed := false }).enterDiscarded p cauHardFault
    s.holdWhich p (s.sup.recoveryPos.get p 0) 5 0 fun e => e.2.phase ≠ .accepted && (e.2.op = opSweep || e.2.op = opStepCommit)

/-- The outcomes of R449 in one partition. -/
def State.settleReset (s : State) (p : Nat) : State :=
  let s := s.holdSwept p
  let s := (s.partn p).started.foldl (fun s e => s.resetOne p e.1 e.2) s
  let s := (s.partn p).streams.foldl (fun s e => s.settleFeeds p e.1 0) s
  s.interruptSweep p

/-- The outcomes of R373 in one partition: a SWEEP past its commit point and its STEP_COMMIT go on. -/
def State.settleFatal (s : State) (p : Nat) : State :=
  let x := s.partn p
  let goesOn := fun (k : Cmd) => x.step = .sweeping && (k.op = opSweep || k.op = opStepCommit)
  let s := (s.dropMoves p).holdWhich p 255 4 0 fun e => e.2.phase ≠ .accepted && !goesOn e.2
  let s := s.onPartn p fun x => { x with serves := [], loads := [] }
  (s.stepFault p cauHardFault).interruptSweep p

/-! ## Warm reset (R447 to R450) -/

/-- A warm reset begins: cancels are sent (R259), all work stops, undecided change sets and an open window go at its end. One
that is under way keeps its cause. -/
def State.enterWarmReset (s : State) (cause : Nat) (held : Bool) : State :=
  if s.power.powerFail then s
  else match s.phase with
  | .off => s
  | .warmReset c t h => { s with phase := .warmReset c t (h || held) }
  | .faulted => { s with phase := .warmReset cause s.now held }
  | _ =>
    let s := s.existing.foldl (fun s p => s.cancelWhere p fun _ => true) s
    { s.haltWork with phase := .warmReset cause s.now held }

/-- R447. 1 written to Device.WarmReset; during an update the write is answered CONSTRAINT (R450). -/
def execDeviceWarmReset (s : State) : Res :=
  .next (if s.up && !s.updating then s.enterWarmReset 2 false else s)

/-- R447. MOD_RESET_N is low. -/
def execModResetN (s : State) : Res :=
  .next (({ s with power := { s.power with modResetN := false } }).enterWarmReset 3 true)

/-- MOD_RESET_N or the TAP no longer holds the reset at its second row. -/
def State.releaseReset (s : State) : State :=
  match s.phase with
  | .warmReset c t _ => if s.resetHeld then s else { s with phase := .warmReset c t false }
  | _ => s

/-- R448. MOD_RESET_N rises. -/
def execModResetNRelease (s : State) : Res :=
  .next ({ s with power := { s.power with modResetN := true } }).releaseReset

/-- The host port trains while PERST_N is high (R446) and is down while it is low. What width and rate it trains to is left open within
what PCI Express permits (R290): free values (assumption log 133). -/
def State.trainHost (s : State) : State :=
  if s.power.perstN then
    { s.fresh with power := { s.power with
        hostWidth := [16, 8, 4, 2, 1].getD (Config.hostLanes s.freeUsed) 16
        hostGts := [64, 32, 16, 8, 5, 2].getD (Config.hostRate s.freeUsed) 64 } }
  else { s with power := { s.power with hostWidth := 0, hostGts := 0 } }

/-- R447. PERST_N, or a hot reset: the MSI-X tables go, and every lease expires at once. -/
def execPerstN (low : Bool) (s : State) : Res :=
  if !low then .next (({ s with power := { s.power with perstN := true } }).trainHost)
  else if !s.power.perstN || s.phase = .off then .next { s with power := { s.power with perstN := false } }
  else
    let s := ({ s with power := { s.power with perstN := false } }).trainHost
    let s := (List.range 4).foldl (fun s p => s.onPartn p fun x => x.onRegs FnRegs.msixClear) s
    .next (s.existing.foldl (fun s p => s.expireLease p) s)

/-- A protection change that waits for the reset still meets R342: what it rebuilds is quiet. -/
def State.quietFor (s : State) (es : List Entry) : Bool :=
  let new := (List.range 4).map fun h => match es.find? fun e => e.key = okey 0x3000 (1 + h) with
    | some e => leNat e.value
    | none => s.hallOwner h
  (s.rebuilt new).all fun p => (s.partn p).quiet

/-- Streams that a smaller number of contexts removes are disabled (R342). -/
def State.removedQuiet (s : State) (es : List Entry) : Bool :=
  es.all fun e =>
    let b := e.key % 256
    !(e.key / 256 = 0x3000 && 5 ≤ b && b ≤ 8) ||
    (s.partn (b - 5)).streams.all fun m => m.1 < leNat e.value || !m.2.en

/-- A namespace keeps what its extents use (R343; DEDUCED, assumption log 45). -/
def State.namespacesFit (s : State) (es : List Entry) : Bool :=
  es.all fun e =>
    let b := e.key % 256
    !(e.key / 256 = 0x3000 && 13 ≤ b && b ≤ 16) ||
    (s.partn (b - 13)).extentBytes ≤ leNat e.value * 10 ^ 9

/-- RESTART sets take effect, in commit order, and undecided ones and an open window end (R349, R401, R402, R448). They are decided, and
never rolled back. -/
def State.settleSets (s : State) : State :=
  let s := (s.rollbackUndecided 5).endWindow 5
  (s.mgmt.sets.filter fun c => c.phase = .decided && c.cls = 3).foldl (fun s c => (s.applyAll c.entries).setApplied c 0) s

/-- A new module number or new extents retrain every port (R448). -/
def State.retrain (s : State) (before' : Nat × List Nat) : State :=
  if before' = (s.moduleNumber, s.extents) then s
  else (List.range s.part.ports).foldl (fun s q => s.portDown q .training) s

/-! ## The lake under a test (R184, R454) -/

def State.onLakeTest (s : State) (f : LakeTest → LakeTest) : State :=
  { s with power := { s.power with lakeTest := f s.power.lakeTest } }

/-- What the lake of a stack held is gone: lake copies go ABSENT, and swept state is not intact. -/
def State.stackEmptied (s : State) (k : Nat) : State :=
  let p := s.hallOwner (k / 4)
  let l : Loss := { kind := 2, pos := k, ch := 0, gone := fun g => lakeStack (g * 64) = k }
  let xs := if p < 4 then s.copiesLost p l else []
  let s := xs.foldl (fun s x => s.copyLost p x 2 l.detail) s
  let s := s.zeroStack k
  if p < 4 then s.onPartn p fun x => { x with stateIntact := x.stateIntact && x.version = 0 && !x.imported } else s

/-- The byte ranges of a partition whose lake state a started command works on: the tiles of a MOVE, the image and batch table of
a serving RUN, the token array of a FEED, the source of an IMPORT, the lake copy of a TIER command's object. -/
def State.workRanges (s : State) (p w : Nat) (k : Cmd) : List (Nat × Nat) :=
  let x := s.partn p
  if k.op = opMove then
    match s.allMovers.findSome? fun m => (s.queue m).find? fun d => d.origin = (p, w, k.seq) with
    | some d => (List.range d.total).flatMap fun i =>
        (if d.sspace = spVirt then [(d.src i, frameBytes)] else []) ++ if d.dspace = spVirt then [(d.dst i, frameBytes)] else []
    | none => []
  else if k.op = opRun then
    match x.serves.find? fun v => v.s = w && v.q = k.seq with
    | some v => (k.f 447 400, v.img.bytes) :: (v.img.serve.map fun d => (d.batchTable, 64 * d.ctxSlots)).toList
    | none => []
  else if k.op = opReqFeed then [(k.f 447 400, 4 * k.f 399 384)]
  else if k.op = opImport then [(k.f 445 398, if k.f 447 446 = 0 then k.f 365 334 * frameBytes else 128)]
  else if k.op = opPromote || k.op = opDemote || k.op = opPin || k.op = opUnpin then
    [((s.obj p (k.f 447 416)).addr, (s.obj p (k.f 447 416)).tiles * frameBytes)]
  else []

/-- The descriptor of a MOVE leaves its mover. -/
def State.loseMove (s : State) (p w q : Nat) : State :=
  match s.allMovers.findSome? fun m => ((s.queue m).find? fun d => d.origin = (p, w, q)).map fun d => (m, d) with
  | some (m, d) => s.descGone m d
  | none => s

/-- R184. The lend is lost: the parked contents count as lost, and the work whose lake state they held completes STATE_LOST. -/
def State.lendLost (s : State) (k : Nat) : State :=
  let p := s.hallOwner (k / 4)
  let s := s.raise 0x3402 (if p < 4 then p else 15) k []
  if 4 ≤ p then s.stackEmptied k
  else
    let l : Loss := { kind := 2, pos := k, ch := 0, gone := fun g => lakeStack (g * 64) = k }
    let gone := (s.partn p).started.filter fun e => (s.workRanges p e.1 e.2).any fun r => s.rangeLost p r.1 r.2 l
    let s := gone.foldl (fun s e =>
      ((((s.loseMove p e.1 e.2.seq).forgetTier p e.1 e.2.seq).dropLoad p e.1 e.2.seq).endServe p e.1 e.2.seq).complete
        p e.1 e.2.seq { status := stStateLost }) s
    s.stackEmptied k

/-- A lake test that a reset ends is FAILED (R450, R454). The stack under test: what it had parked is written back, or the lend is lost
where that cannot be done, which is left open (a free value, assumption log 40); without parking its contents are gone. -/
def State.failLakeTest (s : State) : State :=
  let t := s.power.lakeTest
  let s := match t.stacksLeft with
    | k :: _ =>
      if t.st = .holding then s
      else if !t.park then s.stackEmptied k
      else if Config.parkReturns s.freeUsed then s.fresh else s.fresh.lendLost k
    | [] => s
  match t.st with
  | .holding | .parking | .testing | .restoring =>
    (s.onLakeTest fun _ => { st := .failed, failing := t.failing, total := t.total }).raiseM 0x1704 255 [6, t.failing]
  | _ => s

/-- The module runs: Device.LastReset, Starts, event 0x1701 (R443, R448). -/
def State.started (s : State) (cause micros : Nat) : State :=
  ({ s with phase := .running
            power := { s.power with
              lastReset := cause
              lastStartMicros := micros
              starts := s.power.starts + 1 } }).raiseM 0x1701 255 [cause, micros]

/-- The lake, the halls and what they held are without power in RECOVERY (R444): the state is that of a power loss (DEDUCED,
assumption log 44). Also the first part of every cold start (R371). -/
def TierObj.powerLost (o : TierObj) : TierObj :=
  { o.rebuilt with pins := o.pins, version := if o.heldInLake then o.flashVersion else o.version }

/-- A partition after a loss of power: PARKED, its streams, version, token, tier objects with their pins kept. -/
def Partition.powerLost (x : Partition) : Partition :=
  { st := .parked
    parkedByLoss := true
    regs := { session := x.regs.session }
    tokens := x.tokens
    streams := x.streams.map fun e => (e.1, { e.2 with
      doorbell := e.2.accept
      journal := e.2.journal.map fun k => { k with img := none } })
    step := x.step
    version := x.version
    stepNo := x.stepNo
    stepSeed := x.stepSeed
    stepOwner := x.stepOwner
    abortCommitted := x.abortCommitted
    objects := x.objects.map fun e => (e.1, e.2.powerLost)
    flashSeq := x.flashSeq
    faultSeq := x.faultSeq
    counters := x.counters
    replaced := x.replaced
    heldList := x.heldList
    stateIntact := x.stateIntact && x.version = 0 && !x.imported && x.objects.all fun e => !e.2.heldInLake
    imported := x.imported
    orphanExport := x.orphanExport }

/-- Started commands complete STATE_LOST with the version; a step other than IDLE is DISCARDED (assumption log 42). -/
def State.losePartition (s : State) (p : Nat) : State :=
  let v := (s.partn p).version.toNat
  let x := s.partn p
  let gone := x.started
  let s := s.onPartn p Partition.powerLost
  let s := gone.foldl (fun s e => s.complete p e.1 e.2.seq
    { status := stStateLost, cause := cauPowerLoss, count := x.tokensOf e.1 e.2.seq, detail := v }) s
  let st := (s.partn p).step
  if st = .idle || st = .discarded then s else s.enterDiscarded p cauPowerLoss

/-- The journal entries that a flush lost: the acceptances of the unmirrored tail are lost to both sides (R370). -/
def Stream.loseTail (m : Stream) (from' : Nat) : Stream :=
  let lost := m.journal.filter fun k => from' ≤ k.order
  match lost with
  | [] => m
  | k :: _ => { m with
      journal := m.journal.filter fun j => j.order < from'
      accept := BitVec.ofNat 48 k.seq }

def State.loseTail (s : State) : State :=
  let from' := s.sup.acceptOrder - ((s.sup.unmirrored + 63) / 64 - s.sup.acceptWaits.length)
  { s with
    sup := { s.sup with flushLost := false }
    parts := s.parts.map fun e => (e.1, { e.2 with streams := e.2.streams.map fun m => (m.1, m.2.loseTail from') }) }

/-- Counters that count from power-on: 0x8080, and those of the ports (R288). -/
def fromPowerOn (key : Nat) : Bool := let i := key / 256; i = 0x8080 || (decide (0x8100 ≤ i) && decide (i < 0x8110))

/-- Everything that only power held is gone: cores, lake, fabric, processors, sessions, registers (R371, R445). -/
def State.losePowered (s : State) : State :=
  let s := s.existing.foldl (fun s p => s.losePartition p) s
  { s with
    cores := []
    movers := []
    counters := s.counters.filter fun e => !fromPowerOn e.1
    lake := { s.lake with
      mem := []
      poison := []
      healed := []
      zeroed := List.range 16
      stores := [] }
    fabric := { ports := (s.fabric.ports.map fun e => (e.1, e.2.unpowered)).filter
                  fun e => e.2 ≠ {} }
    sup := { s.sup with
      procs := (s.sup.procs.map fun e => (e.1, { e.2 with st := .running, comps := [], whole := false })).filter fun e => e.2 ≠ {}
      activeSup := 0
      standby := true
      failover := false
      latched := []
      recovering := []
      acceptWaits := []
      unmirrored := 0
      fatal := none }
    mgmt := { s.mgmt with
      sets := s.mgmt.sets.filter fun c => c.phase ≠ .opened
      sessions := []
      mbReq := []
      mbRsp := []
      mbBusy := false
      mbReady := false
      mbCtrl := 0
      held := [] } }

/-- Ndoit sessions are not among what a warm reset keeps (R447; DEDUCED, assumption log 85): those of the management port end, as
at a restart from a slot (R418), and the mailbox begins anew. -/
def State.resetSessions (s : State) : State :=
  let s := s.endSessions.dropOpenSet 0
  { s with mgmt := { s.mgmt with
      sessions := s.mgmt.sessions.filter fun e => e.1 ≠ 0
      mbReq := []
      mbRsp := []
      mbBusy := false
      mbReady := false
      mbCtrl := 0
      held := [] } }

/-- A warm reset keeps the ports that are up, but not what the landings held (R447). -/
def State.rebuildLandings (s : State) : State := { s with fabric := { s.fabric with landings := [] } }

/-- The last part of a warm reset, from the outcomes to the resumption of the partitions (R448, R449); a fatal error on the way ends it. `old`: the module number and the extents before the reset. -/
def State.finishWarm (s : State) (cause since : Nat) (lost : List Nat) (old : Nat × List Nat) : State :=
  let fatal := s.sup.fatal.isSome
  let s := { s.restartAll.resetSessions with phase := .running, power := { s.power with sleep := .awake } }
  let s := { s with sup := { s.sup with fatal := none } }
  let s := s.existing.foldl (fun s p => if fatal then s.settleFatal p else s.settleReset p) s
  let s := { s with power := { s.power with selfTestFailures := s.power.selfTestFailures + lost.length } }
  let s := (lost.filter fun h => decide (h < 4) && !s.sup.lostHalls.contains h).foldl (fun s h => s.hallGone h) s
  if s.phase ≠ .running then s
  else
  let s := (s.settleSets.retrain old).failLakeTest.lockClocks.rebuildLandings
  let s := s.existing.foldl (fun s p => if (s.partn p).leaseExpired then s.enterOrphan p
    else s.onPartn p fun x => { x with leaseFrom := s.now }) s
  let s := s.started cause (s.now - since)
  (s.existing.foldl (fun s p => s.flushAll p) s).releaseLatched

/-- RECOVERY: no slot passes, and the state is that of a power loss (R444; DEDUCED, assumption log 44). -/
def State.enterRecovery (s : State) : State :=
  let s := s.losePowered
  { s with phase := .recovery, power := { s.power with sleep := .awake } }

/-- R418, R422. Every partition is held, and a wake that the activation has started is over (R440): all processors restart through the
checks of R409, from the new slot or from the fallback of a rollback. Where neither passes, the module is in RECOVERY. -/
def execActivateRestart (pause : Nat) (s : State) : Res :=
  if (s.update.st ≠ .holding && s.update.st ≠ .rollingBack) || !s.notHeld.isEmpty || !s.up || s.power.sleep ≠ .awake then .next s
  else
    let s := ((s.restartAll).endSessions).endWindow 5
    let s := s.onUpdate fun u => { u with maxPause := pause }
    let (s, ok) := s.boot
    .next (if ok then s else s.enterRecovery)

/-- R448, R449. The warm reset ends; `lost` are the halls whose self-test failed. No slot that boots: RECOVERY. -/
def execWarmResetComplete (lost : List Nat) (s : State) : Res :=
  match s.phase with
  | .warmReset cause since false =>
    let old := (s.moduleNumber, s.extents)
    let (s, ok) := s.boot
    .next (if ok then s.finishWarm cause since lost old
      else ({ s with power := { s.power with lastReset := cause } }).enterRecovery)
  | _ => .next s

/-! ## Cold start (R443 to R445) -/

/-- The journal and the tier table are read back into the lake (R371): where the stacks of both copies are lost, one copy is placed
anew (R362), and without a place for it the error is fatal. -/
def State.startCopies (s : State) : State :=
  let left := s.sup.journalCopies.filter fun k => !s.sup.lostStacks.contains k
  let s := { s with sup := { s.sup with journalCopies := left } }
  if !left.isEmpty then s
  else match s.copyPlace with
    | some k => { s with sup := { s.sup with journalCopies := [k] } }
    | none => s.fatalNow 3 255

/-- A hall's failure at a start is its loss; nothing was in it (R444). -/
def State.startHalls (s : State) (lost : List Nat) : State :=
  let s := { s with power := { s.power with selfTestFailures := s.power.selfTestFailures + lost.length } }
  ((lost.filter fun h => decide (h < 4) && !s.sup.lostHalls.contains h).foldl (fun s h => s.hallOut h) s).startCopies

/-- The part of a start that follows the boot: values that waited, the ports' training, the clocks (R444). A fatal error ends it. -/
def State.startUp (s : State) (lost : List Nat) : State :=
  let s := ({ s with phase := .starting }).startHalls lost
  if s.phase = .starting then s.settleSets.trainPorts.lockClocks else s

/-- What the events of a start report of the loss before it (R370, R371, R423, R435). -/
def State.tellLoss (s : State) : State :=
  let s := match s.sup.lostAt with
    | some t => (s.bump 0x8010 9 1).raiseM 0x1301 255 [t]
    | none => s
  let s := if s.sup.flushLost then s.loseTail.raiseM 0x1302 255 [] else s
  let s := if s.power.sensors.overvoltage then s.raiseM 0x2002 255 [1] else s
  let s := match s.power.sensors.trip with
    | some n => s.raiseM 0x2303 255 [n]
    | none => s
  { s with
    sup := { s.sup with lostAt := none }
    power := { s.power with sensors := { s.power.sensors with overvoltage := false, trip := none } } }

/-- The domains of a start: on, with the faults that count towards R426. -/
def keepFaults (l : Table Domain) : Table Domain := l.foldl (fun t e => t.put e.1 { faults := e.2.faults } {}) []

/-- The power state of a start: domains and clocks as they come up, DebugUnlock 0 (R344, R425). What faulted within the hour is kept
(R426). -/
def State.powerUp (s : State) : State :=
  let x := s.power
  ({ s with power := { x with
      domains := keepFaults x.domains
      clocks := []
      sleep := .awake
      powerFail := false
      tapIr := 1
      lakeTest := { total := x.lakeTest.total }
      lastReset := 1 } }).trainHost.setValue (okey 0xA010 3) [0]

/-- R443. A cold start: the input has risen, or returned after the power-loss sequence, and every sensor is cool enough. -/
def execColdStart (r : StartReading) (s : State) : Res :=
  if s.phase ≠ .off || !r.cool then .next s
  else
    let s := (({ s with phase := .starting }).tellLoss.losePowered).powerUp
    let s := { s with power := { s.power with lastStartMicros := r.micros } }
    let (s, ok) := s.boot
    let s := s.measureHoldup r.holdupBytes
    .next (if ok then s.startUp r.failedHalls else { s with phase := .recovery })

/-- R443, R446. The start is complete: latched doorbells are acted on. -/
def execModuleRunning (s : State) : Res :=
  if s.phase ≠ .starting then .next s
  else
    .next (s.started s.power.lastReset s.power.lastStartMicros).releaseLatched

/-- R409, R410, R444. The staged image is in its slot: written, checked, STAGED. A module in RECOVERY boots it. -/
def execPackageStagingComplete (written : Bool) (s : State) : Res :=
  match s.update.connection with
  | none => .next s
  | some (request, pkg) =>
    if requestLength request ≠ pkg.length || s.power.powerFail then .next s
    else if !written then .next (s.refuseImage upWrite pkg)
    else
      let st := s.packageStatus pkg
      if st ≠ 0 then .next (s.refuseImage st pkg)
      else
        let i := s.targetSlot
        let s := s.setSlot i { st := .staged, package := pkg }
        let s := (s.raiseFw 0x1601 0 0 (pkgVersion pkg)).closePort 0 (pkgVersion pkg)
        if s.phase ≠ .recovery then .next s
        else
          let s := s.setSlot i { st := .active, package := pkg }
          .next (((s.setSlot (1 - i) { s.slot (1 - i) with st := .invalid }).writeBoot none i).startUp [])

/-! ## The outputs of the module and the TAP (R443, R452, R453) -/

/-- MOD_READY: high from Module RUNNING until the next reset or power loss (R443, R465). -/
def State.modReady (s : State) : Bool := (s.phase = .running || s.phase = .faulted) && !s.power.powerFail

/-- POWER_FAIL_N: low while POWER_FAIL is asserted, and on a module without power (R465). -/
def State.powerFailN (s : State) : Bool := s.phase ≠ .off && !s.power.powerFail

/-- MOD_ALERT_N: low in FAULTED, in RECOVERY, while a partition is PARKED after an input power loss, and on a module without
power (R465). -/
def State.modAlertN (s : State) : Bool :=
  s.phase ≠ .off && s.phase ≠ .faulted && s.phase ≠ .recovery &&
    (List.range 4).all fun p => !((s.partn p).st = .parked && (s.partn p).parkedByLoss)

/-- The value of the IDCODE register. -/
def idcodeValue : Nat :=
  fld (Config.hardwareRevision.toNat % 16) 28 + fld 0x4B31 12 + fld Config.jepId.toNat 1 + 1

/-- The instruction register takes a code, unless TRST_N holds the TAP in Test-Logic-Reset (R467). One that replaces an instruction of
the EXTEST class ends the TAP's hold of a warm reset (R453). -/
def State.setIr (s : State) (v : Byte) : State :=
  if s.phase = .off || !s.power.trstN then s else ({ s with power := { s.power with tapIr := v } }).releaseReset

/-- An instruction that acts only while MOD_RESET_N is low; else it acts as BYPASS. -/
def State.scan (s : State) (v : Byte) : State := s.setIr (if s.power.modResetN then 0xFF else v)

/-! ### The boundary register (R452): what its cells are is the BSDL file's to say (assumption log 114) -/

/-- The level of a pin at a capture: the signals of J3, then CBL_PRSNT_N of each port, then pins that the manual does not list. A pin of
an absent position reads 0. -/
def State.pinAt (s : State) (n pin : Nat) : Bool :=
  match pin with
  | 0 => s.modReady
  | 1 => s.power.modResetN
  | 2 => s.power.perstN
  | 3 => s.powerFailN
  | 4 => s.modAlertN
  | _ => if pin < 21 then decide (pin - 5 < s.part.ports) && !(s.port (pin - 5)).cable else Config.pinLevel n pin

/-- Every cell captures the level of its pin. -/
def State.capture (s : State) : State :=
  let cells := List.range (Config.boundaryCells s.part.text)
  { s.fresh with power := { s.power with
      boundary := cells.map fun i => s.pinAt s.freeUsed (Config.boundaryPin s.part.text i) } }

/-- The tester shifts in what the register is to drive. -/
def State.preloadBoundary (s : State) : State :=
  { s.fresh with power := { s.power with
      preload := (List.range (Config.boundaryCells s.part.text)).map fun i => Config.preload s.freeUsed i } }

/-- The loaded instruction selects the boundary register, which captures the pins: EXTEST, SAMPLE/PRELOAD, EXTEST_PULSE, EXTEST_TRAIN. -/
def State.sampled (s : State) : State :=
  if s.power.tapIr = 2 || extestClass s.power.tapIr then s.capture else s

/-- What the module drives on the pin of a cell: nothing under HIGHZ, the preloaded value under EXTEST and CLAMP, else its own level. -/
def State.driven (s : State) (i : Nat) : Option Bool :=
  if s.power.tapIr = 6 then none
  else if extestClass s.power.tapIr || s.power.tapIr = 5 then some (s.power.preload.getD i false)
  else some (s.pinAt s.freeUsed (Config.boundaryPin s.part.text i))

/-- R453. EXTEST; the module stays in warm reset while it is loaded. -/
def execExtest (s : State) : Res := .next (s.scan 0x00).sampled

/-- R453. IDCODE. -/
def execIdcode (s : State) : Res := .next (s.setIr 0x01)

/-- R452. SAMPLE/PRELOAD. -/
def execSamplePreload (s : State) : Res :=
  .next (let s := (s.setIr 0x02).sampled
    if s.power.tapIr = 2 then s.preloadBoundary else s)

/-- R452. EXTEST_PULSE. -/
def execExtestPulse (s : State) : Res := .next (s.scan 0x03).sampled

/-- R452. EXTEST_TRAIN. -/
def execExtestTrain (s : State) : Res := .next (s.scan 0x04).sampled

/-- R452. CLAMP. -/
def execClamp (s : State) : Res := .next (s.scan 0x05)

/-- R452. HIGHZ. -/
def execHighz (s : State) : Res := .next (s.scan 0x06)

/-- Codes that *TAP instructions* gives another instruction. -/
def tapOther (code : Byte) : Bool := code.toNat ≤ 6 || (0x80 ≤ code.toNat && code.toNat ≤ 0xFE)

/-- R452. BYPASS, 0xFF or a code without an instruction. -/
def execBypass (code : Byte) (s : State) : Res := .next (if tapOther code then s else s.setIr code)

/-- R452. A private instruction: what it does is not given; without Prot.DebugUnlock it acts as BYPASS. -/
def execSarolberPrivate (code : Byte) (s : State) : Res :=
  if !(0x80 ≤ code.toNat && code.toNat ≤ 0xFE) || s.phase = .off || !s.power.trstN then .next s
  else if s.moduleSetting 0xA010 3 = 1 then .refused .privateTapInstruction
  else .next (s.setIr 0xFF)

/-- R453. Test-Logic-Reset: IDCODE is loaded; after an instruction of the EXTEST class a warm reset begins as MOD_RESET_N rises. -/
def execTapTestLogicReset (s : State) : Res :=
  let s := match s.phase with
    | .warmReset _ t h => if extestClass s.power.tapIr then { s with phase := .warmReset 5 t h } else s
    | _ => s
  .next (s.setIr 0x01)

end Sys2Proof.Machine
end

