-- ==== Sys2Proof/Machine/LakeTest.lean ====
section
/-! DEFINITION. The lake test (R454). -/

namespace Sys2Proof.Machine

/-- A test is under way. -/
def LakeTest.busy (t : LakeTest) : Bool :=
  match t.st with
  | .holding | .parking | .testing | .restoring => true
  | _ => false

/-- The working stacks that Diag.LakeTestStacks names, ascending. -/
def State.testStacks (s : State) : List Nat :=
  ((List.range 16).filter fun k => bit (s.moduleSetting 0xF110 1) k).filter fun k => s.stackWorks k

/-- The test may start: no other is under way, there is a stack to test, and PARK has another module to park in. What that module
answers about its lend region is not seen here. -/
def State.lakeTestAllowed (s : State) : Bool :=
  !s.power.lakeTest.busy && !s.testStacks.isEmpty &&
  (s.moduleSetting 0xF110 2 = 0 || (s.moduleSetting 0xF110 3 < 64 && s.moduleSetting 0xF110 3 ≠ s.moduleNumber))

/-- The test starts: the owners of the tested stacks are held from their next boundary. -/
def State.startLakeTest (s : State) : State :=
  if !s.working || !s.lakeTestAllowed then s
  else
    let ks := s.testStacks
    let owners := s.existing.filter fun p => ks.any fun k => s.hallOwner (k / 4) = p
    (s.onLakeTest fun t => { st := .holding, stacksLeft := ks, owners := owners, park := s.moduleSetting 0xF110 2 = 1
                             total := t.total, since := s.now }).raiseM 0x1703 255 []

/-- R454. 1 written to Diag.LakeTestStart. -/
def execLakeTestStart (s : State) : Res := .next s.startLakeTest

/-- The owners stand at a boundary, for a DESTRUCTIVE test in IDLE. -/
def State.lakeTestHeld (s : State) : Bool :=
  s.power.lakeTest.owners.all fun p => s.atBoundary p && (s.power.lakeTest.park || (s.partn p).step = .idle)

/-- The test ends with a state and a result: 5 PASSED, 6 FAILED, or the status CONSTRAINT where it was refused. -/
def State.endLakeTest (s : State) (st : LakeTestState) (code : Nat) : State :=
  let n := s.power.lakeTest.failing
  (s.onLakeTest fun t => { st := st, failing := n, total := t.total }).raiseM 0x1704 255 [code, n]

/-- The test is refused with CONSTRAINT (R454), after it had started: event 0x1704 carries that status as its result. -/
def State.refuseLakeTest (s : State) : State := s.endLakeTest .idle 0x25

/-- R454. The hold has not come in ChangeSet.Timeout: the test is refused. -/
def execLakeTestHoldTimeout (s : State) : Res :=
  .next (if s.power.lakeTest.st = .holding && !s.lakeTestHeld && s.up then s.refuseLakeTest else s)

/-- Diag.LakeTestState as it reads (R456). The row that ends a stack's test comes once for parking, march and restoring; between such rows
the time tells which of them is under way: the march takes 0.6 s, how long the parking takes is left open (assumption log 40). -/
def State.lakeTestPart (s : State) : LakeTestState :=
  let t := s.power.lakeTest
  if !t.busy || (t.st = .holding && !s.lakeTestHeld) then t.st
  else if !t.park then .testing
  else if s.now < t.since + Config.parkMicros then .parking
  else if s.now < t.since + Config.parkMicros + 600000 then .testing else .restoring

/-- A journal copy on a stack is moved before its test (R362). -/
def State.moveCopy (s : State) (k : Nat) : State :=
  if !s.sup.journalCopies.contains k then s
  else
    let s' := { s with sup := { s.sup with journalCopies := s.sup.journalCopies.filter (· ≠ k) } }
    match ((List.range 4).filter fun h => !(s'.sup.journalCopies.map fun j => j / 4).contains h && !s.sup.lostHalls.contains h).findSome?
        fun h => ((s.stacksOf h).filter (· ≠ k)).head? with
    | none => s
    | some j => ({ s' with sup := { s'.sup with journalCopies := s'.sup.journalCopies ++ [j] } }).raiseM 0x1101 j []

/-- A device of a channel fails the test: the first marks it failed, one in another device loses the channel (R159, R365). -/
def State.deviceFails (s : State) (k : Nat) (e : Nat × Nat) : State :=
  let ch := lakeChannel (e.1 * 64)
  let had := s.sup.failedDevices.get (k * 32 + ch) 0
  if had = e.2 + 1 then s
  else if had = 0 then
    ({ s with sup := { s.sup with failedDevices := s.sup.failedDevices.put (k * 32 + ch) (e.2 + 1) 0 } }).raise
      0x3101 (let p := s.hallOwner (k / 4); if p < 4 then p else 15) k [ch, e.2]
  else if s.stackWorks k then s.channelGone k ch else s

/-- The contents of a parked stack are back (R454): each frame that came back with other bytes is verified under R180, and one that fails
ends the lend (R184). What passes is written back, and every granule of the stack has been written. -/
def State.parkReturned (s : State) (k : Nat) (changed : List (Nat × List Byte)) : State :=
  let l := changed.filter fun e => lakeStack e.1 = k
  let good := fun (e : Nat × List Byte) =>
    let w := s.lakeBytes e.1 frameBytes
    sameTile (BitVec.ofNat 64 (frameHeader w).version) w e.2
  if !l.all good then s.lendLost k
  else
    let s := { s with lake := { s.lake with zeroed := (s.lake.zeroed.filter (· ≠ k)) ++ [k] } }
    l.foldl (fun s e => s.lakeWrite e.1 e.2) s

/-- R454. One stack is parked, tested and restored; then the next one, or the end. Granules of another stack are not of this
test. A park module that refuses ends the test with CONSTRAINT before anything is parked. -/
def execLakeTestStackDone (r : LakeTestResult) (s : State) : Res :=
  let t := s.power.lakeTest
  match t.stacksLeft with
  | [] => .next s
  | k :: rest =>
    if !t.busy || !s.lakeTestHeld || !s.up then .next s
    else if t.park && r.refused then .next s.refuseLakeTest
    else
      let bad := r.failing.filter fun e => lakeStack (e.1 * 64) = k
      let s := s.moveCopy k
      let s := if t.park && t.st = .holding then s.raise 0x3401 (if s.hallOwner (k / 4) < 4 then s.hallOwner (k / 4) else 15) k [] else s
      let s := bad.foldl (fun s e => s.deviceFails k e) s
      let s := if t.park then (if r.parkedBack then s.parkReturned k r.changed else s.lendLost k) else s.stackEmptied k
      let n := (bad.map fun e => e.1).dedup.length
      let s := s.onLakeTest fun t => { t with
        stacksLeft := rest
        st := if t.park then .parking else .testing
        failing := t.failing + n
        total := t.total + n
        since := s.now }
      .next (if rest.isEmpty then
        (if s.power.lakeTest.failing = 0 then s.endLakeTest .passed 5 else s.endLakeTest .failed 6) else s)

end Sys2Proof.Machine
end

