-- ==== Sys2Proof/Machine/Elem.lean ====
section
/-! DEFINITION. The functions of R102 beyond the arithmetic ones. Each is evaluated in fixed point with 420 fraction bits and
rounded once to FP32: the series leave errors far below half a unit in the last place (assumption log 8). -/

namespace Sys2Proof.Machine

/-- One unit of the fixed point: 2^420. -/
def fixOne : Int := 2 ^ 420

/-- The fixed-point value of a rational, rounded down; the values of FP32 codes are exact in it. -/
def fixOf (q : ℚ) : Int := (q * (fixOne : ℚ)).floor

def fixToQ (x : Int) : ℚ := (x : ℚ) / (fixOne : ℚ)

def fixMul (a b : Int) : Int := a * b / fixOne

/-- e^x by halving the argument 12 times, 60 terms of the series, and squaring back. -/
def fixExp (x : Int) : Int :=
  let r := x / 4096
  let st := (List.range 60).foldl (fun (st : Int × Int) i =>
    let t := fixMul st.2 r / ((i : Int) + 1)
    (st.1 + t, t)) (fixOne, fixOne)
  (List.range 12).foldl (fun y _ => fixMul y y) st.1

/-- ln m for m near 1 (in fixed point), by the series of the inverse hyperbolic tangent. -/
def fixLnNear (m : Int) : Int :=
  let z := (m - fixOne) * fixOne / (m + fixOne)
  let z2 := fixMul z z
  let st := (List.range 140).foldl (fun (st : Int × Int) i =>
    (st.1 + st.2 / (2 * (i : Int) + 1), fixMul st.2 z2)) (0, z)
  2 * st.1

def fixLn2 : Int := fixLnNear (2 * fixOne)

/-- ln q for a positive rational: the binade times ln 2, plus the logarithm of the significand. -/
def fixLn (q : ℚ) : Int :=
  let e := floorLog2 q
  e * fixLn2 + fixLnNear (fixOf (q * pow2 (-e)))

/-- e^q as a rational with the right rounding to FP32; beyond the range any value there serves. -/
def expQ (q : ℚ) : ℚ :=
  if 120 ≤ q then pow2 160 else if q ≤ -120 then pow2 (-170) else fixToQ (fixExp (fixOf q))

def exp2Q (q : ℚ) : ℚ :=
  if 160 ≤ q then pow2 160 else if q ≤ -170 then pow2 (-170)
  else
    let n := q.floor
    fixToQ (fixExp (fixMul (fixOf (q - n)) fixLn2)) * pow2 n

def fExp : Val → Val
  | .nan => .nan
  | .inf n => if n then .zero false else .inf false
  | .zero _ => .fin 1
  | .fin q => r32 (.fin (expQ q))

def fExp2 : Val → Val
  | .nan => .nan
  | .inf n => if n then .zero false else .inf false
  | .zero _ => .fin 1
  | .fin q => r32 (.fin (exp2Q q))

def fLog : Val → Val
  | .nan => .nan
  | .inf n => if n then .nan else .inf false
  | .zero _ => .inf true
  | .fin q => if q < 0 then .nan else r32 (.ofQ (fixToQ (fixLn q)))

def fLog2 : Val → Val
  | .nan => .nan
  | .inf n => if n then .nan else .inf false
  | .zero _ => .inf true
  | .fin q => if q < 0 then .nan else r32 (.ofQ ((fixLn q : ℚ) / (fixLn2 : ℚ)))

/-- tanh q = (E - 1) / (E + 1) with E = e^(2q). -/
def fTanh : Val → Val
  | .nan => .nan
  | .inf n => .fin (if n then -1 else 1)
  | .zero n => .zero n
  | .fin q =>
    let e := fixExp (fixOf (2 * Min.min (Max.max q (-50)) 50))
    r32 (.ofQ (((e - fixOne : Int) : ℚ) / ((e + fixOne : Int) : ℚ)))

/-- sigmoid q = E / (1 + E) with E = e^q. -/
def fSigmoid : Val → Val
  | .nan => .nan
  | .inf n => if n then .zero false else .fin 1
  | .zero _ => .fin (mkRat 1 2)
  | .fin q =>
    let e := fixExp (fixOf (Min.min (Max.max q (-130)) 130))
    r32 (.ofQ ((e : ℚ) / ((e + fixOne : Int) : ℚ)))

def fSilu (v : Val) : Val := fMul v (fSigmoid v)

/-- k0 and k1 of R102. -/
def geluK0 : Val := ofF32 0x3F4C422A
def geluK1 : Val := ofF32 0x3D372713

/-- GELU_TANH in the step order of R102. -/
def fGelu (v : Val) : Val :=
  let a := fMul v v
  let b := fMul a v
  let c := fMul b geluK1
  let d := fAdd v c
  let e := fMul d geluK0
  let f := fTanh e
  let g := fAdd (.fin 1) f
  let h := fMul v g
  fMul (.fin (mkRat 1 2)) h

def fRelu (v : Val) : Val := Val.max v (.zero false)

def fRecip (v : Val) : Val := fDiv (.fin 1) v

end Sys2Proof.Machine
end

