-- ==== Sys2Proof/Machine/Tiles.lean ====
section
/-! DEFINITION. Tile registers (R95 to R97): TTAG, TLD, TST and the tile engine that executes them (R84). -/

namespace Sys2Proof.Machine

/-- One engine instruction of a thread has completed. -/
def Core.finish (k : Core) (t : Nat) : Core :=
  let h := k.thread t
  k.setThread t { h with outstanding := h.outstanding - 1 }

/-! ## TTAG, TLD, TST -/

/-- TTAG: SA at most 29, SD [4] reserved; TENSOR, BASE and STRIDE from sSA, sSA+1, sSA+2 (R96). -/
def ttagAct (c t : Nat) (w : U32) (s : State) : State :=
  s.onCore c fun k =>
    let h := k.thread t
    let a := wSa w
    let r := wSd w % 16
    let x := k.tile r
    (k.setTile r { x with tensor := (h.reg a).setWidth 32, base := h.reg (a + 1), stride := h.reg (a + 2) }).setThread t
      h.advance

/-- TTAG's checks, ILLEGAL_OP before RESERVED_BITS (DESIGN CHOICE, assumption log 120). -/
def ttagChecked (c t : Nat) (w : U32) (s : State) : State :=
  if 29 < wSa w then haltAt haltIllegal 0 c t w s
  else if 16 ≤ wSd w then haltAt haltReserved 0 c t w s
  else lockChecked ttagAct c t w s

/-- R96. TTAG. -/
def execTtag (c t : Nat) (w : U32) (s : State) : Res := .next (issue (isSys 0x05) ttagChecked c t w s)

/-- The halt of a frame address (R109): the whole frame in the pond, then 64-byte alignment (the order is DESIGN CHOICE,
assumption log 120). -/
def frameFault (a n : Nat) : Option Nat :=
  if !inPond a n then some haltPondRange else if a % 64 ≠ 0 then some haltAlign else none

/-- Bits [12:0] of format T are reserved. -/
def tReserved (w : U32) : Bool := wbits w 12 0 ≠ 0

/-- TLD and TST: the frame's address is checked, then the tile engine's queue accepts the instruction and the thread goes on
(R84, R109). The manual gives that queue no size. -/
def tileAct (c t : Nat) (w : U32) (s : State) : State :=
  let h := (s.core c).thread t
  let a := tAddr h w
  match frameFault a frameBytes with
  | some code => haltAt code a c t w s
  | none => s.onCore c fun k =>
    { k.setThread t { h.advance with outstanding := h.outstanding + 1, st := .ready } with
      tileQ := k.tileQ ++ [{ thread := t, pc := h.pc, word := w, addr := a }] }

def tileChecked (c t : Nat) (w : U32) (s : State) : State := reserveChecked tReserved (lockChecked tileAct) c t w s

/-- R96. TLD. -/
def execTld (c t : Nat) (w : U32) (s : State) : Res := .next (issue (isOp 0x18) tileChecked c t w s)

/-- R96. TST. -/
def execTst (c t : Nat) (w : U32) (s : State) : Res := .next (issue (isOp 0x19) tileChecked c t w s)

/-- A tile register that a frame is loaded into: FMT, BLK and TENSOR come from the header (R96). A header with a reserved FMT
is loaded with that tag, which a later use refuses. -/
def TileReg.loaded (x : TileReg) (f : List Byte) : TileReg :=
  let h := frameHeader f
  { x with payload := Table.putBytes [] 0 (framePayload f), sidecar := Table.putBytes [] 0 (frameSidecar f)
           fmt := h.fmt, blk := h.blk, tensor := BitVec.ofNat 32 h.tensor }

/-- The frame that TST writes: payload and sidecar, FMT, BLK and CHECK filled, every other header field as the pond holds it
(R96). A tile that EPI or format V wrote brings no OVF of its own, since a tile register has no such tag (R95): the pond's header keeps
its bit (DEDUCED, assumption log 138). -/
def TileReg.stored (x : TileReg) (head : List Byte) : List Byte :=
  frameSeal (frameRetag (head ++ x.sidecar.bytes 0 512 ++ x.payload.bytes 0 4096) x.fmt x.blk)

/-- The tile engine executes its oldest TLD or TST (R84, R96): TLD verifies the frame's check value. A halt at execution leaves
everything else as it was (R109). -/
def tileExec (c : Nat) (s : State) : State :=
  let k := s.core c
  match k.tileQ with
  | [] => s
  | e :: rest =>
    let load := wOpc e.word = 0x18
    let n := if load then frameBytes else 64
    let s := s.onCore c fun k => { k.finish e.thread with tileQ := rest }
    if k.pondBadAt e.addr n then s.halt c e.thread e.pc e.word haltPondEcc e.addr
    else if load && !frameCheckOk (k.pond.bytes e.addr frameBytes) then s.halt c e.thread e.pc e.word haltTileCheck e.addr
    else
      let r := tReg e.word
      (s.correctPond c e.addr n).onCore c fun k =>
        if load then k.setTile r ((k.tile r).loaded (k.pond.bytes e.addr frameBytes))
        else k.pondWrite e.addr ((k.tile r).stored (k.pond.bytes e.addr 64))

end Sys2Proof.Machine
end

