-- ==== Sys2Proof/Machine/Matrix.lean ====
section
/-! DEFINITION. Chapter 03: MMA and EPI, their execution, and the parity error of an accumulator. -/

namespace Sys2Proof.Machine

/-! ## Issue of MMA (R54 to R58, R78) -/

/-- The registers of an operand are in place: a pair or quad begins at an even register and ends by t15 (R53). -/
def regsInPlace (r n : Nat) : Bool := r + n ≤ 16 && (n = 1 || r % n = 0)

/-- The registers of an operand carry one format and one permitted block size (R53, R23). -/
def sameTags (k : Core) (r n : Nat) : Bool :=
  blkPermitted (k.tile r).fmt (k.tile r).blk &&
  (regSpan r n).all fun i => (k.tile i).fmt = (k.tile r).fmt && (k.tile i).blk = (k.tile r).blk

/-- The K counter of an MMA before its panel: J0 × 128 under CLR (R56). -/
def mmaK0 (k : Core) (t : Nat) (w : U32) : Nat :=
  if mmaClr w then ((k.thread t).reg (mmaSk w)).toNat * 128 else (k.acc (mmaAcc w)).k

/-- The halt of an MMA, the first in this order (R78; which of several holds first is assumption log 13). -/
def mmaFault (k : Core) (t : Nat) (w : U32) : Option Nat :=
  let fa := (k.tile (mmaTa w)).fmt
  let fb := (k.tile (mmaTb w)).fmt
  let p := pairingOf fa fb
  let na := operandRegs p fa
  let nb := operandRegs p fb
  let a := k.acc (mmaAcc w)
  if p = 0 || (p = 6 && mmaA16 w) then some haltPairing
  else if !regsInPlace (mmaTa w) na || !regsInPlace (mmaTb w) nb then some haltMmaReg
  else if !sameTags k (mmaTa w) na || !sameTags k (mmaTb w) nb then some haltPairing
  else if mmaClr w && (mmaSk w % 4 ≠ 0 || 2 ^ 28 ≤ ((k.thread t).reg (mmaSk w)).toNat) then some haltMmaKey
  else if 2 ^ 28 * 128 < mmaK0 k t w + panelK p then some haltMmaKey
  else if mmaClr w then (if a.owner.isSome && a.owner ≠ some t then some haltMmaOwner else none)
  else if a.owner ≠ some t then some haltMmaOwner
  else if a.a16 ≠ mmaA16 w || a.pairing ≠ p then some haltMmaMode
  else none

/-- The chunk that closes when the K counter reaches a multiple of 128 (R56). -/
def chunkClosed (k : Nat) : Option Nat := if k % 128 = 0 then some ((k - 1) / 128) else none

/-- Queue an MMA: the owner, mode, pairing and K counter change as it is issued (R55 to R58). -/
def mmaEnqueue (c t : Nat) (w : U32) (s : State) : State :=
  let (s, layer) := s.enterLayer c ((s.core c).thread t).pc
  let k := s.core c
  let h := k.thread t
  let p := pairingOf (k.tile (mmaTa w)).fmt (k.tile (mmaTb w)).fmt
  let n := mmaK0 k t w + panelK p
  let e : MatEntry :=
    { thread := t, pc := h.pc, word := w, layer := layer,
      key := if mmaClr w then
        some ((h.reg (mmaSk w + 1)).setWidth 32, h.reg (mmaSk w + 2), h.reg (mmaSk w + 3)) else none
      close := chunkClosed n, a16 := mmaA16 w, addr := 0 }
  let a := k.acc (mmaAcc w)
  let k := k.setAcc (mmaAcc w) { a with owner := some t, a16 := mmaA16 w, pairing := p, k := n }
  let k := k.setThread t { h.advance with outstanding := h.outstanding + 1, st := .ready }
  s.setCore c { k with matQ := k.matQ ++ [e] }

/-- Queue an instruction unless the engine's queue holds four (R59, R84); then its thread waits with the word. -/
def mmaAct (c t : Nat) (w : U32) (s : State) : State :=
  let k := s.core c
  if 4 ≤ k.matQ.length then s.onThread c t fun h => { h with st := .waiting (.queueFull .matrix w) }
  else
    match mmaFault k t w with
    | some code => haltAt code 0 c t w s
    | none => mmaEnqueue c t w s

/-- MMA: bits [8:0] are reserved. -/
def mmaChecked (c t : Nat) (w : U32) (s : State) : State :=
  reserveChecked (fun w => wbits w 8 0 ≠ 0) (lockChecked mmaAct) c t w s

/-- R54. MMA. -/
def execMma (c t : Nat) (w : U32) (s : State) : Res := .next (issue (isOp 0x20) mmaChecked c t w s)

/-! ## Exact summation (R61, R62) -/

/-- An operand element in units of 2^-151, the smallest magnitude that an operand can have. -/
inductive MVal where
  | nan
  | inf (neg : Bool)
  | num (i : Int)
deriving DecidableEq, Repr

def MVal.ofVal : Val → MVal
  | .nan => .nan
  | .inf n => .inf n
  | .zero _ => .num 0
  | .fin q => .num (q * pow2 151).floor

/-- The 64 rows of an operand panel (Operand panels). -/
def panel (k : Core) (p r : Nat) : List (List MVal) :=
  let rows := fun i =>
    let x := k.tile i
    (tileExact x.fmt x.blk (x.sidecar.bytes 0 512) (x.payload.bytes 0 4096)).map fun l => l.map MVal.ofVal
  let n := operandRegs p (k.tile r).fmt
  if n = 1 then rows r
  else if p = 2 then (rows r).zipWith (· ++ ·) (rows (r + 1))
  else rows r ++ rows (r + 1)

/-- Add one product to an element's open chunk. -/
def AccEl.addProduct (e : AccEl) (a b : MVal) : AccEl :=
  match a, b with
  | .num i, .num j => { e with x := e.x + i * j }
  | .nan, _ => { e with nan := true }
  | _, .nan => { e with nan := true }
  | .inf n, .inf m => if n = m then { e with posInf := true } else { e with negInf := true }
  | .inf n, .num j =>
    if j = 0 then { e with nan := true }
    else if n = decide (j < 0) then { e with posInf := true } else { e with negInf := true }
  | .num i, .inf m =>
    if i = 0 then { e with nan := true }
    else if m = decide (i < 0) then { e with posInf := true } else { e with negInf := true }

/-- The exact sum of a chunk (R61, R62). -/
def AccEl.sum (e : AccEl) : Val :=
  if e.nan || (e.posInf && e.negInf) then .nan
  else if e.posInf then .inf false
  else if e.negInf then .inf true
  else Val.ofQ ((e.x : ℚ) * pow2 (-302))

/-- The element after its chunk is added: the chunk register is empty again. -/
def AccEl.shut (s c : Nat) : AccEl := { s := BitVec.ofNat 32 s, c := BitVec.ofNat 16 c }

/-- A chunk close in A32 mode (R63), with the overflow flag of R66. -/
def closeA32 (e : AccEl) : AccEl × Bool :=
  let s := ofF32 e.s
  let x := e.sum
  if !x.isFinite then (AccEl.shut (fmtFP32.encode (s.add x)) 0, false)
  else if !s.isFinite then (AccEl.shut e.s.toNat 0, false)
  else
    let w := s.toQ + x.toQ + (fmtBF16.decode e.c.toNat).toQ
    let t := r32 (Val.ofQ w)
    if !t.isFinite then (AccEl.shut (fmtFP32.encode t) 0, true)
    else
      let c := fmtBF16.round .rne (Val.ofQ (w - t.toQ))
      (AccEl.shut (fmtFP32.encode (Val.ofQ t.toQ)) (fmtBF16.encode (Val.ofQ c.toQ)), false)

/-- A chunk close in A16 mode (R64): always stochastic. The accumulator never holds −0 (R63; for this mode DEDUCED,
assumption log 116). -/
def closeA16 (u : Nat) (e : AccEl) : AccEl × Bool :=
  let s := fmtA16.decode e.s.toNat
  let x := e.sum
  if !x.isFinite then (AccEl.shut (fmtA16.encode (s.add x)) 0, false)
  else if !s.isFinite then (AccEl.shut e.s.toNat 0, false)
  else
    let t := fmtA16.round (.sr u) (Val.ofQ (s.toQ + x.toQ))
    (AccEl.shut (fmtA16.encode (if t.isZero then .zero false else t)) 0, !t.isFinite)

/-- Close the open chunk of every element of an accumulator (R56, R63, R64). -/
def Acc.closeChunk (a : Acc) (a16 : Bool) (chunk : Nat) (seed step : U64) : Acc :=
  let key : RsKey := { seed := seed, step := step, tensor := a.tensor, purpose := 2, draw := chunk }
  let r := (List.range 4096).map fun i =>
    let e := a.els.get i {}
    let index := (a.base + BitVec.ofNat 64 (i / 64) * a.stride + BitVec.ofNat 64 (i % 64)).toNat
    (i, if a16 then closeA16 (rsDraw key index) e else closeA32 e)
  { a with els := (r.map fun e => (e.1, e.2.1)).filter fun e => e.2 ≠ ({} : AccEl)
           ovf := a.ovf || r.any fun e => e.2.2 }

/-- The seed and step of the rounding stream of a core's segment (R47). -/
def State.rsBase (s : State) (c : Nat) : U64 × U64 :=
  match s.segOf c with
  | none => (0, 0)
  | some g => (g.seed, g.stepKey)

/-- Add a panel to an accumulator (R61), after CLR's clearing (R55). -/
def Acc.addPanel (a : Acc) (key : Option (U32 × U64 × U64)) (pa pb : List (List MVal)) : Acc :=
  let a := match key with
    | none => a
    | some (tensor, base, stride) =>
      { a with els := [], ovf := false, tensor := tensor, base := base, stride := stride }
  let els := (pa.zipIdx.flatMap fun m => pb.zipIdx.map fun n =>
    let i := m.2 * 64 + n.2
    (i, (m.1.zip n.1).foldl (fun e ab => e.addProduct ab.1 ab.2) (a.els.get i {}))).filter fun e => e.2 ≠ ({} : AccEl)
  { a with els := els }

/-- The index of the first queued instruction of a kind whose accumulator has no earlier one of the other kind (R59). -/
def Core.matReady (k : Core) (op : Nat) : Option (Nat × MatEntry) :=
  match k.matQ.findIdx? fun e => wOpc e.word = op with
  | none => none
  | some i =>
    match k.matQ[i]? with
    | none => none
    | some e =>
      if (k.matQ.take i).any fun f => wOpc f.word ≠ op && mmaAcc f.word = mmaAcc e.word then none else some (i, e)

/-- R59. The matrix unit executes the next MMA and closes a chunk that it completes. -/
def execMmaExecute (c : Nat) (s : State) : Res :=
  let k := s.core c
  match k.matReady 0x20 with
  | none => .next s
  | some (i, e) =>
    let ta := mmaTa e.word
    let tb := mmaTb e.word
    let p := pairingOf (k.tile ta).fmt (k.tile tb).fmt
    let a := (k.acc (mmaAcc e.word)).addPanel e.key (panel k p ta) (panel k p tb)
    let a := match e.close with
      | none => a
      | some j => a.closeChunk e.a16 j (s.rsBase c).1 (s.rsBase c).2
    let k := (k.setAcc (mmaAcc e.word) a).finish e.thread
    .next (s.setCore c { k with matQ := k.matQ.eraseIdx i })

/-! ## Issue of EPI (R68, R78) -/

/-- The halt of an EPI at its issue, with its DETAIL; what its parameter block decides is checked when it executes. Where several checks
fail, this order decides (DEDUCED, assumption log 13). -/
def epiFault (k : Core) (t : Nat) (w : U32) : Option (Nat × Nat) :=
  let addr := ((k.thread t).reg (epiSp w)).toNat
  if 6 < epiFd w || 5 < epiAct w then some (haltEpiCode, 0)
  else if !regsInPlace (epiTd w) (epiRegs (epiFd w)) then some (haltMmaReg, 0)
  else if (k.acc (mmaAcc w)).owner ≠ some t then some (haltMmaOwner, 0)
  else if !inPond addr 64 then some (haltPondRange, addr)
  else if addr % 64 ≠ 0 then some (haltAlign, addr)
  else none

/-- Queue an EPI: it closes an open chunk and raises the K counter; without KEEP it releases the accumulator (R56, R58,
R72). -/
def epiEnqueue (c t : Nat) (w : U32) (s : State) : State :=
  let (s, layer) := s.enterLayer c ((s.core c).thread t).pc
  let k := s.core c
  let h := k.thread t
  let a := k.acc (mmaAcc w)
  let e : MatEntry :=
    { thread := t, pc := h.pc, word := w, layer := layer, key := none,
      close := if a.k % 128 = 0 then none else some ((a.k - 1) / 128)
      a16 := a.a16, addr := (h.reg (epiSp w)).toNat, prior := some (a.owner, a.k, a.pairing, a.a16) }
  let a := if epiKeep w then { a with k := (a.k + 127) / 128 * 128 }
    else { a with owner := none, k := 0, pairing := 0, a16 := false }
  let k := k.setAcc (mmaAcc w) a
  let k := k.setThread t { h.advance with outstanding := h.outstanding + 1, st := .ready }
  s.setCore c { k with matQ := k.matQ ++ [e] }

def epiQueued (c t : Nat) (w : U32) (s : State) : State :=
  let k := s.core c
  if 4 ≤ k.matQ.length then s.onThread c t fun h => { h with st := .waiting (.queueFull .matrix w) }
  else
    match epiFault k t w with
    | some (code, detail) => haltAt code detail c t w s
    | none => epiEnqueue c t w s

/-- EPI: bits [4:0] are reserved. -/
def epiChecked (c t : Nat) (w : U32) (s : State) : State :=
  reserveChecked (fun w => wbits w 4 0 ≠ 0) (lockChecked epiQueued) c t w s

/-- R68. EPI. -/
def execEpi (c t : Nat) (w : U32) (s : State) : Res := .next (issue (isOp 0x21) epiChecked c t w s)

/-! ## The epilogue (R69 to R72) -/

/-- The parameter block's fields (Epilogue parameter block). -/
structure EpiParams where
  outIndex : Nat
  outStride : Nat
  outTensor : U32
  taScale : U32
  tbScale : U32
  tout : U32
  qa : Nat
  qb : Nat
  bias : Nat
  qout : Nat
  outBlk : Nat
  biasBf16 : Bool
  half : Bool

def epiParams (v : Nat) : EpiParams :=
  { outIndex := bits v 511 448, outStride := bits v 447 384, outTensor := BitVec.ofNat 32 (bits v 383 352),
    taScale := BitVec.ofNat 32 (bits v 351 320), tbScale := BitVec.ofNat 32 (bits v 319 288),
    tout := BitVec.ofNat 32 (bits v 287 256), qa := bits v 255 240, qb := bits v 239 224, bias := bits v 223 208,
    qout := bits v 207 192, outBlk := bits v 191 189, biasBf16 := bit v 188, half := bit v 187 }

/-- OUT_BLK permitted for a destination (Epilogue destinations). -/
def epiBlkPermitted (fd blk : Nat) : Bool :=
  if fd ≤ 2 then 1 ≤ blk && blk ≤ 3 else if fd = 4 then blk ≤ 3 else blk = 0

/-- The pond vectors an EPI reads: (address, bytes) of each one present. -/
def epiVectors (m : EpiParams) : List (Nat × Nat) :=
  [(m.qa, 128), (m.qb, 128), (m.bias, if m.biasBf16 then 128 else 256), (m.qout, 128)].filterMap fun e =>
    if e.1 = 0xFFFF then none else some (e.1 * 64, e.2)

/-- The halt of an EPI that its parameter block decides, with its DETAIL (R78, R71, R109). Where several checks fail, this order decides
(DEDUCED, assumption log 13). -/
def epiBlockFault (k : Core) (e : MatEntry) (m : EpiParams) : Option (Nat × Nat) :=
  let td := k.tile (epiTd e.word)
  let fd := epiFd e.word
  if k.pondBadAt e.addr 64 then some (haltPondEcc, e.addr)
  else if !epiBlkPermitted fd m.outBlk then some (haltEpiCode, 0)
  else if fd = 0 && m.half && (td.fmt ≠ 0 || td.blk ≠ m.outBlk) then some (haltEpiHalf, 0)
  else
    match (epiVectors m).find? fun v => !inPond v.1 v.2 with
    | some v => some (haltPondRange, v.1)
    | none =>
      match (epiVectors m).find? fun v => k.pondBadAt v.1 v.2 with
      | some v => some (haltPondEcc, v.1)
      | none => none

/-- Entry i of a BF16 or FP32 vector in the pond. -/
def pondVec (k : Core) (addr : Nat) (wide : Bool) (i : Nat) : Val :=
  if wide then fmtFP32.decode (leNat (k.pond.bytes (addr * 64 + 4 * i) 4))
  else fmtBF16.decode (leNat (k.pond.bytes (addr * 64 + 2 * i) 2))

/-- The activation functions (R70). -/
def activation (act : Nat) (v : Val) : Val :=
  if act = 1 then fRelu v else if act = 2 then fGelu v else if act = 3 then fSilu v
  else if act = 4 then fSigmoid v else if act = 5 then fTanh v else v

/-- The value that step 1 of R69 reads: rne(s + c) in A32 mode, s in A16 mode. -/
def accRead (a16 : Bool) (e : AccEl) : Val :=
  if a16 then fmtA16.decode e.s.toNat
  else
    let s := ofF32 e.s
    if s.isFinite then fAdd s (fmtBF16.decode e.c.toNat) else s

/-- Steps 1 to 5 of R69 for row m, column n. -/
def epiValue (k : Core) (a : Acc) (e : MatEntry) (m : EpiParams) (row col : Nat) : Val :=
  let v := accRead e.a16 (a.els.get (row * 64 + col) {})
  let v := if m.qa = 0xFFFF then v else fMul v (pondVec k m.qa false row)
  let v := if m.qb = 0xFFFF then v else fMul v (pondVec k m.qb false col)
  let tab := fMul (tensorScale m.taScale) (tensorScale m.tbScale)
  let v := fMul v tab
  let v := if m.bias = 0xFFFF then v else fAdd v (pondVec k m.bias (!m.biasBf16) col)
  activation (epiAct e.word) v

/-- The 64 × 64 output values with their logical indices. -/
def epiRows (k : Core) (a : Acc) (e : MatEntry) (m : EpiParams) : List (List OutEl) :=
  (List.range 64).map fun row => (List.range 64).map fun col =>
    { v := some (epiValue k a e m row col), idx := (m.outIndex + row * m.outStride + col) % 2 ^ 64 }

/-- The part of the output that destination register j holds (Epilogue destinations). -/
def epiPart (fd j : Nat) (rows : List (List OutEl)) : List (List OutEl) :=
  if fd ≤ 2 then rows
  else if fd = 5 then ((rows.drop (j / 2 * 32)).take 32).map fun r => (r.drop (j % 2 * 32)).take 32
  else (rows.drop (j * 32)).take 32

/-- Row r of destination register j is output row: registers of 32 rows split the rows. -/
def epiRowOf (fd j r : Nat) : Nat := if fd ≤ 2 then r else if fd = 5 then j / 2 * 32 + r else j * 32 + r

/-- An N4 destination: half a tile is replaced in payload and sidecar (R71); the sidecar's bytes past the last scale are 0 (R35). -/
def mergeHalf (x : TileReg) (half : Bool) (blk : Nat) (o : OutTile) : TileReg :=
  let nb := 64 / blkSize blk
  let pay := (pieces 32 64 o.payload).zipIdx.foldl
    (fun (m : Table Byte) e => m.putBytes (e.2 * 64 + b2n half * 32) e.1) x.payload
  let sc := (pieces nb 64 o.sidecar).zipIdx.foldl
    (fun (m : Table Byte) e => m.putBytes (e.2 * (2 * nb) + b2n half * nb) e.1) x.sidecar
  { x with payload := pay, sidecar := sc.filter fun e => decide (e.1 < 128 * nb), fmt := 0, blk := blk }

/-- Write one destination register (R69 step 6, R71). -/
def epiStore (k : Core) (e : MatEntry) (m : EpiParams) (base : U64 × U64) (rows : List (List OutEl)) (j : Nat) :
    Core × Tally :=
  let fd := epiFd e.word
  let r := epiTd e.word + j
  let x := k.tile r
  let ctx : WriteCtx :=
    { fmt := fd, blk := m.outBlk, rnd := epiRnd e.word, rt := recipScale m.tout
      key := { seed := base.1, step := base.2, tensor := m.outTensor, purpose := 1, draw := 0 } }
  let rq := fun i => if m.qout = 0xFFFF then Val.fin 1 else fDiv (.fin 1) (pondVec k m.qout false (epiRowOf fd j i))
  let o := writeTile ctx rq (epiPart fd j rows)
  let x' := if fd = 0 then mergeHalf x m.half m.outBlk o
    else { x with payload := Table.putBytes [] 0 o.payload, sidecar := Table.putBytes [] 0 o.sidecar,
                  fmt := fd, blk := m.outBlk }
  (k.setTile r x', o.tally)

/-- What an EPI leaves of its accumulator: without KEEP the state that CLR leaves (R72). Issue has already released it. -/
def Acc.afterEpi (a : Acc) (keep : Bool) : Acc :=
  if keep then a else { a with els := [], ovf := false, tensor := 0, base := 0, stride := 0 }

/-- The reports of an EPI: the accumulator's overflow flag with the output tensor of its key (R55, R67), and its tile's flag with
OUT_TENSOR (R199). -/
def epiReports (s : State) (c : Nat) (e : MatEntry) (key tensor : U32) (ovf tile : Bool) : State :=
  let p := match (s.core c).seg with
    | some (p, _, _) => p
    | none => 15
  let s := if ovf then (if e.a16 then (s.overflow c e.layer key true).1 else s.a32Report p key) else s
  if tile then (s.overflow c e.layer tensor false).1 else s

/-- Number the chunks of the queued instructions of accumulator i again from a K counter of n, up to the one that starts or releases
the accumulator anew: the counter that they leave, none where one of them does so, and the queue (R56, R72). -/
def Core.renumber (k : Core) (i : Nat) : Nat → List MatEntry → Option Nat × List MatEntry
  | n, [] => (some n, [])
  | n, f :: l =>
    if mmaAcc f.word ≠ i then ((k.renumber i n l).1, f :: (k.renumber i n l).2)
    else if wOpc f.word = 0x20 then
      if mmaClr f.word then (none, f :: l)
      else
        let m := n + panelK (pairingOf (k.tile (mmaTa f.word)).fmt (k.tile (mmaTb f.word)).fmt)
        ((k.renumber i m l).1, { f with close := chunkClosed m } :: (k.renumber i m l).2)
    else
      let f := { f with
        close := if n % 128 = 0 then none else some ((n - 1) / 128)
        prior := f.prior.map fun p => (p.1, n, p.2.2) }
      if epiKeep f.word then
        ((k.renumber i ((n + 127) / 128 * 128) l).1, f :: (k.renumber i ((n + 127) / 128 * 128) l).2)
      else (none, f :: l)

/-- An EPI that halts leaves its accumulator as its issue found it (R78, R109): the instructions queued behind it are numbered as if it
had not been issued, and the owner, the K counter, the pairing and the mode are its own where none of them starts or releases the
accumulator (DEDUCED, assumption log 13). -/
def Core.undoEpi (k : Core) (e : MatEntry) : Core :=
  let i := mmaAcc e.word
  match e.prior with
  | none => k
  | some (owner, n, pairing, a16) =>
    let r := k.renumber i n k.matQ
    let k := { k with matQ := r.2 }
    match r.1 with
    | none => k
    | some m =>
      if (k.acc i).owner ≠ (if epiKeep e.word then owner else none) then k
      else k.setAcc i { k.acc i with owner := owner, k := m, pairing := pairing, a16 := a16 }

/-- R69. The epilogue stage executes the next EPI. -/
def execEpiExecute (c : Nat) (s : State) : Res :=
  let k := s.core c
  match k.matReady 0x21 with
  | none => .next s
  | some (i, e) =>
    let m := epiParams (leNat (k.pond.bytes e.addr 64))
    let k := { k.finish e.thread with matQ := k.matQ.eraseIdx i }
    match epiBlockFault k e m with
    | some (code, detail) => .next ((s.setCore c (k.undoEpi e)).halt c e.thread e.pc e.word code detail)
    | none =>
      let base := s.rsBase c
      let a := k.acc (mmaAcc e.word)
      let a := match e.close with
        | none => a
        | some j => a.closeChunk e.a16 j base.1 base.2
      let rows := epiRows k a e m
      let r := (List.range (epiRegs (epiFd e.word))).foldl (fun (st : Core × Tally) j =>
        let o := epiStore st.1 e m base rows j
        (o.1, st.2.add o.2)) (k, {})
      let k := r.1.setAcc (mmaAcc e.word) (a.afterEpi (epiKeep e.word))
      let s := s.setCore c k
      let s := match k.seg with
        | none => s
        | some (p, w, q) => s.tally p (some (w, q, e.layer)) m.outTensor r.2
      .next (epiReports (s.correctPonds c (epiUse k e.addr).reads) c e a.tensor m.outTensor a.ovf (r.2.ovfTiles ≠ 0))

/-! ## Parity (R79) -/

/-- R79. A parity error: the owner halts with ACC_PARITY, the contents are discarded, and queued instructions on the
accumulator are dropped. An accumulator that no thread owns has no thread to halt; its contents are discarded. -/
def execAccParityError (c acc : Nat) (s : State) : Res :=
  let k := s.core c
  let a := k.acc acc
  let dropped := k.matQ.filter fun e => mmaAcc e.word = acc
  let owner := match a.owner with
    | some t => some t
    | none => (dropped.head?).map (·.thread)
  let k := dropped.foldl (fun k e => k.finish e.thread) k
  let k := { k.setAcc acc {} with matQ := k.matQ.filter fun e => mmaAcc e.word ≠ acc }
  let s := s.setCore c k
  match owner with
  | none => .next s
  | some t =>
    match dropped.head? with
    | some e => .next (s.halt c t e.pc e.word haltAccParity 0)
    | none => .next (s.halt c t (k.thread t).pc (((k.fetch (k.thread t).pc)).getD 0) haltAccParity 0)

end Sys2Proof.Machine
end

