-- ==== Sys2Proof/Machine/Dictionary.lean ====
section
/-! DEFINITION. What a READ of each object of the dictionary gives (R378, R379, R405 and the object tables of every chapter). -/

namespace Sys2Proof.Machine

/-! ## Codes of the states that objects report -/

/-- PART_STATE (R294). -/
def PartState.code : PartState → Nat
  | .none => 0
  | .detached => 1
  | .attached => 2
  | .orphan => 3
  | .parked => 4
  | .exported => 5

/-- Port.State (R288). -/
def PortState.code : PortState → Nat
  | .down => 0
  | .training => 1
  | .up => 2
  | .heldDown => 3

/-- Fw.SlotState (R422). -/
def SlotState.code : SlotState → Nat
  | .empty => 0
  | .staged => 1
  | .active => 2
  | .provisional => 3
  | .previous => 4
  | .invalid => 5

/-- Fw.UpdateState (R422). -/
def UpdateState.code : UpdateState → Nat
  | .idle => 0
  | .staging => 1
  | .handover => 2
  | .holding => 3
  | .activating => 4
  | .provisional => 5
  | .rollingBack => 6

/-- Diag.LakeTestState (R456). -/
def LakeTestState.code : LakeTestState → Nat
  | .idle => 0
  | .holding => 1
  | .parking => 2
  | .testing => 3
  | .restoring => 4
  | .passed => 5
  | .failed => 6

/-- Power.State (R442). -/
def SleepState.code : SleepState → Nat
  | .awake => 0
  | .entering => 1
  | .asleep => 2
  | .waking => 3

/-- Fw.ProcessorState (R376): the Supervisor that is not active stands by. -/
def State.procCode (s : State) (n : Nat) : Nat :=
  if !s.hasProc n then 4
  else match (s.proc n).st with
    | .failed => 3
    | .restarting => 1
    | .absent => 4
    | .standby => 2
    | .running => if !(s.proc n).comps.isEmpty then 1 else if n ≤ 1 && n ≠ s.sup.activeSup then 2 else 0

/-! ## Absent positions (R8, R379) -/

/-- The object lies at a position that the part does not populate. -/
def State.absentKey (s : State) (key : Nat) : Bool :=
  let i := key / 256
  let b := key % 256
  if i = 0x5030 || i = 0x2031 || i = 0x7012 then !s.part.hasStack (b - 1)
  else if 0x6100 ≤ i && i < 0x6110 then s.part.ports ≤ i - 0x6100
  else if 0x8100 ≤ i && i < 0x8110 then s.part.ports ≤ i - 0x8100
  else if 0xF120 ≤ i && i < 0xF130 then s.part.ports ≤ i - 0xF120
  else if 0xB100 ≤ i && i < 0xB10F then !s.hasProc (i - 0xB100)
  else if i = 0x7030 then !s.part.hasDomain (b - 1)
  else false

/-- Its range names a value for absence: Fw.ProcessorState 4, Power.DomainState 3. -/
def absentValue (key : Nat) : Option Nat :=
  if key / 256 = 0x7030 then some 3
  else if 0xB100 ≤ key / 256 && key / 256 < 0xB10F && key % 256 = 1 then some 4 else none

/-! ## Read-only values by area -/

/-- Bits of a list of positions. -/
def maskOf (l : List Nat) : Nat := (l.map fun k => 2 ^ k).sum

/-- A counter of the module or of a partition (R333, R376 and the counter tables): a partition's is kept under partition 0's
object. -/
def State.counterOf (s : State) (key : Nat) : Nat :=
  let i := key / 256
  let b := key % 256
  let base := if 0x8094 ≤ i && i < 0x8098 then 0x8094 else i / 16 * 16
  let own := [0x8040, 0x8050, 0x8060, 0x8070, 0x8090, 0x8094, 0x80A0, 0x80B0]
  if own.contains base && i - base < 4 then (s.partn (i - base)).counters.get (okey base b) 0
  else s.counters.get key 0

/-- Identity and change sets (R406). -/
def State.serviceNumber (s : State) (key : Nat) : Nat :=
  if key = okey 0x1000 3 then maskOf s.part.stackList
  else if key = okey 0x1000 4 then maskOf (List.range s.part.ioDies)
  else if key = okey 0x1000 5 then s.fwVersion.toNat
  else if key = okey 0x1000 6 then Config.hardwareRevision.toNat
  else if key = okey 0x1000 8 then s.now
  else if key = okey 0x1F00 2 then s.mgmt.lastEnded
  else if key = okey 0x1F00 3 then s.mgmt.lastOutcome
  else if key = okey 0x1F00 4 then s.mgmt.lastPause
  else if key = okey 0x1F00 5 then (s.mgmt.sets.filter fun c => c.phase = .committed).length
  else if key = okey 0x1F00 6 then ((s.mgmt.sets.find? fun c => c.phase = .decided && c.cls = 3).map fun c => c.csid).getD 0
  else if key = okey 0x9000 1 then s.nextEvent
  else if key = okey 0x9000 2 then (s.log.head?.map fun e => e.seq).getD s.nextEvent
  else 0

/-- Partitions, protection, faults (R236, R333, R344, R376). -/
def State.partNumber (s : State) (key : Nat) : Nat :=
  let i := key / 256
  let b := key % 256
  let x := s.partn (i % 16)
  if 0x3030 ≤ i && i < 0x3034 then
    (if b = 2 then (x.image.map fun m => m.mirrorFactor).getD 1 else if b = 5 then x.version.toNat else x.step.code)
  else if 0x3040 ≤ i && i < 0x3044 then (if b = 4 then x.st.code else x.orphanExport)
  else if i = 0x3000 then b2n ((s.partn (b - 17)).st ≠ .none)
  else if i = 0x3050 then b2n (s.partn (b - 1)).stateIntact
  else if key = okey 0xA000 1 then s.mgmt.protSeq
  else if key = okey 0xA000 3 then (s.mgmt.submission.map fun x => x.party).getD 0
  else if key = okey 0xA000 4 then (s.mgmt.submission.map fun x => 60000 - (s.now - x.since) / 1000).getD 0
  else if key = okey 0xA000 5 then (s.mgmt.lockedFrom.map fun t => 600 - (s.now - t) / 1000000).getD 0
  else if key = okey 0x2030 2 then maskOf s.sup.lostHalls
  else if key = okey 0x2030 3 then maskOf s.sup.lostStacks
  else if i = 0x2031 then (s.sup.lostChannels.find (b - 1)).getD 255
  else 0

/-- Tiers (R167, R185). FlashLifeUsed is the share of the rating of R167 that has been written. -/
def State.tierNumber (s : State) (key : Nat) : Nat :=
  let b := key % 256
  if key / 256 = 0x5030 then maskOf ((List.range 32).filter fun c => s.sup.failedDevices.get ((b - 1) * 32 + c) 0 ≠ 0)
  else match b with
    | 1 => Min.min 100 (s.lake.bytesFlash * 100 / (5500 * s.part.flashGB * 10 ^ 9))
    | 2 => s.lake.sparePercent
    | 3 => s.lake.retiredBlocks
    | 4 => b2n s.lake.readOnly
    | 5 => s.lake.bytesHost
    | 6 => s.lake.bytesFlash
    | _ => s.lake.relocations

/-- Ports, link tests, exchange groups (R242, R288, R456). -/
def State.fabricNumber (s : State) (key : Nat) : Nat :=
  let i := key / 256
  let b := key % 256
  if 0x6100 ≤ i && i < 0x6110 then
    let x := s.port (i - 0x6100)
    match b with
    | 2 => if x.shorted then 0 else x.st.code
    | 3 => ((List.range 4).filter fun k => x.lanes.getLsbD k).length
    | 4 => x.peerModule
    | 5 => x.peerPort
    | _ => x.dimension
  else if 0xF120 ≤ i && i < 0xF130 then
    let x := s.port (i - 0xF120)
    if b = 3 then x.testBits else x.testErrors
  else s.groupPartition s.viewPart (i - 0x6400)

/-- Firmware (R376, R422). -/
def State.fwNumber (s : State) (key : Nat) : Nat :=
  let i := key / 256
  let b := key % 256
  if 0xB100 ≤ i && i < 0xB10F then
    (if b = 1 then s.procCode (i - 0xB100) else if b = 2 then (s.proc (i - 0xB100)).restarts else (s.proc (i - 0xB100)).lastMicros)
  else if i = 0xB010 || i = 0xB011 then
    let x := s.slot (i - 0xB010)
    let held := x.st ≠ .empty && !(x.st = .invalid && x.package.isEmpty)
    (if b = 1 then x.st.code else if !held then 0
      else if b = 2 then (pkgVersion x.package).toNat else (pkgSecVersion x.package).toNat)
  else if key = okey 0xB000 1 then s.runningSlot
  else if key = okey 0xB000 6 then s.update.st.code
  else if key = okey 0xB000 7 then s.update.floor.toNat
  else if key = okey 0xB000 9 then s.update.lastPause
  else if key = okey 0xF000 1 then s.sup.dumps.length
  else 0

/-- Power, thermal, start-up and test (R442, R456). -/
def State.powerNumber (s : State) (key : Nat) : Nat :=
  let i := key / 256
  let b := key % 256
  let x := s.power.sensors
  let int := fun (v : Int) => (BitVec.ofInt 32 v).toNat
  if i = 0x7000 then
    (match b with
    | 2 => x.millivolts
    | 3 => x.watts
    | 4 => x.milliamps
    | _ => x.holdupTail)
  else if i = 0x7011 then int (x.hallMax.getD (b - 1) 0)
  else if i = 0x7012 then int (x.stackTemps.get (b - 1) 0)
  else if i = 0x7013 then int (if b = 1 then x.inlet else x.outlet)
  else if i = 0x7020 then s.power.sleep.code
  else if i = 0x7030 then s.domainState (b - 1)
  else if 0x7031 ≤ i && i < 0x7035 then s.galleryClock (i - 0x7031) (b - 1)
  else if i = 0x7042 then s.power.sleepEntries
  else if key = okey 0x2000 2 then s.power.lastReset
  else if key = okey 0x2000 3 then s.power.lastStartMicros
  else if key = okey 0x2000 4 then s.power.starts
  else if key = okey 0xF100 1 then idcodeValue
  else if key = okey 0xF100 2 then s.power.selfTestFailures
  else if key = okey 0xF110 5 then s.lakeTestPart.code
  else if key = okey 0xF110 6 then s.power.lakeTest.total
  else 0

/-- A read-only object of a fixed-length type. -/
def State.roNumber (s : State) (key : Nat) : Nat :=
  let i := key / 256
  if i < 0x2000 || (0x9000 ≤ i && i < 0xA000) then s.serviceNumber key
  else if i = 0x2000 || (0x7000 ≤ i && i < 0x7040) || i = 0x7042 || (0xF100 ≤ i && i < 0xF120) then s.powerNumber key
  else if (0x7040 ≤ i && i < 0x7042) || (0x8000 ≤ i && i < 0x9000) then s.counterOf key
  else if i < 0x4000 || (0xA000 ≤ i && i < 0xB000) then s.partNumber key
  else if i < 0x6000 then s.tierNumber key
  else if i < 0x7000 || 0xF120 ≤ i then s.fabricNumber key
  else s.fwNumber key

/-- Event.Log (R390): the record with sequence s lies at 64 * (s mod 65,536). A place that no record has reached yet reads 0. -/
def State.logBytes (s : State) (off n : Nat) : List Byte :=
  let rec' := fun (slot : Nat) => match s.log.find? fun e => e.seq % 65536 = slot with
    | some e => e.bytes
    | none => List.replicate 64 0
  let first := off / 64
  let l := ((List.range ((off + n + 63) / 64 - first)).map fun k => rec' (first + k)).flatten
  (l.drop (off % 64)).take n

/-- A dump as it is read. -/
def Dump.bytes (d : Dump) : List Byte := d.header ++ d.body

/-- A read-only STR or BLOB, Event.Log apart. -/
def State.roBytes (s : State) (key : Nat) : List Byte :=
  let x := s.partn (key / 256 % 16)
  if key = okey 0x1000 1 then s.part.text.toList.map fun c => BitVec.ofNat 8 c.toNat
  else if key = okey 0x1000 2 then Config.serialNumber
  else if key = okey 0x1000 7 then leBytes 16 s.features
  else if key = okey 0x1110 2 then Config.deviceCertificate
  else if key = okey 0xA000 2 then (s.mgmt.submission.map fun b => b.digest).getD (List.replicate 48 0)
  else if key = okey 0xF000 2 then (s.sup.dumps.head?.map Dump.bytes).getD []
  else if key = okey 0xF000 3 then (s.sup.dumps[1]?.map Dump.bytes).getD []
  else if key = okey 0xB000 8 then s.update.resetList.flatMap fun k => leBytes 2 (k / 256) ++ leBytes 1 (k % 256)
  else if 0x3040 ≤ key / 256 && key / 256 < 0x3044 then (if key % 256 = 6 then x.replaced else x.heldList)
  else []

/-- The value of an object: what a READ returns, for any access but WO. -/
def State.objValue (s : State) (key : Nat) : List Byte :=
  match objRow key with
  | none => []
  | some r =>
    if r.access = .ro then (match typeLen r.type with
      | some n => leBytes n (s.roNumber key % 2 ^ (8 * n))
      | none => s.roBytes key)
    else s.value s.viewPart key

end Sys2Proof.Machine
end

