-- ==== Sys2Proof/Machine/Sets.lean ====
section
/-! DEFINITION. Change sets and protection changes: the checks of an entry, the constraints, eligibility, decision and application (R344 to
R349, R397 to R404, R413, R431). -/

namespace Sys2Proof.Machine

/-! ## Status codes (R387) -/

def ndOk : Nat := 0x00
def ndAccepted : Nat := 0x01
def ndSubmitted : Nat := 0x02
def ndNoObject : Nat := 0x10
def ndNoAccess : Nat := 0x11
def ndType : Nat := 0x12
def ndRange : Nat := 0x13
def ndAbsent : Nat := 0x14
def ndRw2 : Nat := 0x15
def ndFeature : Nat := 0x16
def ndTooLarge : Nat := 0x17
def ndNoChangeset : Nat := 0x20
def ndChangesetOpen : Nat := 0x21
def ndChangesetFull : Nat := 0x22
def ndMixed : Nat := 0x23
def ndRefused : Nat := 0x24
def ndConstraint : Nat := 0x25
def ndBusy : Nat := 0x30
def ndMalformed : Nat := 0x31
def ndFaulted : Nat := 0x32
def ndStale : Nat := 0x33

/-! ## The checks of one entry (R379, R387, R397, R398) -/

/-- The feature bit that governs an object (R395). -/
def keyFeature (key : Nat) : Option Nat :=
  let i := key / 256
  if i = 0x5010 || i = 0x5011 then some 4 else if i = 0x4030 || i = 0x4031 then some 5 else none

/-- The feature that an entry needs: that of its object, or bit 6 for the mode HANDOVER (R397, R413). -/
def entryFeature (e : Entry) : Option Nat := if e.key = okey 0xB000 2 && leNat e.value = 0 then some 6 else keyFeature e.key

/-- Each extent of Fabric.DimExtents is 1 to 16, and their product is at most 64; the top byte is 0 (R281). -/
def extentsOk (v : Nat) : Bool :=
  let l := [bits v 7 0, bits v 15 8, bits v 23 16]
  l.all (fun n => decide (1 ≤ n ∧ n ≤ 16)) && l.foldl (· * ·) 1 ≤ 64 && v < 2 ^ 24

/-- Ranges that are more than a least and a greatest value. -/
def State.specialRange (s : State) (key v : Nat) : Bool :=
  let i := key / 256
  let b := key % 256
  if i = 0x3000 && b ≤ 4 then v ≤ 3 || v = 255
  else if i = 0x3000 && b ≤ 8 then v % 64 = 0
  else if i = 0x4030 then v % 64 = 0 && v < 2 ^ 48
  else if i = 0x5010 then v ≤ s.lakeGiB (b - 1)
  else if i = 0x5011 || i = 0xF110 && b = 3 then v < 64 || v = 255
  else if i = 0x6000 && b = 2 then extentsOk v
  else if i = 0x7000 then v ≤ s.part.rating
  else if i = 0x7001 then v = 0 || (150 ≤ v && 100 * v ≤ s.part.loadBudget (s.moduleSetting 0x7000 1))
  else if i = 0x7002 then v % 25 = 0
  else if i = 0xA010 && b = 1 then v = 0 || v = 255
  else if i = 0xF110 && b = 1 then (List.range 16).all fun k => !bit v k || s.part.hasStack k
  else true

/-- The bytes of a BLOB that names partitions: 0 to 3, or 0xFF. -/
def partBytesOk (key : Nat) (v : List Byte) : Bool :=
  let i := key / 256
  if (0x6020 ≤ i && i < 0x6024) || (0x6400 ≤ i && i < 0x6800) then v.all fun b => b.toNat ≤ 3 || b.toNat = 255 else true

/-! ### The form of a trust anchor (R406): DER and X.509 are not this manual's (PRESUMED, assumption log 143) -/

/-- The first element of a DER encoding, as tag, contents and the bytes after it; lengths of up to two bytes. -/
def derFirst (b : List Byte) : Option (Nat × List Byte × List Byte) :=
  match b with
  | tag :: l :: r =>
    let cut := fun (n : Nat) (r : List Byte) => if r.length < n then none else some (tag.toNat, r.take n, r.drop n)
    if l.toNat < 128 then cut l.toNat r
    else match l.toNat, r with
      | 129, n :: r => if n.toNat < 128 then none else cut n.toNat r
      | 130, n :: m :: r => if n.toNat = 0 then none else cut (256 * n.toNat + m.toNat) r
      | _, _ => none
  | _ => none

/-- The elements of a DER encoding, at most `fuel` of them. -/
def derAll : Nat → List Byte → Option (List (Nat × List Byte))
  | _, [] => some []
  | 0, _ => none
  | fuel + 1, b => match derFirst b with
    | none => none
    | some (tag, v, rest) => (derAll fuel rest).map fun l => (tag, v) :: l

/-- A SubjectPublicKeyInfo of P-384: the two object identifiers, and an uncompressed point. -/
def derP384Key (b : List Byte) : Bool :=
  match derAll 2 b with
  | some [(0x30, alg), (3, key)] =>
    alg = [0x06, 0x07, 0x2A, 0x86, 0x48, 0xCE, 0x3D, 0x02, 0x01, 0x06, 0x05, 0x2B, 0x81, 0x04, 0x00, 0x22] &&
    key.length = 98 && key.take 2 = [0x00, 0x04]
  | _ => false

/-- A DER X.509 certificate of a P-384 key. Among the parts of what is signed, the key follows the subject, which follows the
validity, the issuer, the algorithm and the serial number, with the version before them where it is not 1. -/
def certificateOk (b : List Byte) : Bool :=
  match derFirst b with
  | some (0x30, v, []) => match derAll 3 v with
    | some [(0x30, tbs), (0x30, _), (3, _)] => match derAll 10 tbs with
      | some l =>
        let l := if (l.head?.map fun e => e.1) = some 0xA0 then l.drop 1 else l
        (l.take 6).map (fun e => e.1) = [2, 0x30, 0x30, 0x30, 0x30, 0x30] && (l[5]?).any fun e => derP384Key e.2
      | none => false
    | _ => false
  | _ => false

/-- The range of Comm.OperatorTrustAnchor: empty, as its default is, or a certificate. -/
def anchorOk (key : Nat) (v : List Byte) : Bool := key ≠ okey 0x1110 1 || v.isEmpty || certificateOk v

/-- Type and length, then range (R387). -/
def State.valueStatus (s : State) (r : ObjRow) (e : Entry) : Nat :=
  if e.type ≠ r.type then ndType
  else match typeLen r.type with
    | some n =>
      if e.value.length ≠ n then ndType
      else
        let v := leNat e.value
        if v < r.lo || r.hi < v || !s.specialRange e.key v then ndRange else ndOk
    | none =>
      if r.lo = r.hi && e.value.length ≠ r.hi then ndType
      else if r.hi < e.value.length || !partBytesOk e.key e.value || !anchorOk e.key e.value then ndRange else ndOk

/-- The check of an entry of a set of a kind, for a session: existence, position (R8), access, feature, type, range. -/
def State.entryStatus (s : State) (sess kind : Nat) (e : Entry) : Nat :=
  match objRow e.key with
  | none => ndNoObject
  | some r =>
    if s.absentKey e.key then ndAbsent
    else if r.access = .ro then ndNoAccess
    else if kind = 0 && r.access = .rw2 then ndRw2
    else if kind = 1 && r.access ≠ .rw2 then ndMixed
    else if (entryFeature e).any fun f => !bit (s.sessionMask sess) f then ndFeature
    else s.valueStatus r e

/-- An RW2 object outside a protection set raises event 0x7005 (R344). -/
def State.noteRw2 (s : State) (status : Nat) : State := if status = ndRw2 then s.raiseM 0x7005 255 [] else s

/-! ## Constraints (R271, R335, R337, R344, R347, R398, R413, R431) -/

/-- The state as it would read with more values in force; used by checks alone. -/
def State.overlay (s : State) (es : List Entry) : State := es.foldl (fun s e => (s.dropViews e.key).setValue e.key e.value) s

/-- Lane sets are disjoint (R337). -/
def disjointLanes : List Nat → Bool
  | [] => true
  | a :: r => r.all (fun b => a &&& b = 0) && disjointLanes r

/-- The constraints on the protection set-up: sums, disjoint lanes, nothing for a partition without halls. -/
def State.protectionOk (s : State) : Bool :=
  let ps := List.range 4
  let owners := (List.range 4).map fun h => s.moduleSetting 0x3000 (1 + h)
  (ps.map fun p => s.setting p 0x3000 (5 + p)).sum ≤ 16384 &&
  (ps.map fun p => s.setting p 0x3000 (13 + p)).sum ≤ s.part.flashGB &&
  disjointLanes (ps.map fun p => s.setting p 0x3000 (9 + p)) &&
  ps.all fun p => owners.contains p || (s.setting p 0x3000 (5 + p) = 0 && s.setting p 0x3000 (9 + p) = 0)

/-- The constraints on ordinary values: buffer flits (each lane holds two classes) and explicit power caps. -/
def State.valuesOk (s : State) : Bool :=
  2 * ((List.range 8).map fun v => s.moduleSetting 0x6201 (v + 1)).sum ≤ 2048 &&
  100 * (s.existing.map fun p => s.setting p 0x7001 (p + 1)).sum ≤ s.part.loadBudget (s.moduleSetting 0x7000 1)

/-- The status that an ordinary set gets at commit: 0, FEATURE or CONSTRAINT. `s` has the earlier sets' values. -/
def State.commitStatus (s : State) (sess : Nat) (es : List Entry) : Nat :=
  let t := s.overlay es
  match es.find? fun e => e.key = okey 0xB000 3 with
  | some e => if es.length ≠ 1 then ndConstraint else s.activateStatus sess (BitVec.ofNat 32 (leNat e.value))
  | none =>
    if !t.valuesOk then ndConstraint
    else if es.any (fun e => e.key = okey 0x2000 1) && s.updating then ndConstraint
    else if es.any (fun e => e.key = okey 0xF110 4) && !t.lakeTestAllowed then ndConstraint
    else ndOk

/-- The entries of the sets that are committed and have not ended, in commit order. -/
def State.earlierEntries (s : State) : List Entry := (s.mgmt.sets.filter fun c => c.phase ≠ .opened).flatMap fun c => c.entries

/-! ## Class (R399) -/

/-- The strongest class, LIVE 0 to RESTART 3. -/
def setClass (es : List Entry) : Nat :=
  (es.map fun e => match (objRow e.key).map fun r => r.cls with
    | some .step => 1
    | some .quiesce => 2
    | some .restart => 3
    | _ => 0).foldl Max.max 0

def State.onSet (s : State) (csid : Nat) (f : ChangeSet → ChangeSet) : State :=
  { s with mgmt := { s.mgmt with sets := s.mgmt.sets.map fun c => if c.csid = csid then f c else c } }

def State.findSet (s : State) (csid : Nat) : Option ChangeSet :=
  s.mgmt.sets.find? fun c => c.csid = csid && c.phase ≠ .opened

/-! ## Application (R401) -/

/-- What an entry of a write-only object starts, once its set has taken effect. -/
def State.writeOnly (s : State) (sess : Nat) (e : Entry) : State :=
  let i := e.key / 256
  if e.key = okey 0x2000 1 then s.enterWarmReset 2 false
  else if e.key = okey 0xF000 4 then s.releaseDumps
  else if e.key = okey 0xB000 3 then s.activate sess (BitVec.ofNat 32 (leNat e.value))
  else if e.key = okey 0xB000 4 then s.confirmImage
  else if e.key = okey 0xB000 10 then s.failUpdate 5
  else if e.key = okey 0xF110 4 then s.startLakeTest
  else if 0xF120 ≤ i && i < 0xF130 && e.key % 256 = 1 then s.startLinkTest (i - 0xF120)
  else s

/-- A write-only object. -/
def isWriteOnly (key : Nat) : Bool :=
  match objRow key with
  | some r => r.access = .wo
  | none => false

/-- The set takes effect as a whole, and ends applied. -/
def State.applySet (s : State) (c : ChangeSet) (pause : Nat) : State :=
  let stored := c.entries.filter fun e => !isWriteOnly e.key
  let s := (s.applyAll stored).setApplied c pause
  (c.entries.filter fun e => isWriteOnly e.key).foldl (fun s e => s.writeOnly c.sess e) s

/-- Fabric.VlBufferFlits applies only when every affected partition is paused at once. -/
def ChangeSet.together (c : ChangeSet) : Bool := c.cls = 2 && c.entries.any fun e => e.key / 256 = 0x6201

/-- What the firmware takes to give a partition its values, in microseconds: free, up to the 1 ms of R401, and without a bound where
the zeroing of R341 belongs to it (assumption log 143). -/
def State.applyTime (s : State) (c : ChangeSet) : Nat :=
  if c.entries.any fun e => e.key / 256 = 0x3000 && e.key % 256 ≤ 4 then Config.applyMicros s.freeUsed
  else Config.applyMicros s.freeUsed % 1001

/-- Partitions of a decided STEP or QUIESCE set at a boundary take its values; the last one ends the set. The pause of a partition
under QUIESCE runs from its boundary to its own taking. -/
def State.takeSet (s : State) (c : ChangeSet) : State :=
  let here := c.affected.filter fun p => (s.atBoundary p || (s.partn p).st = .none) && !c.taken.contains p
  let c := { c with paused := c.paused ++ (here.filter fun p => !c.paused.any fun e => e.1 = p).map fun p => (p, s.now) }
  let go := if c.together then (if c.affected.all fun p => c.taken.contains p || here.contains p then here else []) else here
  let s := go.foldl (fun s p => c.entries.foldl (fun s e => s.takeValue p e) s) s
  let waits := (c.paused.filter fun e => go.contains e.1).map fun e => s.now - e.2 + s.applyTime c
  let c := { c with taken := c.taken ++ go, longest := if c.cls = 2 then waits.foldl Max.max c.longest else 0 }
  let s := if go.isEmpty then s else s.fresh
  if c.affected.all c.taken.contains then s.applySet c c.longest else s.onSet c.csid fun _ => c

/-! ## Decision (R342, R343, R401 to R403) -/

/-- An update between its start and the PROVISIONAL state lets no set be decided (R414). -/
def State.setsWait (s : State) : Bool :=
  s.update.st = .handover || s.update.st = .holding || s.update.st = .activating

/-- The set writes 1 to Power.Sleep: it waits for the conditions of R438. -/
def ChangeSet.asksSleep (c : ChangeSet) : Bool := c.entries.any fun e => e.key = okey 0x7020 1 && leNat e.value = 1

/-- Every affected partition has been at a boundary since the set became eligible; for a protection set all are at one now, and
what it rebuilds or removes is quiet (R342, R401). Group changes wait for a Link Manager and cap changes for the Power Manager (R354);
a write of 1 to Power.Sleep waits until SLEEP may be entered (R438). -/
def State.mayDecide (s : State) (c : ChangeSet) : Bool :=
  c.phase = .committed && c.eligible.isSome && !s.setsWait && s.up && !s.sup.failover &&
  c.affected.all (fun p => c.reached.contains p || (s.partn p).st = .none) &&
  (s.treesServe || !c.entries.any fun e => decide (0x6400 ≤ e.key / 256 ∧ e.key / 256 < 0x6800)) &&
  (!c.asksSleep || s.power.sleep ≠ .awake || s.canSleep) &&
  (s.compUp 14 compCapping || !c.entries.any fun e => e.key / 256 = 0x7000 || e.key / 256 = 0x7001) &&
  (!c.protection || ((c.affected.all fun p => s.atBoundary p || (s.partn p).st = .none) && s.quietFor c.entries && s.removedQuiet c.entries))

/-- The recheck at the decision (R402). -/
def State.setStands (s : State) (c : ChangeSet) : Bool :=
  if c.protection then (s.overlay c.entries).protectionOk && s.namespacesFit c.entries
  else s.commitStatus c.sess c.entries = ndOk

/-- The decision: LIVE and protection sets take effect at once, RESTART sets wait for the reset. -/
def State.decideSet (s : State) (c : ChangeSet) : State :=
  if c.cls = 3 then s.onSet c.csid fun c => { c with phase := .decided }
  else if c.cls = 0 || c.affected.isEmpty then s.applySet c 0
  else if c.protection then (s.fresh).applySet c (if c.cls = 2 then s.applyTime c else 0)
  else
    let c := { c with phase := .decided }
    let s := s.onSet c.csid fun _ => c
    let here := c.entries.filter fun e => !isWriteOnly e.key && (objRow e.key).any fun r => r.scope = .position
    (here.foldl (fun s e => s.applyValue e.key e.value) s).takeSet c

/-- A set makes the progress that it can: it notes boundaries, is decided, or gives its values to partitions at a boundary. -/
def State.progressSet (s : State) (csid : Nat) : State :=
  let s := s.refreshEligible
  match s.findSet csid with
  | none => s
  | some c =>
    if c.phase = .decided then (if c.cls = 3 || !s.up || s.sup.failover then s else s.takeSet c)
    else if c.eligible.isNone then s
    else
      let c := { c with reached := c.reached ++ c.affected.filter fun p => s.atBoundary p && !c.reached.contains p }
      let s := s.onSet csid fun _ => c
      if !s.mayDecide c then s
      else if s.setStands c then s.decideSet c else s.rollbackSet csid 2 none

/-- R401. A partition reaches a boundary, or the last one has: the set is decided, or applied further. -/
def execChangesetDecision (csid : Nat) (s : State) : Res := .next (s.progressSet csid)

/-- A set is rolled back with reason 1 TIMEOUT and the partition that it waited for: one that did not reach its boundary, or for a write of 1
to Power.Sleep one that is not idle, which event 0x2403 names (R402, R438). -/
def State.timeOut (s : State) (c : ChangeSet) : State :=
  let late := (c.affected.filter fun p => !c.reached.contains p).head?
  match c.asksSleep, s.notIdle with
  | true, p :: _ => (s.rollbackSet c.csid 1 (some (late.getD p))).raiseP 0x2403 p [p]
  | _, _ => s.rollbackSet c.csid 1 late

/-- R402. ChangeSet.Timeout without a decision: reason 1 and the partition that did not reach its boundary. While an update lets no set
be decided, it is extended for the sets that have become eligible since the update's start (R414). -/
def execChangesetTimeout (csid : Nat) (s : State) : Res :=
  match s.findSet csid with
  | none => .next s
  | some c =>
    if c.phase ≠ .committed || c.eligible.isNone || (s.setsWait && s.update.since ≤ c.eligible.getD 0) || !s.up || s.sup.failover then .next s
    else .next (s.timeOut c)

/-- The sets that write 1 to Power.Sleep and wait. -/
def State.sleepSets (s : State) : List ChangeSet := s.mgmt.sets.filter fun c => c.phase = .committed && c.eligible.isSome && c.asksSleep

/-- R438. A write of 1 to Power.Sleep takes effect once every partition is idle. -/
def execPowerSleepEnter (s : State) : Res := .next (s.sleepSets.foldl (fun s c => s.progressSet c.csid) s)

/-- R438. The conditions are still unmet at ChangeSet.Timeout: the write is rolled back, and event 0x2403 names the partition. -/
def execSleepWaitTimeout (s : State) : Res :=
  if !s.up || s.sup.failover || s.notIdle.isEmpty then .next s
  else match s.sleepSets with
    | c :: _ => .next (s.timeOut c)
    | [] => .next s

/-! ## Commit (R398) -/

/-- A new CSID. -/
def State.newCsid (s : State) : Nat × State :=
  let n := s.mgmt.lastCsid % 65535 + 1
  (n, { s with mgmt := { s.mgmt with lastCsid := n } })

/-- A checked set joins the queue and makes what progress it can. -/
def State.queueSet (s : State) (c : ChangeSet) : State :=
  let c := { c with
    phase := .committed
    cls := setClass c.entries
    affected := s.affectedByAll c.entries }
  ({ s with mgmt := { s.mgmt with sets := s.mgmt.sets ++ [c] } }).progressSet c.csid

/-- An ordinary set is committed: its constraints are checked on top of every earlier committed set. -/
def State.commitSet (s : State) (sess csid : Nat) (es : List Entry) : State × Nat :=
  let st := (s.overlay s.earlierEntries).commitStatus sess es
  if st ≠ ndOk then (s, st) else (s.queueSet { csid := csid, sess := sess, kind := 0, entries := es }, ndAccepted)

/-! ## Protection changes (R344 to R349, R394, R404) -/

/-- The party of a session. -/
def partyOf (sess : Nat) : Nat := if sess = 0 then 1 else 2

/-- The digest of a change (R346). -/
def State.digestOf (s : State) (es : List Entry) : List Byte :=
  let sorted := sortBy (fun a b => decide (a.key ≤ b.key)) es
  let serial := (Config.serialNumber ++ List.replicate 32 0).take 32
  sha384 (leBytes 8 s.mgmt.protSeq ++ serial ++ leBytes 2 es.length ++
    sorted.flatMap fun e => leBytes 2 (e.key / 256) ++ leBytes 1 (e.key % 256) ++ leBytes 1 e.type ++
      leBytes 2 e.value.length ++ e.value)

/-- A submission refused (R347, R348). -/
def State.refuseSubmission (s : State) : State × Nat := (s.raiseM 0x7005 255 [], ndRefused)

/-- A lockout after three mismatches runs for 600 s (R349). -/
def State.lockedOut (s : State) : Bool :=
  match s.mgmt.lockedFrom with
  | some t => s.now < t + 600000000
  | none => false

/-- Why a submission is refused. -/
def State.submissionBad (s : State) (sess kind : Nat) (es : List Entry) (stated : Option (List Byte)) : Bool :=
  s.lockedOut || (sess = 0 && s.moduleSetting 0xA010 1 = 255) ||
  (kind = 1 && ((sess = 0 && stated.isNone) || (stated.getD (s.digestOf es)) ≠ s.digestOf es ||
    es.any (fun e => s.entryStatus sess 1 e ≠ ndOk) || !((s.overlay s.earlierEntries).overlay es).protectionOk)) ||
  match s.mgmt.submission with
  | some b => b.party = partyOf sess || (b.entries.isNone && kind = 2)
  | none => false

/-- The digests differ: both submissions go; the third time within an hour locks the procedure. -/
def State.mismatch (s : State) : State :=
  let past := (s.mgmt.mismatches.filter fun t => s.now < t + 3600000000) ++ [s.now]
  ({ s with mgmt := { s.mgmt with
    submission := none
    mismatches := past
    lockedFrom := if 3 ≤ past.length then some s.now else s.mgmt.lockedFrom } }).raiseM 0x7003 255 []

/-- A party's submission: the first opens the window, the second is compared with it; agreement commits one set. -/
def State.submit (s : State) (sess kind csid : Nat) (es : List Entry) (stated : Option (List Byte)) : State × Nat :=
  if s.submissionBad sess kind es stated then s.refuseSubmission
  else
    let d := if kind = 1 then s.digestOf es else stated.getD []
    let mine := if kind = 1 then some es else none
    match s.mgmt.submission with
    | none =>
      let b : Submission := { party := partyOf sess, digest := d, entries := mine, csid := csid, since := s.now }
      ({ s with mgmt := { s.mgmt with submission := some b } }, ndSubmitted)
    | some b =>
      if b.digest ≠ d then (s.mismatch, ndSubmitted)
      else
        let s := { s with mgmt := { s.mgmt with submission := none } }
        let (id, l) := match b.entries with
          | some l => (b.csid, l)
          | none => (csid, es)
        (s.queueSet { csid := id, sess := sess, kind := 1, entries := l, protection := true }, ndSubmitted)

/-- R349. The window of 60 s passes with one submission. -/
def execProtectionWindowExpiry (s : State) : Res := .next (if s.up then s.endWindow 1 else s)

/-- R349. The lockout ends. -/
def execProtectionLockoutExpiry (s : State) : Res := .next { s with mgmt := { s.mgmt with lockedFrom := none } }

/-- R344. While Prot.DebugUnlock is 1, event 0x7006 is raised once an hour. -/
def execDebugUnlocked (s : State) : Res :=
  .next (if s.up && s.moduleSetting 0xA010 3 = 1 then s.raiseM 0x7006 255 [] else s)

end Sys2Proof.Machine
end

