-- ==== Sys2Proof/Machine/Ndoit.lean ====
section
/-! DEFINITION. The Ndoit protocol: frames, sessions, the mailbox, every opcode (R379 to R398, R404). -/

namespace Sys2Proof.Machine

/-! ## Frames (R383, R384) -/

/-- The header of a frame as a number, and its fields. -/
def ndHeader (frame : List Byte) : Nat := leNat (frame.take 16)
def ndOp (frame : List Byte) : Nat := bits (ndHeader frame) 119 112
def ndReq (frame : List Byte) : Nat := bits (ndHeader frame) 95 64
def ndCsid (frame : List Byte) : Nat := bits (ndHeader frame) 47 32
def ndBody (frame : List Byte) : List Byte := frame.drop 16

/-- VER, LENGTH, RSP, STATUS and the reserved bits of a request. -/
def ndFormatOk (frame : List Byte) : Bool :=
  let h := ndHeader frame
  bits h 127 120 = 1 && !bit h 111 && bits h 110 104 = 0 && bits h 103 96 = 0 && bits h 31 0 = 0 &&
  bits h 63 48 ≤ 1008 && frame.length = 16 + bits h 63 48

/-- Opcodes that a client sends. -/
def ndOps : List Nat := [0x01, 0x02, 0x03, 0x04, 0x10, 0x11, 0x12, 0x13, 0x20, 0x30]

/-- A little-endian field of a body. -/
def fieldOf (b : List Byte) (off n : Nat) : Nat := leNat ((b.drop off).take n)

/-- An answer: status, body, CSID. -/
structure Answer where
  status : Nat
  body : List Byte := []
  csid : Nat := 0

/-! ## Sessions and answers (R386, R388, R393) -/

def State.session (s : State) (n : Nat) : Session := s.mgmt.sessions.get n {}

/-- The mailbox holds a request: BUSY, and the frame is what MB_REQ holds in its stated length. -/
def State.mailboxHolds (s : State) (frame : List Byte) : Bool :=
  s.mgmt.mbBusy && frame = s.mgmt.mbReq.bytes 0 (bits s.mgmt.mbCtrl.toNat 10 0)

/-- A frame leaves the module: into MB_RSP, whose vector is signalled, or as a datagram of a session. -/
def State.respond (s : State) (n : Nat) (frame : List Byte) : State :=
  if n = 0 then
    let c := s.mgmt.mbCtrl.toNat
    let s := { s with mgmt := { s.mgmt with mbRsp := frame, mbBusy := false, mbReady := true } }
    if bit c 27 then s.signal 0 (bits c 26 16) else s
  else s.onSession n fun x => { x with sent := x.sent ++ [frame] }

/-- The answer is sent and kept under its REQ_ID (R386). -/
def State.answerNd (s : State) (n : Nat) (frame : List Byte) (a : Answer) : State :=
  let f := ndoitFrame (ndOp frame) a.status (ndReq frame) a.csid a.body
  let s := s.onSession n fun x =>
    let l := x.responses ++ [(ndReq frame, f)]
    { x with responses := l.drop (l.length - 256), lastReq := ndReq frame }
  s.respond n f

/-- Requests reach the module: it has power and is past its boot (R444). -/
def State.listens (s : State) : Bool := !s.power.powerFail && s.phase ≠ .off && s.phase ≠ .recovery

/-- The module answers requests: it has its Supervisor as well (R359). -/
def State.serves (s : State) : Bool := s.listens && !s.sup.failover

/-- The status that the module's state or the session's mask gives an opcode other than READ and HEARTBEAT. -/
def State.gate (s : State) (n op : Nat) : Nat :=
  if op = 0x01 || op = 0x30 then ndOk
  else if s.phase = .faulted then ndFaulted
  else if s.phase ≠ .running then ndBusy
  else if n ≠ 0 && !bit (s.sessionMask n) 0 then ndFeature
  else ndOk

/-- A request that is executed at most once: rate limit, kept answers, order, format, gate, then its opcode. -/
def State.request (s : State) (n : Nat) (frame : List Byte) (act : State → State × Answer) : State :=
  let x := s.session n
  let times := (x.times.filter fun t => s.now < t + 1000000)
  let s := (s.bump 0x8020 1 1).onSession n fun x => { x with times := times ++ [s.now] }
  let plain := fun (s : State) (st : Nat) => s.respond n (ndoitFrame (ndOp frame) st (ndReq frame) 0 [])
  if 2000 ≤ times.length then plain (s.bump 0x8020 4 1) ndBusy
  else if frame.length < 16 || ndReq frame = 0 then plain s ndMalformed
  else match x.responses.find? fun e => e.1 = ndReq frame with
    | some e => (s.bump 0x8020 3 1).respond n e.2
    | none =>
      let ahead := (ndReq frame + 2 ^ 32 - x.lastReq) % 2 ^ 32
      if x.lastReq ≠ 0 && !(0 < ahead && ahead < 2 ^ 31) then plain s ndStale
      else if !ndFormatOk frame then s.answerNd n frame { status := ndMalformed }
      else if s.gate n (ndOp frame) ≠ ndOk then s.answerNd n frame { status := s.gate n (ndOp frame) }
      else
        let (s, a) := act s
        s.answerNd n frame a

/-- A request that arrives during a failover waits for the takeover (R359). -/
def State.holdRequest (s : State) (n : Nat) (frame : List Byte) : State :=
  { s with mgmt := { s.mgmt with held := s.mgmt.held ++ [(n, frame)] } }

/-- A request that reaches session n on an opcode. -/
def State.onRequest (s : State) (n : Nat) (frame : List Byte) (here : Bool) (act : State → State × Answer) : State :=
  let reached := if n = 0 then s.mailboxHolds frame else (s.session n).alive
  if !reached || !here || !s.listens then s
  else if s.sup.failover then s.holdRequest n frame
  else s.request n frame act

/-! ## READ, WRITE (R379, R384, R398) -/

def malformed : Answer := { status := ndMalformed }

/-- READ of an object. At an absent position it is ABSENT before its access is looked at, for a WO object too (DEDUCED from R379,
assumption log 143). -/
def State.readObject (s : State) (key : Nat) : Answer :=
  match objRow key with
  | none => { status := ndNoObject }
  | some r =>
    if s.absentKey key && (absentValue key).isNone then { status := ndAbsent }
    else if r.access = .wo then { status := ndNoAccess }
    else if key = okey 0x9003 1 then { status := ndTooLarge }
    else
      let v := s.objValue key
      if 1004 < v.length then { status := ndTooLarge }
      else { status := ndOk, body := [BitVec.ofNat 8 r.type, 0] ++ leBytes 2 v.length ++ v }

/-- R379. READ; a frame of no opcode, and one shorter than a header, is answered here too. -/
def execNdoitRead (n : Nat) (frame : List Byte) (s : State) : Res :=
  let here := ndOp frame = 1 || frame.length < 16 || !ndOps.contains (ndOp frame)
  .next (s.onRequest n frame here fun s =>
    let b := ndBody frame
    if ndOp frame ≠ 1 || b.length ≠ 4 || fieldOf b 3 1 ≠ 0 then (s, malformed)
    else (s, s.readObject (okey (fieldOf b 0 2) (fieldOf b 2 1))))

/-- A write of one value: a set of one entry, opened and committed at once (R398). The answer is OK when the value has taken effect
and otherwise ACCEPTED, also for a set that its recheck at the decision has rolled back. -/
def State.writeOne (s : State) (n : Nat) (e : Entry) : State × Answer :=
  let st := s.entryStatus n 0 e
  if st ≠ ndOk then (s.noteRw2 st, { status := st })
  else
    let (csid, s) := s.newCsid
    let (s, st) := s.commitSet n csid [e]
    if st ≠ ndAccepted then (s, { status := st, csid := csid })
    else if (s.findSet csid).isNone && !(s.mgmt.lastEnded = csid && s.mgmt.lastOutcome = 2) then (s, { status := ndOk })
    else (s, { status := ndAccepted, csid := csid })

/-- An entry laid out as a WRITE body at an offset, with the bytes after it. -/
def entryAt (b : List Byte) : Option (Entry × List Byte) :=
  let len := fieldOf b 4 2
  if b.length < 8 + len || fieldOf b 6 2 ≠ 0 then none
  else some ({ key := okey (fieldOf b 0 2) (fieldOf b 2 1), type := fieldOf b 3 1, value := (b.drop 8).take len }, b.drop (8 + len))

/-- R398. WRITE. -/
def execNdoitWrite (n : Nat) (frame : List Byte) (s : State) : Res :=
  .next (s.onRequest n frame (ndOp frame = 0x02) fun s =>
    match entryAt (ndBody frame) with
    | some (e, []) => s.writeOne n e
    | _ => (s, malformed))

/-! ## Blocks (R385) -/

/-- READ_BLOCK of a BLOB: a new snapshot at offset 0, the live one at others, else the value in force as snapshot 0. -/
def State.readSegment (s : State) (n key off len : Nat) : State × Answer :=
  let x := s.session n
  let take := fun (total num : Nat) (data : List Byte) => ({ status := ndOk, body := leBytes 4 total ++ leBytes 4 num ++ data } : Answer)
  if key = okey 0x9003 1 then
    let s := if off = 0 then s.onSession n fun x => { x with snapshot := none } else s
    (s, if 4194304 < off then { status := ndRange } else take 4194304 0 (s.logBytes off (Min.min len (4194304 - off))))
  else if off = 0 then
    let v := s.objValue key
    (s.onSession n fun x => { x with snapshot := some (key, x.snapshots + 1, v), snapshots := x.snapshots + 1 },
      take v.length (x.snapshots + 1) (v.take len))
  else
    let (num, v) := match x.snapshot with
      | some (k, num, v) => if k = key then (num, v) else (0, s.objValue key)
      | none => (0, s.objValue key)
    (s, if v.length < off then { status := ndRange } else take v.length num ((v.drop off).take len))

/-- R385. READ_BLOCK. -/
def execReadBlock (n : Nat) (frame : List Byte) (s : State) : Res :=
  .next (s.onRequest n frame (ndOp frame = 0x03) fun s =>
    let b := ndBody frame
    let key := okey (fieldOf b 0 2) (fieldOf b 2 1)
    let len := fieldOf b 8 2
    if b.length ≠ 12 || fieldOf b 3 1 ≠ 0 || fieldOf b 10 2 ≠ 0 || len = 0 || 992 < len then (s, malformed)
    else match objRow key with
      | none => (s, { status := ndNoObject })
      | some r =>
        if s.absentKey key && (absentValue key).isNone then (s, { status := ndAbsent })
        else if r.access = .wo then (s, { status := ndNoAccess })
        else if r.type ≠ 8 then (s, { status := ndType })
        else s.readSegment n key (fieldOf b 4 4) len)

/-- Where the next segment of a session's staged value must begin: of the object that it stages, after the bytes staged; with nothing
staged, at 0. A segment of another object while bytes are staged is out of order (DEDUCED, assumption log 143). -/
def Session.expects (x : Session) (key : Nat) : Option Nat :=
  if !x.stagingOn then some 0 else if x.stagingKey = key then some x.staging.length else none

/-- R385. WRITE_BLOCK: segments in order, the last one a WRITE of the whole. -/
def execWriteBlock (n : Nat) (frame : List Byte) (s : State) : Res :=
  .next (s.onRequest n frame (ndOp frame = 0x04) fun s =>
    let b := ndBody frame
    let key := okey (fieldOf b 0 2) (fieldOf b 2 1)
    let off := fieldOf b 4 4
    let len := fieldOf b 8 2
    let flags := fieldOf b 10 1
    if b.length < 12 || b.length ≠ 12 + len || len = 0 || 992 < len || 1 < flags || fieldOf b 11 1 ≠ 0 || fieldOf b 3 1 ≠ 8 then
      (s, malformed)
    else match objRow key with
      | none => (s, { status := ndNoObject })
      | some r =>
        let x := s.session n
        if s.absentKey key then (s, { status := ndAbsent })
        else if r.type ≠ 8 then (s, { status := ndType })
        else if x.expects key ≠ some off then
          (s.onSession n fun x => { x with staging := [], stagingOn := false }, malformed)
        else
          let data := (if off = 0 then [] else x.staging) ++ b.drop 12
          if flags = 1 then
            (s.onSession n fun x => { x with staging := [], stagingOn := false }).writeOne n { key := key, type := 8, value := data }
          else (s.onSession n fun x => { x with staging := data, stagingKey := key, stagingOn := true }, { status := ndOk }))

/-- R385. A snapshot is released after 60 s. -/
def execBlockSnapshotExpiry (n : Nat) (s : State) : Res := .next (s.onSession n fun x => { x with snapshot := none })

/-! ## Change sets (R398, R402, R404) -/

/-- The session's open set, if the frame names it. -/
def State.ownSet (s : State) (n csid : Nat) : Option ChangeSet :=
  s.mgmt.sets.find? fun c => c.phase = .opened && c.sess = n && c.csid = csid

/-- R398. CHANGESET_OPEN. -/
def execChangesetOpen (n : Nat) (frame : List Byte) (s : State) : Res :=
  .next (s.onRequest n frame (ndOp frame = 0x10) fun s =>
    let b := ndBody frame
    let kind := fieldOf b 0 1
    if 2 < kind || fieldOf b 1 3 ≠ 0 || b.length ≠ (if kind = 2 then 52 else 4) then (s, malformed)
    else if (s.session n).openSet.isSome then (s, { status := ndChangesetOpen })
    else
      let (csid, s) := s.newCsid
      let c : ChangeSet := { csid := csid, sess := n, kind := kind, digest := b.drop 4 }
      let s := { s with mgmt := { s.mgmt with sets := s.mgmt.sets ++ [c] } }
      (s.onSession n fun x => { x with openSet := some csid }, { status := ndOk, csid := csid }))

/-- The entries of a CHANGESET_ADD body, back to back and nothing after them. -/
def entriesOf : Nat → List Byte → Option (List Entry)
  | 0, [] => some []
  | 0, _ => none
  | n + 1, b => match entryAt b with
    | none => none
    | some (e, rest) => (entriesOf n rest).map fun l => e :: l

/-- Check entries in turn: the first failing status; an object twice is MIXED. -/
def State.addStatus (s : State) (n kind : Nat) (have' : List Entry) : List Entry → Nat
  | [] => ndOk
  | e :: r =>
    let st := s.entryStatus n kind e
    if st ≠ ndOk then st
    else if have'.any fun f => f.key = e.key then ndMixed
    else s.addStatus n kind (have' ++ [e]) r

/-- R398. CHANGESET_ADD: a failing entry rejects the frame. A set by digest holds no entries (R404): it is no set to add to. -/
def execChangesetAdd (n : Nat) (frame : List Byte) (s : State) : Res :=
  .next (s.onRequest n frame (ndOp frame = 0x11) fun s =>
    let b := ndBody frame
    let count := fieldOf b 0 2
    if b.length < 4 || fieldOf b 2 2 ≠ 0 || count = 0 || 64 < count then (s, malformed)
    else match entriesOf count (b.drop 4) with
      | none => (s, malformed)
      | some es => match s.ownSet n (ndCsid frame) with
        | none => (s, { status := ndNoChangeset })
        | some c =>
          if c.kind = 2 then (s, { status := ndNoChangeset })
          else
          let st := s.addStatus n c.kind c.entries es
          let all := c.entries ++ es
          if st ≠ ndOk then (s.noteRw2 st, { status := st, csid := c.csid })
          else if 256 < all.length || 16384 < (all.map fun e => e.value.length).sum then
            (s, { status := ndChangesetFull, csid := c.csid })
          else (s.onSet c.csid fun c => { c with entries := all }, { status := ndOk, csid := c.csid }))

/-- The open set of a session goes. -/
def State.closeSet (s : State) (n : Nat) : State := (s.dropOpenSet n).onSession n fun x => { x with openSet := none }

/-- R398, R404. CHANGESET_COMMIT: an ordinary set is checked and queued, a protection set is the party's submission. -/
def execChangesetCommit (n : Nat) (frame : List Byte) (s : State) : Res :=
  .next (s.onRequest n frame (ndOp frame = 0x12) fun s =>
    let b := ndBody frame
    let flags := fieldOf b 0 1
    if 1 < flags || fieldOf b 1 3 ≠ 0 || b.length ≠ (if flags = 1 then 52 else 4) then (s, malformed)
    else match s.ownSet n (ndCsid frame) with
      | none => (s, { status := ndNoChangeset })
      | some c =>
        let s := s.closeSet n
        let stated := if flags = 1 then some (b.drop 4) else none
        let (s, st) := if c.kind = 0 then s.commitSet n c.csid c.entries
          else if c.kind = 1 then s.submit n 1 c.csid c.entries stated
          else s.submit n 2 c.csid [] (some c.digest)
        (s, { status := st, csid := c.csid }))

/-- R402, R404. CHANGESET_ABORT: an open set, a submission of the same party, or a set not decided, RESTART sets until the reset. -/
def execChangesetAbort (n : Nat) (frame : List Byte) (s : State) : Res :=
  .next (s.onRequest n frame (ndOp frame = 0x13) fun s =>
    let csid := ndCsid frame
    if !(ndBody frame).isEmpty then (s, malformed)
    else if (s.ownSet n csid).isSome then (s.closeSet n, { status := ndOk, csid := csid })
    else if s.mgmt.submission.any fun b => b.csid = csid && b.party = partyOf n then
      (s.endWindow 4, { status := ndOk, csid := csid })
    else match s.findSet csid with
      | none => (s, { status := ndNoChangeset, csid := csid })
      | some c =>
        if c.phase = .committed || c.cls = 3 then (s.rollbackSet csid 4 none, { status := ndOk, csid := csid })
        else (s, { status := ndNoChangeset, csid := csid }))

/-! ## Events and heartbeats (R382, R384, R391, R396) -/

/-- The module state of a HEARTBEAT response. -/
def State.heartbeatState (s : State) : Nat :=
  if s.phase = .faulted then 3
  else if s.phase ≠ .running then 0
  else if s.setsWait then 4
  else if s.power.sleep = .asleep then 2 else 1

/-- The body of a HEARTBEAT response. -/
def State.heartbeatBody (s : State) (n : Nat) : List Byte :=
  leBytes 16 (s.sessionMask n) ++ leBytes 1 s.heartbeatState ++ List.replicate 7 0 ++ leBytes 8 s.now ++ leBytes 8 s.nextEvent ++
  leBytes 4 s.fwVersion.toNat

/-- R391. SUBSCRIBE: the records that the log holds from the first sequence on, then each new one; MALFORMED in the mailbox. -/
def execSubscribe (n : Nat) (frame : List Byte) (s : State) : Res :=
  let s' := s.onRequest n frame (ndOp frame = 0x20) fun s =>
    let b := ndBody frame
    let mask := fieldOf b 0 2
    let first := fieldOf b 4 8
    if n = 0 || b.length ≠ 12 || fieldOf b 2 2 ≠ 0 || 256 ≤ mask || bit mask 0 then (s, malformed)
    else
      let from' := if first = 2 ^ 64 - 1 then s.nextEvent else first
      (s.onSession n fun x => { x with subMask := mask, nextEvent := from' }, { status := ndOk, body := leBytes 8 s.nextEvent })
  .next (if n = 0 then s' else s'.deliver n)

/-- R396. HEARTBEAT: the first one of a session fixes its agreed mask; MALFORMED in the mailbox. -/
def execHeartbeat (n : Nat) (frame : List Byte) (s : State) : Res :=
  .next (s.onRequest n frame (ndOp frame = 0x30) fun s =>
    let b := ndBody frame
    if n = 0 || b.length ≠ 16 then (s, malformed)
    else
      let mask := BitVec.ofNat 128 (leNat b) &&& BitVec.ofNat 128 s.features
      let s := if (s.session n).agreed.isNone then s.onSession n fun x => { x with agreed := some mask } else s
      (s, { status := ndOk, body := s.heartbeatBody n }))

/-- R391. A subscribed session is sent a HEARTBEAT response once in each period. -/
def execSubscriberHeartbeatTick (n : Nat) (s : State) : Res :=
  .next (if (s.session n).subscribed && n ≠ 0 && s.serves then s.respond n (ndoitFrame 0x30 0 0 0 (s.heartbeatBody n)) else s)

/-- R381. A DTLS handshake. `chains`: it meets all that R380 asks of it, the version, the cipher suite, the key exchange, the cookie, the
connection IDs, no early data, no pre-shared key and no resumption, and the client's certificate chains to the trust anchor. The
handshake's own messages are not the model's (DESIGN CHOICE, assumption log 143). -/
def execDtlsHandshake (n : Nat) (chains : Bool) (s : State) : Res :=
  if !s.serves || n = 0 || (s.session n).alive then .next s
  else
    let open' := (s.mgmt.sessions.filter fun e => e.2.alive && e.1 ≠ 0).length
    let anchor := s.value s.viewPart (okey 0x1110 1)
    if chains && !anchor.isEmpty && open' < Min.min 8 (s.moduleSetting 0x1100 6) then
      .next ((s.onSession n fun x => { alive := true, sent := x.sent }).raiseM 0x1503 255 [])
    else .next ((s.bump 0x8020 5 1).raiseM 0x1505 255 [])

/-- R382. Three heartbeat periods without a frame: the session ends. -/
def execSessionHeartbeatTimeout (n : Nat) (s : State) : Res := .next (if n ≠ 0 && s.serves then s.endSession n else s)

end Sys2Proof.Machine
end

