-- ==== Sys2Proof/Machine/Vector.lean ====
section
/-! DEFINITION. The vector engine (R99 to R108): issue of VOP and VDESC, the operations, and their execution. -/

namespace Sys2Proof.Machine

/-! ## Operations (R102) -/

/-- The operations that exist, and those of format D only (Vector operations). -/
def vopExists (v : Nat) : Bool :=
  v ≤ 0x14 || (0x18 ≤ v && v ≤ 0x1E) || v = 0x20 || (0x28 ≤ v && v ≤ 0x2A) || v = 0x30 || v = 0x31 ||
  (0x38 ≤ v && v ≤ 0x3C)
def vopOnlyD (v : Nat) : Bool := (0x28 ≤ v && v ≤ 0x2A) || v = 0x30 || v = 0x31
def vopIsInt (v : Nat) : Bool := 0x38 ≤ v && v ≤ 0x3C
def vopIsCmp (v : Nat) : Bool := 0x18 ≤ v && v ≤ 0x1D
def vopIsReduce (v : Nat) : Bool := 0x28 ≤ v && v ≤ 0x2A
def vopIsAblk (v : Nat) : Bool := v = 0x30 || v = 0x31

/-- 1 if true, +0 if false. -/
def boolVal (b : Bool) : Val := if b then .fin 1 else .zero false

/-- One element of a floating-point operation: computed exactly, rounded once to FP32 (R99, R102). -/
def vecElem (op : Nat) (a b c : Val) : Val :=
  match op with
  | 0x00 => fAdd a b
  | 0x01 => fSub a b
  | 0x02 => fMul a b
  | 0x03 => fFma a b c
  | 0x04 => fDiv a b
  | 0x05 => Val.max a b
  | 0x06 => Val.min a b
  | 0x07 => a.abs
  | 0x08 => a.neg
  | 0x09 => fSqrt a
  | 0x0A => fRsqrt a
  | 0x0B => fRecip a
  | 0x0C => fExp a
  | 0x0D => fExp2 a
  | 0x0E => fLog a
  | 0x0F => fLog2 a
  | 0x10 => fTanh a
  | 0x11 => fSigmoid a
  | 0x12 => fSilu a
  | 0x13 => fGelu a
  | 0x14 => fRelu a
  | 0x18 => boolVal (a.eq b)
  | 0x19 => boolVal (!a.eq b)
  | 0x1A => boolVal (a.lt b)
  | 0x1B => boolVal (a.le b)
  | 0x1C => boolVal (b.lt a)
  | 0x1D => boolVal (b.le a)
  | 0x1E => if c.isZero || c = .nan then b else a
  | _ => a

/-- One element of an integer operation, exact (R99: the write wraps it). -/
def vecInt (op : Nat) (a b : Int) : Int :=
  match op with
  | 0x38 => a + b
  | 0x39 => a - b
  | 0x3A => a * b
  | 0x3B => max a b
  | _ => min a b

/-! ## Issue -/

/-- The reserved bits of formats V and D (R92, R101). -/
def vecReserved (w : U32) : Bool :=
  (vBs w && !vopHasB (vVop w)) ||
  (if isOp 0x1A w then (if vBs w then w.getLsbD 0 else wbits w 1 0 ≠ 0) else wbits w 3 0 ≠ 0)

/-- A VOP that the word's format does not have (R102). -/
def vecIllegal (w : U32) : Bool :=
  !vopExists (vVop w) || (isOp 0x1A w && vopOnlyD (vVop w)) ||
  (isOp 0x1A w && vVop w = 0x20 && !fmtValid (vTb w))

/-- A register's tags permit reading it (R23, R24). -/
def readableTags (x : TileReg) : Bool := fmtValid x.fmt && blkPermitted x.fmt x.blk

/-- A tag fault of a format V word (R100): formats of one width, readable sources, integer formats for the integer
operations, and a CVT target that shares TA's width and permits its block size. -/
def vopTagFault (k : Core) (w : U32) : Bool :=
  let a := k.tile (vTa w)
  let d := k.tile (vTd w)
  let width := fmtWidth a.fmt
  let srcs := (vopSources w).map k.tile
  !(srcs.all readableTags) || !fmtValid d.fmt || fmtWidth d.fmt ≠ width ||
  (srcs.any fun x => fmtWidth x.fmt ≠ width) ||
  (vopIsInt (vVop w) && srcs.any fun x => !fmtIsInt x.fmt) ||
  (vVop w = 0x20 && (fmtWidth (vTb w) ≠ width || !blkPermitted (vTb w) a.blk))

/-- Queue a vector instruction with its broadcast scalar and its descriptor's address. -/
def vecEnqueue (scalar : U32) (addr : Nat) (c t : Nat) (w : U32) (s : State) : State :=
  let (s, layer) := s.enterLayer c ((s.core c).thread t).pc
  let k := s.core c
  let h := k.thread t
  let e : VecEntry := { thread := t, pc := h.pc, word := w, layer := layer, scalar := scalar, addr := addr }
  let k := k.setThread t { h.advance with outstanding := h.outstanding + 1, st := .ready }
  s.setCore c { k with vecQ := k.vecQ ++ [e] }

/-- A word waits while the vector engine's queue holds four (R84). -/
def vecQueued (act : Nat → Nat → U32 → State → State) (c t : Nat) (w : U32) (s : State) : State :=
  if 4 ≤ (s.core c).vecQ.length then s.onThread c t fun h => { h with st := .waiting (.queueFull .vector w) }
  else act c t w s

/-- VOP's checks and acceptance (R100). The scalar register of BS is in [5:1]. -/
def vopAct (c t : Nat) (w : U32) (s : State) : State :=
  if vopTagFault (s.core c) w then haltAt haltVecTag 0 c t w s
  else vecEnqueue ((((s.core c).thread t).reg (wbits w 5 1)).setWidth 32) 0 c t w s

/-- The checks of a word that come before its operands: VOP, with ILLEGAL_OP for an operation that its format does not have, then
reserved bits (code and order are DESIGN CHOICE, assumption log 120). -/
def vecChecked (act : Nat → Nat → U32 → State → State) (c t : Nat) (w : U32) (s : State) : State :=
  if vecIllegal w then haltAt haltIllegal 0 c t w s else reserveChecked vecReserved act c t w s

def vopChecked (c t : Nat) (w : U32) (s : State) : State := vecChecked (lockChecked (vecQueued vopAct)) c t w s

/-- R100. A format V vector instruction. -/
def execVop (c t : Nat) (w : U32) (s : State) : Res := .next (issue (isOp 0x1A) vopChecked c t w s)

/-- VDESC's acceptance: the descriptor's address is 64-byte aligned and in the pond (R103, R109). -/
def vdescAct (c t : Nat) (w : U32) (s : State) : State :=
  let h := (s.core c).thread t
  let a := (h.reg (dSds w)).toNat
  match frameFault a 64 with
  | some code => haltAt code a c t w s
  | none => vecEnqueue ((h.reg (dSb w)).setWidth 32) a c t w s

def vdescChecked (c t : Nat) (w : U32) (s : State) : State := vecChecked (lockChecked (vecQueued vdescAct)) c t w s

/-- R103. A format D vector instruction. -/
def execVdesc (c t : Nat) (w : U32) (s : State) : Res := .next (issue (isOp 0x1B) vdescChecked c t w s)

/-! ## Execution of format V -/

/-- What an execution leaves: the core, the tensor written with its tally, its flag, and the unordered pairs. -/
structure VecDone where
  core : Core
  tensor : U32
  tally : Tally
  flagged : Bool
  unordered : Nat

/-- Write rows of exact integers, wrapping at the width (R99); an exact 0 counts as exact zero, any other element in no
class (R46). -/
def writeInts (fmt : Nat) (rows : List (List (Option Int))) : OutTile :=
  let tally := rows.foldl (fun (t : Tally) r => r.foldl (fun (t : Tally) e => match e with
    | none => t
    | some i => t.count (if i = 0 then .zero else .none) (Val.ofQ ((i : Int) : ℚ))) t) ({} : Tally)
  { sidecar := List.replicate 512 0
    payload := rows.flatMap fun r => rowOfCodes fmt (r.map fun e => match e with
      | none => 0
      | some i => intCode (fmtWidth fmt) i)
    flagged := false
    tally := tally }

/-- The exact elements of a tile register. -/
def tileVals (x : TileReg) : List (List Val) :=
  tileExact x.fmt x.blk (x.sidecar.bytes 0 512) (x.payload.bytes 0 4096)

/-- The value that CVT writes from an exact element: FP32, but the exact integer of an integer source where the destination
has no block scale (R44). -/
def cvtVal (srcFmt dstBlk : Nat) (v : Val) : Val :=
  if fmtIsInt srcFmt && blkSize dstBlk = 0 then v else r32 v

/-- Pairs with a NaN operand among the elements of two operands (R50). -/
def unorderedPairs (a b : List (List Val)) : Nat :=
  ((a.zip b).map fun r => ((r.1.zip r.2).filter fun e => Val.unordered e.1 e.2).length).sum

/-- Run a format V instruction: the result takes TA's FMT and BLK, CVT its target; TD keeps TENSOR, BASE and STRIDE
(R100). -/
def vopRun (k : Core) (e : VecEntry) (base : U64 × U64) : VecDone :=
  let w := e.word
  let op := vVop w
  let a := k.tile (vTa w)
  let d := k.tile (vTd w)
  let fmt := if op = 0x20 then vTb w else a.fmt
  let va := tileVals a
  let shape := va.map fun r => r.map fun _ => ()
  let vc := tileVals d
  let done := fun (o : OutTile) (n : Nat) =>
    { core := k.setTile (vTd w) { d with payload := Table.putBytes [] 0 o.payload
                                         sidecar := Table.putBytes [] 0 o.sidecar, fmt := fmt, blk := a.blk }
      tensor := d.tensor, tally := o.tally, flagged := o.flagged, unordered := n : VecDone }
  if vopIsInt op then
    let vb := if vBs w then shape.map fun r => r.map fun _ => Val.ofQ (e.scalar.toInt : ℚ) else tileVals (k.tile (vTb w))
    let rows := (va.zip vb).map fun r => (r.1.zip r.2).map fun x => some (vecInt op x.1.toQ.floor x.2.toQ.floor)
    done (writeInts fmt rows) 0
  else
    let va := if op = 0x20 then va.map fun r => r.map (cvtVal a.fmt a.blk) else va.map fun r => r.map r32
    let vb := if !vopHasB op then va
      else if vBs w then shape.map fun r => r.map fun _ => ofF32 e.scalar
      else (tileVals (k.tile (vTb w))).map fun r => r.map r32
    let vc := if vopHasC op then vc.map fun r => r.map r32 else va
    let rows := ((va.zip vb).zip vc).zipIdx.map fun r =>
      ((r.1.1.1.zip r.1.1.2).zip r.1.2).zipIdx.map fun x =>
        ({ v := some (vecElem op x.1.1.1 x.1.1.2 x.1.2)
           idx := (d.base.toNat + r.2 * d.stride.toNat + x.2) % 2 ^ 64 } : OutEl)
    let ctx : WriteCtx :=
      { fmt := fmt, blk := a.blk, rnd := vRnd w, rt := .fin 1
        key := { seed := base.1, step := base.2, tensor := d.tensor, purpose := 1, draw := 0 } }
    done (writeTile ctx (fun _ => .fin 1) rows) (if vopIsCmp op then unorderedPairs va vb else 0)

/-! ## Execution of format D (R103 to R107) -/

/-- The vector descriptor's fields. -/
structure VDesc where
  a : Nat
  b : Nat
  c : Nat
  d : Nat
  gr : Nat
  gc : Nat
  rows : Nat
  cols : Nat
  dFmt : Nat
  dBlk : Nat
  bb : Nat
  tensor : U32
  aScale : U32
  bScale : U32
  dScale : U32
  dIndex : Nat
  dStride : Nat

def vdesc (v : Nat) : VDesc :=
  { a := bits v 511 496, b := bits v 495 480, c := bits v 479 464, d := bits v 463 448, gr := bits v 447 440,
    gc := bits v 439 432, rows := bits v 431 416, cols := bits v 415 400, dFmt := bits v 399 396,
    dBlk := bits v 395 393, bb := bits v 392 391, tensor := BitVec.ofNat 32 (bits v 383 352),
    aScale := BitVec.ofNat 32 (bits v 351 320), bScale := BitVec.ofNat 32 (bits v 319 288),
    dScale := BitVec.ofNat 32 (bits v 287 256), dIndex := bits v 255 192, dStride := bits v 191 128 }

/-- An execution that halts names its code and DETAIL. -/
abbrev Halting (α : Type) := Except (Nat × Nat) α

def need (ok : Bool) (code detail : Nat) : Halting Unit := if ok then .ok () else .error (code, detail)

/-- Read one frame of an operand: in the pond, without an uncorrectable word, its CHECK and its tags right (R104). -/
def readFrame (k : Core) (addr : Nat) : Halting (List Byte) := do
  need (inPond addr frameBytes) haltPondRange addr
  need (!k.pondBadAt addr frameBytes) haltPondEcc addr
  let f := k.pond.bytes addr frameBytes
  need (frameCheckOk f) haltTileCheck addr
  let h := frameHeader f
  need (fmtValid h.fmt && blkPermitted h.fmt h.blk) haltVecTag 0
  pure f

/-- A source operand: its format and its logical elements, `rows` × `cols`, exact. `gcD` and `shapeD` are D's grid columns
and tile shape (R104). Frames that lie wholly in the tail are not read; frames of one operand may differ in float format but
not in shape or kind (DESIGN CHOICE, assumption log 120). -/
def readOperand (k : Core) (unit rows cols gcD : Nat) (shapeD : Nat × Nat) : Halting (Nat × List (List Val)) := do
  need (unit ≠ 0xFFFF) haltVecTag 0
  let f0 ← readFrame k (unit * 64)
  let fmt := (frameHeader f0).fmt
  let tr := tileRows fmt
  let tc := tileCols fmt
  let gcs := if (tr, tc) = shapeD then gcD else (cols + tc - 1) / tc
  let grid ← (List.range ((rows + tr - 1) / tr)).mapM fun gr =>
    (List.range ((cols + tc - 1) / tc)).mapM fun gc => do
      let f ← readFrame k (unit * 64 + (gr * gcs + gc) * frameBytes)
      let h := frameHeader f
      need (tileRows h.fmt = tr && tileCols h.fmt = tc && fmtIsInt h.fmt = fmtIsInt fmt) haltVecTag 0
      pure (tileExact h.fmt h.blk (frameSidecar f) (framePayload f))
  let full := grid.flatMap fun gr => (List.range tr).map fun r => gr.flatMap fun t => t.getD r []
  pure (fmt, (full.take rows).map fun r => r.take cols)

/-- An exact element of a source of format `fmt` as FP32 (R32, R99); integers carry no scale (R30). -/
def srcVal (fmt : Nat) (t v : Val) : Val := if fmtIsInt fmt then r32 v else scaled t v

/-- 1/T of the destination; an integer destination carries no scale (R30, R43). -/
def destRecip (d : VDesc) : Val := if fmtIsInt d.dFmt then .fin 1 else recipScale d.dScale

/-- Operand B, broadcast as BS or BB says (R101, R104). -/
def readB (k : Core) (e : VecEntry) (d : VDesc) (op : Nat) (shapeD : Nat × Nat) : Halting (List (List Val)) := do
  let dec := fun f v => if vopIsInt op then v else srcVal f (tensorScale d.bScale) v
  if vBs e.word then
    let v := if vopIsInt op then Val.ofQ (e.scalar.toInt : ℚ) else ofF32 e.scalar
    pure (List.replicate d.rows (List.replicate d.cols v))
  else if d.bb = 1 then
    let o ← readOperand k d.b 1 d.cols d.gc shapeD
    need (!vopIsInt op || fmtIsInt o.1) haltVecTag 0
    pure (List.replicate d.rows ((o.2.headD []).map (dec o.1)))
  else
    let f0 ← (if d.bb = 2 then do
        need (d.b ≠ 0xFFFF) haltVecTag 0
        readFrame k (d.b * 64)
      else pure [])
    let fmt := (frameHeader f0).fmt
    let gcs := if (tileRows fmt, tileCols fmt) = shapeD then d.gc else (d.cols + tileCols fmt - 1) / tileCols fmt
    if d.bb = 2 then
      let o ← (List.range ((d.rows + tileRows fmt - 1) / tileRows fmt)).mapM fun gr =>
        readOperand k (d.b + gr * gcs * 73) (tileRows fmt) 1 d.gc shapeD
      need (!vopIsInt op || o.all fun x => fmtIsInt x.1) haltVecTag 0
      let col := (o.flatMap fun x => x.2.map fun r => dec x.1 (r.headD (.zero false))).take d.rows
      pure (col.map fun v => List.replicate d.cols v)
    else
      let o ← readOperand k d.b d.rows d.cols d.gc shapeD
      need (!vopIsInt op || fmtIsInt o.1) haltVecTag 0
      pure (o.2.map fun r => r.map (dec o.1))

/-- The descriptor's own checks (R103, R106, R109): reserved bits, then fields. Addresses of operands that the word does not use,
and BB where it has none, are ignored (DESIGN CHOICE, assumption log 120). -/
def vdescFields (v : Nat) (d : VDesc) (op : Nat) : Halting Unit := do
  need (bits v 390 384 = 0 && bits v 127 0 = 0) haltReserved 0
  need (d.gr ≠ 0 && d.gc ≠ 0 && d.rows ≠ 0 && d.cols ≠ 0 && d.bb ≠ 3) haltVecTag 0
  need (fmtValid d.dFmt && blkPermitted d.dFmt d.dBlk) haltVecTag 0
  need (d.d ≠ 0xFFFF) haltVecTag 0
  if vopIsReduce op then need (d.dFmt = 5 && d.dBlk = 0) haltVecTag 0
  else
    need (d.rows ≤ d.gr * tileRows d.dFmt && d.cols ≤ d.gc * tileCols d.dFmt) haltVecTag 0
    need (!vopIsInt op || fmtIsInt d.dFmt) haltVecTag 0

/-- Elements of D in tile (gr, gc), with the tail (R105). -/
def dTile (d : VDesc) (vals : List (List Val)) (gr gc : Nat) : List (List OutEl) :=
  (List.range (tileRows d.dFmt)).map fun i => (List.range (tileCols d.dFmt)).map fun j =>
    let r := gr * tileRows d.dFmt + i
    let c := gc * tileCols d.dFmt + j
    { v := if r < d.rows && c < d.cols then (vals[r]?).bind fun x => x[c]? else none
      idx := (d.dIndex + r * d.dStride + c) % 2 ^ 64 }

/-- Write the destination frames whole (R104). The rows of `vals` are the exact results. -/
def writeD (k : Core) (e : VecEntry) (d : VDesc) (base : U64 × U64) (version : Nat) (ints : Bool)
    (vals : List (List Val)) (unordered : Nat) : Halting VecDone := do
  need (inPond (d.d * 64) (d.gr * d.gc * frameBytes)) haltPondRange (d.d * 64)
  let ctx : WriteCtx :=
    { fmt := d.dFmt, blk := d.dBlk, rnd := vRnd e.word, rt := destRecip d
      key := { seed := base.1, step := base.2, tensor := d.tensor, purpose := 1, draw := 0 } }
  let r := (List.range d.gr).foldl (fun (st : Core × Tally) gr => (List.range d.gc).foldl (fun (st : Core × Tally) gc =>
    let els := dTile d vals gr gc
    let o := if ints then writeInts d.dFmt (els.map fun r => r.map fun x => x.v.map fun v => v.toQ.floor)
      else writeTile ctx (fun _ => .fin 1) els
    let h : Header :=
      { version := version, tensor := d.tensor.toNat, origin1 := gr * tileRows d.dFmt, origin0 := gc * tileCols d.dFmt
        fmt := d.dFmt, blk := d.dBlk, ovf := o.flagged }
    (st.1.pondWrite (d.d * 64 + (gr * d.gc + gc) * frameBytes) (mkFrame h o.sidecar o.payload), st.2.add o.tally)) st)
    (k, {})
  pure { core := r.1, tensor := d.tensor, tally := r.2, flagged := r.2.ovfTiles ≠ 0, unordered := unordered }

/-- The reductions of R106 over one row. -/
def reduceRow (op : Nat) (r : List Val) : Val :=
  if op = 0x28 then r.foldl fAdd (.zero false)
  else if op = 0x29 then r.foldl Val.max (.inf true)
  else r.foldl Val.min (.inf false)

/-- RSUM, RMAX, RMIN (R106): an FP32 array in whole 64-byte units. -/
def reduceRun (k : Core) (e : VecEntry) (d : VDesc) (base : U64 × U64) : Halting VecDone := do
  let f ← readFrame k (d.a * 64)
  let fmt := (frameHeader f).fmt
  need (d.rows ≤ d.gr * tileRows fmt && d.cols ≤ d.gc * tileCols fmt) haltVecTag 0
  let a ← readOperand k d.a d.rows d.cols d.gc (tileRows fmt, tileCols fmt)
  let n := (d.rows * 4 + 63) / 64 * 64
  need (inPond (d.d * 64) n) haltPondRange (d.d * 64)
  let ctx : WriteCtx :=
    { fmt := 5, blk := 0, rnd := vRnd e.word, rt := recipScale d.dScale
      key := { seed := base.1, step := base.2, tensor := d.tensor, purpose := 1, draw := 0 } }
  let els := (a.2.map fun r => r.map (srcVal a.1 (tensorScale d.aScale))).zipIdx.map fun r =>
    ({ v := some (reduceRow (vVop e.word) r.1), idx := (d.dIndex + r.2 * d.dStride) % 2 ^ 64 } : OutEl)
  let o := writeBlock ctx (.fin 1) els
  let bs := o.2.1.flatMap fun c => leBytes 4 c
  pure { core := k.pondWrite (d.d * 64) (bs ++ List.replicate (n - bs.length) 0)
         tensor := d.tensor, tally := o.2.2.2, flagged := false, unordered := 0 }

/-- One row of ABLK (R107): the probabilities and the new m, l, α. -/
def ablkRow (m l : Val) (s : List Val) : List Val × Val × Val × Val :=
  let mn := Val.max m (s.foldl Val.max (.inf true))
  let alpha := if mn = .inf true then Val.fin 1 else fExp (fSub m mn)
  let p := s.map fun x => if mn = .inf true then Val.zero false else fExp (fSub x mn)
  (p, mn, fAdd (fMul alpha l) (p.foldl fAdd (.zero false)), alpha)

/-- One row of ABLK_FINAL. -/
def ablkFinalRow (m l : Val) (s : List Val) : List Val :=
  s.map fun x => if m = .inf true then Val.zero false else fExp (fSub x (fAdd m (fLog l)))

/-- ABLK and ABLK_FINAL (R107). C is an array of 16 bytes per logical row. -/
def ablkRun (k : Core) (e : VecEntry) (d : VDesc) (base : U64 × U64) (version : Nat) : Halting VecDone := do
  let a ← readOperand k d.a d.rows d.cols d.gc (tileRows d.dFmt, tileCols d.dFmt)
  need (d.c ≠ 0xFFFF) haltVecTag 0
  need (inPond (d.c * 64) (16 * d.rows)) haltPondRange (d.c * 64)
  need (!k.pondBadAt (d.c * 64) (16 * d.rows)) haltPondEcc (d.c * 64)
  let state := (List.range d.rows).map fun r =>
    (ofF32 (BitVec.ofNat 32 (leNat (k.pond.bytes (d.c * 64 + 16 * r) 4))),
     ofF32 (BitVec.ofNat 32 (leNat (k.pond.bytes (d.c * 64 + 16 * r + 4) 4))))
  let rows := (a.2.map fun r => r.map (srcVal a.1 (tensorScale d.aScale))).zip state
  if vVop e.word = 0x30 then
    let out := rows.map fun r => ablkRow r.2.1 r.2.2 r.1
    let done ← writeD k e d base version false (out.map (·.1)) 0
    let k' := out.zipIdx.foldl (fun (k : Core) o =>
      k.pondWrite (d.c * 64 + 16 * o.2) (leBytes 4 (toF32 o.1.2.1).toNat ++ leBytes 4 (toF32 o.1.2.2.1).toNat ++
        leBytes 4 (toF32 o.1.2.2.2).toNat)) done.core
    pure { done with core := k' }
  else writeD k e d base version false (rows.map fun r => ablkFinalRow r.2.1 r.2.2 r.1) 0

/-- Operand C, decoded with T = 1 (R99). -/
def readC (k : Core) (d : VDesc) (shapeD : Nat × Nat) : Halting (List (List Val)) := do
  let o ← readOperand k d.c d.rows d.cols d.gc shapeD
  pure (o.2.map fun r => r.map r32)

/-- Run a format D instruction. -/
def vdescRun (k : Core) (e : VecEntry) (base : U64 × U64) (version : Nat) : Halting VecDone := do
  need (!k.pondBadAt e.addr 64) haltPondEcc e.addr
  let v := leNat (k.pond.bytes e.addr 64)
  let d := vdesc v
  let op := vVop e.word
  vdescFields v d op
  need (d.a ≠ 0xFFFF) haltVecTag 0
  if vopIsReduce op then reduceRun k e d base
  else if vopIsAblk op then ablkRun k e d base version
  else
    let shapeD := (tileRows d.dFmt, tileCols d.dFmt)
    let a ← readOperand k d.a d.rows d.cols d.gc shapeD
    if vopIsInt op then
      need (fmtIsInt a.1) haltVecTag 0
      let b ← readB k e d op shapeD
      let rows := (a.2.zip b).map fun r => (r.1.zip r.2).map fun x =>
        Val.ofQ ((vecInt op x.1.toQ.floor x.2.toQ.floor : Int) : ℚ)
      writeD k e d base version true rows 0
    else
      let t := tensorScale d.aScale
      let va := a.2.map fun r => r.map fun x =>
        if op = 0x20 && fmtIsInt a.1 then cvtVal a.1 d.dBlk x else srcVal a.1 t x
      let vb ← if vopHasB op then readB k e d op shapeD else pure va
      let vc ← if vopHasC op then readC k d shapeD else pure va
      let rows := ((va.zip vb).zip vc).map fun r => ((r.1.1.zip r.1.2).zip r.2).map fun x =>
        vecElem op x.1.1 x.1.2 x.2
      writeD k e d base version false rows (if vopIsCmp op then unorderedPairs va vb else 0)

/-! ## Completion -/

/-- The next vector instruction runs, if it is this operation (R99: one at a time, in issue order). A halt at execution
leaves everything else as it was (R109). -/
def vecExec (op c : Nat) (s : State) : State :=
  let k := s.core c
  match k.vecQ with
  | [] => s
  | e :: rest =>
    if vVop e.word ≠ op then s
    else
      let k := { k.finish e.thread with vecQ := rest }
      let base := s.rsBase c
      let version := match k.seg with
        | none => 0
        | some (p, _, _) => (s.partn p).writeVersion
      let r : Halting VecDone := if isOp 0x1A e.word then .ok (vopRun k e base) else vdescRun k e base version
      match r with
      | .error (code, detail) => (s.setCore c k).halt c e.thread e.pc e.word code detail
      | .ok o =>
        let s := s.setCore c (addUnordered o.unordered o.core)
        let s := if isOp 0x1A e.word then s else s.correctPonds c (vdescUse k e.word e.addr).reads
        let s := match k.seg with
          | none => s
          | some (p, w, q) => s.tally p (some (w, q, e.layer)) o.tensor o.tally
        if o.flagged then (s.overflow c e.layer o.tensor false).1 else s

/-- R102. The vector engine executes ADD. -/
def execVecAdd (c : Nat) (s : State) : Res := .next (vecExec 0x00 c s)

/-- R102. The vector engine executes SUB. -/
def execVecSub (c : Nat) (s : State) : Res := .next (vecExec 0x01 c s)

/-- R102. The vector engine executes MUL. -/
def execVecMul (c : Nat) (s : State) : Res := .next (vecExec 0x02 c s)

/-- R102. The vector engine executes FMA. -/
def execVecFma (c : Nat) (s : State) : Res := .next (vecExec 0x03 c s)

/-- R102. The vector engine executes DIV. -/
def execVecDiv (c : Nat) (s : State) : Res := .next (vecExec 0x04 c s)

/-- R102. The vector engine executes MAX. -/
def execVecMax (c : Nat) (s : State) : Res := .next (vecExec 0x05 c s)

/-- R102. The vector engine executes MIN. -/
def execVecMin (c : Nat) (s : State) : Res := .next (vecExec 0x06 c s)

/-- R102. The vector engine executes ABS. -/
def execVecAbs (c : Nat) (s : State) : Res := .next (vecExec 0x07 c s)

/-- R102. The vector engine executes NEG. -/
def execVecNeg (c : Nat) (s : State) : Res := .next (vecExec 0x08 c s)

/-- R102. The vector engine executes SQRT. -/
def execVecSqrt (c : Nat) (s : State) : Res := .next (vecExec 0x09 c s)

/-- R102. The vector engine executes RSQRT. -/
def execVecRsqrt (c : Nat) (s : State) : Res := .next (vecExec 0x0A c s)

/-- R102. The vector engine executes RECIP. -/
def execVecRecip (c : Nat) (s : State) : Res := .next (vecExec 0x0B c s)

/-- R102. The vector engine executes EXP. -/
def execVecExp (c : Nat) (s : State) : Res := .next (vecExec 0x0C c s)

/-- R102. The vector engine executes EXP2. -/
def execVecExp2 (c : Nat) (s : State) : Res := .next (vecExec 0x0D c s)

/-- R102. The vector engine executes LOG. -/
def execVecLog (c : Nat) (s : State) : Res := .next (vecExec 0x0E c s)

/-- R102. The vector engine executes LOG2. -/
def execVecLog2 (c : Nat) (s : State) : Res := .next (vecExec 0x0F c s)

/-- R102. The vector engine executes TANH. -/
def execVecTanh (c : Nat) (s : State) : Res := .next (vecExec 0x10 c s)

/-- R102. The vector engine executes SIGMOID. -/
def execVecSigmoid (c : Nat) (s : State) : Res := .next (vecExec 0x11 c s)

/-- R102. The vector engine executes SILU. -/
def execVecSilu (c : Nat) (s : State) : Res := .next (vecExec 0x12 c s)

/-- R102. The vector engine executes GELU_TANH. -/
def execVecGeluTanh (c : Nat) (s : State) : Res := .next (vecExec 0x13 c s)

/-- R102. The vector engine executes RELU. -/
def execVecRelu (c : Nat) (s : State) : Res := .next (vecExec 0x14 c s)

/-- R102. The vector engine executes CMPEQ. -/
def execVecCmpeq (c : Nat) (s : State) : Res := .next (vecExec 0x18 c s)

/-- R102. The vector engine executes CMPNE. -/
def execVecCmpne (c : Nat) (s : State) : Res := .next (vecExec 0x19 c s)

/-- R102. The vector engine executes CMPLT. -/
def execVecCmplt (c : Nat) (s : State) : Res := .next (vecExec 0x1A c s)

/-- R102. The vector engine executes CMPLE. -/
def execVecCmple (c : Nat) (s : State) : Res := .next (vecExec 0x1B c s)

/-- R102. The vector engine executes CMPGT. -/
def execVecCmpgt (c : Nat) (s : State) : Res := .next (vecExec 0x1C c s)

/-- R102. The vector engine executes CMPGE. -/
def execVecCmpge (c : Nat) (s : State) : Res := .next (vecExec 0x1D c s)

/-- R102. The vector engine executes SEL. -/
def execVecSel (c : Nat) (s : State) : Res := .next (vecExec 0x1E c s)

/-- R100. The vector engine executes CVT. -/
def execVecCvt (c : Nat) (s : State) : Res := .next (vecExec 0x20 c s)

/-- R106. The vector engine executes RSUM. -/
def execVecRsum (c : Nat) (s : State) : Res := .next (vecExec 0x28 c s)

/-- R106. The vector engine executes RMAX. -/
def execVecRmax (c : Nat) (s : State) : Res := .next (vecExec 0x29 c s)

/-- R106. The vector engine executes RMIN. -/
def execVecRmin (c : Nat) (s : State) : Res := .next (vecExec 0x2A c s)

/-- R107. The vector engine executes ABLK. -/
def execVecAblk (c : Nat) (s : State) : Res := .next (vecExec 0x30 c s)

/-- R107. The vector engine executes ABLK_FINAL. -/
def execVecAblkFinal (c : Nat) (s : State) : Res := .next (vecExec 0x31 c s)

/-- R102. The vector engine executes IADD. -/
def execVecIadd (c : Nat) (s : State) : Res := .next (vecExec 0x38 c s)

/-- R102. The vector engine executes ISUB. -/
def execVecIsub (c : Nat) (s : State) : Res := .next (vecExec 0x39 c s)

/-- R102. The vector engine executes IMUL. -/
def execVecImul (c : Nat) (s : State) : Res := .next (vecExec 0x3A c s)

/-- R102. The vector engine executes IMAX. -/
def execVecImax (c : Nat) (s : State) : Res := .next (vecExec 0x3B c s)

/-- R102. The vector engine executes IMIN. -/
def execVecImin (c : Nat) (s : State) : Res := .next (vecExec 0x3C c s)

end Sys2Proof.Machine
end

