-- ==== Sys2Proof/Machine/Resume.lean ====
section
/-! DEFINITION. The resumption of a thread that waits with an instruction for an engine queue or a tile lock (R60, R81, R84), and the
pond scrubber (R118). -/

namespace Sys2Proof.Machine

/-- What the word of a waiting thread does once it may be tried again: the checked action of its instruction. -/
def retryAction (w : U32) : Nat → Nat → U32 → State → State :=
  if isOp 0x20 w then mmaChecked
  else if isOp 0x21 w then epiChecked
  else if isOp 0x1A w then vopChecked
  else if isOp 0x1B w then vdescChecked
  else if isOp 0x1C w then sprChecked
  else if isSys 0x05 w then ttagChecked
  else if isOp 0x18 w || isOp 0x19 w then tileChecked
  else if isOp 0x09 w then lockChecked ldAct
  else lockChecked stAct

/-- The word that a thread waits with for an engine queue. -/
def Thread.queueWord (h : Thread) : Option U32 :=
  match h.st with
  | .waiting (.queueFull _ w) => some w
  | _ => none

/-- The word that a thread waits with for a tile lock. -/
def Thread.lockWord (h : Thread) : Option U32 :=
  match h.st with
  | .waiting (.tileLock w) => some w
  | _ => none

/-- Try the word of a waiting thread again: a thread whose segment is stopping stays where it is (R110). -/
def State.retryWord (s : State) (c t : Nat) (word : Option U32) : State :=
  match word, s.segOf c with
  | some w, some g =>
    if g.stop.isSome || !s.working then s
    else retryAction w c t w (s.onThread c t fun h => { h with st := .ready })
  | _, _ => s

/-- R84. A slot has freed in a full queue: the waiting instruction is accepted. -/
def execEngineQueueAccept (c t : Nat) (s : State) : Res := .next (s.retryWord c t ((s.core c).thread t).queueWord)

/-- R60. An engine has finished with a locked register: the waiting access proceeds. The tile engine, whose TLD and TST have no
row of their own for the end of their execution, executes its oldest one now (R84, R97; assumption log 51). -/
def execTileLockRelease (c t : Nat) (s : State) : Res :=
  let s := if s.working && c < 6144 then tileExec c s else s
  .next (s.retryWord c t ((s.core c).thread t).lockWord)

/-- R118. The scrubber reads the next 64-byte beat. `found` names the errors that words have by now: in that beat single-bit
errors, these and older ones, are corrected and counted, and a double-bit error is recorded and its word left; elsewhere they
stand until a reader meets them. -/
def execPondScrub (c : Nat) (found : List WordError) (s : State) : Res :=
  let k := s.core c
  if 6144 ≤ c || s.phase ≠ .running || s.power.sleep ≠ .awake then .next s
  else
    let doubles := (found.filter fun e => e.double).map fun e => e.word
    let bad := k.pondBad ++ (doubles.filter fun w => !k.pondBad.contains w).eraseDups
    let singles := (found.filter fun e => !e.double).map fun e => e.word
    let weak := (k.pondSingle ++ singles).eraseDups.filter fun w => !bad.contains w
    let s := s.onCore c fun k => { k with scrubAt := (k.scrubAt + 1) % 6144, pondBad := bad, pondSingle := weak }
    .next (s.correctPond c (64 * k.scrubAt) 64)

end Sys2Proof.Machine
end

