-- ==== Sys2Proof/Machine/Takeover.lean ====
section
/-! DEFINITION. The takeover by the standby Supervisor (R359), and the requests that waited for it. -/

namespace Sys2Proof.Machine

/-- The meaning of a request by its opcode (R384). -/
def execRequest (n : Nat) (frame : List Byte) (s : State) : Res :=
  let op := ndOp frame
  if op = 0x02 then execNdoitWrite n frame s
  else if op = 0x03 then execReadBlock n frame s
  else if op = 0x04 then execWriteBlock n frame s
  else if op = 0x10 then execChangesetOpen n frame s
  else if op = 0x11 then execChangesetAdd n frame s
  else if op = 0x12 then execChangesetCommit n frame s
  else if op = 0x13 then execChangesetAbort n frame s
  else if op = 0x20 then execSubscribe n frame s
  else if op = 0x30 then execHeartbeat n frame s
  else execNdoitRead n frame s

/-- A frame that arrived during the failover is answered. -/
def State.answerOne (s : State) (e : Nat × List Byte) : State :=
  match execRequest e.1 e.2 s with
  | .next t => t
  | _ => s

/-- Every such frame, in order of arrival. -/
def State.answerHeld (s : State) : State :=
  s.mgmt.held.foldl State.answerOne { s with mgmt := { s.mgmt with held := [] } }

/-- R359. The standby takes control: undecided change sets roll back, the window is discarded, latched lease expiries take
effect, held records are written, latched doorbells are acted on, and the frames that arrived are answered. A former active Supervisor
that has restarted by then is the standby (R360). -/
def execSupervisorFailover (s : State) : Res :=
  if !s.sup.failover || s.phase ≠ .running then .next s
  else
    let new := 1 - s.sup.activeSup
    let since := (s.proc s.sup.activeSup).since
    let s := { s with sup := { s.sup with activeSup := new, failover := false } }
    let s := ((s.bump 0x8010 3 1).bump 0x8010 6 (if s.waitsOn 0 then s.now - since else 0)).raiseM 0x1003 new []
    let s := if (s.proc (1 - new)).st = .running then
        ({ s with sup := { s.sup with standby := true } }).raiseM 0x1005 (1 - new) []
      else s.raiseM 0x1004 new []
    let s := (s.rollbackUndecided 3).endWindow 3
    let s := s.existing.foldl (fun s p => if (s.partn p).leaseExpired then s.enterOrphan p else s) s
    let s := s.existing.foldl (fun s p => s.flushAll p) s
    .next s.releaseLatched.answerHeld

end Sys2Proof.Machine
end

