-- ==== Sys2Proof/Machine/Dispatch.lean ====
section
/-! DEFINITION. One arm per command. -/

namespace Sys2Proof.Machine

def exec (i : Instr) (s : State) : Host.Outcome State Fault Refusal :=
  match i with
  | .aluAdd c t w => Sys2Proof.Machine.execAluAdd c t w s
  | .aluSub c t w => Sys2Proof.Machine.execAluSub c t w s
  | .aluAnd c t w => Sys2Proof.Machine.execAluAnd c t w s
  | .aluOr c t w => Sys2Proof.Machine.execAluOr c t w s
  | .aluXor c t w => Sys2Proof.Machine.execAluXor c t w s
  | .aluShl c t w => Sys2Proof.Machine.execAluShl c t w s
  | .aluShr c t w => Sys2Proof.Machine.execAluShr c t w s
  | .aluSra c t w => Sys2Proof.Machine.execAluSra c t w s
  | .aluMul c t w => Sys2Proof.Machine.execAluMul c t w s
  | .aluMulhu c t w => Sys2Proof.Machine.execAluMulhu c t w s
  | .aluDivu c t w => Sys2Proof.Machine.execAluDivu c t w s
  | .aluRemu c t w => Sys2Proof.Machine.execAluRemu c t w s
  | .aluMin c t w => Sys2Proof.Machine.execAluMin c t w s
  | .aluMax c t w => Sys2Proof.Machine.execAluMax c t w s
  | .aluFadd c t w => Sys2Proof.Machine.execAluFadd c t w s
  | .aluFsub c t w => Sys2Proof.Machine.execAluFsub c t w s
  | .aluFmul c t w => Sys2Proof.Machine.execAluFmul c t w s
  | .aluFdiv c t w => Sys2Proof.Machine.execAluFdiv c t w s
  | .aluFmin c t w => Sys2Proof.Machine.execAluFmin c t w s
  | .aluFmax c t w => Sys2Proof.Machine.execAluFmax c t w s
  | .addi c t w => Sys2Proof.Machine.execAddi c t w s
  | .andi c t w => Sys2Proof.Machine.execAndi c t w s
  | .ori c t w => Sys2Proof.Machine.execOri c t w s
  | .xori c t w => Sys2Proof.Machine.execXori c t w s
  | .shli c t w => Sys2Proof.Machine.execShli c t w s
  | .shri c t w => Sys2Proof.Machine.execShri c t w s
  | .srai c t w => Sys2Proof.Machine.execSrai c t w s
  | .lis c t w => Sys2Proof.Machine.execLis c t w s
  | .ld c t w => Sys2Proof.Machine.execLd c t w s
  | .pondLoadResult c t => Sys2Proof.Machine.execPondLoadResult c t s
  | .st c t w => Sys2Proof.Machine.execSt c t w s
  | .cmpEq c t w => Sys2Proof.Machine.execCmpEq c t w s
  | .cmpNe c t w => Sys2Proof.Machine.execCmpNe c t w s
  | .cmpLt c t w => Sys2Proof.Machine.execCmpLt c t w s
  | .cmpLtu c t w => Sys2Proof.Machine.execCmpLtu c t w s
  | .cmpGe c t w => Sys2Proof.Machine.execCmpGe c t w s
  | .cmpGeu c t w => Sys2Proof.Machine.execCmpGeu c t w s
  | .cmpFeq c t w => Sys2Proof.Machine.execCmpFeq c t w s
  | .cmpFne c t w => Sys2Proof.Machine.execCmpFne c t w s
  | .cmpFlt c t w => Sys2Proof.Machine.execCmpFlt c t w s
  | .cmpFle c t w => Sys2Proof.Machine.execCmpFle c t w s
  | .cmpFgt c t w => Sys2Proof.Machine.execCmpFgt c t w s
  | .cmpFge c t w => Sys2Proof.Machine.execCmpFge c t w s
  | .br c t w => Sys2Proof.Machine.execBr c t w s
  | .branchShadowEnd c t => Sys2Proof.Machine.execBranchShadowEnd c t s
  | .jr c t w => Sys2Proof.Machine.execJr c t w s
  | .loop c t w => Sys2Proof.Machine.execLoop c t w s
  | .endThread c t w => Sys2Proof.Machine.execEndThread c t w s
  | .halt c t w => Sys2Proof.Machine.execHalt c t w s
  | .bar c t w => Sys2Proof.Machine.execBar c t w s
  | .barRelease c mask => Sys2Proof.Machine.execBarRelease c mask s
  | .waitq c t w => Sys2Proof.Machine.execWaitq c t w s
  | .waitqRelease c t => Sys2Proof.Machine.execWaitqRelease c t s
  | .csrr c t w => Sys2Proof.Machine.execCsrr c t w s
  | .ttag c t w => Sys2Proof.Machine.execTtag c t w s
  | .tld c t w => Sys2Proof.Machine.execTld c t w s
  | .tst c t w => Sys2Proof.Machine.execTst c t w s
  | .vop c t w => Sys2Proof.Machine.execVop c t w s
  | .vdesc c t w => Sys2Proof.Machine.execVdesc c t w s
  | .spr c t w => Sys2Proof.Machine.execSpr c t w s
  | .mwait c t w => Sys2Proof.Machine.execMwait c t w s
  | .mwaitRelease c t => Sys2Proof.Machine.execMwaitRelease c t s
  | .mma c t w => Sys2Proof.Machine.execMma c t w s
  | .mmaExecute c => Sys2Proof.Machine.execMmaExecute c s
  | .epi c t w => Sys2Proof.Machine.execEpi c t w s
  | .epiExecute c => Sys2Proof.Machine.execEpiExecute c s
  | .accParityError c acc => Sys2Proof.Machine.execAccParityError c acc s
  | .engineQueueAccept c t => Sys2Proof.Machine.execEngineQueueAccept c t s
  | .tileLockRelease c t => Sys2Proof.Machine.execTileLockRelease c t s
  | .vecAdd c => Sys2Proof.Machine.execVecAdd c s
  | .vecSub c => Sys2Proof.Machine.execVecSub c s
  | .vecMul c => Sys2Proof.Machine.execVecMul c s
  | .vecFma c => Sys2Proof.Machine.execVecFma c s
  | .vecDiv c => Sys2Proof.Machine.execVecDiv c s
  | .vecMax c => Sys2Proof.Machine.execVecMax c s
  | .vecMin c => Sys2Proof.Machine.execVecMin c s
  | .vecAbs c => Sys2Proof.Machine.execVecAbs c s
  | .vecNeg c => Sys2Proof.Machine.execVecNeg c s
  | .vecSqrt c => Sys2Proof.Machine.execVecSqrt c s
  | .vecRsqrt c => Sys2Proof.Machine.execVecRsqrt c s
  | .vecRecip c => Sys2Proof.Machine.execVecRecip c s
  | .vecExp c => Sys2Proof.Machine.execVecExp c s
  | .vecExp2 c => Sys2Proof.Machine.execVecExp2 c s
  | .vecLog c => Sys2Proof.Machine.execVecLog c s
  | .vecLog2 c => Sys2Proof.Machine.execVecLog2 c s
  | .vecTanh c => Sys2Proof.Machine.execVecTanh c s
  | .vecSigmoid c => Sys2Proof.Machine.execVecSigmoid c s
  | .vecSilu c => Sys2Proof.Machine.execVecSilu c s
  | .vecGeluTanh c => Sys2Proof.Machine.execVecGeluTanh c s
  | .vecRelu c => Sys2Proof.Machine.execVecRelu c s
  | .vecCmpeq c => Sys2Proof.Machine.execVecCmpeq c s
  | .vecCmpne c => Sys2Proof.Machine.execVecCmpne c s
  | .vecCmplt c => Sys2Proof.Machine.execVecCmplt c s
  | .vecCmple c => Sys2Proof.Machine.execVecCmple c s
  | .vecCmpgt c => Sys2Proof.Machine.execVecCmpgt c s
  | .vecCmpge c => Sys2Proof.Machine.execVecCmpge c s
  | .vecSel c => Sys2Proof.Machine.execVecSel c s
  | .vecCvt c => Sys2Proof.Machine.execVecCvt c s
  | .vecRsum c => Sys2Proof.Machine.execVecRsum c s
  | .vecRmax c => Sys2Proof.Machine.execVecRmax c s
  | .vecRmin c => Sys2Proof.Machine.execVecRmin c s
  | .vecAblk c => Sys2Proof.Machine.execVecAblk c s
  | .vecAblkFinal c => Sys2Proof.Machine.execVecAblkFinal c s
  | .vecIadd c => Sys2Proof.Machine.execVecIadd c s
  | .vecIsub c => Sys2Proof.Machine.execVecIsub c s
  | .vecImul c => Sys2Proof.Machine.execVecImul c s
  | .vecImax c => Sys2Proof.Machine.execVecImax c s
  | .vecImin c => Sys2Proof.Machine.execVecImin c s
  | .runLaunch p w q => Sys2Proof.Machine.execRunLaunch p w q s
  | .segmentEnd p w q => Sys2Proof.Machine.execSegmentEnd p w q s
  | .segmentFaultStopped p w q => Sys2Proof.Machine.execSegmentFaultStopped p w q s
  | .pondScrub c found => Sys2Proof.Machine.execPondScrub c found s
  | .springDescriptorStart m => Sys2Proof.Machine.execSpringDescriptorStart m s
  | .springTileMove m => Sys2Proof.Machine.execSpringTileMove m s
  | .springSourceReread m => Sys2Proof.Machine.execSpringSourceReread m s
  | .springTileDelivered m => Sys2Proof.Machine.execSpringTileDelivered m s
  | .springFaultTimeout p recordId => Sys2Proof.Machine.execSpringFaultTimeout p recordId s
  | .faultRecordPost p => Sys2Proof.Machine.execFaultRecordPost p s
  | .landingFrameArrival die p src frame => Sys2Proof.Machine.execLandingFrameArrival die p src frame s
  | .arbiterGrant a pend borrower => Sys2Proof.Machine.execArbiterGrant a pend borrower s
  | .stairForward m k => Sys2Proof.Machine.execStairForward m k s
  | .stairDetach m k => Sys2Proof.Machine.execStairDetach m k s
  | .lakeCopyRepair p obj tile => Sys2Proof.Machine.execLakeCopyRepair p obj tile s
  | .lakeScrub granule found => Sys2Proof.Machine.execLakeScrub granule found s
  | .flashBackgroundWork die w => Sys2Proof.Machine.execFlashBackgroundWork die w s
  | .flashReadComplete p obj ext bad => Sys2Proof.Machine.execFlashReadComplete p obj ext bad s
  | .fillFrameDelivered p obj => Sys2Proof.Machine.execFillFrameDelivered p obj s
  | .fillDone p obj => Sys2Proof.Machine.execFillDone p obj s
  | .releaseDone p obj => Sys2Proof.Machine.execReleaseDone p obj s
  | .tierCommit p obj => Sys2Proof.Machine.execTierCommit p obj s
  | .extentRetire p obj => Sys2Proof.Machine.execExtentRetire p obj s
  | .recoverySourceTimeout p obj out => Sys2Proof.Machine.execRecoverySourceTimeout p obj out s
  | .hostRecoveryTimeout p obj => Sys2Proof.Machine.execHostRecoveryTimeout p obj s
  | .watchPeriodEnd p => Sys2Proof.Machine.execWatchPeriodEnd p s
  | .layerRestart p w q => Sys2Proof.Machine.execLayerRestart p w q s
  | .sweepBlock p stack => Sys2Proof.Machine.execSweepBlock p stack s
  | .sweepResume p stack => Sys2Proof.Machine.execSweepResume p stack s
  | .sweepEnd p => Sys2Proof.Machine.execSweepEnd p s
  | .digestExchange p rec mirrors => Sys2Proof.Machine.execDigestExchange p rec mirrors s
  | .digestTimeout p rec => Sys2Proof.Machine.execDigestTimeout p rec s
  | .exchangeRecordTrigger p x => Sys2Proof.Machine.execExchangeRecordTrigger p x s
  | .exchangeRecordStart p x => Sys2Proof.Machine.execExchangeRecordStart p x s
  | .exchangeTileCompress p x tile => Sys2Proof.Machine.execExchangeTileCompress p x tile s
  | .reduceContribution p x tile => Sys2Proof.Machine.execReduceContribution p x tile s
  | .exchangeRecordComplete p x => Sys2Proof.Machine.execExchangeRecordComplete p x s
  | .exchangePeerTimeout p x member => Sys2Proof.Machine.execExchangePeerTimeout p x member s
  | .multicastDetach p x member => Sys2Proof.Machine.execMulticastDetach p x member s
  | .stageQueueMarkForward p sq gain => Sys2Proof.Machine.execStageQueueMarkForward p sq gain s
  | .flitReceive port f => Sys2Proof.Machine.execFlitReceive port f s
  | .flitNakReplay port ack => Sys2Proof.Machine.execFlitNakReplay port ack s
  | .ackProgressTimeout port => Sys2Proof.Machine.execAckProgressTimeout port s
  | .packetForward src => Sys2Proof.Machine.execPacketForward src s
  | .fabricWrite die pk => Sys2Proof.Machine.execFabricWrite die pk s
  | .readReq die pk => Sys2Proof.Machine.execReadReq die pk s
  | .readData die pk => Sys2Proof.Machine.execReadData die pk s
  | .fabricAck die pk => Sys2Proof.Machine.execFabricAck die pk s
  | .xframe die pk => Sys2Proof.Machine.execXframe die pk s
  | .mcast die pk => Sys2Proof.Machine.execMcast die pk s
  | .fabricCancel die pk => Sys2Proof.Machine.execFabricCancel die pk s
  | .nakFault die pk => Sys2Proof.Machine.execNakFault die pk s
  | .packetTimeout p r => Sys2Proof.Machine.execPacketTimeout p r s
  | .laneSignalLoss port lane => Sys2Proof.Machine.execLaneSignalLoss port lane s
  | .linkTrainingComplete port r => Sys2Proof.Machine.execLinkTrainingComplete port r s
  | .cablePresenceChange port present => Sys2Proof.Machine.execCablePresenceChange port present s
  | .cablePowerShort port => Sys2Proof.Machine.execCablePowerShort port s
  | .cmdDoorbell p w d hostWrites => Sys2Proof.Machine.execCmdDoorbell p w d hostWrites s
  | .abortDoorbell p w a => Sys2Proof.Machine.execAbortDoorbell p w a s
  | .cplHead p w h => Sys2Proof.Machine.execCplHead p w h s
  | .ptRoot p v => Sys2Proof.Machine.execPtRoot p v s
  | .attach p v => Sys2Proof.Machine.execAttach p v s
  | .lease p v => Sys2Proof.Machine.execLease p v s
  | .fqHead p v => Sys2Proof.Machine.execFqHead p v s
  | .faultRespResume p recordId => Sys2Proof.Machine.execFaultRespResume p recordId s
  | .faultRespFatal p recordId => Sys2Proof.Machine.execFaultRespFatal p recordId s
  | .streamEnable p w => Sys2Proof.Machine.execStreamEnable p w s
  | .streamDisable p w => Sys2Proof.Machine.execStreamDisable p w s
  | .mbCtrl v => Sys2Proof.Machine.execMbCtrl v s
  | .registerWrite p bar offset size v => Sys2Proof.Machine.execRegisterWrite p bar offset size v s
  | .commandAccept p w => Sys2Proof.Machine.execCommandAccept p w s
  | .run p w q img => Sys2Proof.Machine.execRun p w q img s
  | .runServe p w q img => Sys2Proof.Machine.execRunServe p w q img s
  | .servePassStart p w => Sys2Proof.Machine.execServePassStart p w s
  | .servePassEnd p w => Sys2Proof.Machine.execServePassEnd p w s
  | .move p w q => Sys2Proof.Machine.execMove p w q s
  | .markSet p w q => Sys2Proof.Machine.execMarkSet p w q s
  | .markWait p w q => Sys2Proof.Machine.execMarkWait p w q s
  | .markWaitTimeout p w q => Sys2Proof.Machine.execMarkWaitTimeout p w q s
  | .stepOpen p w q => Sys2Proof.Machine.execStepOpen p w q s
  | .stepSeal p w q => Sys2Proof.Machine.execStepSeal p w q s
  | .sweep p w q => Sys2Proof.Machine.execSweep p w q s
  | .stepCommit p w q => Sys2Proof.Machine.execStepCommit p w q s
  | .stepDiscard p w q => Sys2Proof.Machine.execStepDiscard p w q s
  | .exchange p w q => Sys2Proof.Machine.execExchange p w q s
  | .tierPromote p w q => Sys2Proof.Machine.execTierPromote p w q s
  | .tierDemote p w q => Sys2Proof.Machine.execTierDemote p w q s
  | .tierPin p w q => Sys2Proof.Machine.execTierPin p w q s
  | .tierUnpin p w q => Sys2Proof.Machine.execTierUnpin p w q s
  | .exportState p w q => Sys2Proof.Machine.execExportState p w q s
  | .importObject p w q => Sys2Proof.Machine.execImportObject p w q s
  | .importRepair p w q => Sys2Proof.Machine.execImportRepair p w q s
  | .importShard p w q => Sys2Proof.Machine.execImportShard p w q s
  | .requestOpen p w q => Sys2Proof.Machine.execRequestOpen p w q s
  | .requestFeed p w q => Sys2Proof.Machine.execRequestFeed p w q s
  | .requestClose p w q => Sys2Proof.Machine.execRequestClose p w q s
  | .fenceWait p w q => Sys2Proof.Machine.execFenceWait p w q s
  | .fenceStop p w q => Sys2Proof.Machine.execFenceStop p w q s
  | .leaseExpiry p => Sys2Proof.Machine.execLeaseExpiry p s
  | .partitionPark p => Sys2Proof.Machine.execPartitionPark p s
  | .orphanHoldExpiry p => Sys2Proof.Machine.execOrphanHoldExpiry p s
  | .functionLevelReset p => Sys2Proof.Machine.execFunctionLevelReset p s
  | .protectionWindowExpiry => Sys2Proof.Machine.execProtectionWindowExpiry s
  | .protectionLockoutExpiry => Sys2Proof.Machine.execProtectionLockoutExpiry s
  | .watchdogExpiry proc hung => Sys2Proof.Machine.execWatchdogExpiry proc hung s
  | .protectionBreach proc comp => Sys2Proof.Machine.execProtectionBreach proc comp s
  | .processorRestartComplete proc => Sys2Proof.Machine.execProcessorRestartComplete proc s
  | .supervisorFailover => Sys2Proof.Machine.execSupervisorFailover s
  | .journalCopyRebuild => Sys2Proof.Machine.execJournalCopyRebuild s
  | .channelLoss stack ch => Sys2Proof.Machine.execChannelLoss stack ch s
  | .stackLoss stack => Sys2Proof.Machine.execStackLoss stack s
  | .hallLoss hall => Sys2Proof.Machine.execHallLoss hall s
  | .replicaRecoveryComplete p frames => Sys2Proof.Machine.execReplicaRecoveryComplete p frames s
  | .powerFail flushed => Sys2Proof.Machine.execPowerFail flushed s
  | .fatalError cause proc => Sys2Proof.Machine.execFatalError cause proc s
  | .dtlsHandshake sess chains => Sys2Proof.Machine.execDtlsHandshake sess chains s
  | .sessionHeartbeatTimeout sess => Sys2Proof.Machine.execSessionHeartbeatTimeout sess s
  | .ndoitRead sess frame => Sys2Proof.Machine.execNdoitRead sess frame s
  | .ndoitWrite sess frame => Sys2Proof.Machine.execNdoitWrite sess frame s
  | .readBlock sess frame => Sys2Proof.Machine.execReadBlock sess frame s
  | .writeBlock sess frame => Sys2Proof.Machine.execWriteBlock sess frame s
  | .blockSnapshotExpiry sess => Sys2Proof.Machine.execBlockSnapshotExpiry sess s
  | .changesetOpen sess frame => Sys2Proof.Machine.execChangesetOpen sess frame s
  | .changesetAdd sess frame => Sys2Proof.Machine.execChangesetAdd sess frame s
  | .changesetCommit sess frame => Sys2Proof.Machine.execChangesetCommit sess frame s
  | .changesetAbort sess frame => Sys2Proof.Machine.execChangesetAbort sess frame s
  | .changesetDecision csid => Sys2Proof.Machine.execChangesetDecision csid s
  | .changesetTimeout csid => Sys2Proof.Machine.execChangesetTimeout csid s
  | .subscribe sess frame => Sys2Proof.Machine.execSubscribe sess frame s
  | .heartbeat sess frame => Sys2Proof.Machine.execHeartbeat sess frame s
  | .subscriberHeartbeatTick sess => Sys2Proof.Machine.execSubscriberHeartbeatTick sess s
  | .servicePortConnect request package => Sys2Proof.Machine.execServicePortConnect request package s
  | .servicePortDataTimeout => Sys2Proof.Machine.execServicePortDataTimeout s
  | .packageStagingComplete written => Sys2Proof.Machine.execPackageStagingComplete written s
  | .fwActivate sess version => Sys2Proof.Machine.execFwActivate sess version s
  | .handoverProcessor ok pauseMicros => Sys2Proof.Machine.execHandoverProcessor ok pauseMicros s
  | .activateRestart pauseMicros => Sys2Proof.Machine.execActivateRestart pauseMicros s
  | .updateAbandon => Sys2Proof.Machine.execUpdateAbandon s
  | .confirmTimeout => Sys2Proof.Machine.execConfirmTimeout s
  | .fwConfirm => Sys2Proof.Machine.execFwConfirm s
  | .fwRollback => Sys2Proof.Machine.execFwRollback s
  | .dumpRelease => Sys2Proof.Machine.execDumpRelease s
  | .inputVoltageLow millivolts => Sys2Proof.Machine.execInputVoltageLow millivolts s
  | .inputVoltageHigh millivolts => Sys2Proof.Machine.execInputVoltageHigh millivolts s
  | .inputOvervoltage millivolts => Sys2Proof.Machine.execInputOvervoltage millivolts s
  | .domainFault d => Sys2Proof.Machine.execDomainFault d s
  | .domainRetry d regulates => Sys2Proof.Machine.execDomainRetry d regulates s
  | .domainRestored d => Sys2Proof.Machine.execDomainRestored d s
  | .clockRaiseStep hall gallery mhz => Sys2Proof.Machine.execClockRaiseStep hall gallery mhz s
  | .powerCapTick r => Sys2Proof.Machine.execPowerCapTick r s
  | .fallbackGovernorTick inputWatts junctions => Sys2Proof.Machine.execFallbackGovernorTick inputWatts junctions s
  | .thermalSample r => Sys2Proof.Machine.execThermalSample r s
  | .thermalTrip sensor => Sys2Proof.Machine.execThermalTrip sensor s
  | .holdupCheck bytes => Sys2Proof.Machine.execHoldupCheck bytes s
  | .powerSleepEnter => Sys2Proof.Machine.execPowerSleepEnter s
  | .sleepIdleTimeout => Sys2Proof.Machine.execSleepIdleTimeout s
  | .sleepWaitTimeout => Sys2Proof.Machine.execSleepWaitTimeout s
  | .wake trigger => Sys2Proof.Machine.execWake trigger s
  | .wakeComplete => Sys2Proof.Machine.execWakeComplete s
  | .coldStart r => Sys2Proof.Machine.execColdStart r s
  | .perstN low => Sys2Proof.Machine.execPerstN low s
  | .deviceWarmReset => Sys2Proof.Machine.execDeviceWarmReset s
  | .modResetN => Sys2Proof.Machine.execModResetN s
  | .warmResetComplete lostHalls => Sys2Proof.Machine.execWarmResetComplete lostHalls s
  | .extest => Sys2Proof.Machine.execExtest s
  | .idcode => Sys2Proof.Machine.execIdcode s
  | .samplePreload => Sys2Proof.Machine.execSamplePreload s
  | .extestPulse => Sys2Proof.Machine.execExtestPulse s
  | .extestTrain => Sys2Proof.Machine.execExtestTrain s
  | .clamp => Sys2Proof.Machine.execClamp s
  | .highz => Sys2Proof.Machine.execHighz s
  | .bypass code => Sys2Proof.Machine.execBypass code s
  | .sarolberPrivate code => Sys2Proof.Machine.execSarolberPrivate code s
  | .tapTestLogicReset => Sys2Proof.Machine.execTapTestLogicReset s
  | .lakeTestStart => Sys2Proof.Machine.execLakeTestStart s
  | .lakeTestStackDone r => Sys2Proof.Machine.execLakeTestStackDone r s
  | .linkTestStart port => Sys2Proof.Machine.execLinkTestStart port s
  | .linkTestEnd port bits errors => Sys2Proof.Machine.execLinkTestEnd port bits errors s
  | .portEnable port => Sys2Proof.Machine.execPortEnable port s
  | .portDisable port => Sys2Proof.Machine.execPortDisable port s
  | .sleepEntered => Sys2Proof.Machine.execSleepEntered s
  | .moduleRunning => Sys2Proof.Machine.execModuleRunning s
  | .modResetNRelease => Sys2Proof.Machine.execModResetNRelease s
  | .journalTailMirrored bytes => Sys2Proof.Machine.execJournalTailMirrored bytes s
  | .processorMemoryUncorrectable proc => Sys2Proof.Machine.execProcessorMemoryUncorrectable proc s
  | .lakeTestHoldTimeout => Sys2Proof.Machine.execLakeTestHoldTimeout s
  | .debugUnlocked => Sys2Proof.Machine.execDebugUnlocked s
  | .inputVoltageInRange millivolts => Sys2Proof.Machine.execInputVoltageInRange millivolts s

end Sys2Proof.Machine
end

