-- ==== Sys2Proof/Safety.lean ====
section
/-! DEFINITION. What counts as a safe run, and the invariants of the module that claims are stated with. -/

namespace Sys2Proof

/-- The run of k steps from s answers a next state. -/
def RunsSafely (k : Nat) (s : Machine.State) : Prop := ∃ t, Host.Core.run core k s = .next t

namespace Machine

/-- The lake's memory is in its canonical form. -/
def MemOk (s : State) : Prop := Memory.wf s.lake.mem = true

/-- R390: the event log holds the most recent 65,536 records, or all there have been, with consecutive sequence numbers that end
at the newest record. -/
def LogOk (s : State) : Prop :=
  s.log.length = Min.min s.nextEvent 65536 ∧
  s.log.map (fun e => e.seq) = List.range' (s.nextEvent - s.log.length) s.log.length

/-- What no command may do to a state: change what waits in the queue, the part or the module's life; break the lake's canonical
form or the log; take back an event number, Prot.Sequence or the security floor. -/
structure Keeps (s t : State) : Prop where
  pending : t.pending = s.pending
  part : t.part = s.part
  now : t.now = s.now
  mem : MemOk s → MemOk t
  log : LogOk s → LogOk t
  events : s.nextEvent ≤ t.nextEvent
  protSeq : s.mgmt.protSeq ≤ t.mgmt.protSeq
  floor : s.update.floor ≤ t.update.floor

end Machine

end Sys2Proof
end

