-- ==== Sys2Proof/Certificates/Slice0/Obligations.lean ====
section
/-! DEFINITION. The statements for the provers, and the words they are written in. -/

namespace Sys2Proof.Claims

open Sys2Proof.Machine

/-- A thread's instruction: core, thread, word. -/
abbrev ThreadInstr := Nat → Nat → U32 → Instr

/-- Thread t of core c issues w (R81, R82, R110), whose guard is true (R86) and which is of the row. -/
def Runs (row : U32 → Bool) (s : State) (c t : Nat) (w : U32) : Prop :=
  issuesWord s c t w = true ∧ guardTrue ((s.core c).thread t) w = true ∧ row w = true

/-- Thread t of core c was the last to issue, and its registers are as f says; nothing else of the state has changed. -/
def threadDoes (s : State) (c t : Nat) (f : Thread → Thread) : State :=
  (s.onCore c fun k => { k with lastIssued := t }).onThread c t f

/-- The same, and the thread goes on to its next word (R94). -/
def goesOn (s : State) (c t : Nat) (f : Thread → Thread) : State := threadDoes s c t fun h => (f h).advance

end Sys2Proof.Claims

namespace Sys2Proof.Claims

open Sys2Proof.Machine

/-- A signed 64-bit value. -/
def signed (a : U64) : Int := if a.toNat < 2 ^ 63 then a.toNat else (a.toNat : Int) - 2 ^ 64

/-- An FP32 function of the low words of two registers, zero-extended (R93). -/
def fp (f : Val → Val → Val) (a b : U64) : U64 := ((f32Op f (a.setWidth 32) (b.setWidth 32)).setWidth 64 : U64)

/-- The functions of format R (R93): instruction, FN and result. -/
def registerForms : List (ThreadInstr × Nat × (U64 → U64 → U64)) :=
  [(.aluAdd, 0x00, fun a b => BitVec.ofNat 64 (a.toNat + b.toNat)),
   (.aluSub, 0x01, fun a b => BitVec.ofNat 64 (2 ^ 64 + a.toNat - b.toNat)),
   (.aluAnd, 0x02, fun a b => a &&& b), (.aluOr, 0x03, fun a b => a ||| b), (.aluXor, 0x04, fun a b => a ^^^ b),
   (.aluShl, 0x05, fun a b => a <<< (b.toNat % 64)), (.aluShr, 0x06, fun a b => a >>> (b.toNat % 64)),
   (.aluSra, 0x07, fun a b => a.sshiftRight (b.toNat % 64)),
   (.aluMul, 0x08, fun a b => BitVec.ofNat 64 (a.toNat * b.toNat)),
   (.aluMulhu, 0x09, fun a b => BitVec.ofNat 64 (a.toNat * b.toNat / 2 ^ 64)),
   (.aluDivu, 0x0A, fun a b => BitVec.ofNat 64 (a.toNat / b.toNat)),
   (.aluRemu, 0x0B, fun a b => BitVec.ofNat 64 (a.toNat % b.toNat)),
   (.aluMin, 0x0C, fun a b => if signed a < signed b then a else b),
   (.aluMax, 0x0D, fun a b => if signed a < signed b then b else a)] ++
  [(.aluFadd, 0x10, fp fAdd), (.aluFsub, 0x11, fp fSub), (.aluFmul, 0x12, fp fMul), (.aluFdiv, 0x13, fp fDiv),
   (.aluFmin, 0x14, fp Val.min), (.aluFmax, 0x15, fp Val.max)]

/-- The immediate forms (R91): instruction, OPC and result from the register and the sign-extended immediate. -/
def immediateForms : List (ThreadInstr × Nat × (U64 → U64 → U64)) :=
  [(.addi, 0x01, fun a b => BitVec.ofNat 64 (a.toNat + b.toNat)), (.andi, 0x02, fun a b => a &&& b),
   (.ori, 0x03, fun a b => a ||| b), (.xori, 0x04, fun a b => a ^^^ b), (.shli, 0x05, fun a b => a <<< (b.toNat % 64)),
   (.shri, 0x06, fun a b => a >>> (b.toNat % 64)), (.srai, 0x07, fun a b => a.sshiftRight (b.toNat % 64))]

/-- The integer comparisons (R93): instruction, FN and predicate. -/
def integerCompares : List (ThreadInstr × Nat × (U64 → U64 → Bool)) :=
  [(.cmpEq, 0x00, fun a b => a.toNat == b.toNat), (.cmpNe, 0x01, fun a b => a.toNat != b.toNat),
   (.cmpLt, 0x02, fun a b => decide (signed a < signed b)), (.cmpLtu, 0x03, fun a b => decide (a.toNat < b.toNat)),
   (.cmpGe, 0x04, fun a b => decide (signed b ≤ signed a)), (.cmpGeu, 0x05, fun a b => decide (b.toNat ≤ a.toNat))]

/-- The FP32 comparisons (R50, R93), on the low words: a pair with a NaN makes FNE true and every other false. -/
def floatCompares : List (ThreadInstr × Nat × (Val → Val → Bool)) :=
  [(.cmpFeq, 0x10, Val.eq), (.cmpFne, 0x11, fun a b => !Val.eq a b), (.cmpFlt, 0x12, Val.lt), (.cmpFle, 0x13, Val.le),
   (.cmpFgt, 0x14, fun a b => Val.lt b a), (.cmpFge, 0x15, fun a b => Val.le b a)]

end Sys2Proof.Claims

open Sys2Proof Sys2Proof.Machine Sys2Proof.Claims in
/-- R93, R84, R86. Every function of ALU completes: sD takes the function of sA and sB, the thread goes on to its next word, and nothing
else changes. A quotient by 0 is 0 and a remainder by 0 the dividend (Lean's Nat division says the same). -/
def Obligations.RegisterFormResults : Prop :=
  ∀ row ∈ registerForms, ∀ (c t : Nat) (w : U32) (s : State), Runs (fun w => wOpc w = 0 ∧ wFn w = row.2.1) s c t w →
    exec (row.1 c t w) s =
      .next (goesOn s c t fun h => h.setReg (wSd w) (row.2.2 (h.reg (wSa w)) (h.reg (wSb w))))

open Sys2Proof Sys2Proof.Machine Sys2Proof.Claims in
/-- R50, R93, R190. Every comparison whose reserved bits are 0 completes: pD takes the predicate of sA and sB; an FP32 comparison with a
NaN operand also counts once in the core's unordered-comparison counter, which stops at 0xFFFF_FFFF. -/
def Obligations.CompareResults : Prop :=
  (∀ row ∈ integerCompares, ∀ (c t : Nat) (w : U32) (s : State), Runs (fun w => wOpc w = 0x0C ∧ wFn w = row.2.1) s c t w →
    wbits w 21 20 = 0 →
    exec (row.1 c t w) s =
      .next (goesOn s c t fun h => h.setPred (wbits w 19 17) (row.2.2 (h.reg (wSa w)) (h.reg (wSb w))))) ∧
  ∀ row ∈ floatCompares, ∀ (c t : Nat) (w : U32) (s : State), Runs (fun w => wOpc w = 0x0C ∧ wFn w = row.2.1) s c t w →
    wbits w 21 20 = 0 →
    let h := (s.core c).thread t
    let a := ofF32 ((h.reg (wSa w)).setWidth 32)
    let b := ofF32 ((h.reg (wSb w)).setWidth 32)
    exec (row.1 c t w) s =
      .next (((s.onCore c fun k => { k with lastIssued := t }).onCore c fun k =>
        { k with unordered := min (k.unordered + if a = .nan ∨ b = .nan then 1 else 0) 0xFFFFFFFF }).onThread c t
          fun h => (h.setPred (wbits w 19 17) (row.2.2 a b)).advance)

namespace Sys2Proof.Claims

open Sys2Proof.Machine

/-- Every instruction that carries a guard, with its OPC, and its FN where OPC alone does not name it: all but MMA and EPI (R86, R91, R93). -/
def guarded : List (ThreadInstr × Nat × Option Nat) :=
  [(.aluAdd, 0, some 0x00), (.aluSub, 0, some 0x01), (.aluAnd, 0, some 0x02), (.aluOr, 0, some 0x03), (.aluXor, 0, some 0x04),
   (.aluShl, 0, some 0x05), (.aluShr, 0, some 0x06), (.aluSra, 0, some 0x07), (.aluMul, 0, some 0x08), (.aluMulhu, 0, some 0x09),
   (.aluDivu, 0, some 0x0A), (.aluRemu, 0, some 0x0B), (.aluMin, 0, some 0x0C), (.aluMax, 0, some 0x0D), (.aluFadd, 0, some 0x10),
   (.aluFsub, 0, some 0x11), (.aluFmul, 0, some 0x12), (.aluFdiv, 0, some 0x13), (.aluFmin, 0, some 0x14), (.aluFmax, 0, some 0x15)] ++
  [(.addi, 0x01, none), (.andi, 0x02, none), (.ori, 0x03, none), (.xori, 0x04, none), (.shli, 0x05, none), (.shri, 0x06, none),
   (.srai, 0x07, none), (.lis, 0x08, none), (.ld, 0x09, none), (.st, 0x0A, none)] ++
  [(.cmpEq, 0x0C, some 0x00), (.cmpNe, 0x0C, some 0x01), (.cmpLt, 0x0C, some 0x02), (.cmpLtu, 0x0C, some 0x03), (.cmpGe, 0x0C, some 0x04),
   (.cmpGeu, 0x0C, some 0x05), (.cmpFeq, 0x0C, some 0x10), (.cmpFne, 0x0C, some 0x11), (.cmpFlt, 0x0C, some 0x12),
   (.cmpFle, 0x0C, some 0x13), (.cmpFgt, 0x0C, some 0x14), (.cmpFge, 0x0C, some 0x15)] ++
  [(.br, 0x10, none), (.jr, 0x11, none), (.loop, 0x12, none), (.endThread, 0x14, some 0x00), (.halt, 0x14, some 0x01),
   (.bar, 0x14, some 0x02), (.waitq, 0x14, some 0x03), (.csrr, 0x14, some 0x04), (.ttag, 0x14, some 0x05), (.tld, 0x18, none),
   (.tst, 0x19, none), (.vop, 0x1A, none), (.vdesc, 0x1B, none), (.spr, 0x1C, none), (.mwait, 0x1D, none)]

end Sys2Proof.Claims

open Sys2Proof Sys2Proof.Machine Sys2Proof.Claims in
/-- R86. An instruction that carries a guard, whose guard is false, issues (its thread was the last to issue and goes on to its next
word), and has no other effect: it raises no halt, whatever its reserved bits and operands are. The guard is predicate PG, inverted by PN;
PG 0 with PN 0 is always true, and MMA and EPI run whatever their bits there. -/
def Obligations.FalseGuardsHaveNoEffect : Prop :=
  (∀ row ∈ guarded, ∀ (c t : Nat) (w : U32) (s : State), issuesWord s c t w = true →
    ((s.core c).thread t).pred (wPg w) = wPn w → wOpc w = row.2.1 → (∀ fn, row.2.2 = some fn → wFn w = fn) →
    exec (row.1 c t w) s = .next (goesOn s c t id)) ∧
  ∀ (h : Thread) (w : U32), guardTrue h w = true ↔
    h.pred (wPg w) ≠ wPn w ∨ wOpc w = 0x20 ∨ wOpc w = 0x21

namespace Sys2Proof.Claims

open Sys2Proof.Machine

/-- The pond address of LD and ST: sA + 8 x the sign-extended immediate, modulo 2^64. -/
def scalarAddr (h : Thread) (w : U32) : Nat := (h.reg (wSa w) + (w.extractLsb' 0 12).signExtend 64 * 8).toNat

/-- One byte of a core's pond. -/
def pondByte (s : State) (c a : Nat) : Byte := (s.core c).pond.byte a

/-- Nothing that is queued holds the registers (R60, R97) or the pond bytes (R90) that a word of thread t reads or writes. -/
def Unlocked (s : State) (c t : Nat) (w : U32) : Prop :=
  (s.core c).locked (wordRegs (s.core c) w).1 (wordRegs (s.core c) w).2 = false ∧ (s.core c).pondBusy t w = false

/-- The issue, by which its thread was the last of its core (R82). -/
def issued (s : State) (c t : Nat) : State := s.onCore c fun k => { k with lastIssued := t }

end Sys2Proof.Claims

open Sys2Proof Sys2Proof.Machine Sys2Proof.Claims in
/-- R91. Every immediate form completes: sD takes the function of sA and the sign-extended 12-bit immediate. R91. LIS with bit [16] clear
completes: sD = (sD << 16) | IMM16. -/
def Obligations.ImmediateFormsAndLisResults : Prop :=
  (
  ∀ row ∈ immediateForms, ∀ (c t : Nat) (w : U32) (s : State), Runs (fun w => wOpc w = row.2.1) s c t w →
    exec (row.1 c t w) s =
      .next (goesOn s c t fun h =>
        h.setReg (wSd w) (row.2.2 (h.reg (wSa w)) ((w.extractLsb' 0 12).signExtend 64)))) ∧
  (
  ∀ (c t : Nat) (w : U32) (s : State), Runs (fun w => wOpc w = 0x08) s c t w → w.getLsbD 16 = false →
    exec (.lis c t w) s = .next (goesOn s c t fun h =>
      h.setReg (wSd w) (BitVec.ofNat 64 ((h.reg (wSd w)).toNat * 2 ^ 16 + w.toNat % 2 ^ 16))))

open Sys2Proof Sys2Proof.Machine Sys2Proof.Claims in
/-- R83, R88, R117, R118. A load of an aligned address in the pond with no uncorrectable word, whose bytes no queued write still has to
reach, completes: a single-bit error is corrected and counted, and its thread waits with the eight bytes, little-endian; POND_LOAD_RESULT
puts them into the register and makes the thread READY. Outside the pond the load halts with POND_RANGE, misaligned with ALIGN, on an
uncorrectable word with POND_ECC, each with the address as its detail. R88, R117. A store to an aligned address in the pond, whose bytes no
queued access still has to reach, completes: the eight bytes at the address are the register's, little-endian, every other byte of the pond
and every other core is as before, and of the rest of the core only the thread's progress changes. Outside the pond it halts with
POND_RANGE, misaligned with ALIGN. R90. Where an earlier access of an engine to those bytes has not been made, either waits with its
word. -/
def Obligations.LoadsAndStoresReachThePond : Prop :=
  (
  (∀ (c t : Nat) (w : U32) (s : State), Runs (fun w => wOpc w = 0x09) s c t w →
    let k := s.core c
    let a := scalarAddr (k.thread t) w
    let stops (code : Nat) := exec (.ld c t w) s = .next ((issued s c t).halt c t (k.thread t).pc w code a)
    (¬Unlocked s c t w → exec (.ld c t w) s = .next (threadDoes s c t fun h => { h with st := .waiting (.tileLock w) })) ∧
    (Unlocked s c t w →
    (a + 8 ≤ 393216 → a % 8 = 0 → k.pondBadAt a 8 = false →
      exec (.ld c t w) s = .next (((issued s c t).correctPond c a 8).onThread c t fun h =>
        { h.advance with st := .waiting (.load (wSd w) (BitVec.ofNat 64 (leNat (k.pond.bytes a 8)))) })) ∧
    (393216 < a + 8 → stops 0x03) ∧
    (a + 8 ≤ 393216 → a % 8 ≠ 0 → stops 0x04) ∧
    (a + 8 ≤ 393216 → a % 8 = 0 → k.pondBadAt a 8 = true → stops 0x09))) ∧
  ∀ (c t : Nat) (s : State) (sd : Nat) (v : U64), ((s.core c).thread t).st = .waiting (.load sd v) →
    exec (.pondLoadResult c t) s = .next (s.onThread c t fun h => { h.setReg sd v with st := .ready })) ∧
  (
  ∀ (c t : Nat) (w : U32) (s : State), Runs (fun w => wOpc w = 0x0A) s c t w →
    let k := s.core c
    let h := k.thread t
    let a := scalarAddr h w
    let stops (code : Nat) := exec (.st c t w) s = .next ((issued s c t).halt c t h.pc w code a)
    (¬Unlocked s c t w → exec (.st c t w) s = .next (threadDoes s c t fun h => { h with st := .waiting (.tileLock w) })) ∧
    (Unlocked s c t w →
    (a + 8 ≤ 393216 → a % 8 = 0 → ∃ u, exec (.st c t w) s = .next u ∧
      (∀ i < 8, pondByte u c (a + i) = (h.reg (wSd w)).extractLsb' (8 * i) 8) ∧
      (∀ b, (b < a ∨ a + 8 ≤ b) → pondByte u c b = pondByte s c b) ∧
      (u.core c).thread t = h.advance ∧
      (∀ r, ((u.core c).thread t).reg r = h.reg r) ∧ ((u.core c).thread t).preds = h.preds ∧
      (∀ v ≠ t, (u.core c).thread v = k.thread v) ∧
      (u.core c).tiles = k.tiles ∧ (u.core c).accs = k.accs ∧ (u.core c).springs = k.springs ∧
      (u.core c).matQ = k.matQ ∧ (u.core c).vecQ = k.vecQ ∧ (u.core c).tileQ = k.tileQ ∧
      (∀ d ≠ c, u.core d = s.core d) ∧ { u with cores := s.cores } = s) ∧
    (393216 < a + 8 → stops 0x03) ∧ (a + 8 ≤ 393216 → a % 8 ≠ 0 → stops 0x04)))

namespace Sys2Proof.Claims

open Sys2Proof.Machine

/-- The issue halts its thread with a code and a detail (R109), at the word's place. -/
def haltsWith (s : State) (c t : Nat) (w : U32) (code detail : Nat) : State :=
  (s.onCore c fun k => { k with lastIssued := t }).halt c t ((s.core c).thread t).pc w code detail

/-- The special registers of a core in segment g but CYCLE (R87): number and value. -/
def specialValue (g : Segment) (c t : Nat) (h : Thread) (n : Nat) : U64 :=
  match n with
  | 0 => BitVec.ofNat 64 t
  | 1 => BitVec.ofNat 64 c
  | 2 => BitVec.ofNat 64 g.p
  | 4 => g.seed
  | 5 => g.stepKey
  | 6 => BitVec.ofNat 64 g.variantNo
  | 7 => BitVec.ofNat 64 g.batch
  | 8 => BitVec.ofNat 64 (h.loopIndex 0)
  | 9 => BitVec.ofNat 64 (h.loopIndex 1)
  | 10 => BitVec.ofNat 64 (h.loopIndex 2)
  | 11 => BitVec.ofNat 64 (h.loopIndex 3)
  | _ => 0

end Sys2Proof.Claims

open Sys2Proof Sys2Proof.Machine Sys2Proof.Claims in
/-- R83, R94, R111. BR to PC + OFF and JR to sA: a target among the segment's words is taken, and the thread waits in the branch's shadow,
which BRANCH_SHADOW_END ends; any other target halts with PC_RANGE. -/
def Obligations.BranchesJumpInsideTheSegment : Prop :=
  (∀ (c t : Nat) (w : U32) (s : State) (n : Int),
    let h := (s.core c).thread t
    let lands (i : Instr) :=
      (0 ≤ n → n < (s.core c).nwords →
        exec i s = .next (threadDoes s c t fun h => { h.jump n.toNat with st := .waiting .branchShadow })) ∧
      ((n < 0 ∨ (s.core c).nwords ≤ n) → exec i s = .next (haltsWith s c t w 0x05 0))
    (Runs (fun w => wOpc w = 0x10) s c t w → n = h.pc + ((w.extractLsb' 0 22).toInt : Int) → lands (.br c t w)) ∧
    (Runs (fun w => wOpc w = 0x11) s c t w → n = ((h.reg (wSa w)).toNat : Int) → lands (.jr c t w))) ∧
  ∀ (c t : Nat) (s : State), ((s.core c).thread t).st = .waiting .branchShadow →
    exec (.branchShadowEnd c t) s = .next (s.onThread c t fun h => { h with st := .ready })

open Sys2Proof Sys2Proof.Machine Sys2Proof.Claims in
/-- R94, R109. LOOP with a body of LEN words that fits its enclosing body, at most four deep: an iteration count of 0 goes on behind the
body, any other opens a level that repeats it. LEN 0, a fifth level and a body that ends beyond its enclosing body halt with LOOP. R94.
Behind the last word of the innermost loop body a thread goes back to its first word while iterations are left, with the index one higher;
with none left it goes on as the levels around it say; anywhere else it goes on where it is. -/
def Obligations.LoopsOpenAndRepeat : Prop :=
  (
  ∀ (c t : Nat) (w : U32) (s : State), Runs (fun w => wOpc w = 0x12) s c t w → wbits w 7 0 = 0 →
    let h := (s.core c).thread t
    let len := wbits w 16 8
    let n := (h.reg (wSd w)).toNat
    let fits := ∀ l, h.loops.getLast? = some l → h.pc + 1 + len ≤ l.first + l.len
    (0 < len → h.loops.length < 4 → fits → n = 0 →
      exec (.loop c t w) s = .next (threadDoes s c t fun h => h.goOn (h.pc + 1 + len))) ∧
    (0 < len → h.loops.length < 4 → fits → 0 < n →
      exec (.loop c t w) s = .next (threadDoes s c t fun h =>
        { h with pc := h.pc + 1, loops := h.loops ++ [{ first := h.pc + 1, len := len, left := n - 1, index := 0 }] })) ∧
    ((len = 0 ∨ 4 ≤ h.loops.length ∨ ¬fits) → exec (.loop c t w) s = .next (haltsWith s c t w 0x06 0))) ∧
  (
  ∀ (h : Thread) (outer : List Loop) (l : Loop) (n : Nat), h.loops = outer ++ [l] →
    (n = l.first + l.len → 0 < l.left →
      h.goOn n = { h with pc := l.first, loops := outer ++ [{ l with left := l.left - 1, index := l.index + 1 }] }) ∧
    (n = l.first + l.len → l.left = 0 → h.goOn n = ({ h with loops := outer } : Thread).goOn n) ∧
    (n ≠ l.first + l.len → h.goOn n = { h with pc := n }))

open Sys2Proof Sys2Proof.Machine Sys2Proof.Claims in
/-- R81, R89, R109, R91. END makes its thread IDLE; SYS HALT halts it with the code 0x80 + SB, a word that the ISA reserves with
ILLEGAL_OP, and a PC outside the segment's words with PC_RANGE and the word 0; BAR waits with the low eight bits of sA as its mask; WAITQ
goes on, and waits while an engine instruction of the thread is outstanding. R89. When every thread of a mask is IDLE, HALTED or waits in
a BAR with the same mask, BAR_RELEASE makes exactly the threads that wait in a BAR with the mask READY; WAITQ_RELEASE makes a thread in
WAITQ with nothing outstanding READY. -/
def Obligations.SystemWordsAndBarriers : Prop :=
  (
  ∀ (c t : Nat) (w : U32) (s : State),
    (Runs (fun w => wOpc w = 0x14 ∧ wFn w = 0x00) s c t w →
      exec (.endThread c t w) s = .next (threadDoes s c t fun h => { h with st := .idle })) ∧
    (Runs (fun w => wOpc w = 0x14 ∧ wFn w = 0x01) s c t w →
      exec (.halt c t w) s = .next (haltsWith s c t w (0x80 + wSb w) 0)) ∧
    (Runs (fun w => (wOpc w = 0x00 ∧ wFn w ∉ aluFns) ∨ (wOpc w = 0x0C ∧ wFn w ∉ cmpFns) ∨ (wOpc w = 0x14 ∧ 0x05 < wFn w)) s c t w →
      exec (.halt c t w) s = .next (haltsWith s c t w 0x01 0)) ∧
    (canIssue s c t = true → (s.core c).nwords ≤ ((s.core c).thread t).pc →
      exec (.halt c t w) s = .next (haltsWith s c t 0 0x05 0)) ∧
    (Runs (fun w => wOpc w = 0x14 ∧ wFn w = 0x02) s c t w →
      exec (.bar c t w) s = .next (threadDoes s c t fun h =>
        { h.advance with st := .waiting (.bar ((h.reg (wSa w)).setWidth 8)) })) ∧
    (Runs (fun w => wOpc w = 0x14 ∧ wFn w = 0x03) s c t w →
      exec (.waitq c t w) s = .next (threadDoes s c t fun h =>
        if h.outstanding = 0 then h.advance else { h.advance with st := .waiting .waitq }))) ∧
  (
  (∀ (c : Nat) (mask : Byte) (s : State),
    (∀ i < 8, mask.getLsbD i = true → ((s.core c).thread i).st ∈ [.idle, .halted, .waiting (.bar mask)]) →
    ∃ u, exec (.barRelease c mask) s = .next u ∧
      (∀ v, (u.core c).thread v = if ((s.core c).thread v).st = .waiting (.bar mask) then { (s.core c).thread v with st := .ready }
        else (s.core c).thread v) ∧
      { u with cores := s.cores } = s ∧ (∀ d ≠ c, u.core d = s.core d) ∧
      { u.core c with threads := (s.core c).threads } = s.core c) ∧
  ∀ (c t : Nat) (s : State), ((s.core c).thread t).st = .waiting .waitq → ((s.core c).thread t).outstanding = 0 →
    exec (.waitqRelease c t) s = .next (s.onThread c t fun h => { h with st := .ready }))

open Sys2Proof Sys2Proof.Machine Sys2Proof.Claims in
/-- R87. CSRR puts a special register of the core's segment into sD. CYCLE is what the core's gallery has counted since the segment started:
the whole microseconds' cycles at the clocks that were in force, and of the current microsecond, which the model's time does not divide, a
free count below the gallery's clock (log 6); it lies no lower than the core's last reading plus 1. -/
def Obligations.CsrrReadsSpecialRegisters : Prop :=
  ∀ (c t : Nat) (w : U32) (s : State) (g : Segment), Runs (fun w => wOpc w = 0x14 ∧ wFn w = 0x04) s c t w → s.segOf c = some g →
    (wSa w ≠ 3 → exec (.csrr c t w) s =
      .next (goesOn s c t fun h => h.setReg (wSd w) (specialValue g c t h (wSa w)))) ∧
    (wSa w = 3 → let v := BitVec.ofNat 64 (s.cycleOf c)
      exec (.csrr c t w) s =
        .next (((issued s c t).fresh.onCore c fun k => { k with lastCycle := v.toNat + 1 }).onThread c t fun h =>
          (h.setReg (wSd w) v).advance) ∧
      let n := s.coreCycles c - (s.core c).cycleBase
      (s.core c).lastCycle ≤ s.cycleOf c ∧ n ≤ s.cycleOf c ∧
      (0 < s.coreClock c → (s.core c).lastCycle < n + s.coreClock c → s.cycleOf c < n + s.coreClock c))

open Sys2Proof Sys2Proof.Machine Sys2Proof.Claims in
/-- R98, R133, R136, R109. MWAIT on a mark of the core's partition whose value has reached the target (as a 32-bit difference below 2^31)
goes on; else its thread waits, and MWAIT_RELEASE makes it READY once a value that the mark unit applied has reached the target, with the
wait counted where it was for a stage queue's mark (R263). A mark number above 65,535 halts with MARK_RANGE. -/
def Obligations.MwaitWaitsForItsMark : Prop :=
  (∀ (c t : Nat) (w : U32) (s : State) (p f q : Nat), Runs (fun w => wOpc w = 0x1D) s c t w → wbits w 9 0 = 0 →
    (s.core c).seg = some (p, f, q) →
    let h := (s.core c).thread t
    let m := (h.reg (wbits w 19 15)).toNat
    let target : U32 := (h.reg (wbits w 14 10)).setWidth 32
    (65535 < m → exec (.mwait c t w) s = .next (haltsWith s c t w 0x0A m)) ∧
    (m ≤ 65535 → (s.mark p m - target).toNat < 2 ^ 31 → exec (.mwait c t w) s = .next (goesOn s c t id)) ∧
    (m ≤ 65535 → 2 ^ 31 ≤ (s.mark p m - target).toNat → exec (.mwait c t w) s = .next (threadDoes s c t fun h =>
      { h.advance with st := .waiting (.mark m target s.now false) }))) ∧
  ∀ (c t : Nat) (s : State) (m : Nat) (v : U32) (at' : Nat), ((s.core c).thread t).st = .waiting (.mark m v at' true) →
    exec (.mwaitRelease c t) s = .next ((s.endMwait c t).onThread c t fun h => { h with st := .ready })

namespace Sys2Proof.Claims

open Sys2Proof.Machine

/-- The thread as its engine instruction leaves it: one more is outstanding, and it is at its next word. -/
def handedOver (h : Thread) : Thread := { h.advance with outstanding := h.outstanding + 1, st := .ready }

/-- An engine or a spring has accepted the word w of thread t of core c: of the core, only what `f` says has changed beside that thread. -/
def accepted (s : State) (c t : Nat) (f : Core → Core) : State :=
  (issued s c t).onCore c fun k => (f k).setThread t (handedOver (k.thread t))

/-- The same, with the note that the layer of the thread's word has been entered (R205). -/
def acceptedIn (s : State) (c t : Nat) (f : Core → Core) : State :=
  ((issued s c t).enterLayer c ((s.core c).thread t).pc).1.onCore c fun k => (f k).setThread t (handedOver (k.thread t))

end Sys2Proof.Claims

open Sys2Proof Sys2Proof.Machine Sys2Proof.Claims in
/-- R96, R60, R84, R109. TTAG with an SA of at most 29 and SD bit [4] clear gives tile register SD the TENSOR, BASE and STRIDE of sSA,
sSA+1 and sSA+2 and nothing else; SA above 29 halts with ILLEGAL_OP; a locked register holds the thread with its word. R84, R90, R96, R97,
R109. TLD and TST of a 64-byte-aligned frame in the pond, with no lock and no earlier access to wait for, go behind the others of the tile
engine, and their thread goes on; else they wait with their word, or halt with POND_RANGE or ALIGN. R96, R109, R117, R118. The tile engine
executes its oldest at TILE_LOCK_RELEASE (log 51): TLD of a frame whose CHECK is right loads the tile register: payload, sidecar and the
header's FMT, BLK and TENSOR, with BASE and STRIDE kept, and no pond byte changed. TST seals the frame at its address: payload, sidecar, FMT
and BLK of the register and a CHECK over them, every other header field as the pond held it, and no byte outside the 4,672 changed. A wrong
CHECK halts TLD with TILE_CHECK, an uncorrectable word with POND_ECC; either way the instruction has left the queue. -/
def Obligations.TensorTagsAndTileMoves : Prop :=
  (
  ∀ (c t : Nat) (w : U32) (s : State), Runs (fun w => wOpc w = 0x14 ∧ wFn w = 0x05) s c t w →
    (29 < wSa w → exec (.ttag c t w) s = .next (haltsWith s c t w 0x01 0)) ∧
    (wSa w ≤ 29 → wSd w < 16 → Unlocked s c t w → ∃ u, exec (.ttag c t w) s = .next u ∧
      (u.core c).tile (wSd w) = { (s.core c).tile (wSd w) with
        tensor := (((s.core c).thread t).reg (wSa w)).setWidth 32
        base := ((s.core c).thread t).reg (wSa w + 1)
        stride := ((s.core c).thread t).reg (wSa w + 2) } ∧
      (∀ r ≠ wSd w, (u.core c).tile r = (s.core c).tile r) ∧
      (u.core c).thread t = ((s.core c).thread t).advance ∧ (∀ v ≠ t, (u.core c).thread v = (s.core c).thread v) ∧
      (u.core c).pond = (s.core c).pond ∧ (u.core c).accs = (s.core c).accs ∧
      (∀ d ≠ c, u.core d = s.core d) ∧ { u with cores := s.cores } = s) ∧
    (wSa w ≤ 29 → wSd w < 16 → ¬Unlocked s c t w → exec (.ttag c t w) s =
      .next (threadDoes s c t fun h => { h with st := .waiting (.tileLock w) }))) ∧
  (
  ∀ i ∈ [(Instr.tld, 0x18), (Instr.tst, 0x19)], ∀ (c t : Nat) (w : U32) (s : State), Runs (fun w => wOpc w = i.2) s c t w →
    wbits w 12 0 = 0 →
    let h := (s.core c).thread t
    let a := (h.reg (wbits w 17 13)).toNat
    (¬Unlocked s c t w → exec (i.1 c t w) s = .next (threadDoes s c t fun h => { h with st := .waiting (.tileLock w) })) ∧
    (Unlocked s c t w →
      (a + 4672 ≤ 393216 → a % 64 = 0 → exec (i.1 c t w) s = .next (accepted s c t fun k =>
        { k with tileQ := k.tileQ ++ [{ thread := t, pc := h.pc, word := w, addr := a }] })) ∧
      (393216 < a + 4672 → exec (i.1 c t w) s = .next (haltsWith s c t w 0x03 a)) ∧
      (a + 4672 ≤ 393216 → a % 64 ≠ 0 → exec (i.1 c t w) s = .next (haltsWith s c t w 0x04 a)))) ∧
  (
  ∀ (c t : Nat) (s : State) (e : TileEntry) (rest : List TileEntry), c < 6144 → s.working = true → (s.core c).tileQ = e :: rest →
    let k := s.core c
    let a := e.addr
    let r := wbits e.word 21 18
    let u := tileExec c s
    let stops (code : Nat) := u = (s.onCore c fun k => { k.finish e.thread with tileQ := rest }).halt c e.thread e.pc e.word code a
    let leaves := (u.core c).tileQ = rest ∧ (u.core c).thread e.thread = { k.thread e.thread with
        outstanding := (k.thread e.thread).outstanding - 1 } ∧
      (∀ v ≠ e.thread, (u.core c).thread v = k.thread v) ∧ (u.core c).accs = k.accs ∧ (u.core c).matQ = k.matQ ∧
      (u.core c).vecQ = k.vecQ ∧ (u.core c).springs = k.springs ∧ (∀ d ≠ c, u.core d = s.core d) ∧
      (k.pondSingle = [] → { u with cores := s.cores } = s)
    exec (.tileLockRelease c t) s = .next (u.retryWord c t ((u.core c).thread t).lockWord) ∧
    (wOpc e.word = 0x18 → k.pondBadAt a 4672 = false → frameCheckOk (k.pond.bytes a 4672) = true →
      let f := k.pond.bytes a 4672
      (u.core c).tile r = { k.tile r with
        payload := Table.putBytes [] 0 (framePayload f), sidecar := Table.putBytes [] 0 (frameSidecar f)
        fmt := (frameHeader f).fmt, blk := (frameHeader f).blk, tensor := BitVec.ofNat 32 (frameHeader f).tensor } ∧
      (∀ q ≠ r, (u.core c).tile q = k.tile q) ∧ (u.core c).pond = k.pond ∧ leaves) ∧
    (wOpc e.word = 0x18 → k.pondBadAt a 4672 = false → frameCheckOk (k.pond.bytes a 4672) = false → stops 0x07) ∧
    (wOpc e.word = 0x18 → k.pondBadAt a 4672 = true → stops 0x09) ∧
    (wOpc e.word = 0x19 → k.pondBadAt a 64 = false →
      let x := k.tile r
      let f := frameSeal (frameRetag (k.pond.bytes a 64 ++ x.sidecar.bytes 0 512 ++ x.payload.bytes 0 4096) x.fmt x.blk)
      (u.core c).pond = k.pond.putBytes a f ∧ (∀ b, (b < a ∨ a + 4672 ≤ b) → pondByte u c b = pondByte s c b) ∧
      (u.core c).tiles = k.tiles ∧ leaves) ∧
    (wOpc e.word = 0x19 → k.pondBadAt a 64 = true → stops 0x09))

namespace Sys2Proof.Claims

open Sys2Proof.Machine

/-- 1 where a comparison holds, +0 where not (R102). -/
def oneIf (b : Bool) : Val := if b then .fin 1 else .zero false

/-- The floating-point operations of the vector engine (R102): instruction, VOP and what it does to an element of A, B and C. -/
def floatOps : List ((Nat → Instr) × Nat × (Val → Val → Val → Val)) :=
  [(.vecAdd, 0x00, fun a b _ => fAdd a b), (.vecSub, 0x01, fun a b _ => fSub a b), (.vecMul, 0x02, fun a b _ => fMul a b),
   (.vecFma, 0x03, fFma), (.vecDiv, 0x04, fun a b _ => fDiv a b), (.vecMax, 0x05, fun a b _ => Val.max a b),
   (.vecMin, 0x06, fun a b _ => Val.min a b), (.vecAbs, 0x07, fun a _ _ => a.abs), (.vecNeg, 0x08, fun a _ _ => a.neg),
   (.vecSqrt, 0x09, fun a _ _ => fSqrt a), (.vecRsqrt, 0x0A, fun a _ _ => fRsqrt a), (.vecRecip, 0x0B, fun a _ _ => fRecip a),
   (.vecExp, 0x0C, fun a _ _ => fExp a), (.vecExp2, 0x0D, fun a _ _ => fExp2 a), (.vecLog, 0x0E, fun a _ _ => fLog a),
   (.vecLog2, 0x0F, fun a _ _ => fLog2 a)] ++
  [(.vecTanh, 0x10, fun a _ _ => fTanh a), (.vecSigmoid, 0x11, fun a _ _ => fSigmoid a), (.vecSilu, 0x12, fun a _ _ => fSilu a),
   (.vecGeluTanh, 0x13, fun a _ _ => fGelu a), (.vecRelu, 0x14, fun a _ _ => fRelu a),
   (.vecCmpeq, 0x18, fun a b _ => oneIf (a.eq b)), (.vecCmpne, 0x19, fun a b _ => oneIf (!a.eq b)),
   (.vecCmplt, 0x1A, fun a b _ => oneIf (a.lt b)), (.vecCmple, 0x1B, fun a b _ => oneIf (a.le b)),
   (.vecCmpgt, 0x1C, fun a b _ => oneIf (b.lt a)), (.vecCmpge, 0x1D, fun a b _ => oneIf (b.le a)),
   (.vecSel, 0x1E, fun a b c => if c.isZero || c = .nan then b else a), (.vecCvt, 0x20, fun a _ _ => a)]

/-- The integer operations (R102). -/
def integerOps : List ((Nat → Instr) × Nat × (Int → Int → Int)) :=
  [(.vecIadd, 0x38, fun a b => a + b), (.vecIsub, 0x39, fun a b => a - b), (.vecImul, 0x3A, fun a b => a * b),
   (.vecImax, 0x3B, fun a b => max a b), (.vecImin, 0x3C, fun a b => min a b)]

/-- The operations of format D alone (R106, R107). -/
def descriptorOps : List ((Nat → Instr) × Nat) :=
  [(.vecRsum, 0x28), (.vecRmax, 0x29), (.vecRmin, 0x2A), (.vecAblk, 0x30), (.vecAblkFinal, 0x31)]

/-- Every vector execution with its VOP. -/
def vectorOps : List ((Nat → Instr) × Nat) :=
  floatOps.map (fun r => (r.1, r.2.1)) ++ integerOps.map (fun r => (r.1, r.2.1)) ++ descriptorOps

/-- The core once the vector instruction at the front of its queue has left it. -/
def dequeued (k : Core) (e : VecEntry) (rest : List VecEntry) : Core := { k.finish e.thread with vecQ := rest }

/-- What follows a vector write by core k, which has taken the instruction from its queue: the single-bit errors that its reads of the
pond met are corrected (R118), the tensor's tally (R188, R189), and the tile-overflow report (R199, R200). -/
def reported (s : State) (c : Nat) (k : Core) (e : VecEntry) (o : VecDone) : State :=
  let s := s.setCore c (addUnordered o.unordered o.core)
  let s := if isOp 0x1A e.word then s else s.correctPonds c (vdescUse k e.word e.addr).reads
  let s := match k.seg with
    | none => s
    | some (p, w, q) => s.tally p (e.layer.map fun i => (w, q, i)) o.tensor o.tally
  if o.flagged then (s.overflow c e.layer o.tensor false).1 else s

end Sys2Proof.Claims

open Sys2Proof Sys2Proof.Machine Sys2Proof.Claims in
/-- R99, R100, R102. Each of the 29 floating-point and 5 integer operations computes its element function (rounding as R99 says is part of
the FP32 functions). R99, R100. When an instruction of format V heads the vector queue, its execution completes: it leaves the queue, its
thread has one outstanding instruction less, tile register TD takes the operation's result with TA's FMT (a CVT's target format) and BLK
and keeps TENSOR, BASE and STRIDE, every other tile register, the pond, the accumulators and the matrix queue stay, and the write is
tallied and reported. R103 to R107, R109. When an instruction of format D heads the vector queue: where its descriptor and operands pass
every check, its execution completes with the destination frames (or array) in the pond, tallied and reported; a failing check halts the
issuing thread at its instruction with the code and the detail, and leaves everything else of the core as it was. -/
def Obligations.VectorInstructionsExecute : Prop :=
  (
  (∀ row ∈ floatOps, ∀ a b c : Val, vecElem row.2.1 a b c = row.2.2 a b c) ∧
  ∀ row ∈ integerOps, ∀ a b : Int, vecInt row.2.1 a b = row.2.2 a b) ∧
  (
  ∀ row ∈ vectorOps, row.2 < 0x28 ∨ 0x38 ≤ row.2 → ∀ (c : Nat) (s : State) (e : VecEntry) (rest : List VecEntry),
    (s.core c).vecQ = e :: rest → vVop e.word = row.2 → wOpc e.word = 0x1A →
    let k := s.core c
    let o := vopRun (dequeued k e rest) e (s.rsBase c)
    exec (row.1 c) s = .next (reported s c (dequeued k e rest) e o) ∧
      (o.core.tile (vTd e.word)).fmt = (if row.2 = 0x20 then vTb e.word else (k.tile (vTa e.word)).fmt) ∧
      (o.core.tile (vTd e.word)).blk = (k.tile (vTa e.word)).blk ∧
      (o.core.tile (vTd e.word)).tensor = (k.tile (vTd e.word)).tensor ∧
      (o.core.tile (vTd e.word)).base = (k.tile (vTd e.word)).base ∧
      (o.core.tile (vTd e.word)).stride = (k.tile (vTd e.word)).stride ∧
      (∀ r ≠ vTd e.word, o.core.tile r = k.tile r) ∧ o.core.vecQ = rest ∧
      (o.core.thread e.thread).outstanding = (k.thread e.thread).outstanding - 1 ∧
      (∀ t ≠ e.thread, o.core.thread t = k.thread t) ∧
      o.core.pond = k.pond ∧ o.core.accs = k.accs ∧ o.core.matQ = k.matQ ∧ o.core.springs = k.springs) ∧
  (
  ∀ row ∈ vectorOps, ∀ (c : Nat) (s : State) (e : VecEntry) (rest : List VecEntry),
    (s.core c).vecQ = e :: rest → vVop e.word = row.2 → wOpc e.word = 0x1B →
    let k := dequeued (s.core c) e rest
    let version := match k.seg with
      | none => 0
      | some (p, _, _) => (s.partn p).writeVersion
    (∀ o, vdescRun k e (s.rsBase c) version = .ok o → exec (row.1 c) s = .next (reported s c k e o)) ∧
    (∀ code detail, vdescRun k e (s.rsBase c) version = .error (code, detail) →
      exec (row.1 c) s = .next ((s.setCore c k).halt c e.thread e.pc e.word code detail)))

open Sys2Proof Sys2Proof.Machine Sys2Proof.Claims in
/-- R55, R56, R59, R61, R63, R64. MMA_EXECUTE takes the oldest MMA that no earlier EPI of its accumulator holds back: under CLR the
accumulator is emptied and takes the key, the products of the panels are added, a completed chunk is closed in the accumulator's mode; the
entry leaves the queue and its thread has one outstanding instruction less. Nothing else changes. R59, R69, R71, R72, R78. EPI_EXECUTE
takes the oldest EPI that no earlier MMA of its accumulator holds back. Where its parameter block passes the checks it closes an open
chunk, writes the destination registers one after another, and without KEEP empties the accumulator; the entry leaves the queue, and the
write is tallied and reported, the accumulator's overflow with the tensor of its key and the tile's with OUT_TENSOR. A failing check halts
its thread at the EPI, gives the accumulator back as its issue found it, and numbers the chunks of the instructions queued behind it as if
it had not been issued (log 13 for an accumulator taken since). -/
def Obligations.MatrixInstructionsExecute : Prop :=
  (
  ∀ (c : Nat) (s : State) (i : Nat) (e : MatEntry), (s.core c).matReady 0x20 = some (i, e) →
    let k := s.core c
    let p := pairingOf (k.tile (mmaTa e.word)).fmt (k.tile (mmaTb e.word)).fmt
    let sum := (k.acc (mmaAcc e.word)).addPanel e.key (panel k p (mmaTa e.word)) (panel k p (mmaTb e.word))
    ∃ u, exec (.mmaExecute c) s = .next u ∧
      (u.core c).acc (mmaAcc e.word) =
        (match e.close with
          | none => sum
          | some j => sum.closeChunk e.a16 j (s.rsBase c).1 (s.rsBase c).2) ∧
      (∀ a ≠ mmaAcc e.word, (u.core c).acc a = k.acc a) ∧ (u.core c).matQ = k.matQ.eraseIdx i ∧
      ((u.core c).thread e.thread).outstanding = (k.thread e.thread).outstanding - 1 ∧
      (∀ t ≠ e.thread, (u.core c).thread t = k.thread t) ∧ (u.core c).tiles = k.tiles ∧ (u.core c).pond = k.pond ∧
      (u.core c).vecQ = k.vecQ ∧ (∀ d ≠ c, u.core d = s.core d) ∧ { u with cores := s.cores } = s) ∧
  (
  ∀ (c : Nat) (s : State) (i : Nat) (e : MatEntry), (s.core c).matReady 0x21 = some (i, e) →
    let m := epiParams (leNat ((s.core c).pond.bytes e.addr 64))
    let k := { (s.core c).finish e.thread with matQ := (s.core c).matQ.eraseIdx i }
    (∀ code detail, epiBlockFault k e m = some (code, detail) →
      exec (.epiExecute c) s = .next ((s.setCore c (k.undoEpi e)).halt c e.thread e.pc e.word code detail)) ∧
    (epiBlockFault k e m = none →
      let a := match e.close with
        | none => k.acc (mmaAcc e.word)
        | some j => (k.acc (mmaAcc e.word)).closeChunk e.a16 j (s.rsBase c).1 (s.rsBase c).2
      let r := (List.range (epiRegs (epiFd e.word))).foldl (fun (st : Core × Tally) j =>
        ((epiStore st.1 e m (s.rsBase c) (epiRows k a e m) j).1,
         st.2.add (epiStore st.1 e m (s.rsBase c) (epiRows k a e m) j).2)) (k, {})
      let k' := r.1.setAcc (mmaAcc e.word) (if epiKeep e.word then a
        else { a with els := [], ovf := false, tensor := 0, base := 0, stride := 0 })
      let u := match k'.seg with
        | none => s.setCore c k'
        | some (p, w, q) => (s.setCore c k').tally p (e.layer.map fun i => (w, q, i)) m.outTensor r.2
      exec (.epiExecute c) s = .next (epiReports (u.correctPonds c (epiUse k' e.addr).reads) c e a.tensor m.outTensor a.ovf
        (r.2.ovfTiles ≠ 0))) ∧
    (∀ owner n pairing a16, e.prior = some (owner, n, pairing, a16) →
      let r := k.renumber (mmaAcc e.word) n k.matQ
      let x := (k.undoEpi e).acc (mmaAcc e.word)
      (k.undoEpi e).matQ = r.2 ∧
      (k.matQ.all (fun f => mmaAcc f.word ≠ mmaAcc e.word) = true → r = (some n, k.matQ)) ∧
      ∀ m, r.1 = some m → (k.acc (mmaAcc e.word)).owner = (if epiKeep e.word then owner else none) →
        x.owner = owner ∧ x.k = m ∧ x.pairing = pairing ∧ x.a16 = a16 ∧ x.els = (k.acc (mmaAcc e.word)).els))

open Sys2Proof Sys2Proof.Machine Sys2Proof.Claims in
/-- R54 to R59, R78. An MMA and an EPI with no fault, no locked register and room in the matrix queue are queued behind the others with
their thread, PC and word. The MMA makes its thread the accumulator's owner and raises its K counter by the panel's length, from J0 x 128
under CLR; the chunk that the counter completes is named by the entry. An EPI without KEEP releases the accumulator with a K counter of 0;
with KEEP it rounds the counter up to a multiple of 128. A full queue of four holds the thread with its word. R84, R100, R103, R121. A VOP
whose registers' tags fit, a VDESC whose descriptor is a 64-byte-aligned unit of the pond, and an SPR whose 128-byte descriptor is in the
pond and permitted go behind the others of their queue with what they read at issue; a full queue (4 vector instructions, 16 descriptors)
holds the thread with its word. R60, R84, R110. A thread that waits with a word for a full queue or a lock tries the word again, READY, at
ENGINE_QUEUE_ACCEPT and TILE_LOCK_RELEASE, while its segment is not stopping and the module works: with room in the queue and no lock the
instruction is handed over (shown for the two instructions of the matrix unit). -/
def Obligations.EnginesAcceptInstructions : Prop :=
  (
  ∀ (c t : Nat) (w : U32) (s : State), Unlocked s c t w →
    let k := s.core c
    let h := k.thread t
    let a := k.acc (mmaAcc w)
    let layer := (s.segOf c).bind fun g => s.layerAt g c h.pc
    (Runs (fun w => wOpc w = 0x20) s c t w → wbits w 8 0 = 0 →
      let p := pairingOf (k.tile (mmaTa w)).fmt (k.tile (mmaTb w)).fmt
      let n := (if mmaClr w then (h.reg (mmaSk w)).toNat * 128 else a.k) + panelK p
      (k.matQ.length < 4 → mmaFault k t w = none →
        ∃ e, exec (.mma c t w) s = .next (acceptedIn s c t fun k =>
            { k.setAcc (mmaAcc w) { a with owner := some t, a16 := mmaA16 w, pairing := p, k := n } with matQ := k.matQ ++ [e] }) ∧
          e.thread = t ∧ e.pc = h.pc ∧ e.word = w ∧ e.layer = layer ∧ e.a16 = mmaA16 w ∧
          e.close = if n % 128 = 0 then some ((n - 1) / 128) else none) ∧
      (4 ≤ k.matQ.length → exec (.mma c t w) s =
        .next (threadDoes s c t fun h => { h with st := .waiting (.queueFull .matrix w) }))) ∧
    (Runs (fun w => wOpc w = 0x21) s c t w → wbits w 4 0 = 0 →
      (k.matQ.length < 4 → epiFault k t w = none →
        ∃ e, exec (.epi c t w) s = .next (acceptedIn s c t fun k =>
            { k.setAcc (mmaAcc w) (if epiKeep w then { a with k := (a.k + 127) / 128 * 128 }
                else { a with owner := none, k := 0, pairing := 0, a16 := false }) with matQ := k.matQ ++ [e] }) ∧
          e.thread = t ∧ e.pc = h.pc ∧ e.word = w ∧ e.layer = layer ∧ e.addr = (h.reg (epiSp w)).toNat ∧
          e.close = (if a.k % 128 = 0 then none else some ((a.k - 1) / 128)) ∧
          e.prior = some (a.owner, a.k, a.pairing, a.a16)) ∧
      (4 ≤ k.matQ.length → exec (.epi c t w) s =
        .next (threadDoes s c t fun h => { h with st := .waiting (.queueFull .matrix w) })))) ∧
  (
  ∀ (c t : Nat) (w : U32) (s : State),
    let k := s.core c
    let h := k.thread t
    let layer := (s.segOf c).bind fun g => s.layerAt g c h.pc
    (Runs (fun w => wOpc w = 0x1A) s c t w → vecIllegal w = false → vecReserved w = false → Unlocked s c t w →
      (k.vecQ.length < 4 → vopTagFault k w = false →
        exec (.vop c t w) s = .next (acceptedIn s c t fun k => { k with vecQ := k.vecQ ++
          [{ thread := t, pc := h.pc, word := w, layer := layer, scalar := (h.reg (wbits w 5 1)).setWidth 32, addr := 0 }] })) ∧
      (4 ≤ k.vecQ.length → exec (.vop c t w) s =
        .next (threadDoes s c t fun h => { h with st := .waiting (.queueFull .vector w) }))) ∧
    (Runs (fun w => wOpc w = 0x1B) s c t w → vecIllegal w = false → vecReserved w = false → Unlocked s c t w →
      let a := (h.reg (dSds w)).toNat
      (k.vecQ.length < 4 → a + 64 ≤ 393216 → a % 64 = 0 →
        exec (.vdesc c t w) s = .next (acceptedIn s c t fun k => { k with vecQ := k.vecQ ++
          [{ thread := t, pc := h.pc, word := w, layer := layer, scalar := (h.reg (dSb w)).setWidth 32, addr := a }] })) ∧
      (4 ≤ k.vecQ.length → exec (.vdesc c t w) s =
        .next (threadDoes s c t fun h => { h with st := .waiting (.queueFull .vector w) }))) ∧
    (Runs (fun w => wOpc w = 0x1C) s c t w → wbits w 14 0 = 0 → Unlocked s c t w →
      let a := (h.reg (wbits w 19 15)).toNat
      let j := wbits w 21 20
      let d0 : Desc := { raw := BitVec.ofNat 1024 (leNat (k.pond.bytes a 128)), addr := a, thread := t, pc := h.pc, word := w
                         layer := layer, origin := k.seg.getD (0, 0, 0) }
      let d := if d0.dspace = spStair then { d0 with stair := (d0.members c).map fun m =>
        { core := m, delivered := 0, skid := [], detached := false, blockingSince := none } } else d0
      let s1 := ((issued s c t).correctPond c a 128).enterLayer c h.pc
      ((k.spring j).length < 16 → a + 128 ≤ 393216 → a % 64 = 0 → k.pondBadAt a 128 = false →
        sprRefused (issued s c t) c j d0 = false →
        exec (.spr c t w) s = .next (s1.1.onCore c fun k => (k.setSpring j (k.spring j ++ [d])).setThread t (handedOver h))) ∧
      (16 ≤ (k.spring j).length → exec (.spr c t w) s =
        .next (threadDoes s c t fun h => { h with st := .waiting (.queueFull (.spring j) w) })))) ∧
  (
  ∀ (c t : Nat) (w : U32) (s : State) (g : Segment), s.segOf c = some g → g.stop = none → s.working = true →
    let ready := s.onThread c t fun h => { h with st := .ready }
    (∀ f, ((s.core c).thread t).st = .waiting (.queueFull f w) →
      exec (.engineQueueAccept c t) s = .next (retryAction w c t w ready)) ∧
    (((s.core c).thread t).st = .waiting (.tileLock w) → (s.core c).tileQ = [] →
      exec (.tileLockRelease c t) s = .next (retryAction w c t w ready)) ∧
    (wOpc w = 0x20 → wbits w 8 0 = 0 → Unlocked ready c t w → (ready.core c).matQ.length < 4 → mmaFault (ready.core c) t w = none →
      retryAction w c t w ready = mmaEnqueue c t w ready) ∧
    (wOpc w = 0x21 → wbits w 4 0 = 0 → Unlocked ready c t w → (ready.core c).matQ.length < 4 → epiFault (ready.core c) t w = none →
      retryAction w c t w ready = epiEnqueue c t w ready))

open Sys2Proof Sys2Proof.Machine Sys2Proof.Claims in
/-- R79. A parity error of an owned accumulator that no queued instruction uses empties it, and halts its owner at the owner's next word
with ACC_PARITY; queued instructions of the accumulator are dropped with it, and the halt is then at the first of them. R118. In a
running, awake module POND_SCRUB reads one beat of eight words and moves on by one of 6,144: the double-bit errors that there are now are
recorded as uncorrectable, the single-bit errors as correctable, and those in the beat are corrected. A correction counts the errors in the
range it reads in counter 0x8040:06 of the core's partition and takes them away, and changes nothing else. -/
def Obligations.ParityAndScrubbing : Prop :=
  (
  ∀ (c acc t : Nat) (s : State), ((s.core c).acc acc).owner = some t →
    let k := s.core c
    let dropped := k.matQ.filter fun e => mmaAcc e.word = acc
    let k1 := dropped.foldl (fun k e => k.finish e.thread) k
    let k2 := { k1.setAcc acc {} with matQ := k1.matQ.filter fun e => mmaAcc e.word ≠ acc }
    (∀ e r, dropped = e :: r → exec (.accParityError c acc) s = .next ((s.setCore c k2).halt c t e.pc e.word 0x17 0)) ∧
    (dropped = [] → exec (.accParityError c acc) s =
      .next ((s.setCore c k2).halt c t (k.thread t).pc ((k.fetch (k.thread t).pc).getD 0) 0x17 0))) ∧
  (
  ∀ (c : Nat) (found : List WordError) (s : State), c < 6144 → s.phase = .running → s.power.sleep = .awake →
    let k := s.core c
    (∃ bad weak, exec (.pondScrub c found) s = .next ((s.onCore c fun k =>
        { k with scrubAt := (k.scrubAt + 1) % 6144, pondBad := bad, pondSingle := weak }).correctPond c (64 * k.scrubAt) 64) ∧
      (∀ w, w ∈ bad ↔ w ∈ k.pondBad ∨ ∃ e ∈ found, e.word = w ∧ e.double = true) ∧
      ∀ w, w ∈ weak ↔ (w ∈ k.pondSingle ∨ ∃ e ∈ found, e.word = w ∧ e.double = false) ∧ w ∉ bad)) ∧
  (
  ∀ (c a n : Nat) (s : State),
    let met (w : Nat) := decide (w * 8 < a + n ∧ a < w * 8 + 8)
    let hits := ((s.core c).pondSingle.filter met).length
    (hits = 0 → s.correctPond c a n = s) ∧
    (hits ≠ 0 → s.correctPond c a n = (s.onCore c fun k => { k with
      pondSingle := k.pondSingle.filter fun w => !met w }).bumpP (s.hallOwner (hallOf c)) 0x8040 6 hits))

open Sys2Proof Sys2Proof.Machine Sys2Proof.Claims in
/-- R125, R126, R130. SPRING_TILE_MOVE, where nothing of a higher level waits, the landing has room and no recovery holds the tile: the next
tile of the served descriptor, read whole and verified from its source, goes to its place (placeTile; shown for an unconverted tile that
goes to a pond); SPRING_SOURCE_REREAD counts the retry and reads the tile once more, after a repair of the copy's granule (R161) and a recovery
of an object that the stream pins (R181). A first read that fails is noted and makes the
descriptor read again; after a second the tile stops the descriptor with the failure's code. R130, R137, R140 to R142.
SPRING_DESCRIPTOR_START makes the first waiting descriptor of the highest level (the lowest PRIO number) the mover's served one;
SPRING_TILE_DELIVERED moves the cursor on by one tile, whose flight ends, counts the tile on its mark, and ends the descriptor behind its
last tile; a frame for the host leaves the landing then. STAIR_FORWARD has a member write the oldest frame of its skid buffer into its
pond, and hands it to the next member once that has room, with the single-bit errors that its read of the pond meets corrected (R118).
STAIR_DETACH detaches the blocking member and counts it; what it had not
forwarded stays to be passed on (log 118). -/
def Obligations.SpringsServeMoveAndDeliver : Prop :=
  (
  (∀ (m : MoverRef) (s : State) (d : Desc), s.activeDesc m = some d → s.mayMove m d = true → d.room = true →
    s.outranked m d = false → s.heldBack m d = false → s.pinnedRecovery d d.next = none →
    let u := s.readPond m d d.next
    (∀ e, u.dstPlace m d d.next ≠ .fault e) → u.dstPlace m d d.next ≠ .range →
    (∀ f, u.readSource m d d.next = .frame f → exec (.springTileMove m) s = .next (u.placeTile m d d.next f)) ∧
    (∀ why, u.readSource m d d.next = .failed why → exec (.springTileMove m) s =
      .next ((u.noteFailure d.origin.1 why).changeDesc m d { d with st := .reread d.next why none u.now }))) ∧
  (∀ (m : MoverRef) (s : State) (d : Desc) (t c a : Nat) (f : List Byte), d.dcvt = 15 → (s.unstage m t).dstPlace m d t = .pond c a →
    s.placeTile m d t f =
      ((s.unstage m t).onCore c fun k => k.pondWrite a f).changeDesc m d (d.fly t true none none)) ∧
  (∀ (m : MoverRef) (s : State) (d : Desc) (t since : Nat) (why : ReadFailure),
    ((s.queue m).find? fun d => d.st.rereads) = some d → d.st = .reread t why none since →
    (why = .pondEcc ∨ s.readSource m d t ≠ .awaited) → s.repairAwaited d t since why = false → s.pinnedRecovery d t = none →
    let d' : Desc := { d with st := .active }
    let s' := (s.bumpP d.origin.1 0x8040 5 1).changeDesc m d d'
    (∀ e, s'.dstPlace m d' t ≠ .fault e) → s'.dstPlace m d' t ≠ .range →
    (∀ f, s'.readSource m d' t = .frame f → exec (.springSourceReread m) s = .next (s'.placeTile m d' t f)) ∧
    (∀ why, s'.readSource m d' t = .failed why → exec (.springSourceReread m) s = .next
      (((s'.noteFailure d.origin.1 why).noteEntries d' t).stopDesc m d' t (.fail (failureCode why))))) ∧
  ∀ (m : MoverRef) (s : State) (d : Desc) (t since x : Nat) (why : ReadFailure) (who : Option Nat),
    ((s.queue m).find? fun d => d.st.rereads) = some d → d.st = .reread t why who since →
    (s.repairAwaited d t since why = true → exec (.springSourceReread m) s = .next s) ∧
    (s.repairAwaited d t since why = false → (why = .pondEcc ∨ s.readSource m d t ≠ .awaited) → s.pinnedRecovery d t = some x →
      exec (.springSourceReread m) s = .next (s.awaitRecovery d.origin.1 x))) ∧
  (
  (∀ (m : MoverRef) (s : State) (d : Desc),
    (∀ e ∈ s.queue m, e.st.rereads = false) →
    let ready := (s.queue m).filter fun e => (e.st = .queued || e.st = .active) && e.stopAt.isNone
    ready.find? (fun e => e.prio = ready.foldl (fun n e => Min.min n e.prio) 8) = some d → s.mayMove m d = true →
    let waiting := (s.queue m).map fun e => if e.st = .active then { e with st := .queued } else e
    let d0 : Desc := { d with st := .queued }
    exec (.springDescriptorStart m) s = .next (s.setQueue m (waiting.set (waiting.idxOf d0) { d0 with st := .active }))) ∧
  (∀ (m : MoverRef) (s : State) (d : Desc), (s.queue m).find? Desc.deliverable = some d →
    let d' : Desc := { d with
      cursor := d.cursor + 1
      flights := d.flights.filter fun f => f.tile ≠ d.cursor
      tallied := d.tallied.filter fun t => t ≠ d.cursor }
    let delivers (s : State) : State :=
      let moved := s.changeDesc m d d'
      let counted := if d.dspace = spStair && d.markMode then moved else moved.countTile d
      if (counted.moveWon m d').isSome then counted.settleMove m d'
      else if d.cursor + 1 = d.total then counted.finishDesc m d' else counted.settleStop m d'
    (d.leaving = none → exec (.springTileDelivered m) s = .next (delivers s)) ∧
    (∀ f l, d.leaving = some f → s.dstPlace m d d.cursor = .parts l →
      exec (.springTileDelivered m) s = .next (delivers (s.writePlace d (.parts l) f)))) ∧
  (∀ (m : MoverRef) (k : Nat) (s : State) (d : Desc) (x : StairMember) (f : SkidFrame) (rest : List SkidFrame),
    s.stairDesc m k = some d → d.stair[k]? = some x → x.detached = false → x.skid = f :: rest →
    (f.written = false →
      let y : StairMember := { x with skid := { f with written := true } :: rest, delivered := f.tile + 1 }
      let d' : Desc := { d with stair := d.stair.set k y }
      exec (.stairForward m k) s = .next (((s.onCore x.core fun c => c.pondWrite (d.dst f.tile) f.frame).changeDesc m d
        (if d.mayPass k then d'.pass s.now k y f else d'.settleStair s.now)).countMember d k)) ∧
    (f.written = true → s.forwardBad d x f = false →
      exec (.stairForward m k) s = .next ((s.correctPond x.core (d.dst f.tile) 4672).changeDesc m d (d.pass s.now k x f)))) ∧
  (∀ (m : MoverRef) (k : Nat) (s : State) (d : Desc) (x : StairMember),
    ((s.queue m).find? fun d => blockingMember d.stair = some k) = some d → d.stair[k]? = some x →
    exec (.stairDetach m k) s = .next ((s.changeDesc m d ({ d with
      stair := d.stair.set k { x with detached := true, blockingSince := none
                                      skid := if (nextMember d.stair k).isSome then x.skid else [] } }.settleStair s.now)).bumpP
        d.origin.1 0x8040 4 1)))

open Sys2Proof Sys2Proof.Machine Sys2Proof.Claims in
/-- R145, R146, R320. A response that names a parked descriptor lets it be served again from its cursor (RESUME) or ends it with PARTIAL
at its fault's address (FATAL); a response that names none is counted as stale; a descriptor parked beyond its timeout is counted and
raises event 0x6131 with its stream, command and the record's number before it ends the same way; a waiting fault record goes into the fault queue while that has
room, with its message and the time it waited. -/
def Obligations.PageFaultsAreAnswered : Prop :=
  (∀ (p : Nat) (r : U32) (s : State),
    (∀ m d, s.parkedDesc p r.toNat = some (m, d) →
      exec (.faultRespResume p r) s = .next (s.changeDesc m d { d with st := .queued }) ∧
      exec (.faultRespFatal p r) s = .next (s.endDesc m d 0x0C d.faultAddr) ∧
      exec (.springFaultTimeout p r.toNat) s =
        .next (((s.bumpP p 0x8040 2 1).raiseP 0x6131 p [d.origin.2.1, d.origin.2.2, r.toNat]).endDesc m d 0x0C d.faultAddr)) ∧
    (s.parkedDesc p r.toNat = none →
      exec (.faultRespResume p r) s = .next (s.bumpP p 0x8040 3 1) ∧ exec (.faultRespFatal p r) s = .next (s.bumpP p 0x8040 3 1))) ∧
  ∀ (p : Nat) (s u : State) (r : FaultRec) (rest : List FaultRec), (s.partn p).faultWaiting = r :: rest → s.fqRoom p = true →
    let q := (s.partn p).regs
    s.vwrite p (q.fqBase.toNat + 32 * (q.fqTail % q.fqSize)) (leBytes 32 (r.val p)) = .ok u →
    exec (.faultRecordPost p) s = .next (((u.onPartn p fun x =>
      { x with faultWaiting := rest, regs := { x.regs with fqTail := q.fqTail + 1 } }).signal p (bits q.fqCtrl.toNat 26 16)).bumpP
        p 0x80B0 14 (u.now - r.queuedAt))

open Sys2Proof Sys2Proof.Machine Sys2Proof.Claims in
/-- R14 to R16, R138, R183, R433. An arbiter that exists, and whose requests are those of one partition: with a level pending (of its movers,
peer accesses, sweep units, exchange engines, or a level that the command names, log 102) and no borrower due it grants the level that its waits choose, notes what
waited, and counts a grant that a wait made due; a grant to a borrower of a lake channel, which comes when nothing is pending or after 63
grants of the owner, clears the borrower's wait. On a throttled channel a grant is followed by an idle slot, which grants nothing. An
arbiter that does not exist, or between halls of two partitions, grants nothing. -/
def Obligations.ArbiterGrantsOneRequest : Prop :=
  ∀ (a : ArbiterRef) (named : Byte) (lent : Bool) (s : State),
    let x := s.fabric.arbiters.get (arbiterKey a) {}
    let slow := s.throttledArbiter a
    let pend := s.pendingAt a named
    let borrower := (lent || (s.peerAsks a).any borrows) && (match a with | .channel _ _ => true | _ => false)
    let leaves (u : State) (y : Arbiter) := u.fabric.arbiters.get (arbiterKey a) {} = y ∧
      (∀ j ≠ arbiterKey a, u.fabric.arbiters.get j {} = s.fabric.arbiters.get j {}) ∧
      u.fabric.ports = s.fabric.ports ∧ u.cores = s.cores ∧ u.lake = s.lake ∧ u.log = s.log
    ((s.hasArbiter a = false ∨ s.arbiterPart a = none) → exec (.arbiterGrant a named lent) s = .next s) ∧
    (∀ p, s.hasArbiter a = true → s.arbiterPart a = some p →
      (slow = true → x.skip = true → ∃ u, exec (.arbiterGrant a named lent) s = .next u ∧ leaves u { x with skip := false } ∧
        u.counters = s.counters ∧ u.parts = s.parts) ∧
      (¬(slow = true ∧ x.skip = true) → borrower = true → (pend = 0 ∨ 63 ≤ x.borrower) →
        ∃ u, exec (.arbiterGrant a named lent) s = .next u ∧ leaves u { x with borrower := 0, last := some 8, skip := slow } ∧
          u.counters = s.counters ∧ u.parts = s.parts) ∧
      (∀ g due, ¬(slow = true ∧ x.skip = true) → ¬(borrower = true ∧ (pend = 0 ∨ 63 ≤ x.borrower)) → x.choose pend = some (g, due) →
        ∃ u, exec (.arbiterGrant a named lent) s = .next u ∧ leaves u { x with
          wait := x.after pend g, last := some g, skip := slow, borrower := if borrower then x.borrower + 1 else 0 } ∧
          u.counters = (if due then s.bumpP p 0x8040 7 1 else s).counters ∧ u.parts = (if due then s.bumpP p 0x8040 7 1 else s).parts))

namespace Sys2Proof.Claims

open Sys2Proof.Machine

/-- The accepted command q of stream w is k, has the opcode op, and may start now (R305, R310, R323, R324); the partition's step is not
one that was discarded under this stream, unless the command opens or discards a step (R227). -/
def Starts (s : State) (p w q op : Nat) (k : Cmd) : Prop :=
  s.cmd p w q = some k ∧ k.op = op ∧ s.mayStart p w k = true ∧
    ((s.partn p).step = .discarded → (s.partn p).stepOwner = w → op = 0x10 ∨ op = 0x14)

/-- The command has started. -/
def begun (s : State) (p w q : Nat) : State := s.onCmd p w q fun k => { k with phase := .running, started := s.now }

/-- The command as it runs. -/
def running (s : State) (k : Cmd) : Cmd := { k with phase := .running, started := s.now }

end Sys2Proof.Claims

open Sys2Proof Sys2Proof.Machine Sys2Proof.Claims in
/-- R309, R310. A command that completes leaves its stream's journal, whatever its outcome, and every other command of every stream stays.
-/
def Obligations.CompletionLeavesTheJournal : Prop :=
  ∀ (p w q : Nat) (o : Outcome) (s : State) (k : Cmd), s.cmd p w q = some k →
    ((s.complete p w q o).stream p w).journal = (s.stream p w).journal.filter (fun j => j.seq ≠ q) ∧
    (s.complete p w q o).cmd p w q = none ∧
    (∀ v ≠ w, ((s.complete p w q o).stream p v).journal = (s.stream p v).journal) ∧
    (∀ r ≠ p, (s.complete p w q o).partn r = s.partn r) ∧
    (s.complete p w q o).cores = s.cores ∧ (s.complete p w q o).log = s.log ∧ (s.complete p w q o).fabric = s.fabric

open Sys2Proof Sys2Proof.Machine Sys2Proof.Claims in
/-- R136, R308, R312. A MARK_SET that starts applies its value to its mark and completes OK. A MARK_WAIT that starts completes OK where
the mark has reached its target, and runs on where not; one that still runs completes with FAULT, TIMEOUT and the mark's number when its
TIMEOUT passes. R308, R336, R319. A MOVE that starts and whose 128-byte descriptor can be read, names present dies and is permitted goes
behind the others of a command mover's queue; where the descriptor cannot be read the MOVE is refused. A FENCE that starts completes OK
when no accepted command of its scope before it is left; with STOP it first ends the running MOVEs, MARK_WAITs and serving RUNs of its
scope. -/
def Obligations.MarkMoveAndFenceCommands : Prop :=
  (
  ∀ (p w q : Nat) (s : State) (k : Cmd),
    let m := bits k.raw.toNat 447 432
    let v : U32 := BitVec.ofNat 32 (bits k.raw.toNat 431 400)
    (Starts s p w q 0x03 k → exec (.markSet p w q) s = .next (((begun s p w q).applyMark p m v).complete p w q .ok)) ∧
    (Starts s p w q 0x04 k → (s.mark p m - v).toNat < 2 ^ 31 → k.satisfied = false →
      exec (.markWait p w q) s =
        .next (((begun s p w q).onCmd p w q fun k => { k with satisfied := true }).complete p w q .ok)) ∧
    (Starts s p w q 0x04 k → 2 ^ 31 ≤ (s.mark p m - v).toNat → k.satisfied = false →
      exec (.markWait p w q) s = .next (begun s p w q)) ∧
    (s.cmd p w q = some k → k.op = 0x04 → k.phase = .running → k.satisfied = false → bits k.raw.toNat 399 368 ≠ 0 →
      exec (.markWaitTimeout p w q) s = .next (s.complete p w q { status := 0x04, cause := 0x0009, arg := m }))) ∧
  (
  ∀ (p w q : Nat) (s : State) (k : Cmd),
    let b := begun s p w q
    (∀ bs, Starts s p w q 0x02 k → b.vread p (bits k.raw.toNat 447 400) 128 = .ok bs →
      let d : Desc := { raw := BitVec.ofNat 1024 (leNat bs), addr := 0, thread := 0, pc := 0, word := 0, layer := none, origin := (p, w, q) }
      (absentDie b d = none → moveRefused b d = false →
        exec (.move p w q) s = .next (b.setQueue (b.moverFor p w) (b.queue (b.moverFor p w) ++ [d]))) ∧
      (∀ pos, absentDie b d = some pos → exec (.move p w q) s = .next (b.complete p w q { status := 0x08, cause := 0x0019, arg := pos }))) ∧
    (Starts s p w q 0x60 k → bit k.raw.toNat 446 = false →
      (b.fenceMet p w (running s k) = true → exec (.fenceWait p w q) s = .next (b.complete p w q .ok)) ∧
      (b.fenceMet p w (running s k) = false → exec (.fenceWait p w q) s = .next b)) ∧
    (Starts s p w q 0x60 k → bit k.raw.toNat 446 = true →
      let stopped := ((b.partn p).commands.filter fun e => fenceScope k w e.1).foldl
        (fun s e => s.stopOne p e.1 e.2) b
      exec (.fenceStop p w q) s = .next (stopped.settleFence p w q)))

open Sys2Proof Sys2Proof.Machine Sys2Proof.Claims in
/-- R169 to R174. While the Tier Manager of its object serves, a TIER command that starts on a created object arrives there: PROMOTE and
DEMOTE with their mark and priority, PIN adds one pin of its stream and UNPIN takes one away, completing OK. On an object that does not
exist each is REJECTED with TIER and the object's number; so are a 65,536th pin and an UNPIN without one. R170. A request that the
object's state takes is applied, and one that cancels a demotion releases what waits for RESIDENT; any other waits, for a transition that
is noted with it, behind those that wait for the object already. -/
def Obligations.TierCommandsArriveAndWait : Prop :=
  (
  ∀ (p w q : Nat) (s : State) (k : Cmd),
    let x := bits k.raw.toNat 447 416
    let b := begun s p w q
    let mark := if bit k.raw.toNat 351 then some (bits k.raw.toNat 367 352) else none
    let refused : State := b.complete p w q { status := 0x08, cause := 0x0017, detail := x * 2 ^ 96 }
    let pins := (b.obj p x).pins.get w 0
    s.tierServing x = true →
    ((b.obj p x).created = true →
      (Starts s p w q 0x30 k → exec (.tierPromote p w q) s =
        .next (b.tierArrive p x (.promote w q (bits k.raw.toNat 415 368) mark (bits k.raw.toNat 350 348)))) ∧
      (Starts s p w q 0x31 k → exec (.tierDemote p w q) s = .next (b.tierArrive p x (.demote w q mark))) ∧
      (Starts s p w q 0x32 k → exec (.tierPin p w q) s = .next (if 65535 ≤ pins then refused else
        ((b.onObj p x fun o => { o with pins := o.pins.put w (pins + 1) 0 }).settlePins p x).complete p w q .ok)) ∧
      (Starts s p w q 0x33 k → exec (.tierUnpin p w q) s = .next (if pins = 0 then refused else
        ((b.onObj p x fun o => { o with pins := o.pins.put w (pins - 1) 0 }).settlePins p x).complete p w q .ok))) ∧
    ((b.obj p x).created = false →
      (Starts s p w q 0x30 k → exec (.tierPromote p w q) s = .next refused) ∧
      (Starts s p w q 0x31 k → exec (.tierDemote p w q) s = .next refused) ∧
      (Starts s p w q 0x32 k → exec (.tierPin p w q) s = .next refused) ∧
      (Starts s p w q 0x33 k → exec (.tierUnpin p w q) s = .next refused))) ∧
  (
  ∀ (p x : Nat) (r : TierReq) (s : State),
    (∀ u, s.tierApply p x r = .ok u → s.tierArrive p x r =
      (if (s.obj p x).st = .demoting ∧ (u.obj p x).st = .resident then u.releasePass p x [.resident] else u)) ∧
    (∀ awaits, s.tierApply p x r = .error awaits →
      ((s.tierArrive p x r).obj p x).waiting = (s.obj p x).waiting ++ [(awaits, r)] ∧
      (∀ y ≠ x, (s.tierArrive p x r).obj p y = s.obj p y) ∧ (s.tierArrive p x r).lake = s.lake ∧ (s.tierArrive p x r).log = s.log))

open Sys2Proof Sys2Proof.Machine Sys2Proof.Claims in
/-- R165, R166, R173, R176, R349. While an object's Tier Manager serves and no recovery of it runs: a good flash read of the next extent
is counted in the fill, which no longer waits for its flash channels; a landed frame goes to its place in lake pages and is counted, with the marks of the fill; a fill that holds every
tile makes the object RESIDENT and completes its PROMOTEs OK; the end of a release makes a DEMOTING object ABSENT. Held requests
that wait for the transition follow. R167, R172, R175 to R177. The commit of a WRITING object's new version makes the version and its frames
the object's, keeps the lake copy as RESIDENT (an IMPORT's where every tile still has writable lake pages and reads, R474) or leaves the
object ABSENT, completes an IMPORT OK, adds 1 to a write request's mark, gives the old version's extents up and counts the bytes. EXTENT_RETIRE gives
retiring extents back once no fill reads them. -/
def Obligations.FillsReleasesAndCommits : Prop :=
  (
  ∀ (p x : Nat) (s : State), s.tierServing x = true → s.tierServes x compTranslation = true → (s.obj p x).recovery = none →
    (∀ f, (s.obj p x).st = .promoting → (s.obj p x).fill = some f → (s.obj p x).created = true →
      f.extentsRead < (s.obj p x).extents → s.flashOn x = true →
      exec (.flashReadComplete p x f.extentsRead false) s =
        .next (((s.endBusy p x).onObj p x fun o => { o with
          fill := o.fill.map fun g => { g with extentsRead := f.extentsRead + 1 } }).grantFlash (x % s.part.ioDies))) ∧
    (∀ f fr rest l, (s.obj p x).st = .promoting → (s.obj p x).fill = some f → f.landed = fr :: rest →
      s.translateRange p ((s.obj p x).addr + f.done * 4672) 4672 { write := true } = .ok l →
      (∀ e ∈ l, ∃ pa, e.1 = .lake pa) →
      exec (.fillFrameDelivered p x) s = .next (f.waiters.foldl (fun s r => match r with
          | .promote _ _ _ mark _ => s.gain p mark 1
          | _ => s)
        ((s.writeParts l fr).onObj p x fun o => { o with fill := some { f with done := f.done + 1, landed := rest } }))) ∧
    (∀ f, (s.obj p x).st = .promoting → (s.obj p x).fill = some f → f.done = (s.obj p x).tiles →
      exec (.fillDone p x) s = .next (((f.waiters.foldl (fun s r => match r with
          | .promote w q _ _ _ => s.complete p w q .ok
          | _ => s) ((s.endSpans p f.since f.waiters).onObj p x fun o => { o with st := .resident, fill := none })).settlePins p x).releaseHeld
            p x [.fill])) ∧
    ((s.obj p x).st = .demoting → exec (.releaseDone p x) s = .next ((s.becomeAbsent p x).releaseHeld p x [.release, .fill, .commit]))) ∧
  (
  (∀ (p x : Nat) (s : State) (v : Writing), s.tierServes x compTranslation = true → s.flashOn x = true →
    (s.obj p x).st = .writing → (s.obj p x).writing = some v → v.frames ≠ [] →
    let o := s.obj p x
    let ext := (v.frames.length + 63) / 64
    let keep := s.keepsCopy p o v
    let s1 := (s.setObj p x { o with
      st := if keep then .resident else .absent
      version := v.version
      flashVersion := v.version
      frames := v.frames
      seqs := (List.range ext).map fun i => (s.partn p).flashSeq + i
      writing := none
      retiring := o.retiring + o.extents
      heldInLake := false
      poison := match v.req with | .importVersion _ _ _ => false | _ => o.poison }).onPartn p fun y =>
        { y with flashSeq := y.flashSeq + ext }
    let s2 := { s1 with lake := { s1.lake with
      bytesHost := s1.lake.bytesHost + v.frames.length * 4672
      bytesFlash := s1.lake.bytesFlash + ext * 299136 } }
    let s3 := match v.req with
      | .importVersion w q _ => s2.complete p w q .ok
      | .sweepWrite _ mark => s2.gain p mark 1
      | _ => s2
    exec (.tierCommit p x) s = .next ((if keep then s3.settlePins p x else s3.endDemotes p x true).releaseHeld p x
      (if keep then [.commit] else [.release, .fill, .commit]))) ∧
  (∀ (p : Nat) (s : State) (o : TierObj) (v : Writing), (s.keepsCopy p o v = true → v.keepCopy = true) ∧
    ∀ w q n, v.req = .importVersion w q n → v.keepCopy = true → (s.keepsCopy p o v = true ↔ ∀ i < o.tiles, ∃ l,
      s.translateRange p (o.addr + i * 4672) 4672 { write := true } = .ok l ∧ (∀ e ∈ l, ∃ pa, e.1 = .lake pa) ∧ s.badPart l = none)) ∧
  ∀ (p x : Nat) (s : State), s.tierServes x compTranslation = true → s.flashOn x = true → (s.obj p x).st ≠ .promoting → (s.obj p x).retiring ≠ 0 →
    exec (.extentRetire p x) s = .next (s.onObj p x fun o => { o with retiring := 0 }))

open Sys2Proof Sys2Proof.Machine Sys2Proof.Claims in
/-- R180 to R182. While its Tier Manager serves, an extent's recovery goes from a source that fails to the next one and ends where a
source delivers the extent's frames with a right header, with the source's event; the host source's timeout makes the extent
unrecoverable. An uncorrectable copy tile of a RESIDENT object that is not held in the lake is written again from the object's version,
with event 0x3103. R160, R161, R184, R127. In a working module LAKE_SCRUB of a granule of a working stack: clean, it changes nothing;
uncorrectable, the granule is poisoned and event 0x3102 is raised; corrected on a channel without a failed device, the correction is
noted. FLASH_BACKGROUND_WORK of a die adds its blocks, relocations and bytes, lowers the spare percentage, and raises 0x3301 where that
falls below 10 and 0x3302 and read-only below 2. A landing frame is put where its sender says. -/
def Obligations.RecoveriesScrubsAndFlashWork : Prop :=
  (
  ∀ (p x : Nat) (s : State), s.tierServing x = true → s.tierServes x compRecovery = true →
    (∀ r, (s.obj p x).recovery = some r → r.source ≠ 4 →
      exec (.recoverySourceTimeout p x .failed) s = .next (s.nextSource p x r) ∧
      ∀ d, extentHeaderOk (s.obj p x) x r.ext d.header = true → framesBad (s.obj p x).version ((s.obj p x).extentFrames r.ext) d.frames 0 = none →
        exec (.recoverySourceTimeout p x (.delivered d)) s = .next (s.recovered p x r d.frames (0x3200 + r.source))) ∧
    (∀ r, (s.obj p x).recovery = some r → r.source = 4 →
      exec (.hostRecoveryTimeout p x) s = .next (s.extentUnrecoverable p x r)) ∧
    (∀ tile l pa, (s.obj p x).st = .resident → tile < (s.obj p x).tiles →
      s.translateRange p ((s.obj p x).addr + tile * 4672) 4672 { write := true } = .ok l → s.badPart l = some pa →
      (s.obj p x).heldInLake = false → (s.obj p x).writing = none →
      exec (.lakeCopyRepair p x tile) s =
        .next ((s.writeParts l ((s.obj p x).frames.getD tile [])).tierEvent p x 0x3103 (tile / 64)))) ∧
  (
  (∀ (g : Nat) (s : State), let pa := g * 64
    s.part.hasStack (lakeStack pa) = true → s.sup.lostStacks.contains (lakeStack pa) = false →
    s.sup.lostHalls.contains (lakeStack pa / 4) = false → s.working = true → s.lakeBad pa 64 = none →
    exec (.lakeScrub g .clean) s = .next s ∧
    exec (.lakeScrub g .uncorrectable) s =
      .next ((s.poisonGranules [g]).lakeUncorrectable (s.hallOwner (lakeStack pa / 4)) pa) ∧
    ∀ d, s.sup.failedDevices.get (lakeStack pa * 32 + lakeChannel pa) 0 = 0 →
      exec (.lakeScrub g (.corrected d)) s =
        .next (s.noteCorrection (s.hallOwner (lakeStack pa / 4)) (lakeStack pa) (lakeChannel pa) d)) ∧
  (∀ (die : Nat) (w : FlashWork) (s : State), s.part.hasDie die = true → s.compUp (6 + die) compTranslation = true →
    let old := s.lake.sparePercent
    let new := Min.min old w.sparePercent
    let s1 := { s with lake := { s.lake with
      retiredBlocks := s.lake.retiredBlocks + w.retired
      relocations := s.lake.relocations + w.relocations
      bytesFlash := s.lake.bytesFlash + w.bytes
      sparePercent := new
      readOnly := s.lake.readOnly || decide (new < 2) } }
    let s2 := if new < 10 ∧ 10 ≤ old then s1.raiseM 0x3301 die [] else s1
    exec (.flashBackgroundWork die w) s = .next (if new < 2 ∧ 2 ≤ old then s2.raiseM 0x3302 die [] else s2)) ∧
  ∀ (die p : Nat) (f : List Byte) (s : State), s.part.hasDie die = true → s.working = true →
    (∀ x tile, die = x % s.part.ioDies → s.tierServes x compTranslation = true → s.flashOn x = true →
      exec (.landingFrameArrival die p (.flash x tile true true) f) s = .next (s.flashArrival die p x tile true f)) ∧
    (∀ m, exec (.landingFrameArrival die p (.host m) f) s = .next (if die = 0 then s.hostArrival m false f else s)) ∧
    (∀ m, exec (.landingFrameArrival die p (.hostPayload m) f) s = .next (if die = 0 then s.hostArrival m true f else s)) ∧
    (∀ w q tile, exec (.landingFrameArrival die p (.importSource w q tile) f) s = .next (s.importArrival p w q tile f)))

open Sys2Proof Sys2Proof.Machine Sys2Proof.Claims in
/-- R191, R194, R198, R226, R227, R229. STEP_OPEN of an intact partition in IDLE or DISCARDED, with STEP one above the committed version and
writable scale entries, opens the step, with every watch counter at 0; STEP_SEAL of the owner in OPEN without a stopping slot seals it, and with one discards it with
NONFINITE; STEP_COMMIT of the owner in SWEPT commits it; STEP_DISCARD in IDLE does nothing, and in OPEN, SEALED or EXCHANGED takes the
step back to IDLE. -/
def Obligations.StepCommandsMoveTheStep : Prop :=
  ∀ (p w q : Nat) (s : State) (k : Cmd),
    let b := begun s p w q
    let x := b.partn p
    let n := bits k.raw.toNat 447 384
    (Starts s p w q 0x10 k → (x.step = .idle ∨ x.step = .discarded) → n = (x.version.toNat + 1) % 2 ^ 64 → x.stateIntact = true →
      (b.startSlots p false).2 = none →
      exec (.stepOpen p w q) s = .next (((b.startSlots p false).1.onPartn p fun x => { x.clearWatch with
        step := .opened
        stepNo := BitVec.ofNat 64 n
        stepSeed := BitVec.ofNat 64 (bits k.raw.toNat 383 320)
        stepOwner := w
        ledger := []
        attempts := []
        periodStarted := false
        abortCommitted := false }).complete p w q .ok)) ∧
    (∀ y : Partition, y.clearWatch = { y with
      slots := y.slots.map fun k => { k with elems := 0, zero := 0, flush := 0, sat := 0, nonfin := 0, amax := 0, ovfTiles := 0 }
      unorderedTotal := 0
      toldUnwatched := false
      segments := y.segments.map fun g => { g with counts := [] } }) ∧
    (x.stepOwner = w → n = x.stepNo.toNat → s.hallsServing p = true →
      (Starts s p w q 0x11 k → x.step = .opened →
        let e := b.sealEvents p x.slots 0
        (e.stopSlots p = [] →
          exec (.stepSeal p w q) s = .next ((e.onPartn p fun x => { x with step := .sealed }).complete p w q .ok)) ∧
        ∀ i d rest, e.stopSlots p = (i, d) :: rest →
          let t := d.decl.tensor.toNat
          exec (.stepSeal p w q) s = .next (((e.raiseP 0x4102 p [i, t, x.stepNo.toNat, rest.length + 1]).enterDiscarded p 0x0007 (some (w, q))).complete
            p w q (.fault 0x0007 i (t * 2 ^ 96)))) ∧
      (Starts s p w q 0x13 k → x.step = .swept →
        exec (.stepCommit p w q) s = .next ((b.commitStep p).complete p w q .ok))) ∧
    (Starts s p w q 0x14 k →
      (x.step = .idle → exec (.stepDiscard p w q) s = .next (b.complete p w q .ok)) ∧
      ((x.step = .opened ∨ x.step = .sealed ∨ x.step = .exchanged) → x.stepOwner = w → n = x.stepNo.toNat →
        exec (.stepDiscard p w q) s = .next ((b.stepToIdle p).complete p w q .ok)))

open Sys2Proof Sys2Proof.Machine Sys2Proof.Claims in
/-- R219, R226, R241. EXCHANGE in SEALED by the owner with the step's number, or in IDLE with STEP 0, whose list reads and whose records
are valid and need no withheld feature, reads their scale entries, adds its records and, in a step, makes it EXCHANGED. SWEEP of the owner in SEALED or EXCHANGED
whose list reads and whose records are valid makes the step SWEEPING, each unit passing its own records from the first block; SWEEP_END,
once every unit has finished, no commit is outstanding and no replica recovery runs, makes it SWEPT and completes the SWEEP with its outcome. -/
def Obligations.ExchangeAndSweepMoveTheStep : Prop :=
  (∀ (p w q : Nat) (s : State) (k : Cmd) (raws : List U1024),
    let b := begun s p w q
    let x := b.partn p
    let n := bits k.raw.toNat 447 384
    b.readList p (bits k.raw.toNat 383 336) (bits k.raw.toNat 335 320) = .ok raws →
    (∀ rs inside, Starts s p w q 0x20 k → inside = decide (x.step = .sealed) → (x.step = .idle ∨ (x.step = .sealed ∧ x.stepOwner = w)) →
      n = (if inside then x.stepNo.toNat else 0) →
      b.checkXs p (raws.zipIdx.map fun e => x.xrun w q e.2 e.1 false inside (if inside then x.stepSeed else 0)
        (if inside then x.stepNo else BitVec.ofNat 64 (2 ^ 63 + q))) = .ok rs →
      (rs.any (fun r => r.mode = 2) = true → b.agreed p 2 = true) →
      exec (.exchange p w q) s = .next ((rs.foldl (fun s r => (s.readScale p (BitVec.ofNat 32 r.srcTensor)).1) b).onPartn p fun x => { x with
        step := if inside then .exchanged else x.step
        xruns := x.xruns ++ rs
        lastXList := raws })) ∧
    (∀ recs, Starts s p w q 0x12 k → (x.step = .sealed ∨ x.step = .exchanged) → x.stepOwner = w → n = x.stepNo.toNat →
      x.stateIntact = true → b.checkSweeps p raws 0 = .ok recs → (recs.any SweepRec.factored = true → b.agreed p 3 = true) →
      let run : SweepRun := { s := w, q := q, step := x.stepNo, recs := recs }
      exec (.sweep p w q) s = .next (run.units.foldl (fun s k =>
          let s := s.setCursor k { step := x.stepNo, slot := (s.cursor k).slot }
          (s.setStore k { s.sweepStore k with interrupted := false }).passRecords p k (run.unit k))
        (((recs.foldl (fun s r => (s.readScale p (BitVec.ofNat 32 r.gTensor)).1) b).onCmd p w q fun k =>
          { k with phase := .completing }).onPartn p fun x => { x with step := .sweeping, sweep := some run, lastSweep := recs })))) ∧
  ∀ (p : Nat) (s : State) (run : SweepRun), (s.partn p).sweep = some run → (s.partn p).step = .sweeping → s.sweepDone p run = true →
    s.working = true → s.sup.recovering.contains p = false →
    exec (.sweepEnd p) s = .next (((((s.takeDigests p run).onPartn p fun x => { x with step := .swept }).complete p run.s run.q
      run.outcome)).settleOwed p)

open Sys2Proof Sys2Proof.Machine Sys2Proof.Claims in
/-- R218, R222, R224, R225. In a step that is SWEEPING, a sweep unit at a block whose record a mirror repair holds waits, from now on; else the
wait ends, and at a block none of whose objects is poisoned unheld it first holds the block's objects, and works on the block only when it
holds all; a poisoned one makes it skip. A unit that a fault or a reset interrupted resumes at its cursor with event 0x6151: a block that
was committed to its shadow goes home first and the cursor moves on; otherwise the block is done again. One that cannot read its cursor or
its shadow treats its stack as lost. R233, R234. When the mirrors' digests of a record that awaits them arrive after the step, the compare
is counted and the record awaits them no longer; where they agree with the recorded digest, or with one read again, nothing else changes;
where some differ, the mismatch is counted and told with event 0x4220 and every digest tile is repaired against the mirrors' frames, once
those have come. A digest that does not come raises event 0x4223 instead. -/
def Obligations.SweepUnitsAndMirrors : Prop :=
  (
  ∀ (p n : Nat) (s : State) (run : SweepRun), (s.partn p).sweep = some run → (s.partn p).step = .sweeping → s.working = true →
    (∀ r rest, s.sup.recovering.contains p = false → (s.sweepStore n).interrupted = false → s.unitRest run n = r :: rest →
      let s0 := s.endRepairWait p
      let needs := r.needs (s0.cursor n).block
      let poisoned := needs.find? fun o => (s0.obj p o).poison && !(s0.obj p o).heldBy n
      ((s.partn p).underRepair r = true → exec (.sweepBlock p n) s =
        .next (s.onPartn p fun x => { x with repairWait := some (x.repairWait.getD s.now) })) ∧
      ((s.partn p).underRepair r = false → poisoned = none → (s0.acquireAll p n r needs).2 = false →
        let u := (s0.acquireAll p n r needs).1
        exec (.sweepBlock p n) s = .next (if needs.all fun o => (u.obj p o).heldBy n then u.sweepWork p n run r else u)) ∧
      (∀ o, (s.partn p).underRepair r = false → poisoned = some o → r.factored = false →
        exec (.sweepBlock p n) s = .next (s0.skipPoisoned p n run r o))) ∧
    (run.units.contains n = true →
      let st := s.sweepStore n
      let r := (s.unitRest run n).head?
      let u := ((s.setStore n { st with interrupted := false }).bumpP p 0x8070 2 1).raiseP 0x6151 p
        [run.step.toNat, (r.map SweepRec.wTensor).getD 0, (r.map SweepRec.firstBlk).getD 0, run.s, run.q]
      (s.unitBlind n = false → exec (.sweepResume p n) s =
        .next (if (u.cursor n).shadowValid then ((u.writeHome p st.shadow).advanceCursor p n run).leaveObjects p n run else u)) ∧
      (s.unitBlind n = true → exec (.sweepResume p n) s = .next (s.stackGone n)))) ∧
  (
  ∀ (p i : Nat) (mirrors : List MirrorCopy) (s : State) (r : SweepRec),
    let x := s.partn p
    let u := s.onPartn p fun y => { y with awaitingDigest := y.awaitingDigest.filter (· ≠ i) }
    let set := x.mirrorSet r
    x.digestRecs.find? (fun e => e.idx = i) = some r → x.awaitingDigest.contains i = true → x.step ≠ .sweeping → x.step ≠ .swept →
    (s.working = true → x.repairs.contains i = false →
      let v := u.bumpP p 0x8070 6 1
      let differ (d : Option U64) := (mirrors.filter fun m => d ≠ some m.digest).map fun m => m.pos
      let odd := differ (v.recDigest p r)
      ((differ ((v.partn p).digests.find i) = [] ∨ odd = []) → exec (.digestExchange p i mirrors) s = .next v) ∧
      (differ ((v.partn p).digests.find i) ≠ [] → odd ≠ [] →
        let w := ((v.raiseP 0x4220 p [x.version.toNat, r.wTensor, r.firstBlk, positionMask odd]).bumpP p 0x8070 7 1).onPartn p fun x =>
          { x with repairs := x.repairs ++ [i] }
        exec (.digestExchange p i mirrors) s = .next (if framesCame r mirrors then w.repairRecord p r mirrors else w))) ∧
    exec (.digestTimeout p i) s = .next (u.raiseP 0x4223 p [x.version.toNat, r.wTensor, r.firstBlk,
      positionMask ((List.range set.length).filter fun j => set.getD j 0 ≠ s.moduleNumber)]))

open Sys2Proof Sys2Proof.Machine Sys2Proof.Claims in
/-- R239, R256 to R260, R262. In a working module: a scheduled record that its mark has triggered starts after the earlier triggered ones of
its schedule, and a record of a list after every frame of the earlier ones is sent. A record whose frames are acknowledged and whose tiles
are written is complete; a gather of a step first checks its fingerprints, and where one differs ends with VERSION and event 0x4210. A
needed member that stays silent ends it with PEER_TIMEOUT. Each of these notes whether the partition's engines wait for peers. A blocking
member is detached, counted and told, with the frames that wait for it alone dropped, and if it is this module it fetches its missing tiles
itself. A stage queue's SENT gains reach FULL, its DONE gains FREE, where the end that receives them is here; the end that gains is here, or
tells its mark (log 29). -/
def Obligations.ExchangeRecordsRun : Prop :=
  (∀ (p x : Nat) (s : State) (r : XRun), (s.partn p).xruns[x]? = some r → r.ended = false →
    let mine := fun (e : XRun) => decide (e.s = r.s) && decide (e.q = r.q) && decide (e.idx < r.idx)
    (s.working = true → s.enginesOn = true → r.started = false →
      (r.scheduled = true → r.triggered = true →
        (∀ e ∈ (s.partn p).xruns, mine e = true → e.triggered = true → e.started = true ∨ e.ended = true) →
        exec (.exchangeRecordTrigger p x) s = .next ((s.startX p x).notePeers p)) ∧
      (r.scheduled = false → (∀ e ∈ (s.partn p).xruns, mine e = true → s.allSent p e = true) →
        exec (.exchangeRecordStart p x) s = .next ((s.startX p x).notePeers p))) ∧
    (s.working = true → r.complete = false → s.xComplete p r = true →
      let n := s.ranks p r
      let check := if r.kind = 1 ∧ r.inStep = true then s.checkPrints p r n 0 n else (s, none)
      (check.2 = none → exec (.exchangeRecordComplete p x) s =
        .next (((check.1.onX p x fun r => { r with complete := true }).settleX p r.s r.q).notePeers p)) ∧
      ∀ i, check.2 = some i → exec (.exchangeRecordComplete p x) s =
        .next ((((check.1.bumpP p 0x8070 5 1).raiseP 0x4210 p [r.srcTensor, i, r.version.toNat]).endX p x 0x0002 0
          (r.srcTensor * 2 ^ 96 + i * 2 ^ 64)).notePeers p)) ∧
    (∀ m, r.started = true → r.complete = false → s.xNeeds p r m = true →
      exec (.exchangePeerTimeout p x m) s = .next ((s.endPeer p x 0x0005 m (some 0x5102)).notePeers p)) ∧
    (∀ m, p < 4 → s.working = true → r.kind ≠ 0 → r.live = true → r.detached.contains m = false →
      (s.groupMembers p r.group).contains m = true → (m = s.moduleNumber ∨ s.blocksTree r m = true) →
      let u := (((s.dropHeld r.xid m).onX p x fun r => { r with detached := r.detached ++ [m] }).bumpP p 0x80A0 6 1).raiseP 0x5101 p
        [r.xid, r.version.toNat, r.group, m]
      exec (.multicastDetach p x m) s = .next (if m = u.moduleNumber then
          ((u.xWanted p r).filter fun i => !r.written.contains i && decide (u.sourceOf p r i ≠ m)).foldl
            (fun s i => s.fetchX p r (s.sourceOf p r i) i) u
        else u))) ∧
  ∀ (p i : Nat) (told : Option U32) (s : State) (q : StageQueue), (s.partn p).stageQueues[i]? = some q →
    let sent := if q.decl.producer then s.mark p q.decl.sent else told.getD q.sentForwarded
    let done := if q.decl.consumer then s.mark p q.decl.done else told.getD q.doneForwarded
    let u := s.onPartn p fun x => { x with stageQueues := x.stageQueues.modify i fun e => { e with sentForwarded := sent } }
    let v := s.onPartn p fun x => { x with stageQueues := x.stageQueues.modify i fun e => { e with doneForwarded := done } }
    (sent ≠ q.sentForwarded → exec (.stageQueueMarkForward p i ⟨false, told⟩) s = .next (if q.decl.consumer then
      u.applyMark p q.decl.full (u.mark p q.decl.full + (sent - q.sentForwarded)) else u)) ∧
    (done ≠ q.doneForwarded → exec (.stageQueueMarkForward p i ⟨true, told⟩) s = .next (if q.decl.producer then
      v.applyMark p q.decl.free (v.mark p q.decl.free + (done - q.doneForwarded)) else v))

open Sys2Proof Sys2Proof.Machine Sys2Proof.Claims in
/-- R181, R245, R252, R253, R258. In a working module: the next source tile of a started reduction whose landing has room waits while its
object recovers and the record's stream pins it; one that no recovery holds and that passes its checks is counted, and without a mode goes to its shard's owner or into this member's contributions, with one it is encoded with its
residuals. Where this member owns the tile and a whole contribution of the next rank is there, it is added to the sums and leaves the list;
the last rank's addition writes the reduced tiles. -/
def Obligations.ReductionsCompressAndAdd : Prop :=
  ∀ (p x tile : Nat) (s : State) (r : XRun), (s.partn p).xruns[x]? = some r → r.reduces = true → r.started = true →
    r.complete = false → r.ended = false → s.working = true → tile < r.nt →
    (∀ u f, tile = r.compressed → s.sendHeld p r = false → s.xPinned p r tile = none → s.xTile p r tile = (u, some f) →
      let t := tensorScale r.tScale
      let y := (u.onX p x fun r => { r with compressed := r.compressed + 1 }).bumpP p 0x80A0 1 4672
      let me := y.myRank p r
      let owner := r.ownerOf (y.ranks p r) tile
      (r.mode = 0 → owner ≠ me → exec (.exchangeTileCompress p x tile) s =
        .next ((y.sendFrame p x (y.memberAt p r owner) tile f).notePeers p)) ∧
      (r.mode = 0 → owner = me → exec (.exchangeTileCompress p x tile) s =
        .next (((pieces 1024 ((r.els t f).length / 1024) (r.els t f)).zipIdx.foldl (fun s b =>
          s.addOwn p x (tile * blocksPerTile r.fs + b.2) me (b.1.map fun e => if e.valid then e.g else .zero false)
            (b.1.map fun e => e.valid && e.sat)) y).notePeers p)) ∧
      ∀ z res, r.mode ≠ 0 → y.residuals p r tile = (z, some res) →
        exec (.exchangeTileCompress p x tile) s = .next ((z.encodeTile p x r tile (r.els t f) res).notePeers p)) ∧
    (∀ o, tile = r.compressed → s.sendHeld p r = false → s.xPinned p r tile = some o →
      exec (.exchangeTileCompress p x tile) s = .next ((s.xAwait p r).notePeers p)) ∧
    (r.ownerOf (s.ranks p r) tile = s.myRank p r → r.outD.find tile = none → r.ready tile = true →
      let red := r.reduction tile
      let mine := r.nextParts tile
      let sum := addSums red.sums red.sats (mine.flatMap fun c => c.vals) (mine.flatMap fun c => c.sats)
      (red.nextRank + 1 ≠ s.ranks p r → exec (.reduceContribution p x tile) s = .next ((s.onX p x fun r => { r with
        parts := r.parts.filter fun c => !(c.block / blocksPerTile r.fs = tile && c.rank = red.nextRank)
        sums := r.sums.filter (fun e => e.tile ≠ tile) ++
          [{ tile := tile, nextRank := red.nextRank + 1, sums := sum.1, sats := sum.2 }] }).notePeers p)) ∧
      (red.nextRank + 1 = s.ranks p r → (r.kind = 3 → s.others p r = [] ∨ s.landingFull p 0 = false) → s.xPinned p r tile = none →
        exec (.reduceContribution p x tile) s = .next (((s.onX p x fun r => { r with
          parts := r.parts.filter fun c => !(c.block / blocksPerTile r.fs = tile && c.rank = red.nextRank)
          sums := r.sums.filter (fun e => e.tile ≠ tile) }).reduceTile p x r tile sum).notePeers p)))

open Sys2Proof Sys2Proof.Machine Sys2Proof.Claims in
/-- R80, R110, R131, R187, R198, R201, R239, R305, R308, R310. A RUN that starts and is not refused installs its image, where every watch
entry can be written, and waits for its launch.
Once the halls of its segment's cores serve and are on, the cores are free, nothing that goes before it waits for them, its stream holds no
record and no change holds the partition, it is launched: the evaluation period starts, its schedule's records begin and its cores are
loaded. When the segment's threads and queues are done it ends and the RUN completes OK; when it is stopped, is not to repeat a layer, and
its cores have stopped, the RUN completes with the segment's outcome, and then a halt is told with event 0x6120. The end of a RUN that was
launched outside a step ends an evaluation period. -/
def Obligations.RunsAreInstalledLaunchedAndEnded : Prop :=
  ∀ (p w q : Nat) (s : State) (k : Cmd),
    (∀ img, let b := begun s p w q
      Starts s p w q 0x01 k → k.serve = false → (b.partn p).runStepBad w = false → b.runRefused p w k img = none →
      (b.install p img).2 = none →
      exec (.run p w q img) s =
        .next ((b.install p img).1.onCmd p w q fun k => { k with phase := .accepted, started := 0, img := some img })) ∧
    (∀ img g i v, s.cmd p w q = some k → k.waiting = some img → runVariant k img = some (g, i, v) → k.serve = false → s.working = true →
      let cores := s.variantCores p v
      (s.stream p w).held = [] → (s.partn p).leaseAllows w = true → s.held p = false →
      s.hallsServe (coreHalls cores) compLaunch = true → (∀ h ∈ coreHalls cores, s.hallOn h = true) →
      s.coresFree cores = true → s.launchBefore p w k cores = false → (s.partn p).runStepBad w = false → (s.startPeriod p).2 = none →
      let u := (s.startPeriod p).1
      let keys := (u.partn p).runKeys k
      exec (.runLaunch p w q) s = .next (((u.launchRecords p w q g keys).onCmd p w q fun k =>
        { k with phase := .running, started := u.now, img := none }).launch p w q g.num i 0 v keys)) ∧
    (∀ g, s.segment p w q = some g → s.cmd p w q = some k → s.hallsServe (coreHalls g.cores) compWatch = true →
      (k.serve = false → g.stop = none → s.finishedCores g = true → (s.partn p).scheduleDone w q = true → s.working = true →
        s.hallsServe (coreHalls g.cores) compLaunch = true →
        let u := ((s.releaseCores g).onPartn p fun x =>
          { x with xruns := x.xruns.filter fun r => !(r.s = w && r.q = q) }).complete p w q .ok
        exec (.segmentEnd p w q) s = .next (if g.inStep then u else u.runPeriodEnd p)) ∧
      (g.stop ≠ none → (∀ i, g.stop ≠ some (.layer i)) → s.stoppedCores g = true → s.phase = .running →
        s.hallsServe (coreHalls g.cores) compHallFaults = true →
        let o := g.outcome
        let u := s.teardown g
        let u := if o.status = 0x04 ∧ g.inStep = true then u.stepFault p o.cause (some (w, q)) else u
        let u := (u.endServe p w q).complete p w q o
        let u := if o.cause = 0x0001 then u.raiseP 0x6120 p [g.haltVal / 2 ^ 64, g.haltVal % 2 ^ 64, g.halted, w, q] else u
        exec (.segmentFaultStopped p w q) s = .next (if g.inStep then u else u.runPeriodEnd p)))

open Sys2Proof Sys2Proof.Machine Sys2Proof.Claims in
/-- R191, R202 to R205, R355, R476. A segment that stopped to repeat layer i and whose cores have stopped ends its descriptors, sets its
marks back and clears its cores' latches, once, also while a Hall Scheduler is out of service. Where the Hall Schedulers serve, it restarts
the layer in the attempt that R203 chooses: the layer's outputs take the attempt's scales and formats, and where every scale entry is written the counts of the layer and of later ones leave their slots, the repeat is told, and its cores restart at the layer's entries for
the attempt. An entry that cannot be written stops the segment with SCALE_ENTRY instead, and nothing is counted. In a partition
that serves requests outside steps, the end of a watch interval ends the evaluation period and starts the next. -/
def Obligations.LayersAreRepeatedAndPeriodsEnd : Prop :=
  (∀ (p w q i : Nat) (s : State) (g : Segment) (l : LayerRec), s.segment p w q = some g → g.stop = some (.layer i) →
    g.variant.layers[i]? = some l → s.stoppedCores g = true → s.working = true →
    let flagged := (g.reports.filter fun r => !r.accumulator).map fun r => r.tensor
    let u := if g.restored then s else
      (g.cores.foldl (fun s c => s.onCore c fun k => { k with latch := false })
        (l.marks.foldl (fun s m => match g.marks.find? fun e => e.1 = m.1 with
          | some e => s.applyMark p m.1 (e.2 + BitVec.ofNat 32 m.2)
          | none => s) (s.dropDescs g))).onSegment p w q fun g => { g with restored := true }
    let c := ((u.partn p).attempts.get (attemptKey g i) {}).choose l.a16 (g.reports.any fun r => r.accumulator && l.a16)
    let next := fun (k : Slot) => if l.outputs.contains k.decl.tensor then
        Slot.attempt (u.scaleRule p) (u.setting p 0x4000 3) k c.1 c.2 (flagged.contains k.decl.tensor)
      else k
    let y := (u.onPartn p fun x => { x with slots := (u.partn p).slots.map next }).writeEntries p false
    let entries := match l.entries.find? fun e => e.level = c.1.level && e.a16 = (l.a16 && !c.1.a32) with
      | some e => e.entries
      | none => []
    (u.hallsServe (coreHalls g.cores) compLaunch = false → exec (.layerRestart p w q) s = .next u) ∧
    (u.hallsServe (coreHalls g.cores) compLaunch = true → y.2 = none →
      let v := y.1.onPartn p fun x => { x with
        slots := x.slots.zipIdx.map fun e => g.lessAttempt i e.2 e.1
        attempts := x.attempts.put (attemptKey g i) c.1 {} }
      let v := (v.tellRepeat p c.2 i c.1).bumpP p 0x8060 7 (v.now - g.layerStarts.get i g.started)
      exec (.layerRestart p w q) s = .next ((v.onSegment p w q fun g => g.reenter i v.now).restartCores g entries)) ∧
    ∀ slot a, u.hallsServe (coreHalls g.cores) compLaunch = true → y.2 = some (slot, a) → exec (.layerRestart p w q) s =
      .next ((y.1.onPartn p fun x => { x with slots := (u.partn p).slots }).onSegment p w q fun g => { g with
        stop := some .halt
        cause := 0x0033
        causeArg := slot
        detail := BitVec.ofNat 128 (a % 2 ^ 48) })) ∧
  ∀ (p : Nat) (s : State), (s.partn p).serves ≠ [] → (s.partn p).inStep = false → (s.partn p).periodStarted = true →
    s.hallsServing p = true → s.working = true → exec (.watchPeriodEnd p) s = .next ((s.endPeriod p).startPeriod p).1

open Sys2Proof Sys2Proof.Machine Sys2Proof.Claims in
/-- R328, R330 to R332. On a stream that serves nothing yet, a serving RUN that starts and is refused neither as a RUN nor as a serving
one runs and has no request. At a pass boundary its scheduler takes the batch of R331 and, with a writable batch table and free cores,
launches the variant for it. When the pass's segment is done, its slots are freed and each slot of a feed pass consumes its tokens, each
of a token pass gets a token record; a RUN that was told to stop then ends OK, where the Hall Schedulers serve. -/
def Obligations.ServingRunsPass : Prop :=
  ∀ (p w q : Nat) (s : State) (k : Cmd),
    (∀ img, let b := begun s p w q
      let u := (b.install p img).1.onCmd p w q fun k => { k with phase := .accepted, started := 0, img := some img }
      (b.install p img).2 = none → (s.partn p).serves.all (fun v => v.s ≠ w) = true → Starts s p w q 0x01 k → k.serve = true → (b.partn p).runStepBad w = false →
      b.runRefused p w k img = none → b.serveRefused p k img = none →
      u.cmd p w q = some { k with phase := .accepted, started := 0, img := some img } →
      exec (.runServe p w q img) s = .next ((u.onCmd p w q fun k => { k with phase := .running, started := u.now, img := none }).onPartn p
        fun x => { x with serves := x.serves ++ [{ s := w, q := q, segNum := bits k.raw.toNat 399 368,
                                                   seed := BitVec.ofNat 64 (bits k.raw.toNat 367 304), img := img }] })) ∧
    (∀ v d g c t, (s.partn p).serves.find? (fun v => v.s = w) = some v → v.img.serve = some d →
      v.img.segments.find? (fun g => g.num = v.segNum) = some g → s.cmd p w v.q = some k →
      (s.partn p).chooseBatch v d (s.setting p (0x3040 + p) 3) = some c → v.batch = none → v.stopping = false → k.phase = .running →
      s.working = true → (s.partn p).passesGoOn = true → s.held p = false → s.sup.recovering.contains p = false →
      let cores := ((g.variants[d.variantFor c.feed c.batch.length]?).map fun va => s.variantCores p va).getD []
      s.hallsServe ((s.halls p).take 1 ++ coreHalls cores) compLaunch = true → s.hallsServe ((s.halls p).take 1) compBatching = true →
      (∀ h ∈ (s.halls p).take 1 ++ coreHalls cores, s.hallOn h = true) → s.coresFree cores = true →
      s.launchBefore p w k cores = false → (s.startPeriod p).2 = none → (s.startPeriod p).1.writeBatch p d c = .ok t →
      exec (.servePassStart p w) s = .next (t.launchPass p v d g c)) ∧
    (∀ v (t : State), (t.partn p).serves.find? (fun v => v.s = w) = some v → t.endStopped p w =
      (if v.stopping ∧ v.batch = none ∧ t.working = true ∧ t.hallsServe (t.halls p) compLaunch = true ∧
          t.hallsServe (t.halls p) compWatch = true then ((t.endServe p w v.q).complete p w v.q .ok).runPeriodEnd p else t)) ∧
    ∀ v d g b, (s.partn p).serves.find? (fun v => v.s = w) = some v → v.img.serve = some d → s.segment p w v.q = some g →
      v.batch = some b → g.stop = none → s.finishedCores g = true → (s.partn p).scheduleDone w v.q = true → s.working = true →
      let u := (s.releaseCores g).onPartn p fun x => { x with xruns := x.xruns.filter fun r => !(r.s = w && r.q = v.q) }
      let u := u.onPartn p fun x => x.onServes fun e => if e.s = w && e.q = v.q then { e with batch := none } else e
      let u := if b.feed then b.slots.foldl (fun s b => s.endFeedSlot p b) u else b.slots.zipIdx.foldl (fun s e => s.endTokenSlot p d e) u
      exec (.servePassEnd p w) s = .next (u.endStopped p w)

open Sys2Proof Sys2Proof.Machine Sys2Proof.Claims in
/-- R329. A REQUEST_OPEN that starts on a stream without an open request, naming a serving RUN with a free context slot, takes that slot
and is that RUN's newest request. A FEED that starts after its open, with no earlier FEED uncompleted and a token array that translates,
is the request's FEED. A CLOSE that starts after its open completed completes OK, and the stream's ended requests free their slots. -/
def Obligations.RequestsOpenFeedAndClose : Prop :=
  ∀ (p w q : Nat) (s : State) (k : Cmd),
    let x := s.partn p
    let b := begun s p w q
    s.cmd p w q = some k → s.startAllowed p w k = true → (x.step = .discarded → x.stepOwner ≠ w) →
    (∀ v c, k.op = 0x50 → (x.stream w).openBefore k = none → x.openRequest w = none → x.serveOf (bits k.raw.toNat 447 434) = some v →
      v.freeSlot = some c →
      exec (.requestOpen p w q) s = .next (b.onPartn p fun y => y.onServes fun e => if e = v then { e with requests := e.requests ++
        [{ stream := w, openSeq := q, irq := k.irq, ctx := c, maxTokens := bits k.raw.toNat 433 418,
           endToken := BitVec.ofNat 32 (bits k.raw.toNat 417 386), seed := BitVec.ofNat 64 (bits k.raw.toNat 385 322),
           order := k.order }] } else e)) ∧
    (∀ j, k.op = 0x51 → (∀ e ∈ (x.stream w).before k, e.op ≠ 0x51) → (x.stream w).openBefore k = some j → j.phase = .running →
      b.vcheck p (bits k.raw.toNat 447 400) (4 * bits k.raw.toNat 399 384) false = none →
      exec (.requestFeed p w q) s = .next (b.onPartn p fun y => y.onRequest w j.seq fun r =>
        { r with feeds := [{ seq := q, addr := bits k.raw.toNat 447 400, ntok := bits k.raw.toNat 399 384, used := 0,
                             last := bit k.raw.toNat 383 }] })) ∧
    (k.op = 0x52 → (x.stream w).openBefore k = none →
      exec (.requestClose p w q) s = .next ((b.onPartn p fun y => y.onServes fun v =>
        { v with requests := v.requests.filter fun r => !(r.stream = w && r.ended) }).complete p w q .ok))

open Sys2Proof Sys2Proof.Machine Sys2Proof.Claims in
/-- R308, R170, R174, R180, R336. An IMPORT (mode 0) that starts with a readable source of NTILES good frames, on writable flash with room in the
partition's namespace and on an object of that many tiles or a new one below the limit, arrives at its object as a new version; an IMPORT (mode 1) that starts with the frames that
a recovery that has asked the host asks for completes OK and ends the recovery with event 0x3204. R308, R369, R448 to R451. EXPORT of an intact
partition in IDLE whose lists read, whose parts have shapes and whose records fit the writable destination writes the records and
completes with what came of it; one that depends on a poisoned object completes POISONED. IMPORT (mode 2) starts in IDLE and goes on; once every record of the source has been verified and its
destinations are writable, it writes every frame, makes the partition's state intact and completes OK. -/
def Obligations.ImportsAndShards : Prop :=
  (
  ∀ (p w q : Nat) (s : State) (k : Cmd) (fs : List (List Byte)),
    let b := begun s p w q
    let x := bits k.raw.toNat 397 366
    let n := bits k.raw.toNat 365 334
    let a := bits k.raw.toNat 445 398
    Starts s p w q 0x41 k → b.lake.readOnly = false →
    (bits k.raw.toNat 447 446 = 0 → s.tierServing x = true → ((b.obj p x).created = true → (b.obj p x).tiles = n) →
      ((b.obj p x).created = false → b.namespaceFull p n = false ∧
        ((b.partn p).objects.filter fun e => e.2.created).length < 2097152) →
      b.vcheck p a (n * 4672) false = none → b.readFrames p a n = .ok fs →
      exec (.importObject p w q) s = .next (b.tierArrive p x (.importVersion w q fs))) ∧
    (∀ r, bits k.raw.toNat 447 446 = 1 → s.tierServes x compRecovery = true → (b.obj p x).recovery = some r → (r.source = 4 ∨ r.asked = true) →
      r.ext = bits k.raw.toNat 333 314 →
      (b.obj p x).version.toNat = bits k.raw.toNat 313 250 →
      b.vcheck p a (((b.obj p x).extentFrames r.ext).length * 4672) false = none →
      b.readFrames p a ((b.obj p x).extentFrames r.ext).length = .ok fs →
      framesBad (b.obj p x).version ((b.obj p x).extentFrames r.ext) fs 0 = none →
      exec (.importRepair p w q) s = .next ((b.complete p w q .ok).recovered p x r fs 0x3204))) ∧
  (
  ∀ (p w q : Nat) (s : State) (k : Cmd),
    let b := begun s p w q
    let n := k.raw.toNat
    (∀ recs xrecs l, Starts s p w q 0x40 k → (b.partn p).step = .idle → (b.partn p).stateIntact = true →
      b.readLists p (bits n 447 400) (bits n 399 384) (bits n 383 336) (bits n 335 320) = .ok (recs, xrecs) →
      b.poisonedPart p (bits n 231 227) recs = none →
      b.shapes p ((b.partn p).shardParts (bits n 231 227) recs xrecs (b.sourceFmt p)) = (l, none) → shardBytes l ≤ bits n 271 232 →
      b.vcheck p (bits n 319 272) (shardBytes l) true = none →
      exec (.exportState p w q) s =
        .next ((b.writeShards p (bits n 319 272) l).1.complete p w q (b.writeShards p (bits n 319 272) l).2)) ∧
    (∀ recs xrecs o, Starts s p w q 0x40 k → (b.partn p).step = .idle → (b.partn p).stateIntact = true →
      b.readLists p (bits n 447 400) (bits n 399 384) (bits n 383 336) (bits n 335 320) = .ok (recs, xrecs) →
      b.poisonedPart p (bits n 231 227) recs = some o →
      exec (.exportState p w q) s = .next (b.complete p w q { status := 0x05, cause := 0x0020, detail := o * 2 ^ 96 })) ∧
    (Starts s p w q 0x41 k → bits n 447 446 = 2 → s.working = true → (b.partn p).step = .idle →
      exec (.importShard p w q) s = .next ((if b.peerSource p (bits n 445 398) then b.onLoads p fun l => l ++ [{ s := w, q := q }]
        else b).continueImport p w q)) ∧
    ∀ recs xrecs l, s.cmd p w q = some k → k.op = 0x41 → k.phase = .running →
      s.readLists p (bits n 397 350) (bits n 349 334) (bits n 333 286) (bits n 285 270) = .ok (recs, xrecs) →
      s.planImport p (bits n 445 398) ((s.partn p).loads.find? fun l => l.s = w && l.q = q) recs xrecs = .ok l →
      let t := l.foldl (fun s e => e.2.zipIdx.foldl (fun s f =>
          match s.vwrite p (e.1 + f.2 * 4672) f.1 with
          | .ok t => t
          | .error _ => s) s) (s.dropLoad p w q)
      s.continueImport p w q = (t.onPartn p fun x => { x with
        stateIntact := true, imported := true, importRecs := t.importedRecs p recs }).complete p w q .ok)

open Sys2Proof Sys2Proof.Machine Sys2Proof.Claims in
/-- R268, R282, R285, R287, R455, R463. A lane of a port that fails takes it down into training. An enabled port that is neither UP nor
HELD and trains its widest lanes is UP where the identities fit, at sequence 4095 with the credits that its peer grants and event 0x5202, and
HELD with 0x5204 where they do not. Cable power follows presence; a short takes the port DOWN. In a running module PORT_ENABLE ends a link
test that runs and starts training, where no cable contact is shorted, PORT_DISABLE takes the port DOWN, and on a disabled port a link test
starts; its end adds its bits and errors to the port's counters and tells them with event 0x1705 (log 139 for the errors of one that
PORT_ENABLE cuts). -/
def Obligations.LinksTrainAndFail : Prop :=
  ∀ (port : Nat) (s : State), port < s.part.ports →
    let x := s.port port
    (∀ lane, x.lanes.getLsbD lane = true → exec (.laneSignalLoss port lane) s = .next (s.portDown port .training)) ∧
    (∀ r : TrainResult, let n := widestLanes r.lanes
      (x.st = .down ∨ x.st = .training) → s.portEnabled port = true → x.shorted = false → n ≠ 0 → s.linkServing port = true →
      s.fabricOn port = true → s.phase = .running →
      (s.linkDim r = none →
        exec (.linkTrainingComplete port r) s = .next ((s.setPort port { x with st := .heldDown }).raiseM 0x5204 port [port, r.peerModule])) ∧
      ∀ d, s.linkDim r = some d →
        let credits := ((List.range 16).map fun k => (k, r.credits.getD k 0)).filter fun e => e.2 ≠ 0
        let y : Port := { x with st := .up, lanes := n, peerModule := r.peerModule, peerPort := r.peerPort, dimension := d, inDim := d,
                                 txSeq := 4095, replay := [], sent := [], lastAck := 4095, ackAt := s.now, replays := 0, rxSeq := 4095,
                                 nakOwed := false, nakSent := false, lastTold := 4095, owed := [], idle := none, sending := [], stomps := [],
                                 credits := credits }
        let u := { s with fabric := { s.fabric with farDown := r.down } }
        let u := (u.setPort port y).raiseM 0x5202 port [port, r.peerModule, laneCount n]
        let u := if laneCount n < 4 then (u.raiseM 0x5203 port [port, r.peerModule, laneCount n]).bump (0x8100 + port) 6 1 else u
        exec (.linkTrainingComplete port r) s = .next ((u.noteRoutes port).drive port)) ∧
    (∀ present, exec (.cablePresenceChange port present) s = .next (s.setPort port { x with cable := present, shorted := present && x.shorted })) ∧
    (x.cable = true → let u := s.portDown port .down
      exec (.cablePowerShort port) s = .next (u.setPort port { u.port port with shorted := true, st := .down })) ∧
    (s.phase = .running →
      (let u := s.setValue (okey (0x6100 + port) 1) [1]
       let v := u.cutLinkTest port
       ((u.port port).testSince = none → v = u) ∧
       (∀ t, (u.port port).testSince = some t → ∃ n errors, errors ≤ n ∧ v = u.fresh.endLinkTest port n errors) ∧
       ((v.port port).st ≠ .up → exec (.portEnable port) s = .next (v.setPort port
         { v.port port with st := if (v.port port).shorted then .down else .training, downTimes := [] }))) ∧
      (let u := (s.setValue (okey (0x6100 + port) 1) [0]).portDown port .down
       exec (.portDisable port) s = .next (u.setPort port { u.port port with st := .down })) ∧
      (s.portEnabled port = false → x.testSince = none →
        exec (.linkTestStart port) s = .next (s.setPort port { x with testSince := some s.now }))) ∧
    ∀ nbits errors, x.testSince ≠ none → exec (.linkTestEnd port nbits errors) s =
      .next ((s.setPort port { x with
        testSince := none, testBits := x.testBits + nbits, testErrors := x.testErrors + errors }).raiseM 0x1705 port [port, nbits, errors])

open Sys2Proof Sys2Proof.Machine Sys2Proof.Claims in
/-- R127, R274 to R277. In a working module a new packet in its landing, of partition d: a WRITE with a good frame into writable lake
pages is written and acknowledged, a READ_REQ of readable pages answered with their bytes, once the landing has room for the answer; where the
access does not translate each is answered by NAK_FAULT. A READ_DATA that fits puts its tile where its descriptor says, an ACK counts its
WRITE as delivered or takes its frame from the record's unacknowledged ones, a NAK_FAULT parks the descriptor. A packet that was accepted
already is counted, a WRITE of that kind acknowledged again; a PSN beyond the window is dropped and counted. -/
def Obligations.RemoteAccessesAreAnswered : Prop :=
  ∀ (die : Nat) (k : Packet) (s u : State), s.working = true → s.takeArrived die k = some u →
    (u.psnIs k = .old →
      (k.ptype = 1 → exec (.fabricWrite die k) s = .next (u.bump 0x8080 1 1)) ∧
      (k.ptype = 3 → exec (.readData die k) s = .next (u.bump 0x8080 1 1)) ∧
      (k.ptype = 4 → exec (.fabricAck die k) s = .next (u.bump 0x8080 1 1)) ∧
      (k.ptype = 8 → exec (.nakFault die k) s = .next (u.bump 0x8080 1 1))) ∧
    (k.ptype = 1 →
      (u.psnIs k = .duplicate → exec (.fabricWrite die k) s = .next ((u.bump 0x8080 1 1).answer k 4 0 [])) ∧
      (u.psnIs k = .fresh → frameCheckOk k.body = true →
        (∀ l, u.peerRange k true = .ok l → exec (.fabricWrite die k) s = .next (((u.writeParts l k.body).enterPsn k).answer k 4 0 [])) ∧
        ∀ e, u.peerRange k true = .error e → exec (.fabricWrite die k) s = .next (u.answer k 8 e []))) ∧
    (u.psnIs k = .fresh → let v := u.enterPsn k
      (k.ptype = 2 → s.landingFull k.dstPart (s.dieFor k.srcMod) = false → k.kind ≠ 2 → (k.addr % 64 ≠ 1 ∨ k.kind ≠ 0) →
        (∀ l, u.peerRange k false = .ok l → u.badPart l = none →
          exec (.readReq die k) s = .next (v.answer k 3 0 (u.partBytes l))) ∧
        ∀ e, u.peerRange k false = .error e → exec (.readReq die k) s = .next (u.answer k 8 e [])) ∧
      (∀ r d, v.remoteOf k = some r → r.load = none → v.descOf r = some d →
        (k.ptype = 3 → r.member = none → frameCheckOk k.body = true → frameFits d k.body = true →
          exec (.readData die k) s = .next ((v.dropRemote r).placeTile r.mover d r.tile k.body)) ∧
        (k.ptype = 4 → (v.partn k.dstPart).xruns.any (fun r => r.unacked.any (ackedFrame true k)) = false →
          exec (.fabricAck die k) s = .next ((v.dropRemote r).changeDesc r.mover d (d.fly r.tile true none none))) ∧
        (k.ptype = 8 → r.member = none → exec (.nakFault die k) s =
          .next (((v.dropRemote r).changeDesc r.mover d d).faultDesc r.mover d r.tile r.write
            { kind := k.kind, addr := if r.write then d.dst r.tile else d.src r.tile }))) ∧
      (k.ptype = 4 → (v.partn k.dstPart).xruns.any (fun r => r.unacked.any (ackedFrame true k)) = true → v.remoteOn k true = none →
        exec (.fabricAck die k) s = .next ((v.onPartn k.dstPart fun x =>
          { x with xruns := x.xruns.map fun r => { r with unacked := r.unacked.filter fun a =>
            !(a.peer = k.srcMod && a.psn = k.aux && a.vl = k.vl) } }).notePeers k.dstPart)))

open Sys2Proof Sys2Proof.Machine Sys2Proof.Claims in
/-- R252 to R254, R256, R258, R259, R276, R277. In a working module a new frame of a started record in its landing: an XFRAME of a group
member that the record takes adds the contributions it lacks and is acknowledged; an MCAST tile that the record wants from its source, with
a good frame of its tensor and of the origin expected, is written unless it has been and acknowledged. A CANCEL ends its incomplete record
with PEER_CANCELLED and event 0x5103. A duplicate and an old frame are dropped and counted, whether the record still runs or not. A remote
access without answer is sent once more; the second time event 0x5206 is raised with the port, what has not left does not leave any more,
and its descriptor stops at the tile with PEER. -/
def Obligations.ExchangeFramesArrive : Prop :=
  (∀ (die : Nat) (k : Packet) (s u : State) (x : Nat) (r : XRun) (parts : List Contribution), let p := k.dstPart
    s.working = true → s.takeArrived die k = some u → u.psnIs k = .fresh → k.ptype = 5 → s.recordOf k p = some (x, r) →
    r.reduces = true → (u.groupMembers p r.group).contains k.srcMod = true →
    r.judge (u.expectedOrigin p r false k.addr) (u.ranks p r) (u.myRank p r) (u.rankOf p r k.srcMod) k.addr k.body = .good parts →
    exec (.xframe die k) s = .next ((((u.onX p x fun r => { r with parts := r.parts ++ parts.filter r.lacks }).enterPsn k).answer
      k 4 0 []).notePeers p)) ∧
  (∀ (die : Nat) (k : Packet) (s u : State) (x : Nat) (r : XRun), let p := s.endPart k
    s.working = true → s.takeArrived die k = some u → u.psnIs k = .fresh → k.ptype = 6 → s.recordOf k p = some (x, r) →
    r.kind ≠ 0 → (k.tree = true → k.mgroup = r.group) → (u.groupMembers p r.group).contains k.srcMod = true →
    (u.xWanted p r).contains k.addr = true → u.sourceOf p r k.addr = k.srcMod → frameCheckOk k.body = true →
    (frameHeader k.body).tensor = (if r.kind = 3 then r.dstTensor else r.srcTensor) →
    (∀ o, u.expectedOrigin p r true k.addr = some o → (frameHeader k.body).origin = o) →
    let v := if r.written.contains k.addr then u.enterPsn k else (u.enterPsn k).putTile p x k.addr (u.rankOf p r k.srcMod) k.body
    exec (.mcast die k) s = .next ((v.answer
      { k with route := BitVec.ofNat 256 (k.route.toNat - k.dstPart * 2 ^ 242 + p % 4 * 2 ^ 242) } 4 0 []).notePeers p)) ∧
  (∀ (die : Nat) (k : Packet) (s u : State) (x : Nat) (r : XRun), let v := u.enterPsn k
    s.working = true → s.takeArrived die k = some u → u.psnIs k = .fresh → k.ptype = 7 →
    (v.partn k.dstPart).xidAt k.aux = some x → (v.partn k.dstPart).xruns[x]? = some r → r.complete = false →
    exec (.fabricCancel die k) s = .next ((v.endPeer k.dstPart x 0x0006 k.srcMod (some 0x5103)).notePeers k.dstPart)) ∧
  (∀ (die : Nat) (k : Packet) (s u : State), s.working = true → s.takeArrived die k = some u → u.psnIs k ≠ .fresh →
    (k.ptype = 5 → exec (.xframe die k) s = .next (u.bump 0x8080 1 1)) ∧
    (k.ptype = 6 → exec (.mcast die k) s = .next (u.bump 0x8080 1 1)) ∧
    (k.ptype = 7 → exec (.fabricCancel die k) s = .next (u.bump 0x8080 1 1))) ∧
  (∀ (p vl psn : Nat) (s : State) (r : Remote), s.fabric.remotes.find? (fun r => r.p = p && r.vl = vl && r.psn = psn) = some r →
    r.attempts < 2 → exec (.packetTimeout p ⟨vl, psn⟩) s =
      .next (((s.bump 0x8080 6 1).setRemote r { r with attempts := 2, since := s.now }).send r.packet)) ∧
  ∀ (p vl psn : Nat) (s : State) (r : Remote) (d : Desc),
    s.fabric.remotes.find? (fun r => r.p = p && r.vl = vl && r.psn = psn) = some r →
    let port := ((s.outPort r.packet.dstMod).map Prod.fst).getD 255
    let v := ((((s.bump 0x8080 6 1).recall r).raise 0x5206 p port [port, r.packet.dstMod]).dropRemote r)
    2 ≤ r.attempts → r.load = none → r.member = none → v.descOf r = some d →
    exec (.packetTimeout p ⟨vl, psn⟩) s = .next ((v.changeDesc r.mover d d).stopDesc r.mover d r.tile (.fail spPeer))

open Sys2Proof Sys2Proof.Machine Sys2Proof.Claims in
/-- R297 to R301, R310, R316, R437. On an existing stream: setting EN while host writes are taken loads ACCEPT and the doorbell from
START_SEQ; clearing it with nothing uncompleted or held disables it. On an enabled one a valid CMD_DOORBELL, after what the host has
stored, moves the doorbell; one that lies behind or beyond the ring changes nothing but its count and event 0x6110; CPL_HEAD moves the
head and lets held records go; an abort doorbell aborts. COMMAND_ACCEPT accepts the next covered command where acceptance is not paused
and the hold-up energy is enough, and notes that it waits for its record to be mirrored where it is not; a pause of an enabled stream's acceptance is noted, and its time counted when it ends; mirroring some
bytes of the journal tail, oldest first, makes the waiting acceptances whose own records are mirrored then, in their order. -/
def Obligations.StreamsAcceptCommands : Prop :=
  (∀ (p w : Nat) (s : State), s.streamExists p w = true →
    let m := s.stream p w
    (s.hostWrites = true → m.en = false → exec (.streamEnable p w) s = .next (s.onStream p w fun m => { m with
      en := true
      accept := m.startSeq
      doorbell := m.startSeq
      cplTail := 0
      cplHead := 0 })) ∧
    (s.hostWrites = true → m.en = true → m.journal = [] → m.held = [] → exec (.streamDisable p w) s =
      .next ((s.onStream p w fun m => { m with en := false }).unpinAll p w)) ∧
    (m.en = true → s.phase = .running → s.sup.failover = false → s.power.powerFail = false → s.power.perstN = true →
      (∀ d : U64, let e : U48 := d.setWidth 48
        (seqLe m.doorbell e = true → (e - m.accept).toNat ≤ m.cmdEntries →
          exec (.cmdDoorbell p w d []) s = .next (s.onStream p w fun m => { m with doorbell := e })) ∧
        (seqLe m.doorbell e = false ∨ m.cmdEntries < (e - m.accept).toNat →
          exec (.cmdDoorbell p w d []) s = .next ((s.bumpP p 0x80B0 7 1).raiseP 0x6110 p [w, e.toNat]))) ∧
      (∀ h, exec (.cplHead p w h) s = .next ((s.onStream p w fun m => { m with cplHead := h.setWidth 48 }).flushHeld p w)) ∧
      ∀ a, exec (.abortDoorbell p w a) s = .next (s.abortStream p w (a.setWidth 48))) ∧
    (m.covered = true → s.up = true → s.acceptPaused p w = false → 524288 ≤ s.power.sensors.holdupTail →
      exec (.commandAccept p w) s = .next (s.acceptOne p w))) ∧
  (∀ (p w : Nat) (d : U64) (l : List (Nat × List Byte)) (s : State),
    exec (.cmdDoorbell p w d l) s =
      exec (.cmdDoorbell p w d []) (l.foldl (fun s e => { s with host := s.host.putBytes e.1 e.2 }) s)) ∧
  (∀ (p w : Nat) (s : State), let m := s.stream p w
    (m.en = true → s.acceptPaused p w = true →
      s.settlePause p w = s.onStream p w fun m => { m with pausedSince := some (m.pausedSince.getD s.now) }) ∧
    (m.en = false ∨ s.acceptPaused p w = false → ∀ t, m.pausedSince = some t →
      s.settlePause p w = (s.onStream p w fun m => { m with pausedSince := none }).bumpP p 0x80B0 6 (s.now - t)) ∧
    (m.pausedSince = none → (m.en = false ∨ s.acceptPaused p w = false) → s.settlePause p w = s)) ∧
  (∀ (n : Nat) (s : State), s.up = true → s.sup.failover = false →
    let waits := s.sup.acceptWaits.map fun e => (e.1, e.2.1, e.2.2 - n)
    exec (.journalTailMirrored n) s = .next ((waits.filter fun e => e.2.2 = 0).foldl (fun s e => s.acceptMirrored e.1 e.2.1)
      { s with sup := { s.sup with
        unmirrored := s.sup.unmirrored - n
        acceptWaits := waits.filter fun e => e.2.2 ≠ 0 } })) ∧
  (∀ (p w : Nat) (s : State),
    ((s.stream p w).covered = true → s.acceptPaused p w = false → s.acceptMirrored p w =
      { s.acceptOne p w with sup := { (s.acceptOne p w).sup with unmirrored := s.sup.unmirrored } }) ∧
    ((s.stream p w).covered = false ∨ s.acceptPaused p w = true → s.acceptMirrored p w = s)) ∧
  ∀ (p w : Nat) (s : State), s.streamExists p w = true → (s.stream p w).covered = true → s.up = true → s.acceptPaused p w = false →
    s.power.sensors.holdupTail < 524288 → (∀ e ∈ s.sup.acceptWaits, ¬(e.1 = p ∧ e.2.1 = w)) →
    exec (.commandAccept p w) s = .next { s with sup := { s.sup with
      acceptWaits := s.sup.acceptWaits ++ [(p, w, s.sup.unmirrored + 64)]
      unmirrored := s.sup.unmirrored + 64 } }

open Sys2Proof Sys2Proof.Machine Sys2Proof.Claims in
/-- R310, R316 to R318. An abort up to A of an enabled stream first accepts the covered commands up to A; the commands that it wins
against, those before their commit points (a MARK_WAIT's is the target reached), are noted with the abort and dealt with one by one after the stream's pins are gone and, where
the stream's step is past its commit point or lost a command, the step is aborted. -/
def Obligations.AbortsWinBeforeCommitPoints : Prop :=
  ∀ (p w : Nat) (a : U48) (s : State), s.streamExists p w = true → (s.stream p w).en = true →
    let u := s.acceptTo p w a ((s.stream p w).doorbell - (s.stream p w).accept).toNat
    let x := u.partn p
    let hits := (x.stream w).journal.filter fun k => seqLe (BitVec.ofNat 48 k.seq) a &&
      (k.phase = .accepted || k.phase = .running || k.phase = .stopping) &&
      !(k.op = 0x04 && k.phase = .running && k.satisfied) &&
      !(k.op = 0x13 && (x.step = .sweeping || x.step = .swept) && k.step = x.stepNo.toNat)
    let v := (u.onStream p w fun m => { m with
      aborts := m.aborts ++ [{ upTo := a, count := hits.length, waiting := hits.map fun k => k.seq }] }).unpinAll p w
    let v := if x.step ≠ .idle ∧ x.stepOwner = w ∧ (x.step = .sweeping ∨ x.step = .swept ∨ hits ≠ []) then v.abortStep p w else v
    let v := ((hits.foldl (fun s k => s.abortOne p w k) v).settleOwed p).settleFeeds p w (x.serviceOf w)
    s.abortStream p w a = v.writeAborts p w (v.stream p w).aborts

open Sys2Proof Sys2Proof.Machine Sys2Proof.Claims in
/-- R321 to R327. While host writes are taken: ATTACH with 0 to a DETACHED partition whose host sets feature 0 begins a session with a new
token (in SLEEP every ATTACH starts the wake, R440); ATTACH with the current token resumes an ORPHAN, PARKED or EXPORTED one with event 0x6102 and its held records; the current token
renews an attached lease, any other LEASE value is counted. A lease that expires makes an attached partition ORPHAN, counted, with event
0x6101, or is latched in a failover; an ORPHAN one without work becomes PARKED with 0x6103; when the orphan hold elapses a PARKED one is
exported. A function reset gives the MSI-X table and the configuration space their reset values, with nothing pending, and lets the lease
expire. -/
def Obligations.SessionsAndLeases : Prop :=
  ∀ (p : Nat) (s : State), let x := s.partn p
    (s.hostWrites = true → x.st ≠ .none →
      (x.st = .detached → x.regs.featHost.getLsbD 0 = true → exec (.attach p 0) s =
        .next
        (s.fresh.beginSession p (newToken x.tokens (Config.token s.freeUsed))).startWake) ∧
      (∀ v, v ≠ 0 → v = x.regs.session →
        ((x.st = .orphan ∨ x.st = .parked ∨ x.st = .exported) → x.regs.featHost.getLsbD 0 = true →
          exec (.attach p v) s = .next (((s.beginSession p v).raiseP 0x6102 p []).flushAll p).startWake) ∧
        (x.st = .attached → exec (.attach p v) s = .next (s.onPartn p fun x => { x with leaseFrom := s.now }).startWake) ∧
        (x.st = .attached → x.leaseExpired = false → exec (.lease p v) s = .next (s.onPartn p fun x => { x with leaseFrom := s.now }))) ∧
      (∀ v, (v = 0 ∨ v ≠ x.regs.session) → exec (.lease p v) s = .next (s.bumpP p 0x80B0 15 1))) ∧
    (s.up = true → x.st = .attached →
      (s.sup.failover = true → exec (.leaseExpiry p) s = .next (s.onPartn p fun x => { x with leaseExpired := true })) ∧
      (s.sup.failover = false →
        let u := ((s.onPartn p fun x => { x with st := .orphan, leaseExpired := false, orphanSince := some s.now }).bumpP p 0x80B0 8 1).raiseP
          0x6101 p []
        exec (.leaseExpiry p) s = .next u)) ∧
    (s.up = true → x.st = .orphan → s.orphanWork p = false → x.holdElapsed = false →
      exec (.partitionPark p) s = .next ((s.onPartn p fun x => { x with st := .parked }).raiseP 0x6103 p [])) ∧
    (s.up = true → x.orphanSince ≠ none → let u := s.onPartn p fun x => { x with orphanSince := none }
      (x.st = .parked → exec (.orphanHoldExpiry p) s = .next (u.orphanExport p)) ∧
      (x.st = .orphan → exec (.orphanHoldExpiry p) s = .next (u.onPartn p fun x => { x with holdElapsed := true }))) ∧
    (0 < p → p < 4 → s.hostWrites = true →
      exec (.functionLevelReset p) s = .next ((s.onPartn p fun x => x.onRegs fun r => { r with
        msixTable := [], msixPending := [], config := {} }).expireLease p))

open Sys2Proof Sys2Proof.Machine Sys2Proof.Claims in
/-- R293, R294, R320, R392, R393. While host writes are taken: PT_ROOT of an existing partition keeps its V bit and root, FQ_HEAD moves
and waiting fault records are posted, MB_CTRL starts a mailbox request while none is busy and is discarded and counted while one is, if partition 0 exists, without which PF0
shows no mailbox (R291). A
64-bit aligned write of BAR0 acts as its register says; one of another size or alignment is discarded and counted. R292. BAR4 of a function
that has a partition holds the MSI-X table, whose write lets messages go that are pending and no longer masked; the message of a masked
vector becomes pending, any other is sent. -/
def Obligations.RegisterWritesActByAddress : Prop :=
  ∀ s : State, s.hostWrites = true →
    (∀ (p : Nat) (v : U64), (s.partn p).st ≠ .none →
      exec (.ptRoot p v) s = .next (s.onPartn p fun x => x.onRegs fun r => { r with ptRoot := v &&& 0x1FFFFFFF001 }) ∧
      (let u := s.onPartn p fun x => x.onRegs fun r => { r with fqHead := v }
       exec (.fqHead p v) s = .next (u.postFaults p (u.partn p).faultWaiting.length))) ∧
    (∀ v : U64, (s.partn 0).st = .none → exec (.mbCtrl v) s = .next s) ∧
    (∀ v : U64, (s.partn 0).st ≠ .none → (s.mgmt.mbBusy = false →
        exec (.mbCtrl v) s = .next { s with mgmt := { s.mgmt with mbBusy := true, mbReady := false, mbCtrl := v } }) ∧
      (s.mgmt.mbBusy = true → exec (.mbCtrl v) s = .next (s.badAccess 0))) ∧
    ∀ (p offset size : Nat) (v : U64), p < 4 →
      (size = 8 → offset % 8 = 0 → exec (.registerWrite p 0 offset size v) s = .next (s.bar0Write p offset v)) ∧
      (size ≠ 8 ∨ offset % 8 ≠ 0 → exec (.registerWrite p 0 offset size v) s = .next (s.badAccess p)) ∧
      (offset + size ≤ 0x8000 → (s.partn p).st ≠ .none → ∃ table,
        exec (.registerWrite p 4 offset size v) s =
          .next ((s.onPartn p fun x => x.onRegs fun r => { r with msixTable := table }).sendPending p) ∧
        ∀ r : FnRegs, r.msixTable = table → ∀ i, r.msixByte i =
          if offset ≤ i ∧ i < offset + Min.min size 8 then BitVec.ofNat 8 (v.toNat / 256 ^ (i - offset)) else (s.partn p).regs.msixByte i) ∧
      ((s.partn p).st = .none → exec (.registerWrite p 4 offset size v) s = .next s) ∧
      ∀ vector, (((s.partn p).regs.masked vector = true ↔ ((s.partn p).regs.msixByte (16 * vector + 12)).getLsbD 0 = true) ∧
        ((s.partn p).regs.masked vector = false → (s.signal p vector).msix = s.msix ++ [(p, vector)] ∧
          (s.signal p vector).parts = (s.onPartn p id).parts) ∧
        ((s.partn p).regs.masked vector = true → (s.signal p vector).msix = s.msix ∧
          vector ∈ ((s.signal p vector).partn p).regs.msixPending))

namespace Sys2Proof.Claims

open Sys2Proof.Machine

/-- The request has been counted, and its time noted. -/
def seen (s : State) (n : Nat) : State :=
  (s.bump 0x8020 1 1).onSession n fun x =>
    { x with times := ((s.session n).times.filter fun t => s.now < t + 1000000) ++ [s.now] }

/-- A request frame of an opcode reaches session n, is one that the session has not sent before, is in order, well formed and within the
rate, and the module's state and the session's mask admit its opcode (R379, R386, R389, R396). -/
def Requests (s : State) (n : Nat) (frame : List Byte) (op : Nat) : Prop :=
  (if n = 0 then s.mailboxHolds frame = true else (s.session n).alive = true) ∧ ndOp frame = op ∧ s.serves = true ∧
    ((s.session n).times.filter fun t => s.now < t + 1000000).length < 2000 ∧ 16 ≤ frame.length ∧ ndReq frame ≠ 0 ∧
    (s.session n).responses.find? (fun e => e.1 = ndReq frame) = none ∧
    ((s.session n).lastReq = 0 ∨ (let a := (ndReq frame + 2 ^ 32 - (s.session n).lastReq) % 2 ^ 32; 0 < a ∧ a < 2 ^ 31)) ∧
    ndFormatOk frame = true ∧ (seen s n).gate n op = ndOk

end Sys2Proof.Claims

open Sys2Proof Sys2Proof.Machine Sys2Proof.Claims in
/-- R379, R384 to R386. A request that is to be executed is counted and answered, its answer kept. READ with a good body answers as the
object reads. WRITE of one entry is a set of that entry, opened and committed at once. READ_BLOCK of a readable BLOB answers its segment;
WRITE_BLOCK to a BLOB that is not absent stages a segment that follows the ones before, and the last one is a WRITE of the whole. A snapshot is released after its
time. -/
def Obligations.ObjectsAreReadAndWritten : Prop :=
  ∀ (n : Nat) (frame : List Byte) (s : State),
    let b := frame.drop 16
    let u := seen s n
    let key := okey (fieldOf b 0 2) (fieldOf b 2 1)
    (Requests s n frame 0x01 → b.length = 4 → fieldOf b 3 1 = 0 →
      exec (.ndoitRead n frame) s = .next (u.answerNd n frame (u.readObject key))) ∧
    (∀ e, Requests s n frame 0x02 → entryAt b = some (e, []) →
      exec (.ndoitWrite n frame) s = .next ((u.writeOne n e).1.answerNd n frame (u.writeOne n e).2)) ∧
    (∀ r, Requests s n frame 0x03 → b.length = 12 → fieldOf b 3 1 = 0 → fieldOf b 10 2 = 0 → 0 < fieldOf b 8 2 → fieldOf b 8 2 ≤ 992 →
      objRow key = some r → r.access ≠ .wo → u.absentKey key = false → r.type = 8 →
      exec (.readBlock n frame) s = .next ((u.readSegment n key (fieldOf b 4 4) (fieldOf b 8 2)).1.answerNd n frame
        (u.readSegment n key (fieldOf b 4 4) (fieldOf b 8 2)).2)) ∧
    (∀ r, Requests s n frame 0x04 → b.length = 12 + fieldOf b 8 2 → 0 < fieldOf b 8 2 → fieldOf b 8 2 ≤ 992 → fieldOf b 11 1 = 0 →
      objRow key = some r → u.absentKey key = false → r.type = 8 → fieldOf b 3 1 = 8 →
      ((u.session n).stagingOn = false ∧ fieldOf b 4 4 = 0 ∨
        (u.session n).stagingOn = true ∧ (u.session n).stagingKey = key ∧ fieldOf b 4 4 = (u.session n).staging.length) →
      let data := (if fieldOf b 4 4 = 0 then [] else (u.session n).staging) ++ b.drop 12
      (fieldOf b 10 1 = 0 → exec (.writeBlock n frame) s = .next ((u.onSession n fun x =>
        { x with staging := data, stagingKey := key, stagingOn := true }).answerNd n frame { status := ndOk })) ∧
      (fieldOf b 10 1 = 1 →
        let v := (u.onSession n fun x => { x with staging := [], stagingOn := false }).writeOne n { key := key, type := 8, value := data }
        exec (.writeBlock n frame) s = .next (v.1.answerNd n frame v.2))) ∧
    exec (.blockSnapshotExpiry n) s = .next (s.onSession n fun x => { x with snapshot := none })

open Sys2Proof Sys2Proof.Machine Sys2Proof.Claims in
/-- R381, R382, R391, R396. A handshake of a chained client to a new session, with an anchor and room, opens it with event 0x1503; another
is counted with 0x1505. SUBSCRIBE with a good body sets the mask and the first record and delivers what the log holds; the first HEARTBEAT
fixes the agreed features and each is answered; a subscriber's tick sends a heartbeat. A session without heartbeats ends. -/
def Obligations.SessionsOpenSubscribeAndEnd : Prop :=
  ∀ (n : Nat) (frame : List Byte) (s : State), n ≠ 0 →
    let b := frame.drop 16
    let u := seen s n
    (s.serves = true →
      (∀ chains, (s.session n).alive = false →
        exec (.dtlsHandshake n chains) s = .next (if chains = true ∧ s.value s.viewPart (okey 0x1110 1) ≠ [] ∧
            (s.mgmt.sessions.filter fun e => e.2.alive && e.1 ≠ 0).length < Min.min 8 (s.moduleSetting 0x1100 6) then
          (s.onSession n fun x => { alive := true, sent := x.sent }).raiseM 0x1503 255 []
        else (s.bump 0x8020 5 1).raiseM 0x1505 255 [])) ∧
      ((s.session n).subscribed = true →
        exec (.subscriberHeartbeatTick n) s = .next (s.respond n (ndoitFrame 0x30 0 0 0 (s.heartbeatBody n)))) ∧
      exec (.sessionHeartbeatTimeout n) s = .next (s.endSession n)) ∧
    (Requests s n frame 0x20 → b.length = 12 → fieldOf b 2 2 = 0 → fieldOf b 0 2 < 256 → bit (fieldOf b 0 2) 0 = false →
      let first := fieldOf b 4 8
      exec (.subscribe n frame) s = .next (((u.onSession n fun x =>
        { x with subMask := fieldOf b 0 2, nextEvent := if first = 2 ^ 64 - 1 then u.nextEvent else first }).answerNd n frame
          { status := ndOk, body := leBytes 8 u.nextEvent }).deliver n)) ∧
    (Requests s n frame 0x30 → b.length = 16 →
      let v := if (u.session n).agreed = none then
          u.onSession n fun x => { x with agreed := some (BitVec.ofNat 128 (leNat b) &&& BitVec.ofNat 128 u.features) }
        else u
      exec (.heartbeat n frame) s = .next (v.answerNd n frame { status := ndOk, body := v.heartbeatBody n }))

open Sys2Proof Sys2Proof.Machine Sys2Proof.Claims in
/-- R398, R402, R404. A CHANGESET_OPEN that is to be executed, in a session without an open set, opens one under a new CSID; ADD adds
entries that pass while the set has room; COMMIT closes it and queues an ordinary set or submits a protection set, with the answer's
status; ABORT of the session's open set closes it. R344, R349, R401 to R403. A committed set that is eligible notes the partitions at a
boundary; once it may be decided, it is decided where it stands and rolled back with reason 2 where not. A committed, eligible set whose
time ends, in a module that is up, is rolled back with reason 1 and a partition that did not reach its boundary, or, where the set writes 1
to Power.Sleep, one that is not idle, with event 0x2403; an update that lets no set be decided extends the time of one that has become
eligible since its start (R414, R438). The protection window
ends with reason 1, the lockout ends, and debug mode raises event 0x7006 each hour. -/
def Obligations.ChangeSetsAreBuiltAndDecided : Prop :=
  (
  ∀ (n : Nat) (frame : List Byte) (s : State),
    let b := frame.drop 16
    let u := seen s n
    (∀ kind, Requests s n frame 0x10 → kind = fieldOf b 0 1 → kind ≤ 2 → fieldOf b 1 3 = 0 → b.length = (if kind = 2 then 52 else 4) →
      (u.session n).openSet = none →
      let id := u.mgmt.lastCsid % 65535 + 1
      let v := { u with mgmt := { u.mgmt with
        lastCsid := id
        sets := u.mgmt.sets ++ [({ csid := id, sess := n, kind := kind, digest := b.drop 4 } : ChangeSet)] } }
      exec (.changesetOpen n frame) s =
        .next ((v.onSession n fun x => { x with openSet := some id }).answerNd n frame { status := ndOk, csid := id })) ∧
    (∀ c, u.ownSet n (ndCsid frame) = some c →
      (∀ es, Requests s n frame 0x11 → c.kind ≠ 2 → 4 ≤ b.length → fieldOf b 2 2 = 0 → fieldOf b 0 2 ≠ 0 → fieldOf b 0 2 ≤ 64 →
        entriesOf (fieldOf b 0 2) (b.drop 4) = some es → u.addStatus n c.kind c.entries es = ndOk →
        (c.entries ++ es).length ≤ 256 → ((c.entries ++ es).map fun e => e.value.length).sum ≤ 16384 →
        exec (.changesetAdd n frame) s = .next ((u.onSet c.csid fun c => { c with entries := c.entries ++ es }).answerNd n frame
          { status := ndOk, csid := c.csid })) ∧
      (Requests s n frame 0x12 → fieldOf b 0 1 ≤ 1 → fieldOf b 1 3 = 0 → b.length = (if fieldOf b 0 1 = 1 then 52 else 4) →
        let v := u.closeSet n
        let stated := if fieldOf b 0 1 = 1 then some (b.drop 4) else none
        let r := if c.kind = 0 then v.commitSet n c.csid c.entries
          else if c.kind = 1 then v.submit n 1 c.csid c.entries stated
          else v.submit n 2 c.csid [] (some c.digest)
        exec (.changesetCommit n frame) s = .next (r.1.answerNd n frame { status := r.2, csid := c.csid })) ∧
      (Requests s n frame 0x13 → b = [] →
        exec (.changesetAbort n frame) s = .next ((u.closeSet n).answerNd n frame { status := ndOk, csid := ndCsid frame })))) ∧
  (
  (∀ (i : Nat) (s : State) (c : ChangeSet), let u := s.refreshEligible
    u.findSet i = some c → c.phase ≠ .decided → c.eligible ≠ none →
    let d := { c with reached := c.reached ++ c.affected.filter fun p => u.atBoundary p && !c.reached.contains p }
    let v := u.onSet i fun _ => d
    exec (.changesetDecision i) s =
      .next (if v.mayDecide d then (if v.setStands d then v.decideSet d else v.rollbackSet i 2 none) else v)) ∧
  (∀ (i t : Nat) (s : State) (c : ChangeSet), s.findSet i = some c → c.phase = .committed → c.eligible = some t →
    s.up = true → s.sup.failover = false →
    let late := (c.affected.filter fun p => !c.reached.contains p).head?
    (s.setsWait = true → s.update.since ≤ t → exec (.changesetTimeout i) s = .next s) ∧
    (s.setsWait = false ∨ t < s.update.since →
      (c.asksSleep = false ∨ s.notIdle = [] → exec (.changesetTimeout i) s = .next (s.rollbackSet c.csid 1 late)) ∧
      ∀ p rest, c.asksSleep = true → s.notIdle = p :: rest →
        exec (.changesetTimeout i) s = .next ((s.rollbackSet c.csid 1 (some (late.getD p))).raiseP 0x2403 p [p]))) ∧
  ∀ s : State,
    (s.up = true → exec .protectionWindowExpiry s = .next (s.endWindow 1) ∧
      (s.moduleSetting 0xA010 3 = 1 → exec .debugUnlocked s = .next (s.raiseM 0x7006 255 []))) ∧
    exec .protectionLockoutExpiry s = .next { s with mgmt := { s.mgmt with lockedFrom := none } })

open Sys2Proof Sys2Proof.Machine Sys2Proof.Claims in
/-- R350 to R357, R417. In a running module a processor other than the Supervisors that runs restarts a component of its own that hangs or
breaches alone, which takes no other component of it out of service, and restarts whole where several hang or its memory fails; a component
that it does not have changes nothing. When a whole restart ends, or that of the component restarting longest, it is counted with the wait
for it and told, 0x1002 or 0x1001, and a Tier Manager whose recovery component was restarted starts its recoveries anew. A breach of code
that a handover brought undoes the handover. R352, R353. Fewer than two restarts of a component within ten minutes are followed by a
restart of it alone; fewer than three whole restarts by another; otherwise the component's restart is a whole one, and a whole one of a Hall
Scheduler, Tier Manager or Link Manager is a fatal error. -/
def Obligations.ProcessorRestartsEscalate : Prop :=
  (
  ∀ (n : Nat) (s : State), 2 ≤ n → n ≠ s.sup.activeSup → s.hasProc n = true → s.phase = .running →
    let x := s.proc n
    (x.st = .running →
      (∀ c, c < procComps n → (∀ e ∈ x.comps, e.1 ≠ c) →
        exec (.watchdogExpiry n [c]) s = .next (s.restartComponent n c) ∧
        (s.handedOver n = false → exec (.protectionBreach n c) s = .next (s.restartComponent n c)) ∧
        (s.handedOver n = true → exec (.protectionBreach n c) s = .next (s.restartComponent n c).handoverBack)) ∧
      (∀ c, procComps n ≤ c → exec (.watchdogExpiry n [c]) s = .next s) ∧
      (∀ a b, a < procComps n → b < procComps n → a ≠ b → (∀ e ∈ x.comps, e.1 ≠ a ∧ e.1 ≠ b) →
        exec (.watchdogExpiry n [a, b]) s = .next (s.restartWhole n)) ∧
      exec (.processorMemoryUncorrectable n) s = .next (s.restartWhole n)) ∧
    (x.st = .restarting →
      let d := s.now - x.since
      let u := s.setProc n { x with st := .running, whole := false, restarts := x.restarts + 1, lastMicros := d }
      let u := if u.waitsOn n then u.bump 0x8010 6 d else u
      let u := if 6 ≤ n ∧ n < 10 then u.restartRecoveries (n - 6) else u
      exec (.processorRestartComplete n) s = .next ((u.bump 0x8010 1 1).raiseM 0x1002 n [])) ∧
    (∀ c since rest, x.st = .running → x.comps = (c, since) :: rest →
      let d := s.now - since
      let u := s.setProc n { x with comps := rest, lastMicros := d }
      let u := if u.waitsOn n then u.bump 0x8010 6 d else u
      let u := if c = compRecovery ∧ 6 ≤ n ∧ n < 10 then u.restartRecoveries (n - 6) else u
      exec (.processorRestartComplete n) s = .next ((u.bump 0x8010 2 1).raiseM 0x1001 n [c])) ∧
    ∀ c, s.compUp n c = true ↔ x.st = .running ∧ ∀ e ∈ x.comps, e.1 ≠ c) ∧
  (
  ∀ (n c : Nat) (s : State), 2 ≤ n → n ≠ 14 →
    let x := s.proc n
    let parts := x.compTimes.filter fun e => s.now < e.1 + 600000000
    let wholes := x.wholeTimes.filter fun t => s.now < t + 600000000
    ((parts.filter fun e => e.2 = c).length < 2 → s.restartComponent n c = s.setProc n { x with
      comps := x.comps ++ [(c, s.now)]
      compTimes := parts ++ [(s.now, c)] }) ∧
    (2 ≤ (parts.filter fun e => e.2 = c).length →
      s.restartComponent n c = (s.setProc n { x with compTimes := parts }).restartWhole n) ∧
    (wholes.length < 3 → s.restartWhole n = (s.failUpdate 2).setProc n { x with
      st := .restarting
      whole := true
      comps := []
      since := s.now
      wholeTimes := wholes ++ [s.now] }) ∧
    (3 ≤ wholes.length → s.restartWhole n = (((s.failUpdate 2).setProc n { x with
      st := .failed
      comps := []
      wholeTimes := wholes }).raiseM 0x1006 n []).fatalNow 2 n))

open Sys2Proof Sys2Proof.Machine Sys2Proof.Claims in
/-- R359, R360, R362, R372, R376. In a running module: a fatal error stops all work; DUMP_RELEASE discards the dumps; a failover makes the
other Supervisor active, counted, with event 0x1003, and with 0x1004, or with 0x1005 where the former active one runs again and is the
standby, rolls back the undecided sets and the open window with reason 3, makes
partitions whose lease expired ORPHAN, writes held records, acts on latched doorbells and answers the frames that arrived, a WRITE
among them, which waits until then; a lone journal copy is rebuilt on another hall with event 0x1101. -/
def Obligations.SupervisionGoesOn : Prop :=
  ∀ s : State, s.phase = .running →
    (∀ cause proc, exec (.fatalError cause proc) s = .next (s.fatalStop cause proc)) ∧
    exec .dumpRelease s = .next { s with sup := { s.sup with dumps := [] } } ∧
    (s.sup.failover = true →
      let new := 1 - s.sup.activeSup
      let wait := (s.proc s.sup.activeSup).since
      let u := { s with sup := { s.sup with activeSup := new, failover := false } }
      let u := ((u.bump 0x8010 3 1).bump 0x8010 6 (if u.waitsOn 0 then u.now - wait else 0)).raiseM 0x1003 new []
      let u := if (u.proc (1 - new)).st = .running then
          ({ u with sup := { u.sup with standby := true } }).raiseM 0x1005 (1 - new) []
        else u.raiseM 0x1004 new []
      let u := (u.rollbackUndecided 3).endWindow 3
      let u := u.existing.foldl (fun s p => if (s.partn p).leaseExpired then s.enterOrphan p else s) u
      exec .supervisorFailover s = .next (u.existing.foldl (fun s p => s.flushAll p) u).releaseLatched.answerHeld ∧
      ∀ n frame, s.power.powerFail = false → (if n = 0 then s.mailboxHolds frame = true else (s.session n).alive = true) →
        ndOp frame = 0x02 →
        exec (.ndoitWrite n frame) s = .next { s with mgmt := { s.mgmt with held := s.mgmt.held ++ [(n, frame)] } }) ∧
    ∀ k, s.sup.journalCopies.length = 1 → s.copyPlace = some k → exec .journalCopyRebuild s =
      .next (({ s with sup := { s.sup with journalCopies := s.sup.journalCopies ++ [k] } }).raiseM 0x1101 k [])

open Sys2Proof Sys2Proof.Machine Sys2Proof.Claims in
/-- R364 to R368, R370, R375. In a running module a first lost channel of a working stack is a channel loss and a second one, told as well, loses the stack; a
lost stack and a lost hall are losses of what they hold. When frames of the mirrors that pass R180 have been written home, each record
written to has its mirrors' digest, and no tile of a record reads as lost, the recovery ends with event 0x1211, counted, and the
partition's sweep is finished. Power failing stops all work and the links, cuts short a dump that is being written, and turns the module
off. -/
def Obligations.LossesAndPowerFailure : Prop :=
  (∀ s : State, s.phase = .running →
    (∀ k, s.stackWorks k = true →
      exec (.stackLoss k) s = .next (s.stackGone k) ∧
      (∀ ch, ch < 32 → exec (.channelLoss k ch) s = .next (s.channelGone k ch)) ∧
      ∀ c ch, s.sup.lostChannels.find k = some c → c ≠ ch → s.channelGone k ch =
        (s.raise 0x1201 (if s.hallOwner (k / 4) < 4 then s.hallOwner (k / 4) else 15) k [ch]).stackGone k) ∧
    ∀ h, h < 4 → s.sup.lostHalls.contains h = false → exec (.hallLoss h) s = .next (s.hallGone h)) ∧
  (∀ (p : Nat) (fs : ReplicaFrames) (s : State), s.sup.recovering.contains p = true → s.working = true →
    (∀ e ∈ fs.tiles, ∃ r ∈ (s.partn p).stateRecs, r.tileSound e.1 e.2 = true) →
    let u := s.writeHome p fs.tiles
    (∀ r ∈ (u.partn p).stateRecs, (∃ e ∈ fs.tiles, (r.tileAt e.1).isSome = true) → ∃ d,
      (fs.digests.find? fun e => e.1 = r.idx) = some (r.idx, d) ∧ u.recDigest p r = some d) →
    (∀ r ∈ (u.partn p).stateRecs, ∀ va ∈ r.digestTiles, ∃ f, u.vread p va 4672 = .ok f) →
    exec (.replicaRecoveryComplete p fs) s = .next (((({ u with sup := { u.sup with
      recovering := u.sup.recovering.filter (· ≠ p) } }).bump 0x8010 8 1).raise 0x1211 p (u.sup.recoveryPos.get p 0) []).finishSweep p)) ∧
  ∀ (flushed : Bool) (s : State), s.phase ≠ .off → s.power.powerFail = false →
    let u := s.haltWork
    exec (.powerFail flushed) s = .next { u with
      phase := .off
      power := { u.power with powerFail := true, hostWidth := 0, hostGts := 0 }
      fabric := { u.fabric with
        ports := u.fabric.ports.map fun e => (e.1, e.2.unpowered)
        landings := [] }
      sup := { u.sup with
        flushLost := !flushed
        lostAt := some u.now
        dumps := u.sup.dumps.map fun d => { d with complete := d.complete && !u.dumpWriting d, lake := false } } }

open Sys2Proof Sys2Proof.Machine Sys2Proof.Claims in
/-- R408 to R412, R444. A well-formed request on an enabled, free service port of a running module whose update is idle invalidates the
slot that does not run and stages there, or is refused with SIZE where more data follows than it states; no more data for long refuses it
too. A whole image that is written and passes every check of R409 is STAGED with event 0x1601; one that cannot be written or fails a check
is refused. -/
def Obligations.PackagesAreStaged : Prop :=
  (∀ (req pkg : List Byte) (s : State), s.phase = .running → s.power.powerFail = false → s.moduleSetting 0xA010 2 = 1 →
    s.update.connection = none → s.update.st = .idle → req.length = 16 → leNat (req.take 4) = 0x4B534E46 → leNat (req.drop 12) = 0 →
    let u := (s.setSlot s.targetSlot { st := .invalid }).onUpdate fun u => { u with st := .staging, connection := some (req, pkg) }
    exec (.servicePortConnect req pkg) s = .next (if requestLength req < pkg.length then u.refuseImage 0x09 pkg else u)) ∧
  ∀ (req pkg : List Byte) (s : State), s.update.connection = some (req, pkg) →
    (pkg.length < requestLength req → exec .servicePortDataTimeout s = .next (s.refuseImage 0x09 pkg)) ∧
    (requestLength req = pkg.length → s.power.powerFail = false →
      exec (.packageStagingComplete false) s = .next (s.refuseImage 0x0A pkg) ∧
      (s.packageStatus pkg ≠ 0 → exec (.packageStagingComplete true) s = .next (s.refuseImage (s.packageStatus pkg) pkg)) ∧
      (s.packageStatus pkg = 0 → s.phase ≠ .recovery → exec (.packageStagingComplete true) s =
        .next (((s.setSlot s.targetSlot { st := .staged, package := pkg }).raiseFw 0x1601 0 0 (pkgVersion pkg)).closePort 0
          (pkgVersion pkg))))

open Sys2Proof Sys2Proof.Machine Sys2Proof.Claims in
/-- R413 to R422, R440, R444. In a module that is up: an activation that R413 permits makes its slot PROVISIONAL, in the boot record as
well, with event 0x1603, and starts a handover or a hold. In an awake module a handover takes processor by processor that has not failed,
then the standby Supervisor, which takes control, then the other one, with which the image is PROVISIONAL; a successor that rejects or a
pause above 1 ms undoes it. Once every partition of an awake module is held the processors restart as the boot says, which is RECOVERY where
no slot passes (R444 in ResetsAndStarts); a hold that does not come is abandoned with 0x1608, and slot and boot record are as they were. The
end of the confirmation time or a write confirms a PROVISIONAL
image with 0x1605; FW_ROLLBACK rolls it back. -/
def Obligations.FirmwareActivates : Prop :=
  ∀ s : State, s.up = true →
    (∀ n v i, s.activateStatus n v = 0 → s.slotOf v = some i →
      let u := ((s.setSlot i { s.slot i with st := .provisional }).writeBoot (some i) s.runningSlot).onUpdate fun u => { u with
        slotWas := (s.slot i).st
        supDone := none
        st := if s.moduleSetting 0xB000 2 = 0 then .handover else .holding
        newSlot := i
        handoverAt := 0
        saved := s.mgmt.values
        setsApplied := 0
        rollback := none
        maxPause := 0
        since := s.now }
      exec (.fwActivate n v) s = .next (u.raiseFw 0x1603 0 0 v).startWake) ∧
    (s.update.st = .handover → s.power.sleep = .awake →
      let l := s.handoverOrder
      let at' := s.handoverPlace
      let n := s.handoverNext
      let x := s.proc n
      (at' < l.length → s.handoverDone n = s) ∧
      (l.length ≤ at' → (n = s.sup.activeSup ∨ ∃ u, s.update.supDone = some u ∧ u ≠ n) → s.handoverDone n = s.becomeProvisional) ∧
      (l.length ≤ at' → n ≠ s.sup.activeSup → (∀ u, s.update.supDone = some u → u = n) → s.handoverDone n =
        ({ s with sup := { s.sup with activeSup := n } }).onUpdate fun u => { u with supDone := some n }) ∧
      (l.length ≤ at' → s.update.supDone = none → n = (if s.noStandby then s.sup.activeSup else 1 - s.sup.activeSup)) ∧
      ∀ pause,
        (∀ ok, x.st = .failed → exec (.handoverProcessor ok pause) s = .next (s.handoverDone n)) ∧
        (x.st = .running → x.comps = [] → s.sup.failover = false →
          (pause ≤ 1000 → exec (.handoverProcessor true pause) s = .next ((s.handoverDone n).onUpdate fun u => { u with
            handoverAt := at' + 1
            maxPause := Max.max u.maxPause pause
            lastPause := if u.st = .provisional then Max.max u.maxPause pause else u.lastPause })) ∧
          exec (.handoverProcessor false pause) s = .next s.handoverBack ∧
          (1000 < pause → exec (.handoverProcessor true pause) s = .next s.handoverBack))) ∧
    (∀ pause, s.notHeld = [] → s.power.sleep = .awake → (s.update.st = .holding ∨ s.update.st = .rollingBack) →
      let u := (s.restartAll.endSessions.endWindow 5).onUpdate fun u => { u with maxPause := pause }
      exec (.activateRestart pause) s = .next (if u.boot.2 then u.boot.1 else u.boot.1.enterRecovery)) ∧
    (∀ p l, s.update.st = .holding → s.notHeld = p :: l →
      let new := s.update.newSlot
      let u := (s.setSlot new { s.slot new with st := s.update.slotWas }).writeBoot none (1 - new)
      exec .updateAbandon s = .next ((u.onUpdate fun u => { u with st := .idle, saved := [] }).raise 0x1608 p 255
        [p, 0, (pkgVersion (s.slot new).package).toNat])) ∧
    (s.update.st = .provisional →
      exec .confirmTimeout s = .next s.confirmImage ∧ exec .fwConfirm s = .next s.confirmImage ∧
      exec .fwRollback s = .next { s with update := { s.update with st := .rollingBack, rollback := some 5 } })

open Sys2Proof Sys2Proof.Machine Sys2Proof.Claims in
/-- R443 to R450. A written warm reset of a module that is up and does not update, and MOD_RESET_N low, enter the warm reset; MOD_RESET_N
high lets it end unless the TAP holds it. PERST_N high trains the host link, to a width and rate that are free values (log 133); PERST_N
low takes it down, gives the MSI-X tables and configuration spaces their reset values, with nothing pending, and lets every lease expire. A
warm reset that nothing holds ends in a boot: with a slot that boots, the module runs again; with none it is in RECOVERY. A boot follows the
boot record: a rollback takes the fallback, a PROVISIONAL slot that fails is rolled back with reason 4, an ACTIVE one that fails leaves it to
a PREVIOUS one. A start from OFF with cool sensors loses what power held, boots and comes up: where no fatal error ends it the values that
waited are set, the enabled ports train and the clocks lock; then the module runs. -/
def Obligations.ResetsAndStarts : Prop :=
  (∀ s : State, s.up = true → s.updating = false → exec .deviceWarmReset s = .next (s.enterWarmReset 2 false)) ∧
  (∀ s : State, exec .modResetN s = .next (({ s with power := { s.power with modResetN := false } }).enterWarmReset 3 true) ∧
    exec .modResetNRelease s = .next (({ s with power := { s.power with modResetN := true } }).releaseReset) ∧
    exec (.perstN false) s = .next { s.fresh with power := { s.power with
      perstN := true
      hostWidth := [16, 8, 4, 2, 1].getD (Config.hostLanes s.freeUsed) 16
      hostGts := [64, 32, 16, 8, 5, 2].getD (Config.hostRate s.freeUsed) 64 } } ∧
    (s.power.perstN = true → s.phase ≠ .off →
      let u := (List.range 4).foldl (fun s p => s.onPartn p fun x => x.onRegs fun r => { r with
          msixTable := [], msixPending := [], config := {} })
        { s with power := { s.power with perstN := false, hostWidth := 0, hostGts := 0 } }
      exec (.perstN true) s = .next (u.existing.foldl (fun s p => s.expireLease p) u))) ∧
  (∀ (lost : List Nat) (s : State) (cause since : Nat), s.phase = .warmReset cause since false →
    (s.boot.2 = true → exec (.warmResetComplete lost) s =
      .next (s.boot.1.finishWarm cause since lost (s.moduleNumber, s.extents))) ∧
    (s.boot.2 = false → let u := s.boot.1
      exec (.warmResetComplete lost) s = .next ({ u with power := { u.power with lastReset := cause } }).enterRecovery)) ∧
  (∀ s : State, let u := s.losePowered
    s.enterRecovery = { u with phase := .recovery, power := { u.power with sleep := .awake } }) ∧
  (∀ s : State, s.update.st ≠ .staging →
    (s.bootRecord = none → s.boot = (s, false)) ∧
    ∀ c, s.bootRecord = some c →
      (∀ new, c.prov = some new →
        (s.update.st = .rollingBack → s.boot = (s.completeRollback (s.update.rollback.getD 5), s.slotBoots (1 - new))) ∧
        (s.update.st ≠ .rollingBack → s.slotBoots new = false → s.boot = (s.completeRollback 4, s.slotBoots (1 - new))) ∧
        (s.update.st ≠ .rollingBack → s.slotBoots new = true → s.boot =
          (if s.update.st = .holding ∨ s.update.st = .activating then s.resetFormats.becomeProvisional
            else if s.update.st = .handover then s.becomeProvisional else s, true))) ∧
      (c.prov = none → s.slotBoots c.active = true → s.boot = (s, true)) ∧
      (c.prov = none → s.slotBoots c.active = false → (s.slot (1 - c.active)).st = .previous → s.slotBoots (1 - c.active) = true →
        let a := c.active
        s.boot = (((s.setSlot a { s.slot a with st := .invalid }).setSlot (1 - a) { s.slot (1 - a) with st := .active }).writeBoot none (1 - a),
          true)) ∧
      (c.prov = none → s.slotBoots c.active = false → (s.slot (1 - c.active)).st ≠ .previous ∨ s.slotBoots (1 - c.active) = false →
        s.boot = (s, false))) ∧
  (∀ (r : StartReading) (s : State), s.phase = .off → r.cool = true →
    let u := (({ s with phase := .starting }).tellLoss.losePowered).powerUp
    let b := ({ u with power := { u.power with lastStartMicros := r.micros } }).boot
    let v := b.1.measureHoldup r.holdupBytes
    exec (.coldStart r) s = .next (if b.2 then v.startUp r.failedHalls else { v with phase := .recovery })) ∧
  (∀ (l : List Nat) (s : State), let u := ({ s with phase := .starting }).startHalls l
    (u.phase = .starting → s.startUp l = u.settleSets.trainPorts.lockClocks) ∧ (u.phase ≠ .starting → s.startUp l = u)) ∧
  (∀ s : State, s.trainPorts = (List.range s.part.ports).foldl (fun s q =>
    if s.portEnabled q && (s.port q).st = .down then s.setPort q (s.port q).train else s) s) ∧
  ∀ s : State, s.phase = .starting →
    exec .moduleRunning s = .next (s.started s.power.lastReset s.power.lastStartMicros).releaseLatched

open Sys2Proof Sys2Proof.Machine Sys2Proof.Claims in
/-- R452, R453, R467. With power and TRST_N high the TAP loads IDCODE, SAMPLE/PRELOAD and BYPASS as their codes, and the instructions of its
other codes while MOD_RESET_N is low; while it is high those act as BYPASS. An instruction that is not of the EXTEST class ends the TAP's
hold of a warm reset. Those that select the boundary register capture the pins' levels; SAMPLE/PRELOAD shifts in what it is to drive. A
private instruction acts as BYPASS while Prot.DebugUnlock is 0, and is the model's one refusal while it is 1. Test-Logic-Reset loads IDCODE,
and after an EXTEST instruction the warm reset that held gets the cause TAP. TRST_N low keeps the TAP as it is. What the boundary register's
cells are, and what is shifted in, are free values (log 114). -/
def Obligations.TapInstructionsLoad : Prop :=
  (∀ s : State, s.phase ≠ .off → s.power.trstN = true →
    let ir := fun (v : Byte) => ({ s with power := { s.power with tapIr := v } } : State).releaseReset
    let scan := fun (v : Byte) => ir (if s.power.modResetN then 0xFF else v)
    exec .extest s = .next (scan 0x00).sampled ∧ exec .idcode s = .next (ir 0x01) ∧
    exec .samplePreload s = .next (ir 0x02).sampled.preloadBoundary ∧
    exec .extestPulse s = .next (scan 0x03).sampled ∧ exec .extestTrain s = .next (scan 0x04).sampled ∧
    exec .clamp s = .next (scan 0x05) ∧ exec .highz s = .next (scan 0x06) ∧
    (∀ code : Byte, 7 ≤ code.toNat → (code.toNat < 0x80 ∨ code.toNat = 0xFF) → exec (.bypass code) s = .next (ir code)) ∧
    (∀ code : Byte, 0x80 ≤ code.toNat → code.toNat ≤ 0xFE →
      (s.moduleSetting 0xA010 3 ≠ 1 → exec (.sarolberPrivate code) s = .next (ir 0xFF)) ∧
      (s.moduleSetting 0xA010 3 = 1 → exec (.sarolberPrivate code) s = .refused .privateTapInstruction)) ∧
    (extestClass s.power.tapIr = false → exec .tapTestLogicReset s = .next (ir 0x01)) ∧
    ∀ cause t h, extestClass s.power.tapIr = true → s.phase = .warmReset cause t h →
      exec .tapTestLogicReset s = .next (({ s with
        phase := .warmReset 5 t h
        power := { s.power with tapIr := 0x01 } } : State).releaseReset)) ∧
  (∀ s : State, s.phase ≠ .off → s.power.trstN = false → exec .idcode s = .next s ∧ exec .highz s = .next s ∧ exec (.bypass 0xFF) s = .next s) ∧
  (∀ s : State, let level := fun (i : Nat) => s.pinAt s.freeUsed (Config.boundaryPin s.part.text i)
    (s.power.tapIr = 2 ∨ extestClass s.power.tapIr = true → s.sampled = { s.fresh with power := { s.power with
      boundary := (List.range (Config.boundaryCells s.part.text)).map level } }) ∧
    (s.power.tapIr ≠ 2 → extestClass s.power.tapIr = false → s.sampled = s) ∧
    ∀ i, s.driven i = (if s.power.tapIr = 6 then none
      else if extestClass s.power.tapIr = true ∨ s.power.tapIr = 5 then some (s.power.preload.getD i false) else some (level i))) ∧
  ∀ (cause t : Nat) (s : State), s.phase = .warmReset cause t true →
    s.releaseReset = (if s.resetHeld then s else { s with phase := .warmReset cause t false })

open Sys2Proof Sys2Proof.Machine Sys2Proof.Claims in
/-- R423 to R432, R357, R442. With power: an input between 43 and 45 V is noted with event 0x2001, one back in range is noted, one above
57 V raises 0x2002, one above 58.5 V fails the power. In a running module a domain that is on and faults is off with 0x2201, and the
second fault within an hour is beyond recovery; a retry that regulates switches it on and 1 s in regulation raises 0x2202. While the Power
Manager serves, a clock rises by up to 100 MHz in steps of 25 below its target, and a cap tick steers every partition; it stores what the
input measures and counts the partitions that a cap holds back in any case. While the Power Manager does not serve
and power or heat is excessive, every clock falls by 25 MHz, and in place of a thermal component the thermal clocks of hot quarters fall. -/
def Obligations.InputsDomainsAndClocks : Prop :=
  (∀ (mv : Nat) (s : State),
    (s.phase ≠ .off → 43000 ≤ mv → mv < 45000 → exec (.inputVoltageLow mv) s =
      .next ((s.onSensors fun x => { x with millivolts := mv, low := true }).raiseM 0x2001 255 [mv])) ∧
    (45000 ≤ mv → exec (.inputVoltageInRange mv) s = .next (s.onSensors fun x => { x with millivolts := mv, low := false })) ∧
    (s.phase ≠ .off → 57000 < mv → exec (.inputVoltageHigh mv) s =
      .next ((s.onSensors fun x => { x with millivolts := mv }).raiseM 0x2002 255 [0])) ∧
    (s.phase ≠ .off → s.power.powerFail = false → 58500 < mv → exec (.inputOvervoltage mv) s =
      .next ((s.onSensors fun x => { x with millivolts := mv, overvoltage := true }).losePower true))) ∧
  (∀ (d : Nat) (s : State), s.phase = .running →
    let x := s.power.domains.get d {}
    let past := x.faults.filter fun t => s.now < t + 3600000000
    (s.domainState d = 1 →
      (past = [] → exec (.domainFault d) s = .next (((s.setDomain d { x with
        st := .faulted
        faults := [s.now]
        retriedAt := none }).raiseM 0x2201 (domKind d).pos [d]).domainFaulted d false)) ∧
      (past ≠ [] → exec (.domainFault d) s = .next (((s.setDomain d { x with
        st := .faulted
        faults := past ++ [s.now]
        retriedAt := some s.now }).raiseM 0x2201 (domKind d).pos [d]).domainFaulted d true))) ∧
    (x.st = .faulted → x.retriedAt = none → s.compUp 14 compClocks = true →
      ((∀ die, domKind d ≠ .flash die) →
        exec (.domainRetry d true) s = .next (s.setDomain d { x with st := .on, retriedAt := some s.now })) ∧
      exec (.domainRetry d false) s = .next ((s.setDomain d { x with retriedAt := some s.now }).domainFaulted d true)) ∧
    (x.st = .on → x.retriedAt ≠ none →
      exec (.domainRestored d) s = .next ((s.setDomain d { x with retriedAt := none }).raiseM 0x2202 (domKind d).pos [d]))) ∧
  ∀ s : State, s.working = true →
    ((∀ h g mhz, s.compUp 14 compClocks = true → h < 4 → g < 96 → mhz % 25 = 0 → s.galleryClock h g < mhz → mhz ≤ s.galleryClock h g + 100 → mhz ≤ s.clockTarget h g →
        exec (.clockRaiseStep h g mhz) s = .next (s.setClock h g mhz)) ∧
      ∀ r : PowerReading, s.compUp 14 compCapping = true →
        let u := s.onSensors fun x => { x with millivolts := r.millivolts, milliamps := r.milliamps, watts := r.inputWatts }
        let v := (u.existing.foldl (fun s p => s.capOne r.domainWatts p) u).lowerClocks
        exec (.powerCapTick r) s = .next (v.existing.foldl (fun s p => s.countCapped p) v)) ∧
    (∀ r : PowerReading, s.compUp 14 compCapping = false →
      let u := s.onSensors fun x => { x with millivolts := r.millivolts, milliamps := r.milliamps, watts := r.inputWatts }
      exec (.powerCapTick r) s = .next (u.existing.foldl (fun s p => s.countCapped p) u)) ∧
    ∀ watts junctions, ((s.compUp 14 compCapping = false ∧ s.effectiveCap < watts) ∨
        (s.compUp 14 compThermal = false ∧ ∃ t ∈ junctions, 100 * (s.moduleSetting 0x7010 1 : Int) < t)) →
      exec (.fallbackGovernorTick watts junctions) s =
        .next (galleries.foldl (fun s e => s.setClock e.1 e.2 (Max.max 400 (s.galleryClock e.1 e.2 - 25))) (s.governThermal junctions))

open Sys2Proof Sys2Proof.Machine Sys2Proof.Claims in
/-- R433 to R441, R454. A thermal sample of a working module whose thermal component serves treats the halls, takes every sensor's reading
and the stacks' grant limits, checks the coolant and lowers the clocks; a sensor of the part that trips fails the power; the hold-up energy
of a running module is measured. A module that may sleep does when a committed write of 1 to Power.Sleep is decided or when it has been idle;
a write whose conditions stay unmet is rolled back with 0x2403; entry takes the ports down unless they stay on and raises 0x2401, and is
given up where a partition is no longer idle (log 144); a wake makes it WAKING, then awake with 0x2402. A permitted lake test of a working
module starts with 0x1703; a hold that does not come, or a park module that refuses, ends it with CONSTRAINT; and with its owners held each
stack is tested in turn, parked elsewhere or emptied, the last ending the test. -/
def Obligations.ThermalsSleepAndLakeTests : Prop :=
  (∀ s : State, s.phase = .running →
    (∀ r : ThermalReading, s.working = true → s.compUp 14 compThermal = true →
      let u := (List.range 4).foldl (fun s h => s.thermalHall r h) s
      let u := (List.range 4).foldl (fun s h => s.sampleHall r h) u
      let u := u.part.stackList.foldl (fun s k => s.thermalStack r k) u
      exec (.thermalSample r) s = .next ((u.onSensors fun x => { x with dies := r.dies }).coolantCheck r).lowerClocks) ∧
    (∀ i, s.power.powerFail = false → i < 48 → (i < 32 ∨ s.part.hasStack (i - 32) = true) →
      exec (.thermalTrip i) s = .next ((s.onSensors fun x => { x with trip := some i }).losePower true)) ∧
    (∀ n, exec (.holdupCheck n) s = .next (s.measureHoldup n)) ∧
    exec .powerSleepEnter s = .next (s.sleepSets.foldl (fun s c => s.progressSet c.csid) s) ∧
    (s.canSleep = true → let u := { s with power := { s.power with sleep := .entering } }
      s.beginSleep = u ∧ (s.moduleSetting 0x7020 2 ≠ 0 → exec .sleepIdleTimeout s = .next u)) ∧
    (∀ c rest p l, s.up = true → s.sup.failover = false → s.sleepSets = c :: rest → s.notIdle = p :: l →
      let late := (c.affected.filter fun p => !c.reached.contains p).head?
      exec .sleepWaitTimeout s = .next ((s.rollbackSet c.csid 1 (some (late.getD p))).raiseP 0x2403 p [p])) ∧
    (s.power.sleep = .entering →
      (s.notIdle ≠ [] → exec .sleepEntered s = .next { s with power := { s.power with sleep := .awake } }) ∧
      (s.notIdle = [] →
        let u := if s.moduleSetting 0x7020 3 = 0 then (List.range s.part.ports).foldl (fun s q =>
            let s := s.portDown q .down
            if (s.port q).st = .training then s.setPort q { s.port q with st := .down } else s) s
          else s
        exec .sleepEntered s = .next (({ u with
          cores := []
          power := { u.power with sleep := .asleep, sleepEntries := u.power.sleepEntries + 1 } } : State).raiseM 0x2401 255 []))) ∧
    (s.power.sleep = .asleep →
      let u := { s with power := { s.power with sleep := .waking } }
      (s.notIdle ≠ [] → exec (.wake .commandAccepted) s = .next u) ∧
      (∀ t, t ≠ .commandAccepted → t ≠ .lakePacket → t ≠ .exchangeFrame → exec (.wake t) s = .next u) ∧
      (s.moduleSetting 0x7020 3 = 1 → exec (.wake .lakePacket) s = .next u ∧ exec (.wake .exchangeFrame) s = .next u)) ∧
    (s.power.sleep = .waking → s.compUp 14 compClocks = true →
      let u := { s with power := { s.power with sleep := .awake } }
      let v := if s.moduleSetting 0x7020 3 = 0 then u.trainPorts else u
      exec .wakeComplete s = .next (v.lockClocks.raiseM 0x2402 255 []))) ∧
  (∀ s : State, s.working = true → s.lakeTestAllowed = true →
    exec .lakeTestStart s = .next ((s.onLakeTest fun t => {
      st := .holding
      stacksLeft := s.testStacks
      owners := s.existing.filter fun p => s.testStacks.any fun k => s.hallOwner (k / 4) = p
      park := s.moduleSetting 0xF110 2 = 1
      total := t.total
      since := s.now }).raiseM 0x1703 255 [])) ∧
  ∀ s : State, s.up = true →
    (s.power.lakeTest.st = .holding → s.lakeTestHeld = false → exec .lakeTestHoldTimeout s = .next (s.endLakeTest .idle 0x25)) ∧
    ∀ (r : LakeTestResult) k rest, s.power.lakeTest.busy = true → s.lakeTestHeld = true → s.power.lakeTest.stacksLeft = k :: rest →
      let park := s.power.lakeTest.park
      (park = true → r.refused = true → exec (.lakeTestStackDone r) s = .next (s.endLakeTest .idle 0x25)) ∧
      (park = false ∨ r.refused = false →
        let bad := r.failing.filter fun e => lakeStack (e.1 * 64) = k
        let n := (bad.map fun e => e.1).dedup.length
        let u := s.moveCopy k
        let u := if park = true ∧ s.power.lakeTest.st = .holding then
            u.raise 0x3401 (if u.hallOwner (k / 4) < 4 then u.hallOwner (k / 4) else 15) k [] else u
        let u := bad.foldl (fun s e => s.deviceFails k e) u
        let u := if park then (if r.parkedBack then u.parkReturned k r.changed else u.lendLost k) else u.stackEmptied k
        let u := u.onLakeTest fun t => { t with
          stacksLeft := rest
          st := if t.park then .parking else .testing
          failing := t.failing + n
          total := t.total + n
          since := u.now }
        exec (.lakeTestStackDone r) s = .next (if rest = [] then
            (if u.power.lakeTest.failing = 0 then u.endLakeTest .passed 5 else u.endLakeTest .failed 6)
          else u))

open Sys2Proof Sys2Proof.Machine Sys2Proof.Claims in
/-- R28. A zero of N4 is written as 0x0 whatever its sign: a conversion of −0, and a negative value that rounds to zero magnitude. -/
def Obligations.NegativeZeroOfN4IsWrittenAsZero : Prop :=
  (∀ r, fmtN4.encode (fmtN4.round r (.zero true)) = 0) ∧
  ∀ r q, q < 0 → (fmtN4.round r (.fin q)).isZero = true → fmtN4.encode (fmtN4.round r (.fin q)) = 0

open Sys2Proof Sys2Proof.Machine Sys2Proof.Claims in
/-- R65. A running sum that is ∞ or NaN stays so at every chunk close, in A32 and in A16 mode: a finite chunk does not change it, an
opposite ∞ and a NaN chunk turn it to NaN, an equal ∞ leaves it. A product added to the open chunk does not touch it, and CLR clears it.
-/
def Obligations.NonFiniteRunningSumsStay : Prop :=
  (∀ (e : AccEl) (u : Nat), let a := ofF32 e.s
    let b := fmtA16.decode e.s.toNat
    let a' := ofF32 (closeA32 e).1.s
    let b' := fmtA16.decode (closeA16 u e).1.s.toNat
    (a.isFinite = false → a'.isFinite = false ∧ (e.sum.isFinite = true → a' = a) ∧ (e.sum = .nan → a' = .nan) ∧
      ∀ n, a = .inf n → (e.sum = .inf (!n) → a' = .nan) ∧ (e.sum = .inf n → a' = .inf n)) ∧
    (b.isFinite = false → b'.isFinite = false ∧ (e.sum.isFinite = true → b' = b) ∧ (e.sum = .nan → b' = .nan) ∧
      ∀ n, b = .inf n → (e.sum = .inf (!n) → b' = .nan) ∧ (e.sum = .inf n → b' = .inf n)) ∧
    ∀ x y, (e.addProduct x y).s = e.s) ∧
  ∀ (acc : Acc) (tensor : U32) (base stride : U64) (pa pb : List (List MVal)) (i : Nat),
    ((acc.addPanel (some (tensor, base, stride)) pa pb).els.get i {}).s = 0

open Sys2Proof Sys2Proof.Machine Sys2Proof.Claims in
/-- R269 to R271, R278, R284, R285, R288. On a port that is UP: the FEC's corrections of a flit are counted; a flit whose CRC fails is counted
and a NAK is owed; a good flit with the next SEQ acknowledges, returns credits, is received and, with data, joins its lane's buffer where
that has room; one out of sequence, or of data without room, is dropped and makes a NAK owed, once. A NAK replays what is unacknowledged,
and the sixteenth replay of one SEQ, or no ACK progress for long, takes the port down into training. In a running module with power the
switch takes the packet at the head of an input's buffer from its route header on and forwards what of it is here, cut-through; a packet
that no branch can take stays, and its branches wait for credit; one that another packet's start or a stomp marker cuts short is ended where
a part of it has left, and counted; the first whole packet of a landing that may go is forwarded. R273. A packet whose route header fails its check, whose
type is reserved or whose destination lies outside the domain is dropped by the switch and counted, once it is whole; whether it is does not
depend on its body. -/
def Obligations.LinksCarryFlitsAndPackets : Prop :=
  (
  (∀ (port : Nat) (s : State), (s.port port).st = .up →
    let x := s.port port
    (∀ (fec : FecResult) (f : Flit), f.data.length = 242 →
      let h := f.header.toNat
      let u := (s.bump (0x8100 + port) 1 fec.corrected).bump (0x8100 + port) 2 fec.uncorrectable
      let y := x.acked s.now (bits h 65 54)
      let ck := bits h 40 38 * 2 + bits h 37 37
      let z := { y with credits := y.credits.put ck (y.credits.get ck 0 + bits h 36 28) 0 }
      let key := bits h 52 50 * 2 + bits h 49 49
      let missed := { x with nakOwed := x.nakOwed || !x.nakSent }
      (flitCrc f.header f.data ≠ f.crc →
        exec (.flitReceive port ⟨fec, f⟩) s = .next (((u.setPort port { x with nakOwed := true }).bump (0x8100 + port) 3 1).drive port)) ∧
      (flitCrc f.header f.data = f.crc → bits h 79 78 = 1 →
        exec (.flitReceive port ⟨fec, f⟩) s = .next ((u.setPort port (if bits h 77 66 = x.rxSeq then z else missed)).drive port)) ∧
      (flitCrc f.header f.data = f.crc → (bits h 79 78 = 2 ∨ (bits h 79 78 = 0 ∧ u.rxRoom x key = true)) →
        bits h 77 66 = (x.rxSeq + 1) % 4096 →
        exec (.flitReceive port ⟨fec, f⟩) s = .next ((u.setPort port { z with
          rxSeq := bits h 77 66
          nakOwed := false
          nakSent := false
          rxData := z.rxData.put key (z.rxData.get key [] ++ [if bits h 79 78 = 0 then (bits h 48 41, f.data) else (256, [])]) [] }).drive
            port)) ∧
      (flitCrc f.header f.data = f.crc → (bits h 79 78 = 2 ∨ bits h 79 78 = 0) →
        (bits h 77 66 ≠ (x.rxSeq + 1) % 4096 ∨ (bits h 79 78 = 0 ∧ u.rxRoom x key = false)) →
        exec (.flitReceive port ⟨fec, f⟩) s = .next ((u.setPort port missed).drive port))) ∧
    (∀ ack, let y := x.acked s.now ack
      let u := ((s.setPort port { y with replays := y.replays + 1 }).bump (0x8100 + port) 4 1).bump (0x8100 + port) 7 y.replay.length
      y.replay ≠ [] → exec (.flitNakReplay port ack) s = .next (if 16 ≤ y.replays + 1 then u.portDown port .training else u)) ∧
    (x.replay ≠ [] → exec (.ackProgressTimeout port) s = .next (s.portDown port .training))) ∧
  ∀ s : State, s.phase = .running → s.power.powerFail = false →
    (∀ (q vl : Nat) (cls : Bool),
      let key := vl * 2 + (if cls then 1 else 0)
      let old := (s.port q).passing.get key []
      let goes := fun (got : List Byte × Rx) (k : Packet) =>
        let all := old ++ got.1
        let u := (s.setRx q key got.2 all).feedOut k (all.drop (Max.max 32 old.length))
        let f := u.forward (portInput q key) (some q) { k with body := all.drop 32 }
        if all.length < packetLen k.route.toNat ∧ startsHere got.2 = true then
          exec (.packetForward (.port q vl cls)) s =
            .next (((((s.setRx q key got.2 []).stompOut k).setTaken (portInput q key) k []).bump 0x8080 3 1).drive q)
        else exec (.packetForward (.port q vl cls)) s = .next ((if f.2 then f.1.setRx q key (alignRx got.2) [] else f.1).drive q)
      (old = [] →
        let rx := alignRx ((s.port q).rxData.get key [])
        let k := headOf (pullRx 32 rx).1
        ((pullRx 32 rx).1.length < 32 ∨ s.partlyOut k = true →
          exec (.packetForward (.port q vl cls)) s = .next ((s.setRx q key rx []).drive q)) ∧
        ((pullRx 32 rx).1.length = 32 → s.partlyOut k = false →
          (s.mayBegin (portInput q key) (some q) k = false → exec (.packetForward (.port q vl cls)) s =
            .next (((s.openBranches (portInput q key) k).2.foldl (fun s b => s.noteWait (some q) b) (s.setRx q key rx [])).drive q)) ∧
          (s.mayBegin (portInput q key) (some q) k = true → goes (pullRx (packetLen k.route.toNat) rx) k))) ∧
      (old ≠ [] →
        let rx := (s.port q).rxData.get key []
        let k := headOf old
        goes (if old.length < packetLen k.route.toNat ∧ startsHere rx = true then ([], rx)
          else pullRx (packetLen k.route.toNat - old.length) rx) k)) ∧
    ∀ (d : Nat) (k : Packet), ((s.landing d).leaving.filter Packet.whole).find? (s.mayBegin (landingInput d) none) = some k →
      let f := s.forward (landingInput d) none k
      exec (.packetForward (.landing d)) s = .next (if f.2 then
        f.1.setLanding d { f.1.landing d with leaving := (f.1.landing d).leaving.erase k } else f.1)) ∧
  (
  ∀ (input : Nat) (k : Packet) (inPort : Option Nat) (s : State),
    (k.hcheckOk = false ∨ k.ptype = 0 ∨ 8 < k.ptype ∨ s.domainSize ≤ k.dstMod) →
    let u := s.endCuts k
    let name := if inPort.isSome then k.head else k
    u.takenBy input name = [] →
      (k.whole = true → s.forward input inPort k = ((u.bump 0x8080 4 1).setTaken input name [], true)) ∧
      (k.whole = false → s.forward input inPort k = (u, false)))

open Sys2Proof Sys2Proof.Machine Sys2Proof.Claims in
/-- The block's step. A step takes the command at the front of the queue and runs it on the state with the queue's rest. On an empty
queue, one microsecond passes, and pauses of acceptance are noted (the model's choice, assumption log 4). -/
def Obligations.StepRunsTheFrontCommand : Prop :=
  (∀ (c : Instr) (rest : List Instr) (s : State), step { s with pending := c :: rest } = exec c { s with pending := rest }) ∧
  ∀ s : State, s.pending = [] → step s = .next { s.settlePauses with now := s.now + 1 }

open Sys2Proof Sys2Proof.Machine Sys2Proof.Claims in
/-- R389, R390, the canonical form of the lake's memory. Every command and every idle step keeps the memory of the lake canonical and the
event log the most recent 65,536 records, or all there have been, with consecutive sequence numbers that end at the newest. -/
def Obligations.EveryStepKeepsTheLakeAndTheLog : Prop :=
  ∀ s t : State, step s = .next t → (MemOk s → MemOk t) ∧ (LogOk s → LogOk t)

open Sys2Proof Sys2Proof.Machine Sys2Proof.Claims in
/-- R346, R389, R409, R421. However many steps a machine takes: its part number stays, time and the number of the next event do not go
back, the protection sequence number and the security floor do not fall, and the lake and the log keep their form. -/
def Obligations.RunsNeverTakeBack : Prop :=
  ∀ (n : Nat) (s t : State), Host.Core.run core n s = .next t →
    t.part = s.part ∧ s.now ≤ t.now ∧ s.nextEvent ≤ t.nextEvent ∧ s.mgmt.protSeq ≤ t.mgmt.protSeq ∧ s.update.floor ≤ t.update.floor ∧
    (MemOk s → MemOk t) ∧ (LogOk s → LogOk t)

open Sys2Proof Sys2Proof.Machine Sys2Proof.Claims in
/-- The block's queue, first in, first out. A command leaves what waits behind it in the queue as it stands: no command adds, drops or
reorders a waiting command; nor does one change the part number or the time, which passes only when the queue is empty (log 4). -/
def Obligations.TheQueueIsFirstInFirstOut : Prop :=
  ∀ (c : Instr) (rest : List Instr) (s t : State), step { s with pending := c :: rest } = .next t → t.pending = rest ∧ t.part = s.part ∧ t.now = s.now

open Sys2Proof Sys2Proof.Machine Sys2Proof.Claims in
/-- R81, R321, R344, R443, R445. Right after reset the module runs with an empty queue and nothing recorded; partition 0 is DETACHED and
owns every hall and the others do not exist; debug mode is locked, no stream is enabled, every thread is IDLE with zero registers, no
accumulator is owned; the lake is canonical and the log is in order. That the part is an M12-X4-F32 and that the log is empty are the
model's choices (assumption log 5). -/
def Obligations.ResetLeavesAModuleThatRuns : Prop :=
  let s := State.reset
  s.pending = [] ∧ s.phase = .running ∧ s.part = .m12x4f32 ∧ s.log = [] ∧ s.nextEvent = 0 ∧ MemOk s ∧ LogOk s ∧
    (s.partn 0).st = .detached ∧ (∀ p ≠ 0, (s.partn p).st = .none) ∧ (∀ h < 4, s.hallOwner h = 0) ∧ s.moduleSetting 0xA010 3 = 0 ∧
    (∀ p w, (s.stream p w).en = false) ∧ (∀ c t r, ((s.core c).thread t).st = .idle ∧ ((s.core c).thread t).reg r = 0) ∧
    ∀ c a, ((s.core c).acc a).owner = none
end

