-- ==== Sys2Proof/Laws/Table.lean ====
section
/-! SUPPORT. The laws of a sparse table: what a read gives after a write, and the canonical form, kept by every operation. -/

namespace Sys2Proof

variable {α : Type}

/-! ## Reads after writes -/

@[simp] theorem Table.get_nil (k : Nat) (d : α) : Table.get [] k d = d := rfl

@[simp] theorem Table.get_cons (e : Nat × α) (r : Table α) (k : Nat) (d : α) :
    Table.get (e :: r) k d = if e.1 = k then e.2 else Table.get r k d := rfl

theorem Table.get_insert (t : Table α) (k j : Nat) (v d : α) :
    Table.get (Table.insert t k v) j d = if k = j then v else Table.get t j d := by
  induction t with
  | nil => simp [Table.insert]
  | cons e r ih =>
    obtain ⟨i, w⟩ := e
    unfold Table.insert
    by_cases h1 : i < k
    · simp only [h1, if_true, Table.get_cons, ih]
      by_cases h : i = j <;> by_cases h' : k = j <;> simp [h, h'] ; omega
    · by_cases h2 : i = k
      · subst h2
        simp only [lt_irrefl, if_false, if_true, Table.get_cons]
        by_cases h : i = j <;> simp [h]
      · simp [h1, h2]

theorem Table.get_drop (t : Table α) (k j : Nat) (d : α) :
    Table.get (Table.drop t k) j d = if k = j then d else Table.get t j d := by
  unfold Table.drop
  induction t with
  | nil => simp
  | cons e r ih =>
    obtain ⟨i, w⟩ := e
    by_cases h1 : i = k
    · subst h1
      simp only [List.filter_cons, ne_eq, not_true_eq_false, decide_false, Table.get_cons, if_false, Bool.false_eq_true] at ih ⊢
      rw [ih]
      by_cases h : i = j <;> simp [h]
    · simp only [List.filter_cons, ne_eq, h1, not_false_eq_true, decide_true, if_true, Table.get_cons] at ih ⊢
      rw [ih]
      by_cases h : i = j
      · subst h
        have : ¬ k = i := fun e => h1 e.symm
        simp [this]
      · simp [h]

/-- What a read gives after a write. -/
theorem Table.get_put [DecidableEq α] (t : Table α) (k j : Nat) (v d : α) :
    Table.get (Table.put t k v d) j d = if k = j then v else Table.get t j d := by
  unfold Table.put
  split
  · next h => rw [Table.get_drop, h]
  · rw [Table.get_insert]

@[simp] theorem Table.get_put_same [DecidableEq α] (t : Table α) (k : Nat) (v d : α) : (Table.put t k v d).get k d = v := by
  simp [Table.get_put]

theorem Table.get_put_ne [DecidableEq α] (t : Table α) {k j : Nat} (v d : α) (h : k ≠ j) :
    (Table.put t k v d).get j d = t.get j d := by simp [Table.get_put, h]

/-! ## The canonical form -/

/-- The canonical form as two propositions. -/
theorem Table.wf_iff [DecidableEq α] (t : Table α) (d : α) :
    t.wf d = true ↔ (t.map Prod.fst).Pairwise (· < ·) ∧ ∀ e ∈ t, e.2 ≠ d := by
  unfold Table.wf
  rw [Bool.and_eq_true, decide_eq_true_iff, List.all_eq_true]
  simp

theorem Table.wf_nil [DecidableEq α] (d : α) : Table.wf [] d = true := by simp [Table.wf_iff]

theorem Table.wf_filter [DecidableEq α] (t : Table α) (d : α) (p : Nat × α → Bool) (h : t.wf d = true) :
    Table.wf (t.filter p) d = true := by
  rw [Table.wf_iff] at h ⊢
  refine ⟨h.1.sublist (List.filter_sublist.map _), fun e he => h.2 e (List.mem_filter.1 he).1⟩

theorem Table.wf_drop [DecidableEq α] (t : Table α) (k : Nat) (d : α) (h : t.wf d = true) : (t.drop k).wf d = true :=
  Table.wf_filter t d _ h

theorem Table.mem_insert (t : Table α) (k : Nat) (v : α) (e : Nat × α) (h : e ∈ t.insert k v) : e = (k, v) ∨ e ∈ t := by
  induction t with
  | nil => simpa [Table.insert] using h
  | cons a r ih =>
    obtain ⟨i, w⟩ := a
    unfold Table.insert at h
    split at h
    · simp only [List.mem_cons] at h ⊢
      rcases h with h | h
      · exact .inr (.inl h)
      · rcases ih h with h | h
        · exact .inl h
        · exact .inr (.inr h)
    · split at h <;> simp only [List.mem_cons] at h ⊢ <;> tauto

theorem Table.wf_insert [DecidableEq α] (t : Table α) (k : Nat) (v d : α) (hv : v ≠ d) (h : t.wf d = true) :
    (t.insert k v).wf d = true := by
  rw [Table.wf_iff] at h ⊢
  refine ⟨?_, fun e he => ?_⟩
  · have hp := h.1
    clear h
    induction t with
    | nil => simp [Table.insert]
    | cons a r ih =>
      obtain ⟨i, w⟩ := a
      simp only [List.map_cons, List.pairwise_cons] at hp
      unfold Table.insert
      split
      · next h1 =>
        simp only [List.map_cons, List.pairwise_cons]
        refine ⟨fun j hj => ?_, ih hp.2⟩
        obtain ⟨e, he, rfl⟩ := List.mem_map.1 hj
        rcases Table.mem_insert r k v e he with rfl | he
        · exact h1
        · exact hp.1 _ (List.mem_map_of_mem he)
      · next h1 =>
        split
        · next h2 => subst h2; simpa using hp
        · next h2 =>
          have h3 : k < i := by omega
          simp only [List.map_cons, List.pairwise_cons, List.mem_cons]
          refine ⟨?_, hp⟩
          rintro j (rfl | hj)
          · exact h3
          · exact lt_trans h3 (hp.1 j hj)
  · rcases Table.mem_insert t k v e he with rfl | he
    · exact hv
    · exact h.2 e he

theorem Table.wf_put [DecidableEq α] (t : Table α) (k : Nat) (v d : α) (h : t.wf d = true) : (t.put k v d).wf d = true := by
  unfold Table.put
  split
  · exact Table.wf_drop t k d h
  · next hv => exact Table.wf_insert t k v d hv h

/-- A write of bytes keeps the canonical form of a memory. -/
theorem Memory.wf_putBytes (m : Table Byte) (a : Nat) (bs : List Byte) (h : Memory.wf m = true) :
    Memory.wf (m.putBytes a bs) = true := by
  unfold Memory.wf at h ⊢
  rw [Table.wf_iff] at h ⊢
  unfold Table.putBytes
  constructor
  · rw [List.map_append, List.map_append, List.pairwise_append, List.pairwise_append]
    have hs : ∀ p : Nat × Byte → Bool, ((m.filter p).map Prod.fst).Pairwise (· < ·) := fun p =>
      h.1.sublist (List.filter_sublist.map _)
    have hm : ((((List.range bs.length).zip bs).map fun e => (a + e.1, e.2)).map Prod.fst).Pairwise (· < ·) := by
      rw [List.map_map]
      have : (Prod.fst ∘ fun e : Nat × Byte => (a + e.1, e.2)) = (fun n => a + n) ∘ Prod.fst := rfl
      rw [this, ← List.map_map, List.map_fst_zip (by simp)]
      exact List.pairwise_lt_range.map _ (fun x y hxy => by omega)
    refine ⟨⟨hs _, hm.sublist (List.filter_sublist.map _), ?_⟩, hs _, ?_⟩
    · intro x hx y hy
      obtain ⟨e, he, rfl⟩ := List.mem_map.1 hx
      obtain ⟨f, hf, rfl⟩ := List.mem_map.1 hy
      have h1 := (List.mem_filter.1 he).2
      have h2 := (List.mem_filter.1 hf).1
      obtain ⟨g, _, rfl⟩ := List.mem_map.1 h2
      simp only [decide_eq_true_eq] at h1
      show e.1 < a + g.1
      omega
    · intro x hx y hy
      obtain ⟨f, hf, rfl⟩ := List.mem_map.1 hy
      have h2 := (List.mem_filter.1 hf).2
      simp only [decide_eq_true_eq] at h2
      rcases List.mem_append.1 hx with hx | hx
      · obtain ⟨e, he, rfl⟩ := List.mem_map.1 hx
        have h1 := (List.mem_filter.1 he).2
        simp only [decide_eq_true_eq] at h1
        omega
      · obtain ⟨e, he, rfl⟩ := List.mem_map.1 hx
        have h1 := (List.mem_filter.1 he).1
        obtain ⟨g, hg, rfl⟩ := List.mem_map.1 h1
        have : g.1 < bs.length := by
          have := (List.of_mem_zip hg).1
          simpa using this
        show a + g.1 < f.1
        omega
  · intro e he
    rcases List.mem_append.1 he with he | he
    · rcases List.mem_append.1 he with he | he
      · exact h.2 e (List.mem_filter.1 he).1
      · have := (List.mem_filter.1 he).2
        simpa using this
    · exact h.2 e (List.mem_filter.1 he).1

theorem Memory.wf_filter (m : Table Byte) (p : Nat × Byte → Bool) (h : Memory.wf m = true) : Memory.wf (m.filter p) = true :=
  Table.wf_filter m 0 p h

theorem Memory.wf_nil : Memory.wf [] = true := Table.wf_nil 0

/-! ## Bytes -/

theorem Table.get_filter (t : Table α) (p : Nat → Bool) (k : Nat) (d : α) :
    Table.get (t.filter fun e => p e.1) k d = if p k then Table.get t k d else d := by
  induction t with
  | nil => simp
  | cons e r ih =>
    by_cases hp : p e.1
    · rw [List.filter_cons_of_pos (by simpa using hp), Table.get_cons, ih, Table.get_cons]
      by_cases hk : e.1 = k
      · subst hk; simp [hp]
      · simp [hk]
    · rw [List.filter_cons_of_neg (by simpa using hp), ih, Table.get_cons]
      by_cases hk : e.1 = k
      · subst hk; simp [hp]
      · simp [hk]

theorem Table.get_append (t u : Table α) (k : Nat) (d : α) :
    Table.get (t ++ u) k d = if k ∈ t.map Prod.fst then Table.get t k d else Table.get u k d := by
  induction t with
  | nil => simp
  | cons e r ih =>
    rw [List.cons_append, Table.get_cons, Table.get_cons, ih]
    by_cases hk : e.1 = k
    · simp [hk]
    · rw [if_neg hk, if_neg hk, List.map_cons]
      simp only [List.mem_cons, Ne.symm hk, false_or]

theorem Table.get_of_not_mem (t : Table α) (k : Nat) (d : α) (h : k ∉ t.map Prod.fst) : Table.get t k d = d := by
  induction t with
  | nil => rfl
  | cons e r ih => 
    simp only [List.map_cons, List.mem_cons, not_or] at h
    rw [Table.get_cons, if_neg (Ne.symm h.1), ih h.2]

/-- The bytes that a store puts at its addresses, as a table. -/
theorem Table.get_stored (a : Nat) (bs : List Byte) (k : Nat) :
    Table.get (((List.range bs.length).zip bs |>.map (fun e => (a + e.1, e.2)) |>.filter fun e => e.2 ≠ 0) : Table Byte) k 0 =
      if a ≤ k then bs.getD (k - a) 0 else 0 := by
  induction bs generalizing a with
  | nil => simp
  | cons b r ih =>
    have e : ((List.range (b :: r).length).zip (b :: r)).map (fun e : Nat × Byte => (a + e.1, e.2)) =
        (a, b) :: ((List.range r.length).zip r).map (fun e : Nat × Byte => (a + 1 + e.1, e.2)) := by
      rw [List.length_cons, List.range_succ_eq_map, List.zip_cons_cons, List.map_cons, List.zip_map_left, List.map_map]
      congr 1
      apply List.map_congr_left
      intro x _
      simp [Prod.map]; omega
    have := ih (a + 1)
    rw [e]
    by_cases hb : b = 0
    · rw [List.filter_cons_of_neg (by simp [hb]), this]
      by_cases h1 : a + 1 ≤ k
      · obtain ⟨j, rfl⟩ := Nat.exists_eq_add_of_le h1
        have : a + 1 + j - a = j + 1 := by omega
        simp [this, show a ≤ a + 1 + j by omega]
      · by_cases h2 : a ≤ k
        · have : k = a := by omega
          subst this; simp [hb]
        · simp [h1, h2]
    · rw [List.filter_cons_of_pos (by simpa using hb), Table.get_cons, this]
      by_cases h0 : a = k
      · subst h0; simp
      · by_cases h1 : a + 1 ≤ k
        · obtain ⟨j, rfl⟩ := Nat.exists_eq_add_of_le h1
          have : a + 1 + j - a = j + 1 := by omega
          simp [this, show a ≤ a + 1 + j by omega]; omega
        · have h2 : ¬ a ≤ k := by omega
          simp [h0, h1, h2]

/-- A read after a store of bytes: inside, the stored byte; elsewhere, what was there. -/
theorem Table.byte_putBytes (m : Table Byte) (a : Nat) (bs : List Byte) (k : Nat) :
    (m.putBytes a bs).byte k = if a ≤ k ∧ k < a + bs.length then bs.getD (k - a) 0 else m.byte k := by
  unfold Table.putBytes Table.byte
  have f1 := Table.get_filter m (fun i => decide (i < a)) k (0 : Byte)
  have f2 := Table.get_filter m (fun i => decide (a + bs.length ≤ i)) k (0 : Byte)
  have g := Table.get_stored a bs k
  rw [List.append_assoc, Table.get_append]
  split
  · next h =>
    have hk : k < a := by
      simp only [List.mem_map, List.mem_filter] at h
      obtain ⟨e, he, rfl⟩ := h
      simpa using he.2
    rw [f1, if_pos (by simpa using hk), if_neg (fun x => absurd x.1 (by omega))]
  · next h =>
    rw [Table.get_append]
    by_cases hk : k < a
    · have : Table.get m k 0 = (0 : Byte) := by
        rw [← f1.trans (if_pos (by simpa using hk))]
        exact Table.get_of_not_mem _ _ _ h
      have ha : ¬ a ≤ k := by omega
      rw [if_neg ha] at g
      rw [if_neg (by simp; omega)] at f2
      rw [f2, g, ite_self, if_neg (fun x => ha x.1), this]
    · split
      · next h2 =>
        have : k < a + bs.length := by
          simp only [List.mem_map, List.mem_filter] at h2
          obtain ⟨e, ⟨⟨x, hx, rfl⟩, _⟩, rfl⟩ := h2
          have := (List.of_mem_zip hx).1
          simp only [List.mem_range] at this
          simpa using this
        rw [g, if_pos (by omega), if_pos ⟨by omega, this⟩]
      · next h2 =>
        by_cases h3 : k < a + bs.length
        · rw [f2, if_neg (by simpa using h3), if_pos (by omega)]
          have := Table.get_of_not_mem _ k (0 : Byte) h2
          rw [g, if_pos (by omega)] at this
          exact this.symm
        · rw [f2, if_pos (by simp; omega), if_neg (by omega)]

theorem Table.getElem_bytes (m : Table Byte) (a n : Nat) (i : Nat) (h : i < (m.bytes a n).length) : (m.bytes a n)[i] = m.byte (a + i) := by
  unfold Table.bytes at h ⊢
  simp only [List.length_map, List.length_range] at h
  have f := Table.get_filter m (fun j => decide (a ≤ j) && decide (j < a + n)) (a + i) (0 : Byte)
  simp only [List.getElem_map, List.getElem_range, Table.byte]
  rw [f, if_pos (by simp; omega)]

@[simp] theorem Table.length_bytes (m : Table Byte) (a n : Nat) : (m.bytes a n).length = n := by simp [Table.bytes]

/-- Bytes that have just been stored read as stored. -/
theorem Table.bytes_putBytes (m : Table Byte) (a : Nat) (bs : List Byte) : (m.putBytes a bs).bytes a bs.length = bs := by
  apply List.ext_getElem (by simp)
  intro i h1 h2
  rw [Table.getElem_bytes, Table.byte_putBytes, if_pos (by omega)]
  simp [List.getD_eq_getElem?_getD, h2]

/-! ## Little-endian numbers (R12) -/

@[simp] theorem length_leBytes (n v : Nat) : (leBytes n v).length = n := by
  induction n generalizing v with
  | zero => rfl
  | succ n ih => simp [leBytes, ih]

theorem leNat_leBytes (n v : Nat) : leNat (leBytes n v) = v % 256 ^ n := by
  induction n generalizing v with
  | zero => simp [leBytes, leNat, Nat.mod_one]
  | succ n ih =>
    simp only [leBytes, leNat, ih, BitVec.toNat_ofNat]
    have := Nat.mod_mul (a := 256) (b := 256 ^ n) (x := v)
    rw [show 256 ^ (n + 1) = 256 * 256 ^ n from by ring]
    exact this.symm

end Sys2Proof
end

