-- ==== Sys2Proof/Laws/Frame.lean ====
section
/-! SUPPORT. Frames: a sealed frame passes its check (R115, R116). -/

namespace Sys2Proof.Machine

theorem frameCheckOf_lt (f : List Byte) : frameCheckOf f < 2 ^ 32 := (crc32c _).isLt

/-- Sealing leaves the check value that the frame's bytes give as it is: it takes bytes 0 to 3 as zero. -/
theorem frameCheckOf_seal (f : List Byte) : frameCheckOf (frameSeal f) = frameCheckOf f := by
  simp [frameCheckOf, frameSeal]

theorem frameCheckOk_seal (f : List Byte) : frameCheckOk (frameSeal f) = true := by
  have h := frameCheckOf_lt f
  have e : (frameSeal f).take 4 = leBytes 4 (frameCheckOf f) := by simp [frameSeal]
  simp only [frameCheckOk, frameCheckField, e, leNat_leBytes, frameCheckOf_seal, decide_eq_true_eq]
  exact Nat.mod_eq_of_lt h

theorem frameCheckOk_mkFrame (h : Header) (sc pl : List Byte) : frameCheckOk (mkFrame h sc pl) = true := frameCheckOk_seal _

theorem length_frameSeal (f : List Byte) (h : 4 ≤ f.length) : (frameSeal f).length = f.length := by
  simp [frameSeal]; omega

theorem length_mkFrame (h : Header) (sc pl : List Byte) : (mkFrame h sc pl).length = 64 + sc.length + pl.length := by
  rw [mkFrame, length_frameSeal] <;> simp <;> omega

/-! ## The header of a built frame (R113) -/

theorem leNat_append (a b : List Byte) : leNat (a ++ b) = leNat a + 256 ^ a.length * leNat b := by
  induction a with
  | nil => simp [leNat]
  | cons x r ih => simp only [List.cons_append, leNat, ih, List.length_cons]; ring

theorem leNat_lt (a : List Byte) : leNat a < 256 ^ a.length := by
  induction a with
  | nil => simp [leNat]
  | cons x r ih =>
    have : x.toNat < 256 := x.isLt
    have e : 256 ^ (x :: r).length = 256 * 256 ^ r.length := by rw [List.length_cons]; ring
    rw [e, leNat]
    omega

theorem leNat_drop_leBytes (n k v : Nat) (h : k ≤ n) : leNat ((leBytes n v).drop k) = v % 256 ^ n / 256 ^ k := by
  have e := leNat_leBytes n v
  rw [← List.take_append_drop k (leBytes n v), leNat_append] at e
  have l : ((leBytes n v).take k).length = k := by simp [h]
  have lt := leNat_lt ((leBytes n v).take k)
  rw [l] at e lt
  rw [← e, Nat.add_mul_div_left _ _ (by positivity), Nat.div_eq_of_lt lt, Nat.zero_add]

/-- The header of a frame as it is built, with its CHECK in bits [31:0]. -/
theorem frameHead_mkFrame (h : Header) (sc pl : List Byte) : ∃ c < 2 ^ 32,
    frameHead (mkFrame h sc pl) = c + 2 ^ 32 * (headerVal h 0 % 256 ^ 64 / 2 ^ 32) := by
  refine ⟨_, frameCheckOf_lt (leBytes 64 (headerVal h 0) ++ sc ++ pl), ?_⟩
  have e : (mkFrame h sc pl).take 64 = leBytes 4 (frameCheckOf (leBytes 64 (headerVal h 0) ++ sc ++ pl)) ++
      (leBytes 64 (headerVal h 0)).drop 4 := by
    rw [mkFrame, frameSeal, List.append_assoc (leBytes 64 _), List.drop_append_of_le_length (by simp), ← List.append_assoc,
      List.take_append_of_le_length (by simp), List.take_of_length_le (by simp)]
  rw [frameHead, e, leNat_append, leNat_leBytes, leNat_drop_leBytes _ _ _ (by omega), length_leBytes,
    show (256 : Nat) ^ 4 = 2 ^ 32 by norm_num, Nat.mod_eq_of_lt (frameCheckOf_lt _)]

/-- A field above CHECK does not depend on it. -/
theorem bits_above (c r hi lo : Nat) (hc : c < 2 ^ 32) (h : 32 ≤ lo) : bits (c + 2 ^ 32 * r) hi lo = bits r (hi - 32) (lo - 32) ∨ hi < 32 := by
  by_cases hh : hi < 32
  · exact .inr hh
  · left
    unfold bits
    rw [show 2 ^ lo = 2 ^ 32 * 2 ^ (lo - 32) by rw [← pow_add]; congr 1; omega, ← Nat.div_div_eq_div_mul,
      Nat.add_mul_div_left _ _ (by positivity), Nat.div_eq_of_lt hc, Nat.zero_add]
    congr 2
    omega

end Sys2Proof.Machine
end

