-- ==== Sys2Proof/Laws/Keeps.lean ====
section
/-! SUPPORT. The relation Keeps (Safety.lean) as a preorder, and how it passes through updates, choices and folds. -/

namespace Sys2Proof.Machine

theorem Keeps.refl (s : State) : Keeps s s :=
  ⟨rfl, rfl, rfl, id, id, Nat.le_refl _, Nat.le_refl _, BitVec.le_refl _⟩

theorem Keeps.trans {s t u : State} (h : Keeps s t) (k : Keeps t u) : Keeps s u :=
  ⟨k.pending.trans h.pending, k.part.trans h.part, k.now.trans h.now, fun m => k.mem (h.mem m), fun m => k.log (h.log m),
   h.events.trans k.events, h.protSeq.trans k.protSeq, BitVec.le_trans h.floor k.floor⟩

/-- A state named by its fields: what an update leaves, with a head of its own. -/
def State.boxed (pending : List Instr) (part : PartNo) (phase : ModPhase) (now freeUsed : Nat) (cores : Table Core)
    (parts : Table Partition) (movers : Table (List Desc)) (lake : Lake) (host : Table Byte) (fabric : Fabric) (mgmt : Management)
    (sup : Supervision) (power : Power) (slots : Table FwSlot) (update : Update) (log : List Event) (nextEvent : Nat)
    (counters : Table Nat) (msix : List (Nat × Nat)) : State :=
  ⟨pending, part, phase, now, freeUsed, cores, parts, movers, lake, host, fabric, mgmt, sup, power, slots, update, log, nextEvent,
    counters, msix⟩

theorem State.mk_boxed (pending : List Instr) (part : PartNo) (phase : ModPhase) (now freeUsed : Nat) (cores : Table Core)
    (parts : Table Partition) (movers : Table (List Desc)) (lake : Lake) (host : Table Byte) (fabric : Fabric) (mgmt : Management)
    (sup : Supervision) (power : Power) (slots : Table FwSlot) (update : Update) (log : List Event) (nextEvent : Nat)
    (counters : Table Nat) (msix : List (Nat × Nat)) :
    State.mk pending part phase now freeUsed cores parts movers lake host fabric mgmt sup power slots update log nextEvent
      counters msix = State.boxed pending part phase now freeUsed cores parts movers lake host fabric mgmt sup power slots update
      log nextEvent counters msix := rfl

/-- An update that leaves the fields that Keeps speaks of no worse. -/
theorem Keeps.boxed {s t : State} {phase : ModPhase} {freeUsed : Nat} {cores : Table Core} {parts : Table Partition}
    {movers : Table (List Desc)} {lake : Lake} {host : Table Byte} {fabric : Fabric} {mgmt : Management} {sup : Supervision}
    {power : Power} {slots : Table FwSlot} {update : Update} {counters : Table Nat} {msix : List (Nat × Nat)}
    (h : Keeps s t) (hm : Memory.wf t.lake.mem = true → Memory.wf lake.mem = true) (hp : t.mgmt.protSeq ≤ mgmt.protSeq)
    (hf : t.update.floor ≤ update.floor) :
    Keeps s (State.boxed t.pending t.part phase t.now freeUsed cores parts movers lake host fabric mgmt sup power slots update
      t.log t.nextEvent counters msix) :=
  ⟨h.pending, h.part, h.now, fun m => hm (h.mem m), h.log, h.events, Nat.le_trans h.protSeq hp, BitVec.le_trans h.floor hf⟩

theorem LogOk.push {s : State} (e : Event) (he : e.seq = s.nextEvent) (h : LogOk s) :
    LogOk { s with log := (if 65536 ≤ s.log.length then s.log.drop 1 else s.log) ++ [e], nextEvent := s.nextEvent + 1 } := by
  obtain ⟨hl, hm⟩ := h
  have key : ∀ l : List Event, l.length + 1 = Min.min (s.nextEvent + 1) 65536 →
      l.map (fun e => e.seq) = List.range' (s.nextEvent - l.length) l.length →
      LogOk { s with log := l ++ [e], nextEvent := s.nextEvent + 1 } := by
    intro l h1 h2
    have hlen : (l ++ [e]).length = l.length + 1 := by simp
    refine ⟨hlen.trans h1, ?_⟩
    simp only [hlen, List.map_append, h2, List.map_cons, List.map_nil, he, List.range'_concat]
    congr 1
    · congr 1; omega
    · congr 1; omega
  split
  · refine key _ ?_ ?_
    · simp only [List.length_drop]; omega
    · simp only [List.map_drop, hm, List.drop_range', List.length_drop]
      congr 1
      omega
  · exact key _ (by omega) hm

/-- A record added to the log as R390 says. -/
theorem Keeps.push {s t : State} (e : Event) (he : e.seq = t.nextEvent) (h : Keeps s t) :
    Keeps s { t with log := (if 65536 ≤ t.log.length then t.log.drop 1 else t.log) ++ [e], nextEvent := t.nextEvent + 1 } :=
  ⟨h.pending, h.part, h.now, h.mem, fun m => LogOk.push e he (h.log m), Nat.le_succ_of_le h.events, h.protSeq, h.floor⟩

theorem Keeps.ite {s a b : State} {c : Prop} [Decidable c] (ha : Keeps s a) (hb : Keeps s b) : Keeps s (if c then a else b) := by
  split
  · exact ha
  · exact hb

theorem Keeps.foldl {α : Type} {s t : State} {f : State → α → State} {l : List α} (h : Keeps s t)
    (hf : ∀ (u : State) (a : α), Keeps s u → Keeps s (f u a)) : Keeps s (l.foldl f t) := by
  induction l generalizing t with
  | nil => exact h
  | cons a r ih => exact ih (hf t a h)

/-- An optional state, if there is one. -/
def OKeeps (s : State) : Option State → Prop
  | some t => Keeps s t
  | none => True

theorem OKeeps.none {s : State} : OKeeps s none := trivial

theorem OKeeps.some {s t : State} (h : Keeps s t) : OKeeps s (some t) := h

theorem OKeeps.use {s t : State} {o : Option State} (h : OKeeps s o) (e : o = Option.some t) : Keeps s t := by
  subst e; exact h

theorem OKeeps.getD {s d : State} {o : Option State} (h : OKeeps s o) (hd : Keeps s d) : Keeps s (o.getD d) := by
  cases o with
  | none => exact hd
  | some t => exact h

theorem OKeeps.or {s : State} {o o' : Option State} (h : OKeeps s o) (h' : OKeeps s o') : OKeeps s (o.or o') := by
  cases o with
  | none => exact h'
  | some t => exact h

theorem OKeeps.bind {α : Type} {s : State} {o : Option α} {f : α → Option State} (h : ∀ a, OKeeps s (f a)) : OKeeps s (o.bind f) := by
  cases o with
  | none => trivial
  | some a => exact h a

theorem OKeeps.findSome {α : Type} {s : State} {f : α → Option State} {l : List α} (h : ∀ a, OKeeps s (f a)) :
    OKeeps s (l.findSome? f) := by
  induction l with
  | nil => trivial
  | cons a r ih =>
    have ha := h a
    cases e : f a with
    | none => simpa only [List.findSome?_cons, e] using ih
    | some t => simpa only [List.findSome?_cons, e] using e ▸ ha

/-- A state that a check may replace by an error. -/
def EKeeps {ε : Type} (s : State) : Except ε State → Prop
  | .ok t => Keeps s t
  | .error _ => True

theorem EKeeps.error {ε : Type} {s : State} {e : ε} : EKeeps s (.error e) := trivial

theorem EKeeps.ok {ε : Type} {s t : State} (h : Keeps s t) : EKeeps (ε := ε) s (.ok t) := h

theorem EKeeps.use {ε : Type} {s t : State} {o : Except ε State} (h : EKeeps s o) (e : o = .ok t) : Keeps s t := by
  subst e; exact h

/-- A state with a result. -/
def PKeeps {α : Type} (s : State) (p : State × α) : Prop := Keeps s p.1

theorem PKeeps.mk {α : Type} {s t : State} {a : α} (h : Keeps s t) : PKeeps s (t, a) := h

theorem PKeeps.use {α : Type} {s t : State} {a : α} {p : State × α} (h : PKeeps s p) (e : p = (t, a)) : Keeps s t := by
  subst e; exact h

theorem PKeeps.fst {α : Type} {s : State} {p : State × α} (h : PKeeps s p) : Keeps s p.1 := h

theorem PKeeps.foldl {α β : Type} {s : State} {p : State × β} {f : State × β → α → State × β} {l : List α} (h : PKeeps s p)
    (hf : ∀ (u : State × β) (a : α), PKeeps s u → PKeeps s (f u a)) : PKeeps s (l.foldl f p) := by
  induction l generalizing p with
  | nil => exact h
  | cons a r ih => exact ih (hf p a h)

/-- A result with a state. -/
def QKeeps {α : Type} (s : State) (p : α × State) : Prop := Keeps s p.2

theorem QKeeps.mk {α : Type} {s t : State} {a : α} (h : Keeps s t) : QKeeps s (a, t) := h

theorem QKeeps.use {α : Type} {s t : State} {a : α} {p : α × State} (h : QKeeps s p) (e : p = (a, t)) : Keeps s t := by
  subst e; exact h

theorem QKeeps.snd {α : Type} {s : State} {p : α × State} (h : QKeeps s p) : Keeps s p.2 := h

/-- An optional state with a result. -/
def TKeeps {α : Type} (s : State) : Option (State × α) → Prop
  | some p => Keeps s p.1
  | none => True

theorem TKeeps.none {α : Type} {s : State} : TKeeps (α := α) s none := trivial

theorem TKeeps.some {α : Type} {s t : State} {a : α} (h : Keeps s t) : TKeeps s (some (t, a)) := h

theorem TKeeps.use {α : Type} {s t : State} {a : α} {o : Option (State × α)} (h : TKeeps s o) (e : o = Option.some (t, a)) :
    Keeps s t := by
  subst e; exact h

/-- The outcome of a command, where it is a next state. -/
def RKeeps (s : State) : Res → Prop
  | .next t => Keeps s t
  | _ => True

theorem RKeeps.next {s t : State} (h : Keeps s t) : RKeeps s (.next t) := h

theorem RKeeps.fault {s : State} {r : Fault} : RKeeps s (.fault r) := trivial

theorem RKeeps.refused {s : State} {r : Refusal} : RKeeps s (.refused r) := trivial

theorem RKeeps.use {s t : State} {r : Res} (h : RKeeps s r) (e : r = .next t) : Keeps s t := by subst e; exact h

end Sys2Proof.Machine
end

