-- ==== Sys2Proof/Laws/KeepsBase.lean ====
section
/-! SUPPORT. What the operations of the Machine files imported here keep (Safety.lean, Keeps): one lemma each. -/

namespace Sys2Proof.Machine

/-! ## Machine/Ops.lean -/


theorem keeps_State_setCore {s0 : State} (s : State) (c : Nat) (k : Core) (hk : Keeps s0 s) :
    Keeps s0 (State.setCore s c k) := by
  rw [State.setCore.eq_def]
  repeat' (first
    | (with_reducible assumption)
    | (with_reducible exact id)
    | (with_reducible exact Nat.le_refl _)
    | (with_reducible exact BitVec.le_refl _)
    | (with_reducible refine Keeps.boxed ?_ ?_ ?_ ?_)
    | (with_reducible rw [State.mk_boxed]))

theorem keeps_State_onCore {s0 : State} (s : State) (c : Nat) (f : Core → Core) (hk : Keeps s0 s) :
    Keeps s0 (State.onCore s c f) := by
  rw [State.onCore.eq_def]
  repeat' (first
    | (with_reducible assumption)
    | (with_reducible apply keeps_State_setCore))

theorem keeps_State_onThread {s0 : State} (s : State) (c : Nat) (t : Nat) (f : Thread → Thread) (hk : Keeps s0 s) :
    Keeps s0 (State.onThread s c t f) := by
  rw [State.onThread.eq_def]
  repeat' (first
    | (with_reducible assumption)
    | (with_reducible apply keeps_State_onCore))

theorem keeps_State_setPartn {s0 : State} (s : State) (p : Nat) (x : Partition) (hk : Keeps s0 s) :
    Keeps s0 (State.setPartn s p x) := by
  rw [State.setPartn.eq_def]
  repeat' (first
    | (with_reducible assumption)
    | (with_reducible exact id)
    | (with_reducible exact Nat.le_refl _)
    | (with_reducible exact BitVec.le_refl _)
    | (with_reducible refine Keeps.boxed ?_ ?_ ?_ ?_)
    | (with_reducible rw [State.mk_boxed]))

theorem keeps_State_onPartn {s0 : State} (s : State) (p : Nat) (f : Partition → Partition) (hk : Keeps s0 s) :
    Keeps s0 (State.onPartn s p f) := by
  rw [State.onPartn.eq_def]
  repeat' (first
    | (with_reducible assumption)
    | (with_reducible apply keeps_State_setPartn))

theorem keeps_State_onSegment {s0 : State} (s : State) (p : Nat) (w : Nat) (q : Nat) (f : Segment → Segment) (hk : Keeps s0 s) :
    Keeps s0 (State.onSegment s p w q f) := by
  rw [State.onSegment.eq_def]
  repeat' (first
    | (with_reducible assumption)
    | (with_reducible apply keeps_State_onPartn))

theorem keeps_State_bump {s0 : State} (s : State) (index : Nat) (sub : Nat) (n : Nat) (hk : Keeps s0 s) :
    Keeps s0 (State.bump s index sub n) := by
  rw [State.bump.eq_def]
  repeat' (first
    | (with_reducible assumption)
    | (with_reducible exact id)
    | (with_reducible exact Nat.le_refl _)
    | (with_reducible exact BitVec.le_refl _)
    | (with_reducible refine Keeps.boxed ?_ ?_ ?_ ?_)
    | (with_reducible rw [State.mk_boxed]))

theorem keeps_State_bumpP {s0 : State} (s : State) (p : Nat) (index : Nat) (sub : Nat) (n : Nat) (hk : Keeps s0 s) :
    Keeps s0 (State.bumpP s p index sub n) := by
  rw [State.bumpP.eq_def]
  repeat' (first
    | (with_reducible assumption)
    | (with_reducible apply keeps_State_onPartn))

theorem keeps_State_countStageWait {s0 : State} (s : State) (p : Nat) (m : Nat) (since : Nat) (hk : Keeps s0 s) :
    Keeps s0 (State.countStageWait s p m since) := by
  rw [State.countStageWait.eq_def]
  repeat' (first
    | (with_reducible assumption)
    | (with_reducible apply keeps_State_bumpP)
    | (with_reducible refine Keeps.foldl ?_ ?_)
    | (intro _)
    | (extract_lets -underBinder)
    | (with_reducible refine Keeps.ite ?_ ?_))

theorem keeps_State_endMwait {s0 : State} (s : State) (c : Nat) (t : Nat) (hk : Keeps s0 s) :
    Keeps s0 (State.endMwait s c t) := by
  rw [State.endMwait.eq_def]
  repeat' (first
    | (with_reducible assumption)
    | (with_reducible apply keeps_State_countStageWait)
    | split)

theorem keeps_State_endMwaits {s0 : State} (s : State) (cores : List Nat) (hk : Keeps s0 s) :
    Keeps s0 (State.endMwaits s cores) := by
  rw [State.endMwaits.eq_def]
  repeat' (first
    | (with_reducible assumption)
    | (with_reducible apply keeps_State_endMwait)
    | (with_reducible refine Keeps.foldl ?_ ?_)
    | (intro _))

theorem keeps_State_signal {s0 : State} (s : State) (p : Nat) (vector : Nat) (hk : Keeps s0 s) :
    Keeps s0 (State.signal s p vector) := by
  rw [State.signal.eq_def]
  repeat' (first
    | (with_reducible assumption)
    | (with_reducible exact id)
    | (with_reducible exact Nat.le_refl _)
    | (with_reducible exact BitVec.le_refl _)
    | (with_reducible refine Keeps.boxed ?_ ?_ ?_ ?_)
    | (with_reducible rw [State.mk_boxed]))

theorem keeps_State_deliver {s0 : State} (s : State) (n : Nat) (hk : Keeps s0 s) :
    Keeps s0 (State.deliver s n) := by
  rw [State.deliver.eq_def]
  repeat' (first
    | (with_reducible assumption)
    | (with_reducible exact id)
    | (with_reducible exact Nat.le_refl _)
    | (with_reducible exact BitVec.le_refl _)
    | (with_reducible apply keeps_State_bump)
    | (with_reducible refine Keeps.boxed ?_ ?_ ?_ ?_)
    | (extract_lets -underBinder)
    | (with_reducible refine Keeps.ite ?_ ?_)
    | (with_reducible rw [State.mk_boxed])
    | (dsimp +zetaDelta only))

theorem keeps_State_raise {s0 : State} (s : State) (code : Nat) (p : Nat) (pos : Nat) (args : List Nat) (h : Keeps s0 s) :
    Keeps s0 (State.raise s code p pos args) := by
  unfold State.raise
  dsimp only
  refine Keeps.ite (keeps_State_signal _ _ _ ?_) ?_ <;>
    exact Keeps.foldl (Keeps.push _ rfl h) (fun _ _ hu => keeps_State_deliver _ _ hu)

theorem keeps_State_raiseP {s0 : State} (s : State) (code : Nat) (p : Nat) (args : List Nat) (hk : Keeps s0 s) :
    Keeps s0 (State.raiseP s code p args) := by
  rw [State.raiseP.eq_def]
  repeat' (first
    | (with_reducible assumption)
    | (with_reducible apply keeps_State_raise))

theorem keeps_State_raiseM {s0 : State} (s : State) (code : Nat) (pos : Nat) (args : List Nat) (hk : Keeps s0 s) :
    Keeps s0 (State.raiseM s code pos args) := by
  rw [State.raiseM.eq_def]
  repeat' (first
    | (with_reducible assumption)
    | (with_reducible apply keeps_State_raise))

theorem keeps_State_fresh {s0 : State} (s : State) (hk : Keeps s0 s) :
    Keeps s0 (State.fresh s) := by
  rw [State.fresh.eq_def]
  repeat' (first
    | (with_reducible assumption)
    | (with_reducible exact id)
    | (with_reducible exact Nat.le_refl _)
    | (with_reducible exact BitVec.le_refl _)
    | (with_reducible refine Keeps.boxed ?_ ?_ ?_ ?_)
    | (with_reducible rw [State.mk_boxed]))

theorem keeps_State_putMark {s0 : State} (s : State) (p : Nat) (m : Nat) (v : U32) (hk : Keeps s0 s) :
    Keeps s0 (State.putMark s p m v) := by
  rw [State.putMark.eq_def]
  repeat' (first
    | (with_reducible assumption)
    | (with_reducible exact id)
    | (with_reducible exact Nat.le_refl _)
    | (with_reducible exact BitVec.le_refl _)
    | (with_reducible apply keeps_State_onPartn)
    | (with_reducible refine Keeps.boxed ?_ ?_ ?_ ?_)
    | (extract_lets -underBinder)
    | (with_reducible rw [State.mk_boxed]))

theorem keeps_State_applyMark {s0 : State} (s : State) (p : Nat) (m : Nat) (v : U32) (hk : Keeps s0 s) :
    Keeps s0 (State.applyMark s p m v) := by
  rw [State.applyMark.eq_def]
  repeat' (first
    | (with_reducible assumption)
    | (with_reducible apply keeps_State_putMark)
    | (with_reducible apply keeps_State_bumpP)
    | (with_reducible apply keeps_State_onPartn)
    | (extract_lets -underBinder)
    | (with_reducible refine Keeps.ite ?_ ?_))

theorem keeps_State_markAdd {s0 : State} (s : State) (p : Nat) (m : Nat) (hk : Keeps s0 s) :
    Keeps s0 (State.markAdd s p m) := by
  rw [State.markAdd.eq_def]
  repeat' (first
    | (with_reducible assumption)
    | (with_reducible apply keeps_State_applyMark))

theorem keeps_State_halt {s0 : State} (s : State) (c : Nat) (t : Nat) (pc : Nat) (insn : U32) (code : Nat) (detail : Nat) (hk : Keeps s0 s) :
    Keeps s0 (State.halt s c t pc insn code detail) := by
  rw [State.halt.eq_def]
  repeat' (first
    | (with_reducible assumption)
    | (with_reducible apply keeps_State_onThread)
    | (with_reducible apply keeps_State_onSegment)
    | (extract_lets -underBinder)
    | (with_reducible refine Keeps.ite ?_ ?_)
    | split)

theorem keeps_State_correctPond {s0 : State} (s : State) (c : Nat) (a : Nat) (n : Nat) (hk : Keeps s0 s) :
    Keeps s0 (State.correctPond s c a n) := by
  rw [State.correctPond.eq_def]
  repeat' (first
    | (with_reducible assumption)
    | (with_reducible apply keeps_State_onCore)
    | (with_reducible apply keeps_State_bumpP)
    | (extract_lets -underBinder)
    | (with_reducible refine Keeps.ite ?_ ?_))

theorem keeps_State_correctPonds {s0 : State} (s : State) (c : Nat) (l : List (Nat × Nat)) (hk : Keeps s0 s) :
    Keeps s0 (State.correctPonds s c l) := by
  rw [State.correctPonds.eq_def]
  repeat' (first
    | (with_reducible assumption)
    | (with_reducible apply keeps_State_correctPond)
    | (with_reducible refine Keeps.foldl ?_ ?_)
    | (intro _))

theorem keeps_State_setClock {s0 : State} (s : State) (h : Nat) (g : Nat) (mhz : Nat) (hk : Keeps s0 s) :
    Keeps s0 (State.setClock s h g mhz) := by
  rw [State.setClock.eq_def]
  repeat' (first
    | (with_reducible assumption)
    | (with_reducible exact id)
    | (with_reducible exact Nat.le_refl _)
    | (with_reducible exact BitVec.le_refl _)
    | (with_reducible refine Keeps.boxed ?_ ?_ ?_ ?_)
    | (extract_lets -underBinder)
    | (with_reducible rw [State.mk_boxed]))

theorem keeps_State_startWake {s0 : State} (s : State) (hk : Keeps s0 s) :
    Keeps s0 (State.startWake s) := by
  rw [State.startWake.eq_def]
  repeat' (first
    | (with_reducible assumption)
    | (with_reducible exact id)
    | (with_reducible exact Nat.le_refl _)
    | (with_reducible exact BitVec.le_refl _)
    | (with_reducible refine Keeps.boxed ?_ ?_ ?_ ?_)
    | (extract_lets -underBinder)
    | (with_reducible refine Keeps.ite ?_ ?_)
    | (with_reducible rw [State.mk_boxed]))

/-! ## Machine/Mmu.lean -/


theorem keeps_State_lakeUncorrectable {s0 : State} (s : State) (p : Nat) (pa : Nat) (hk : Keeps s0 s) :
    Keeps s0 (State.lakeUncorrectable s p pa) := by
  rw [State.lakeUncorrectable.eq_def]
  repeat' (first
    | (with_reducible assumption)
    | (with_reducible apply keeps_State_bumpP)
    | (with_reducible apply keeps_State_raise))

theorem keeps_State_lakeWrite {s0 : State} (s : State) (pa : Nat) (bs : List Byte) (hk : Keeps s0 s) :
    Keeps s0 (State.lakeWrite s pa bs) := by
  rw [State.lakeWrite.eq_def]
  repeat' (first
    | (with_reducible assumption)
    | (with_reducible exact Nat.le_refl _)
    | (with_reducible exact BitVec.le_refl _)
    | (exact Memory.wf_putBytes _ _ _)
    | (with_reducible refine Keeps.boxed ?_ ?_ ?_ ?_)
    | (extract_lets -underBinder)
    | (with_reducible rw [State.mk_boxed]))

theorem keeps_State_poisonGranules {s0 : State} (s : State) (gs : List Nat) (hk : Keeps s0 s) :
    Keeps s0 (State.poisonGranules s gs) := by
  rw [State.poisonGranules.eq_def]
  repeat' (first
    | (with_reducible assumption)
    | (with_reducible exact id)
    | (with_reducible exact Nat.le_refl _)
    | (with_reducible exact BitVec.le_refl _)
    | (with_reducible refine Keeps.boxed ?_ ?_ ?_ ?_)
    | (extract_lets -underBinder)
    | (with_reducible rw [State.mk_boxed]))

theorem keeps_State_writeParts {s0 : State} (s : State) (l : List (Target × Nat)) (bs : List Byte) (hk : Keeps s0 s) :
    Keeps s0 (State.writeParts s l bs) := by
  induction l generalizing s bs with
  | nil =>
    rw [State.writeParts]
    repeat' (first
      | (with_reducible assumption))
  | cons a r ih =>
    first | rw [State.writeParts] | unfold State.writeParts
    repeat' (first
      | (apply ih)
      | (with_reducible assumption)
      | (with_reducible exact id)
      | (with_reducible exact Nat.le_refl _)
      | (with_reducible exact BitVec.le_refl _)
      | (with_reducible apply keeps_State_lakeWrite)
      | (with_reducible refine Keeps.boxed ?_ ?_ ?_ ?_)
      | (extract_lets -underBinder)
      | (with_reducible rw [State.mk_boxed])
      | split)

theorem keeps_State_noteFault {s0 : State} (s : State) (p : Nat) (f : XFault) (hk : Keeps s0 s) :
    Keeps s0 (State.noteFault s p f) := by
  rw [State.noteFault.eq_def]
  repeat' (first
    | (with_reducible assumption)
    | (with_reducible apply keeps_State_lakeUncorrectable)
    | split)

theorem keeps_State_vwrite {s0 : State} (s : State) (p : Nat) (va : Nat) (bs : List Byte) (hk : Keeps s0 s) :
    EKeeps s0 (State.vwrite s p va bs) := by
  rw [State.vwrite.eq_def]
  repeat' (first
    | (with_reducible assumption)
    | (with_reducible apply keeps_State_writeParts)
    | (with_reducible exact EKeeps.error)
    | (with_reducible apply EKeeps.ok)
    | split)

/-! ## Machine/StreamOps.lean -/


theorem keeps_State_onStream {s0 : State} (s : State) (p : Nat) (w : Nat) (f : Stream → Stream) (hk : Keeps s0 s) :
    Keeps s0 (State.onStream s p w f) := by
  rw [State.onStream.eq_def]
  repeat' (first
    | (with_reducible assumption)
    | (with_reducible apply keeps_State_onPartn))

theorem keeps_State_onCmd {s0 : State} (s : State) (p : Nat) (w : Nat) (q : Nat) (f : Cmd → Cmd) (hk : Keeps s0 s) :
    Keeps s0 (State.onCmd s p w q f) := by
  rw [State.onCmd.eq_def]
  repeat' (first
    | (with_reducible assumption)
    | (with_reducible apply keeps_State_onStream))

theorem keeps_State_tryRecord {s0 : State} (s : State) (p : Nat) (c : Cpl) (hk : Keeps s0 s) :
    OKeeps s0 (State.tryRecord s p c) := by
  rw [State.tryRecord.eq_def]
  repeat' (first
    | (with_reducible assumption)
    | (with_reducible apply keeps_State_vwrite)
    | (with_reducible apply keeps_State_onStream)
    | (with_reducible apply keeps_State_signal)
    | (with_reducible exact OKeeps.none)
    | (with_reducible apply OKeeps.some)
    | (extract_lets -underBinder)
    | (with_reducible refine Keeps.ite ?_ ?_)
    | split
    | (refine EKeeps.use ?_ (by assumption)))

theorem keeps_State_putRecord {s0 : State} (s : State) (p : Nat) (c : Cpl) (hk : Keeps s0 s) :
    Keeps s0 (State.putRecord s p c) := by
  rw [State.putRecord.eq_def]
  repeat' (first
    | (with_reducible assumption)
    | (with_reducible apply keeps_State_onStream)
    | (with_reducible apply keeps_State_tryRecord)
    | (with_reducible refine OKeeps.getD ?_ ?_)
    | (extract_lets -underBinder)
    | (with_reducible refine Keeps.ite ?_ ?_))

theorem keeps_State_flushList {s0 : State} (s : State) (p : Nat) (w : Nat) (x0 : List Cpl) (hk : Keeps s0 s) :
    Keeps s0 (State.flushList s p w x0) := by
  induction x0 generalizing s p w with
  | nil =>
    rw [State.flushList]
    repeat' (first
      | (with_reducible assumption)
      | (with_reducible apply keeps_State_onStream))
  | cons a r ih =>
    rw [State.flushList]
    repeat' (first
      | (apply ih)
      | (with_reducible assumption)
      | (with_reducible apply keeps_State_onStream)
      | (with_reducible apply keeps_State_tryRecord)
      | (extract_lets -underBinder)
      | split
      | (refine OKeeps.use ?_ (by assumption)))

theorem keeps_State_flushHeld {s0 : State} (s : State) (p : Nat) (w : Nat) (hk : Keeps s0 s) :
    Keeps s0 (State.flushHeld s p w) := by
  rw [State.flushHeld.eq_def]
  repeat' (first
    | (with_reducible assumption)
    | (with_reducible apply keeps_State_flushList)
    | (with_reducible apply keeps_State_bumpP)
    | (extract_lets -underBinder)
    | (with_reducible refine Keeps.ite ?_ ?_))

theorem keeps_State_countStatus {s0 : State} (s : State) (p : Nat) (status : Nat) (hk : Keeps s0 s) :
    Keeps s0 (State.countStatus s p status) := by
  rw [State.countStatus.eq_def]
  repeat' (first
    | (with_reducible assumption)
    | (with_reducible apply keeps_State_bumpP)
    | (with_reducible apply keeps_State_bump)
    | (extract_lets -underBinder)
    | (with_reducible refine Keeps.ite ?_ ?_))

theorem keeps_State_writeAborts {s0 : State} (s : State) (p : Nat) (w : Nat) (x0 : List AbortRec) (hk : Keeps s0 s) :
    Keeps s0 (State.writeAborts s p w x0) := by
  induction x0 generalizing s p w with
  | nil =>
    rw [State.writeAborts]
    repeat' (first
      | (with_reducible assumption))
  | cons a r ih =>
    rw [State.writeAborts]
    repeat' (first
      | (apply ih)
      | (with_reducible assumption)
      | (with_reducible apply keeps_State_onStream)
      | (with_reducible apply keeps_State_putRecord)
      | (with_reducible apply keeps_State_bumpP)
      | (extract_lets -underBinder)
      | (with_reducible refine Keeps.ite ?_ ?_))

theorem keeps_State_endMarkWait {s0 : State} (s : State) (p : Nat) (k : Cmd) (hk : Keeps s0 s) :
    Keeps s0 (State.endMarkWait s p k) := by
  rw [State.endMarkWait.eq_def]
  repeat' (first
    | (with_reducible assumption)
    | (with_reducible apply keeps_State_countStageWait)
    | (with_reducible refine Keeps.ite ?_ ?_))

theorem keeps_State_complete {s0 : State} (s : State) (p : Nat) (w : Nat) (q : Nat) (o : Outcome) (hk : Keeps s0 s) :
    Keeps s0 (State.complete s p w q o) := by
  rw [State.complete.eq_def]
  repeat' (first
    | (with_reducible assumption)
    | (with_reducible apply keeps_State_endMarkWait)
    | (with_reducible apply keeps_State_onStream)
    | (with_reducible apply keeps_State_countStatus)
    | (with_reducible apply keeps_State_putRecord)
    | (with_reducible apply keeps_State_writeAborts)
    | split)

theorem keeps_State_noteRead {s0 : State} (s : State) (p : Nat) (x0 : VRead) (hk : Keeps s0 s) :
    Keeps s0 (State.noteRead s p x0) := by
  rw [State.noteRead.eq_def]
  repeat' (first
    | (with_reducible assumption)
    | (with_reducible apply keeps_State_noteFault)
    | (with_reducible apply keeps_State_lakeUncorrectable)
    | split)

theorem keeps_State_postFault {s0 : State} (s : State) (p : Nat) (hk : Keeps s0 s) :
    Keeps s0 (State.postFault s p) := by
  rw [State.postFault.eq_def]
  repeat' (first
    | (with_reducible assumption)
    | (with_reducible apply keeps_State_vwrite)
    | (with_reducible apply keeps_State_onPartn)
    | (with_reducible apply keeps_State_signal)
    | (with_reducible apply keeps_State_bumpP)
    | (extract_lets -underBinder)
    | (with_reducible refine Keeps.ite ?_ ?_)
    | split
    | (refine EKeeps.use ?_ (by assumption)))

theorem keeps_State_queueFault {s0 : State} (s : State) (p : Nat) (r : FaultRec) (hk : Keeps s0 s) :
    Keeps s0 (State.queueFault s p r) := by
  rw [State.queueFault.eq_def]
  repeat' (first
    | (with_reducible assumption)
    | (with_reducible apply keeps_State_onPartn)
    | (with_reducible apply keeps_State_postFault)
    | (with_reducible apply keeps_State_raiseP)
    | (extract_lets -underBinder)
    | (with_reducible refine Keeps.ite ?_ ?_))

/-! ## Machine/FabricOps.lean -/


theorem keeps_State_setPort {s0 : State} (s : State) (q : Nat) (x : Port) (hk : Keeps s0 s) :
    Keeps s0 (State.setPort s q x) := by
  rw [State.setPort.eq_def]
  repeat' (first
    | (with_reducible assumption)
    | (with_reducible exact id)
    | (with_reducible exact Nat.le_refl _)
    | (with_reducible exact BitVec.le_refl _)
    | (with_reducible refine Keeps.boxed ?_ ?_ ?_ ?_)
    | (extract_lets -underBinder)
    | (with_reducible rw [State.mk_boxed]))

theorem keeps_State_setLanding {s0 : State} (s : State) (d : Nat) (x : Landing) (hk : Keeps s0 s) :
    Keeps s0 (State.setLanding s d x) := by
  rw [State.setLanding.eq_def]
  repeat' (first
    | (with_reducible assumption)
    | (with_reducible exact id)
    | (with_reducible exact Nat.le_refl _)
    | (with_reducible exact BitVec.le_refl _)
    | (with_reducible refine Keeps.boxed ?_ ?_ ?_ ?_)
    | (extract_lets -underBinder)
    | (with_reducible rw [State.mk_boxed]))

theorem keeps_State_send {s0 : State} (s : State) (k : Packet) (hk : Keeps s0 s) :
    Keeps s0 (State.send s k) := by
  rw [State.send.eq_def]
  repeat' (first
    | (with_reducible assumption)
    | (with_reducible apply keeps_State_setLanding))

theorem keeps_State_takePsn {s0 : State} (s : State) (p : Nat) (vl : Nat) (hk : Keeps s0 s) :
    PKeeps s0 (State.takePsn s p vl) := by
  rw [State.takePsn.eq_def]
  repeat' (first
    | (with_reducible assumption)
    | (with_reducible exact id)
    | (with_reducible exact Nat.le_refl _)
    | (with_reducible exact BitVec.le_refl _)
    | (with_reducible refine Keeps.boxed ?_ ?_ ?_ ?_)
    | (extract_lets -underBinder)
    | (with_reducible rw [State.mk_boxed])
    | (dsimp +zetaDelta only)
    | (with_reducible apply PKeeps.mk))

theorem keeps_State_takeArrived {s0 : State} (s : State) (d : Nat) (k : Packet) (hk : Keeps s0 s) :
    OKeeps s0 (State.takeArrived s d k) := by
  rw [State.takeArrived.eq_def]
  repeat' (first
    | (with_reducible assumption)
    | (with_reducible apply keeps_State_setLanding)
    | (with_reducible exact OKeeps.none)
    | (with_reducible apply OKeeps.some)
    | (extract_lets -underBinder)
    | split)

theorem keeps_State_enterPsn {s0 : State} (s : State) (k : Packet) (hk : Keeps s0 s) :
    Keeps s0 (State.enterPsn s k) := by
  rw [State.enterPsn.eq_def]
  repeat' (first
    | (with_reducible assumption)
    | (with_reducible exact id)
    | (with_reducible exact Nat.le_refl _)
    | (with_reducible exact BitVec.le_refl _)
    | (with_reducible refine Keeps.boxed ?_ ?_ ?_ ?_)
    | (extract_lets -underBinder)
    | (with_reducible rw [State.mk_boxed]))

theorem keeps_State_sendStomp {s0 : State} (s : State) (q : Nat) (hk : Keeps s0 s) :
    OKeeps s0 (State.sendStomp s q) := by
  rw [State.sendStomp.eq_def]
  repeat' (first
    | (with_reducible assumption)
    | (with_reducible apply keeps_State_setPort)
    | (with_reducible apply keeps_State_bump)
    | (with_reducible exact OKeeps.none)
    | (with_reducible apply OKeeps.some)
    | (extract_lets -underBinder)
    | split)

theorem keeps_State_sendFlit {s0 : State} (s : State) (q : Nat) (hk : Keeps s0 s) :
    OKeeps s0 (State.sendFlit s q) := by
  rw [State.sendFlit.eq_def]
  repeat' (first
    | (with_reducible assumption)
    | (with_reducible exact id)
    | (with_reducible exact Nat.le_refl _)
    | (with_reducible exact BitVec.le_refl _)
    | (with_reducible apply keeps_State_setPort)
    | (with_reducible apply keeps_State_bump)
    | (with_reducible apply keeps_State_bumpP)
    | (with_reducible refine Keeps.boxed ?_ ?_ ?_ ?_)
    | (with_reducible exact OKeeps.none)
    | (with_reducible apply OKeeps.some)
    | (extract_lets -underBinder)
    | (with_reducible refine Keeps.ite ?_ ?_)
    | (with_reducible rw [State.mk_boxed])
    | split)

theorem keeps_State_pump {s0 : State} (s : State) (q : Nat) (x0 : Nat) (hk : Keeps s0 s) :
    Keeps s0 (State.pump s q x0) := by
  induction x0 generalizing s q with
  | zero =>
    rw [State.pump]
    repeat' (first
      | (with_reducible assumption))
  | succ n ih =>
    rw [State.pump]
    repeat' (first
      | (apply ih)
      | (with_reducible assumption)
      | (with_reducible apply keeps_State_sendStomp)
      | (with_reducible apply keeps_State_sendFlit)
      | (with_reducible refine OKeeps.or ?_ ?_)
      | (extract_lets -underBinder)
      | split
      | (refine OKeeps.use ?_ (by assumption)))

theorem keeps_State_noteStall {s0 : State} (s : State) (q : Nat) (hk : Keeps s0 s) :
    Keeps s0 (State.noteStall s q) := by
  rw [State.noteStall.eq_def]
  repeat' (first
    | (with_reducible assumption)
    | (with_reducible apply keeps_State_setPort)
    | (with_reducible apply keeps_State_bump)
    | (extract_lets -underBinder)
    | (with_reducible refine Keeps.ite ?_ ?_)
    | split)

theorem keeps_State_sendIdle {s0 : State} (s : State) (q : Nat) (hk : Keeps s0 s) :
    Keeps s0 (State.sendIdle s q) := by
  rw [State.sendIdle.eq_def]
  repeat' (first
    | (with_reducible assumption)
    | (with_reducible apply keeps_State_setPort)
    | (extract_lets -underBinder)
    | (with_reducible refine Keeps.ite ?_ ?_))

theorem keeps_State_drive {s0 : State} (s : State) (q : Nat) (hk : Keeps s0 s) :
    Keeps s0 (State.drive s q) := by
  rw [State.drive.eq_def]
  repeat' (first
    | (with_reducible assumption)
    | (with_reducible apply keeps_State_pump)
    | (with_reducible apply keeps_State_sendIdle)
    | (with_reducible apply keeps_State_noteStall)
    | (with_reducible refine Keeps.ite ?_ ?_))

/-! ## Machine/Issue.lean -/


theorem keeps_issue {s0 : State} (mine : U32 → Bool) (act : Nat → Nat → U32 → State → State) (c : Nat) (t : Nat) (w : U32) (s : State)  (hact : ∀ (y0 : Nat) (y1 : Nat) (y2 : U32) (y3 : State), Keeps s0 y3 → Keeps s0 (act y0 y1 y2 y3)) (hk : Keeps s0 s) :
    Keeps s0 (issue mine act c t w s) := by
  rw [issue.eq_def]
  repeat' (first
    | (with_reducible assumption)
    | (with_reducible apply hact)
    | (with_reducible apply keeps_State_onCore)
    | (with_reducible apply keeps_State_onThread)
    | (extract_lets -underBinder)
    | (with_reducible refine Keeps.ite ?_ ?_))

theorem keeps_haltAt {s0 : State} (code : Nat) (detail : Nat) (c : Nat) (t : Nat) (w : U32) (s : State) (hk : Keeps s0 s) :
    Keeps s0 (haltAt code detail c t w s) := by
  rw [haltAt.eq_def]
  repeat' (first
    | (with_reducible assumption)
    | (with_reducible apply keeps_State_halt))

theorem keeps_reserveChecked {s0 : State} (bad : U32 → Bool) (act : Nat → Nat → U32 → State → State) (c : Nat) (t : Nat) (w : U32) (s : State)  (hact : ∀ (y0 : Nat) (y1 : Nat) (y2 : U32) (y3 : State), Keeps s0 y3 → Keeps s0 (act y0 y1 y2 y3)) (hk : Keeps s0 s) :
    Keeps s0 (reserveChecked bad act c t w s) := by
  rw [reserveChecked.eq_def]
  repeat' (first
    | (with_reducible assumption)
    | (with_reducible apply hact)
    | (with_reducible apply keeps_haltAt)
    | (with_reducible refine Keeps.ite ?_ ?_))

theorem keeps_onThreadAct {s0 : State} (f : Thread → U32 → Thread) (c : Nat) (t : Nat) (w : U32) (s : State) (hk : Keeps s0 s) :
    Keeps s0 (onThreadAct f c t w s) := by
  rw [onThreadAct.eq_def]
  repeat' (first
    | (with_reducible assumption)
    | (with_reducible apply keeps_State_onThread))

/-! ## Machine/Order.lean -/


theorem keeps_lockChecked {s0 : State} (act : Nat → Nat → U32 → State → State) (c : Nat) (t : Nat) (w : U32) (s : State)  (hact : ∀ (y0 : Nat) (y1 : Nat) (y2 : U32) (y3 : State), Keeps s0 y3 → Keeps s0 (act y0 y1 y2 y3)) (hk : Keeps s0 s) :
    Keeps s0 (lockChecked act c t w s) := by
  rw [lockChecked.eq_def]
  repeat' (first
    | (with_reducible assumption)
    | (with_reducible apply hact)
    | (with_reducible apply keeps_State_onThread)
    | (extract_lets -underBinder)
    | (with_reducible refine Keeps.ite ?_ ?_))

/-! ## Machine/Cursor.lean -/


theorem keeps_State_setCursor {s0 : State} (s : State) (k : Nat) (c : Cursor) (hk : Keeps s0 s) :
    Keeps s0 (State.setCursor s k c) := by
  rw [State.setCursor.eq_def]
  repeat' (first
    | (with_reducible assumption)
    | (with_reducible apply keeps_State_lakeWrite))

theorem keeps_State_setStore {s0 : State} (s : State) (k : Nat) (x : SweepStore) (hk : Keeps s0 s) :
    Keeps s0 (State.setStore s k x) := by
  rw [State.setStore.eq_def]
  repeat' (first
    | (with_reducible assumption)
    | (with_reducible exact id)
    | (with_reducible exact Nat.le_refl _)
    | (with_reducible exact BitVec.le_refl _)
    | (with_reducible refine Keeps.boxed ?_ ?_ ?_ ?_)
    | (extract_lets -underBinder)
    | (with_reducible rw [State.mk_boxed]))

theorem keeps_State_wroteWhole {s0 : State} (s : State) (pa : Nat) (n : Nat) (hk : Keeps s0 s) :
    Keeps s0 (State.wroteWhole s pa n) := by
  rw [State.wroteWhole.eq_def]
  repeat' (first
    | (with_reducible assumption)
    | (with_reducible exact id)
    | (with_reducible exact Nat.le_refl _)
    | (with_reducible exact BitVec.le_refl _)
    | (with_reducible refine Keeps.boxed ?_ ?_ ?_ ?_)
    | (extract_lets -underBinder)
    | (with_reducible rw [State.mk_boxed]))

theorem keeps_State_setShadow {s0 : State} (s : State) (k : Nat) (slot : Bool) (l : List (Nat × List Byte)) (hk : Keeps s0 s) :
    Keeps s0 (State.setShadow s k slot l) := by
  rw [State.setShadow.eq_def]
  repeat' (first
    | (with_reducible assumption)
    | (with_reducible apply keeps_State_setStore)
    | (with_reducible apply keeps_State_wroteWhole))

theorem keeps_State_setStats {s0 : State} (s : State) (k : Nat) (r : Table U32) (c : Table U32) (hk : Keeps s0 s) :
    Keeps s0 (State.setStats s k r c) := by
  rw [State.setStats.eq_def]
  repeat' (first
    | (with_reducible assumption)
    | (with_reducible apply keeps_State_setStore)
    | (with_reducible apply keeps_State_wroteWhole))

/-! ## Machine/WatchOps.lean -/


theorem keeps_State_tallySlot {s0 : State} (s : State) (p : Nat) (i : Nat) (g : Segment) (layer : Option Nat) (t : Tally) (hk : Keeps s0 s) :
    Keeps s0 (State.tallySlot s p i g layer t) := by
  rw [State.tallySlot.eq_def]
  repeat' (first
    | (with_reducible assumption)
    | (with_reducible apply keeps_State_bumpP)
    | (with_reducible apply keeps_State_onPartn)
    | (with_reducible apply keeps_State_onSegment)
    | (extract_lets -underBinder)
    | (with_reducible refine Keeps.ite ?_ ?_)
    | split)

theorem keeps_State_tally {s0 : State} (s : State) (p : Nat) (seg : Option (Nat × Nat × Option Nat)) (tensor : U32) (t : Tally) (hk : Keeps s0 s) :
    Keeps s0 (State.tally s p seg tensor t) := by
  rw [State.tally.eq_def]
  repeat' (first
    | (with_reducible assumption)
    | (with_reducible apply keeps_State_bumpP)
    | (with_reducible apply keeps_State_onPartn)
    | (with_reducible apply keeps_State_raiseP)
    | (with_reducible apply keeps_State_tallySlot)
    | (extract_lets -underBinder)
    | (with_reducible refine Keeps.ite ?_ ?_)
    | split)

theorem keeps_State_enterLayer {s0 : State} (s : State) (c : Nat) (pc : Nat) (hk : Keeps s0 s) :
    PKeeps s0 (State.enterLayer s c pc) := by
  rw [State.enterLayer.eq_def]
  repeat' (first
    | (with_reducible assumption)
    | (with_reducible apply keeps_State_onSegment)
    | split
    | (with_reducible apply PKeeps.mk))

theorem keeps_State_notRecovered {s0 : State} (s : State) (p : Nat) (tensor : U32) (hk : Keeps s0 s) :
    Keeps s0 (State.notRecovered s p tensor) := by
  rw [State.notRecovered.eq_def]
  repeat' (first
    | (with_reducible assumption)
    | (with_reducible apply keeps_State_bumpP)
    | (with_reducible apply keeps_State_raiseP))

theorem keeps_State_a32Report {s0 : State} (s : State) (p : Nat) (tensor : U32) (hk : Keeps s0 s) :
    Keeps s0 (State.a32Report s p tensor) := by
  rw [State.a32Report.eq_def]
  repeat' (first
    | (with_reducible assumption)
    | (with_reducible apply keeps_State_bumpP)
    | (with_reducible apply keeps_State_onPartn)
    | (with_reducible apply keeps_State_notRecovered)
    | (with_reducible refine Keeps.ite ?_ ?_))

theorem keeps_State_overflow {s0 : State} (s : State) (c : Nat) (layer : Option Nat) (tensor : U32) (accumulator : Bool) (hk : Keeps s0 s) :
    PKeeps s0 (State.overflow s c layer tensor accumulator) := by
  rw [State.overflow.eq_def]
  repeat' (first
    | (with_reducible assumption)
    | (with_reducible apply keeps_State_notRecovered)
    | (with_reducible apply keeps_State_onCore)
    | (with_reducible apply keeps_State_onSegment)
    | (extract_lets -underBinder)
    | split
    | (dsimp +zetaDelta only)
    | (with_reducible apply PKeeps.mk))

/-! ## Machine/XRecord.lean -/


theorem keeps_State_endPeerWait {s0 : State} (s : State) (p : Nat) (hk : Keeps s0 s) :
    Keeps s0 (State.endPeerWait s p) := by
  rw [State.endPeerWait.eq_def]
  repeat' (first
    | (with_reducible assumption)
    | (with_reducible apply keeps_State_onPartn)
    | (with_reducible apply keeps_State_bumpP)
    | split)

theorem keeps_State_onX {s0 : State} (s : State) (p : Nat) (x : Nat) (f : XRun → XRun) (hk : Keeps s0 s) :
    Keeps s0 (State.onX s p x f) := by
  rw [State.onX.eq_def]
  repeat' (first
    | (with_reducible assumption)
    | (with_reducible apply keeps_State_onPartn))

theorem keeps_State_sendX {s0 : State} (s : State) (p : Nat) (r : XRun) (dst : Nat) (ptype : Nat) (addr : Nat) (body : List Byte) (hk : Keeps s0 s) :
    PKeeps s0 (State.sendX s p r dst ptype addr body) := by
  rw [State.sendX.eq_def]
  repeat' (first
    | (with_reducible assumption)
    | (with_reducible apply keeps_State_takePsn)
    | (with_reducible apply keeps_State_send)
    | (extract_lets -underBinder)
    | split
    | (dsimp +zetaDelta only)
    | (with_reducible apply PKeeps.mk)
    | (refine PKeeps.use ?_ (by assumption)))

theorem keeps_State_cancelX {s0 : State} (s : State) (p : Nat) (r : XRun) (hk : Keeps s0 s) :
    Keeps s0 (State.cancelX s p r) := by
  rw [State.cancelX.eq_def]
  repeat' (first
    | (with_reducible assumption)
    | (with_reducible apply keeps_State_sendX)
    | (with_reducible refine Keeps.foldl ?_ ?_)
    | (with_reducible apply PKeeps.fst)
    | (intro _))

theorem keeps_State_stopForX {s0 : State} (s : State) (p : Nat) (r : XRun) (cause : Nat) (arg : Nat) (detail : Nat) (hk : Keeps s0 s) :
    Keeps s0 (State.stopForX s p r cause arg detail) := by
  rw [State.stopForX.eq_def]
  repeat' (first
    | (with_reducible assumption)
    | (with_reducible apply keeps_State_onSegment))

theorem keeps_State_cancelWhere {s0 : State} (s : State) (p : Nat) (which : XRun → Bool) (hk : Keeps s0 s) :
    Keeps s0 (State.cancelWhere s p which) := by
  rw [State.cancelWhere.eq_def]
  repeat' (first
    | (with_reducible assumption)
    | (with_reducible apply keeps_State_cancelX)
    | (with_reducible apply keeps_State_onPartn)
    | (with_reducible apply keeps_State_endPeerWait)
    | (with_reducible refine Keeps.foldl ?_ ?_)
    | (intro _)
    | (extract_lets -underBinder)
    | (with_reducible refine Keeps.ite ?_ ?_))

theorem keeps_State_cancelStep {s0 : State} (s : State) (p : Nat) (hk : Keeps s0 s) :
    Keeps s0 (State.cancelStep s p) := by
  rw [State.cancelStep.eq_def]
  repeat' (first
    | (with_reducible assumption)
    | (with_reducible apply keeps_State_stopForX)
    | (with_reducible apply keeps_State_cancelWhere)
    | (with_reducible refine Keeps.foldl ?_ ?_)
    | (intro _))

/-! ## Machine/WatchEval.lean -/


theorem keeps_State_writeEntry {s0 : State} (s : State) (p : Nat) (fresh : Bool) (k : Slot) (hk : Keeps s0 s) :
    OKeeps s0 (State.writeEntry s p fresh k) := by
  rw [State.writeEntry.eq_def]
  repeat' (first
    | (with_reducible assumption)
    | (with_reducible apply keeps_State_writeParts)
    | (with_reducible exact OKeeps.none)
    | (with_reducible apply OKeeps.some)
    | split)

theorem keeps_State_entryLost {s0 : State} (s : State) (p : Nat) (slot : Nat) (addr : Nat) (hk : Keeps s0 s) :
    Keeps s0 (State.entryLost s p slot addr) := by
  rw [State.entryLost.eq_def]
  repeat' (first
    | (with_reducible assumption)
    | (with_reducible apply keeps_State_raiseP))

theorem keeps_State_writeEntriesFrom {s0 : State} (s : State) (p : Nat) (fresh : Bool) (x0 : List Slot) (x1 : Nat) (hk : Keeps s0 s) :
    PKeeps s0 (State.writeEntriesFrom s p fresh x0 x1) := by
  induction x0 generalizing s p fresh x1 with
  | nil =>
    rw [State.writeEntriesFrom]
    repeat' (first
      | (with_reducible assumption)
      | (with_reducible apply PKeeps.mk))
  | cons a r ih =>
    rw [State.writeEntriesFrom]
    repeat' (first
      | (apply ih)
      | (with_reducible assumption)
      | (with_reducible apply keeps_State_writeEntry)
      | (with_reducible apply keeps_State_entryLost)
      | (extract_lets -underBinder)
      | split
      | (with_reducible apply PKeeps.mk)
      | (refine OKeeps.use ?_ (by assumption)))

theorem keeps_State_writeEntries {s0 : State} (s : State) (p : Nat) (fresh : Bool) (hk : Keeps s0 s) :
    PKeeps s0 (State.writeEntries s p fresh) := by
  rw [State.writeEntries.eq_def]
  repeat' (first
    | (with_reducible assumption)
    | (with_reducible apply keeps_State_writeEntriesFrom))

theorem keeps_State_startSlots {s0 : State} (s : State) (p : Nat) (fresh : Bool) (hk : Keeps s0 s) :
    PKeeps s0 (State.startSlots s p fresh) := by
  rw [State.startSlots.eq_def]
  repeat' (first
    | (with_reducible assumption)
    | (with_reducible apply keeps_State_onPartn)
    | (with_reducible apply keeps_State_writeEntries))

set_option maxRecDepth 20000 in
theorem keeps_State_readScale {s0 : State} (s : State) (p : Nat) (tensor : U32) (hk : Keeps s0 s) :
    PKeeps s0 (State.readScale s p tensor) := by
  rw [State.readScale.eq_def]
  repeat' (first
    | (with_reducible assumption)
    | (with_reducible apply keeps_State_onPartn)
    | (with_reducible apply keeps_State_raiseP)
    | (extract_lets -underBinder)
    | split
    | (dsimp +zetaDelta only)
    | (with_reducible apply PKeeps.mk))

set_option maxRecDepth 20000 in
theorem keeps_State_ringRecord {s0 : State} (s : State) (p : Nat) (v : Nat) (hk : Keeps s0 s) :
    Keeps s0 (State.ringRecord s p v) := by
  rw [State.ringRecord.eq_def]
  repeat' (first
    | (with_reducible assumption)
    | (with_reducible apply keeps_State_vwrite)
    | (with_reducible apply keeps_State_onPartn)
    | (extract_lets -underBinder)
    | (with_reducible refine Keeps.ite ?_ ?_)
    | split
    | (dsimp +zetaDelta only)
    | (refine EKeeps.use ?_ (by assumption)))

theorem keeps_State_evalSlot {s0 : State} (s : State) (p : Nat) (i : Nat) (commit : Bool) (k : Slot) (hk : Keeps s0 s) :
    Keeps s0 (State.evalSlot s p i commit k) := by
  rw [State.evalSlot.eq_def]
  repeat' (first
    | (with_reducible assumption)
    | (with_reducible apply keeps_State_onPartn)
    | (with_reducible apply keeps_State_raiseP)
    | (with_reducible apply keeps_State_ringRecord)
    | (extract_lets -underBinder)
    | (with_reducible refine Keeps.ite ?_ ?_))

theorem keeps_State_evalSlots {s0 : State} (s : State) (p : Nat) (commit : Bool) (x0 : List Slot) (x1 : Nat) (hk : Keeps s0 s) :
    Keeps s0 (State.evalSlots s p commit x0 x1) := by
  induction x0 generalizing s p commit x1 with
  | nil =>
    rw [State.evalSlots]
    repeat' (first
      | (with_reducible assumption))
  | cons a r ih =>
    rw [State.evalSlots]
    repeat' (first
      | (apply ih)
      | (with_reducible assumption)
      | (with_reducible apply keeps_State_evalSlot))

theorem keeps_State_checkSupplied {s0 : State} (s : State) (p : Nat) (ks : List Slot) (hk : Keeps s0 s) :
    Keeps s0 (State.checkSupplied s p ks) := by
  rw [State.checkSupplied.eq_def]
  repeat' (first
    | (with_reducible assumption)
    | (with_reducible apply keeps_State_readScale)
    | (with_reducible refine Keeps.foldl ?_ ?_)
    | (with_reducible apply PKeeps.fst)
    | (intro _))

theorem keeps_State_evaluate {s0 : State} (s : State) (p : Nat) (commit : Bool) (hk : Keeps s0 s) :
    Keeps s0 (State.evaluate s p commit) := by
  rw [State.evaluate.eq_def]
  repeat' (first
    | (with_reducible assumption)
    | (with_reducible apply keeps_State_checkSupplied)
    | (with_reducible apply keeps_State_evalSlots)
    | (with_reducible apply keeps_State_raiseP)
    | (with_reducible apply keeps_State_onPartn)
    | (extract_lets -underBinder)
    | (with_reducible refine Keeps.ite ?_ ?_))

theorem keeps_State_endPeriod {s0 : State} (s : State) (p : Nat) (hk : Keeps s0 s) :
    Keeps s0 (State.endPeriod s p) := by
  rw [State.endPeriod.eq_def]
  repeat' (first
    | (with_reducible assumption)
    | (with_reducible apply keeps_State_evaluate)
    | (with_reducible apply keeps_State_onPartn))

theorem keeps_State_sealEvents {s0 : State} (s : State) (p : Nat) (x0 : List Slot) (x1 : Nat) (hk : Keeps s0 s) :
    Keeps s0 (State.sealEvents s p x0 x1) := by
  induction x0 generalizing s p x1 with
  | nil =>
    rw [State.sealEvents]
    repeat' (first
      | (with_reducible assumption))
  | cons a r ih =>
    rw [State.sealEvents]
    repeat' (first
      | (apply ih)
      | (with_reducible assumption)
      | (with_reducible apply keeps_State_raiseP)
      | (extract_lets -underBinder)
      | (with_reducible refine Keeps.ite ?_ ?_))

theorem keeps_State_rollback {s0 : State} (s : State) (p : Nat) (hk : Keeps s0 s) :
    Keeps s0 (State.rollback s p) := by
  rw [State.rollback.eq_def]
  repeat' (first
    | (with_reducible assumption)
    | (with_reducible apply keeps_State_bumpP)
    | (with_reducible apply keeps_State_onPartn))

theorem keeps_State_enterDiscarded {s0 : State} (s : State) (p : Nat) (cause : Nat) (who : Option (Nat × Nat) := none) (hk : Keeps s0 s) :
    Keeps s0 (State.enterDiscarded s p cause who) := by
  rw [State.enterDiscarded.eq_def]
  repeat' (first
    | (with_reducible assumption)
    | (with_reducible apply keeps_State_cancelStep)
    | (with_reducible apply keeps_State_rollback)
    | (with_reducible apply keeps_State_onPartn)
    | (with_reducible apply keeps_State_bumpP)
    | (with_reducible apply keeps_State_raiseP))

theorem keeps_State_stepFault {s0 : State} (s : State) (p : Nat) (cause : Nat) (who : Option (Nat × Nat) := none) (hk : Keeps s0 s) :
    Keeps s0 (State.stepFault s p cause who) := by
  rw [State.stepFault.eq_def]
  repeat' (first
    | (with_reducible assumption)
    | (with_reducible apply keeps_State_enterDiscarded)
    | (with_reducible refine Keeps.ite ?_ ?_))

theorem keeps_State_transferFault {s0 : State} (s : State) (p : Nat) (w : Nat) (q : Nat) (hk : Keeps s0 s) :
    Keeps s0 (State.transferFault s p w q) := by
  rw [State.transferFault.eq_def]
  repeat' (first
    | (with_reducible assumption)
    | (with_reducible apply keeps_State_enterDiscarded)
    | (with_reducible refine Keeps.ite ?_ ?_))

theorem keeps_State_stepHardLoss {s0 : State} (s : State) (p : Nat) (hk : Keeps s0 s) :
    Keeps s0 (State.stepHardLoss s p) := by
  rw [State.stepHardLoss.eq_def]
  repeat' (first
    | (with_reducible assumption)
    | (with_reducible apply keeps_State_enterDiscarded)
    | (with_reducible refine Keeps.ite ?_ ?_))

theorem keeps_State_stepToIdle {s0 : State} (s : State) (p : Nat) (hk : Keeps s0 s) :
    Keeps s0 (State.stepToIdle s p) := by
  rw [State.stepToIdle.eq_def]
  repeat' (first
    | (with_reducible assumption)
    | (with_reducible apply keeps_State_cancelStep)
    | (with_reducible apply keeps_State_rollback)
    | (with_reducible apply keeps_State_onPartn)
    | (extract_lets -underBinder)
    | (with_reducible refine Keeps.ite ?_ ?_))

theorem keeps_State_commitStep {s0 : State} (s : State) (p : Nat) (hk : Keeps s0 s) :
    Keeps s0 (State.commitStep s p) := by
  rw [State.commitStep.eq_def]
  repeat' (first
    | (with_reducible assumption)
    | (with_reducible apply keeps_State_evaluate)
    | (with_reducible apply keeps_State_setCursor)
    | (with_reducible apply keeps_State_onPartn)
    | (with_reducible refine Keeps.foldl ?_ ?_)
    | (intro _)
    | (extract_lets -underBinder)
    | (with_reducible refine Keeps.ite ?_ ?_))

theorem keeps_State_abortStep {s0 : State} (s : State) (p : Nat) (w : Nat) (hk : Keeps s0 s) :
    Keeps s0 (State.abortStep s p w) := by
  rw [State.abortStep.eq_def]
  repeat' (first
    | (with_reducible assumption)
    | (with_reducible apply keeps_State_stepToIdle)
    | (with_reducible apply keeps_State_onPartn)
    | (extract_lets -underBinder)
    | (with_reducible refine Keeps.ite ?_ ?_)
    | split)

end Sys2Proof.Machine
end

