-- ==== Sys2Proof/Laws/KeepsWork.lean ====
section
/-! SUPPORT. What the operations of the Machine files imported here keep (Safety.lean, Keeps): one lemma each. -/

namespace Sys2Proof.Machine

/-! ## Machine/Springs.lean -/


theorem keeps_State_setQueue {s0 : State} (s : State) (m : MoverRef) (l : List Desc) (hk : Keeps s0 s) :
    Keeps s0 (State.setQueue s m l) := by
  rw [State.setQueue.eq_def]
  repeat' (first
    | (with_reducible assumption)
    | (with_reducible exact id)
    | (with_reducible exact Nat.le_refl _)
    | (with_reducible exact BitVec.le_refl _)
    | (with_reducible apply keeps_State_onCore)
    | (with_reducible refine Keeps.boxed ?_ ?_ ?_ ?_)
    | (with_reducible rw [State.mk_boxed])
    | split)

theorem keeps_State_changeDesc {s0 : State} (s : State) (m : MoverRef) (d : Desc) (d' : Desc) (hk : Keeps s0 s) :
    Keeps s0 (State.changeDesc s m d d') := by
  rw [State.changeDesc.eq_def]
  repeat' (first
    | (with_reducible assumption)
    | (with_reducible apply keeps_State_setQueue))

theorem keeps_State_dropDesc {s0 : State} (s : State) (m : MoverRef) (d : Desc) (hk : Keeps s0 s) :
    Keeps s0 (State.dropDesc s m d) := by
  rw [State.dropDesc.eq_def]
  repeat' (first
    | (with_reducible assumption)
    | (with_reducible apply keeps_State_setQueue))

theorem keeps_sprAct {s0 : State} (c : Nat) (t : Nat) (w : U32) (s : State) (hk : Keeps s0 s) :
    Keeps s0 (sprAct c t w s) := by
  rw [sprAct.eq_def]
  repeat' (first
    | (with_reducible assumption)
    | (with_reducible apply keeps_haltAt)
    | (with_reducible apply keeps_State_correctPond)
    | (with_reducible apply keeps_State_enterLayer)
    | (with_reducible apply keeps_State_onCore)
    | (with_reducible apply PKeeps.fst)
    | (extract_lets -underBinder)
    | (with_reducible refine Keeps.ite ?_ ?_))

theorem keeps_sprQueued {s0 : State} (c : Nat) (t : Nat) (w : U32) (s : State) (hk : Keeps s0 s) :
    Keeps s0 (sprQueued c t w s) := by
  rw [sprQueued.eq_def]
  repeat' (first
    | (with_reducible assumption)
    | (with_reducible apply keeps_State_onThread)
    | (with_reducible apply keeps_sprAct)
    | (with_reducible refine Keeps.ite ?_ ?_))

theorem keeps_sprChecked {s0 : State} (c : Nat) (t : Nat) (w : U32) (s : State) (hk : Keeps s0 s) :
    Keeps s0 (sprChecked c t w s) := by
  rw [sprChecked.eq_def]
  repeat' (first
    | (with_reducible assumption)
    | (with_reducible apply keeps_reserveChecked)
    | (with_reducible apply keeps_lockChecked)
    | (with_reducible apply keeps_sprQueued)
    | (intro _))

theorem keeps_execSpr {s0 : State} (c : Nat) (t : Nat) (w : U32) (s : State) (hk : Keeps s0 s) :
    RKeeps s0 (execSpr c t w s) := by
  rw [execSpr.eq_def]
  repeat' (first
    | (with_reducible assumption)
    | (with_reducible apply keeps_issue)
    | (with_reducible apply keeps_sprChecked)
    | (with_reducible apply RKeeps.next))

theorem keeps_State_descGone {s0 : State} (s : State) (m : MoverRef) (d : Desc) (hk : Keeps s0 s) :
    Keeps s0 (State.descGone s m d) := by
  rw [State.descGone.eq_def]
  repeat' (first
    | (with_reducible assumption)
    | (with_reducible exact id)
    | (with_reducible exact Nat.le_refl _)
    | (with_reducible exact BitVec.le_refl _)
    | (with_reducible apply keeps_State_dropDesc)
    | (with_reducible apply keeps_State_onThread)
    | (with_reducible refine Keeps.boxed ?_ ?_ ?_ ?_)
    | (extract_lets -underBinder)
    | (with_reducible rw [State.mk_boxed])
    | split
    | (dsimp +zetaDelta only))

theorem keeps_State_endDesc {s0 : State} (s : State) (m : MoverRef) (d : Desc) (code : Nat) (vaddr : Nat) (hk : Keeps s0 s) :
    Keeps s0 (State.endDesc s m d code vaddr) := by
  rw [State.endDesc.eq_def]
  repeat' (first
    | (with_reducible assumption)
    | (with_reducible apply keeps_State_descGone)
    | (with_reducible apply keeps_State_halt)
    | (with_reducible apply keeps_State_complete)
    | (with_reducible apply keeps_State_transferFault)
    | (extract_lets -underBinder)
    | split)

theorem keeps_State_finishDesc {s0 : State} (s : State) (m : MoverRef) (d : Desc) (hk : Keeps s0 s) :
    Keeps s0 (State.finishDesc s m d) := by
  rw [State.finishDesc.eq_def]
  repeat' (first
    | (with_reducible assumption)
    | (with_reducible apply keeps_State_descGone)
    | (with_reducible apply keeps_State_complete)
    | (extract_lets -underBinder)
    | split)

theorem keeps_State_settleMove {s0 : State} (s : State) (m : MoverRef) (d : Desc) (hk : Keeps s0 s) :
    Keeps s0 (State.settleMove s m d) := by
  rw [State.settleMove.eq_def]
  repeat' (first
    | (with_reducible assumption)
    | (with_reducible apply keeps_State_descGone)
    | (with_reducible apply keeps_State_complete)
    | (with_reducible refine Keeps.ite ?_ ?_)
    | split)

theorem keeps_State_parkDesc {s0 : State} (s : State) (m : MoverRef) (d : Desc) (t : Nat) (side : Bool) (kind : Nat) (addr : Nat) (hk : Keeps s0 s) :
    Keeps s0 (State.parkDesc s m d t side kind addr) := by
  rw [State.parkDesc.eq_def]
  repeat' (first
    | (with_reducible assumption)
    | (with_reducible apply keeps_State_onPartn)
    | (with_reducible apply keeps_State_changeDesc)
    | (with_reducible apply keeps_State_bumpP)
    | (with_reducible apply keeps_State_queueFault))

theorem keeps_State_settleStop {s0 : State} (s : State) (m : MoverRef) (d : Desc) (hk : Keeps s0 s) :
    Keeps s0 (State.settleStop s m d) := by
  rw [State.settleStop.eq_def]
  repeat' (first
    | (with_reducible assumption)
    | (with_reducible apply keeps_State_settleMove)
    | (with_reducible apply keeps_State_endDesc)
    | (with_reducible apply keeps_State_parkDesc)
    | (extract_lets -underBinder)
    | (with_reducible refine Keeps.ite ?_ ?_)
    | split)

theorem keeps_State_dropRemotes {s0 : State} (s : State) (m : MoverRef) (d : Desc) (t : Nat) (hk : Keeps s0 s) :
    Keeps s0 (State.dropRemotes s m d t) := by
  rw [State.dropRemotes.eq_def]
  repeat' (first
    | (with_reducible assumption)
    | (with_reducible exact id)
    | (with_reducible exact Nat.le_refl _)
    | (with_reducible exact BitVec.le_refl _)
    | (with_reducible refine Keeps.boxed ?_ ?_ ?_ ?_)
    | (extract_lets -underBinder)
    | (with_reducible rw [State.mk_boxed]))

theorem keeps_State_stopDesc {s0 : State} (s : State) (m : MoverRef) (d : Desc) (t : Nat) (w : DescStop) (hk : Keeps s0 s) :
    Keeps s0 (State.stopDesc s m d t w) := by
  rw [State.stopDesc.eq_def]
  repeat' (first
    | (with_reducible assumption)
    | (with_reducible apply keeps_State_dropRemotes)
    | (with_reducible apply keeps_State_changeDesc)
    | (with_reducible apply keeps_State_settleStop))

theorem keeps_State_noteEntries {s0 : State} (s : State) (d : Desc) (t : Nat) (hk : Keeps s0 s) :
    Keeps s0 (State.noteEntries s d t) := by
  rw [State.noteEntries.eq_def]
  repeat' (first
    | (with_reducible assumption)
    | (with_reducible apply keeps_State_entryLost)
    | (with_reducible refine Keeps.foldl ?_ ?_)
    | (intro _)
    | (extract_lets -underBinder)
    | (with_reducible refine Keeps.ite ?_ ?_))

theorem keeps_State_faultDesc {s0 : State} (s : State) (m : MoverRef) (d : Desc) (t : Nat) (side : Bool) (f : XFault) (hk : Keeps s0 s) :
    Keeps s0 (State.faultDesc s m d t side f) := by
  rw [State.faultDesc.eq_def]
  repeat' (first
    | (with_reducible assumption)
    | (with_reducible apply keeps_State_noteEntries)
    | (with_reducible apply keeps_State_noteFault)
    | (with_reducible apply keeps_State_stopDesc)
    | (extract_lets -underBinder)
    | (with_reducible refine Keeps.ite ?_ ?_))

theorem keeps_State_unstage {s0 : State} (s : State) (m : MoverRef) (t : Nat) (hk : Keeps s0 s) :
    Keeps s0 (State.unstage s m t) := by
  rw [State.unstage.eq_def]
  repeat' (first
    | (with_reducible assumption)
    | (with_reducible exact id)
    | (with_reducible exact Nat.le_refl _)
    | (with_reducible exact BitVec.le_refl _)
    | (with_reducible refine Keeps.boxed ?_ ?_ ?_ ?_)
    | (extract_lets -underBinder)
    | (with_reducible rw [State.mk_boxed]))

theorem keeps_State_writePlace {s0 : State} (s : State) (d : Desc) (pl : DstPlace) (f : List Byte) (hk : Keeps s0 s) :
    Keeps s0 (State.writePlace s d pl f) := by
  rw [State.writePlace.eq_def]
  repeat' (first
    | (with_reducible assumption)
    | (with_reducible apply keeps_State_writeParts)
    | (with_reducible apply keeps_State_onCore)
    | (with_reducible apply keeps_State_setLanding)
    | (extract_lets -underBinder)
    | split)

theorem keeps_State_sendRemote {s0 : State} (s : State) (m : MoverRef) (d : Desc) (t : Nat) (q : Nat) (v : Nat) (body : List Byte) (member : Option Nat := none) (hk : Keeps s0 s) :
    PKeeps s0 (State.sendRemote s m d t q v body member) := by
  rw [State.sendRemote.eq_def]
  repeat' (first
    | (with_reducible assumption)
    | (with_reducible exact id)
    | (with_reducible exact Nat.le_refl _)
    | (with_reducible exact BitVec.le_refl _)
    | (with_reducible apply keeps_State_takePsn)
    | (with_reducible apply keeps_State_send)
    | (with_reducible refine Keeps.boxed ?_ ?_ ?_ ?_)
    | (extract_lets -underBinder)
    | (with_reducible rw [State.mk_boxed])
    | split
    | (dsimp +zetaDelta only)
    | (with_reducible apply PKeeps.mk)
    | (refine PKeeps.use ?_ (by assumption)))

theorem keeps_State_tallyTile {s0 : State} (s : State) (m : MoverRef) (d : Desc) (t : Nat) (tensor : U32) (o : Converted) (hk : Keeps s0 s) :
    PKeeps s0 (State.tallyTile s m d t tensor o) := by
  rw [State.tallyTile.eq_def]
  repeat' (first
    | (with_reducible assumption)
    | (with_reducible apply keeps_State_tally)
    | (with_reducible apply keeps_State_changeDesc)
    | (extract_lets -underBinder)
    | split
    | (dsimp +zetaDelta only)
    | (with_reducible apply PKeeps.mk))

theorem keeps_State_putDesc {s0 : State} (s : State) (m : MoverRef) (d : Desc) (t : Nat) (pl : DstPlace) (f : List Byte) (hk : Keeps s0 s) :
    Keeps s0 (State.putDesc s m d t pl f) := by
  rw [State.putDesc.eq_def]
  repeat' (first
    | (with_reducible assumption)
    | (with_reducible apply keeps_State_sendRemote)
    | (with_reducible apply keeps_State_changeDesc)
    | (with_reducible apply keeps_State_writePlace)
    | (with_reducible apply PKeeps.fst)
    | (with_reducible refine Keeps.ite ?_ ?_)
    | split)

theorem keeps_State_flagTile {s0 : State} (s : State) (m : MoverRef) (d : Desc) (tensor : U32) (flagged : Bool) (hk : Keeps s0 s) :
    PKeeps s0 (State.flagTile s m d tensor flagged) := by
  rw [State.flagTile.eq_def]
  repeat' (first
    | (with_reducible assumption)
    | (with_reducible apply keeps_State_overflow)
    | (with_reducible apply keeps_State_notRecovered)
    | split
    | (with_reducible apply PKeeps.mk))

theorem keeps_State_placeTile {s0 : State} (s : State) (m : MoverRef) (d : Desc) (t : Nat) (f : List Byte) (hk : Keeps s0 s) :
    Keeps s0 (State.placeTile s m d t f) := by
  rw [State.placeTile.eq_def]
  repeat' (first
    | (with_reducible assumption)
    | (with_reducible apply keeps_State_unstage)
    | (with_reducible apply keeps_State_faultDesc)
    | (with_reducible apply keeps_State_stopDesc)
    | (with_reducible apply keeps_State_tallyTile)
    | (with_reducible apply keeps_State_flagTile)
    | (with_reducible apply keeps_State_changeDesc)
    | (with_reducible apply keeps_State_putDesc)
    | (with_reducible apply PKeeps.fst)
    | (extract_lets -underBinder)
    | (with_reducible refine Keeps.ite ?_ ?_)
    | split
    | (dsimp only)
    | (dsimp +zetaDelta only))

theorem keeps_State_onSource {s0 : State} (s : State) (m : MoverRef) (d : Desc) (t : Nat) (again : ReadFailure → State → State)  (hagain : ∀ (y0 : ReadFailure) (y1 : State), Keeps s0 y1 → Keeps s0 (again y0 y1)) (hk : Keeps s0 s) :
    Keeps s0 (State.onSource s m d t again) := by
  rw [State.onSource.eq_def]
  repeat' (first
    | (with_reducible assumption)
    | (with_reducible apply hagain)
    | (with_reducible apply keeps_State_faultDesc)
    | (with_reducible apply keeps_State_stopDesc)
    | (with_reducible apply keeps_State_sendRemote)
    | (with_reducible apply keeps_State_changeDesc)
    | (with_reducible apply keeps_State_placeTile)
    | (with_reducible apply PKeeps.fst)
    | (extract_lets -underBinder)
    | split)

theorem keeps_State_noteFailure {s0 : State} (s : State) (p : Nat) (x0 : ReadFailure) (hk : Keeps s0 s) :
    Keeps s0 (State.noteFailure s p x0) := by
  rw [State.noteFailure.eq_def]
  repeat' (first
    | (with_reducible assumption)
    | (with_reducible apply keeps_State_lakeUncorrectable)
    | split)

theorem keeps_State_readPond {s0 : State} (s : State) (m : MoverRef) (d : Desc) (t : Nat) (hk : Keeps s0 s) :
    Keeps s0 (State.readPond s m d t) := by
  rw [State.readPond.eq_def]
  repeat' (first
    | (with_reducible assumption)
    | (with_reducible apply keeps_State_correctPond)
    | (extract_lets -underBinder)
    | (with_reducible refine Keeps.ite ?_ ?_))

theorem keeps_State_awaitRecovery {s0 : State} (s : State) (p : Nat) (x : Nat) (hk : Keeps s0 s) :
    Keeps s0 (State.awaitRecovery s p x) := by
  rw [State.awaitRecovery.eq_def]
  repeat' (first
    | (with_reducible assumption)
    | (with_reducible apply keeps_State_onPartn))

theorem keeps_execSpringTileMove {s0 : State} (m : MoverRef) (s : State) (hk : Keeps s0 s) :
    RKeeps s0 (execSpringTileMove m s) := by
  rw [execSpringTileMove.eq_def]
  repeat' (first
    | (with_reducible assumption)
    | (with_reducible apply keeps_State_awaitRecovery)
    | (with_reducible apply keeps_State_readPond)
    | (with_reducible apply keeps_State_onSource)
    | (with_reducible apply keeps_State_noteFailure)
    | (with_reducible apply keeps_State_changeDesc)
    | (with_reducible apply RKeeps.next)
    | (intro _)
    | split)

theorem keeps_State_sourceFailed {s0 : State} (s : State) (m : MoverRef) (d : Desc) (t : Nat) (why : ReadFailure) (hk : Keeps s0 s) :
    Keeps s0 (State.sourceFailed s m d t why) := by
  rw [State.sourceFailed.eq_def]
  repeat' (first
    | (with_reducible assumption)
    | (with_reducible apply keeps_State_noteFailure)
    | (with_reducible apply keeps_State_noteEntries)
    | (with_reducible apply keeps_State_stopDesc))

theorem keeps_execSpringDescriptorStart {s0 : State} (m : MoverRef) (s : State) (hk : Keeps s0 s) :
    RKeeps s0 (execSpringDescriptorStart m s) := by
  rw [execSpringDescriptorStart.eq_def]
  repeat' (first
    | (with_reducible assumption)
    | (with_reducible apply keeps_State_setQueue)
    | (with_reducible apply RKeeps.next)
    | (extract_lets -underBinder)
    | split)

theorem keeps_State_countTile {s0 : State} (s : State) (d : Desc) (hk : Keeps s0 s) :
    Keeps s0 (State.countTile s d) := by
  rw [State.countTile.eq_def]
  repeat' (first
    | (with_reducible assumption)
    | (with_reducible apply keeps_State_markAdd)
    | (with_reducible refine Keeps.ite ?_ ?_))

theorem keeps_State_deliverTile {s0 : State} (s : State) (m : MoverRef) (d : Desc) (hk : Keeps s0 s) :
    Keeps s0 (State.deliverTile s m d) := by
  rw [State.deliverTile.eq_def]
  repeat' (first
    | (with_reducible assumption)
    | (with_reducible apply keeps_State_changeDesc)
    | (with_reducible apply keeps_State_countTile)
    | (with_reducible apply keeps_State_settleMove)
    | (with_reducible apply keeps_State_finishDesc)
    | (with_reducible apply keeps_State_settleStop)
    | (extract_lets -underBinder)
    | (with_reducible refine Keeps.ite ?_ ?_))

theorem keeps_execSpringTileDelivered {s0 : State} (m : MoverRef) (s : State) (hk : Keeps s0 s) :
    RKeeps s0 (execSpringTileDelivered m s) := by
  rw [execSpringTileDelivered.eq_def]
  repeat' (first
    | (with_reducible assumption)
    | (with_reducible apply keeps_State_deliverTile)
    | (with_reducible apply keeps_State_faultDesc)
    | (with_reducible apply keeps_State_writePlace)
    | (with_reducible apply keeps_State_stopDesc)
    | (with_reducible apply RKeeps.next)
    | split)

theorem keeps_execSpringFaultTimeout {s0 : State} (p : Nat) (recordId : Nat) (s : State) (hk : Keeps s0 s) :
    RKeeps s0 (execSpringFaultTimeout p recordId s) := by
  rw [execSpringFaultTimeout.eq_def]
  repeat' (first
    | (with_reducible assumption)
    | (with_reducible apply keeps_State_bumpP)
    | (with_reducible apply keeps_State_raiseP)
    | (with_reducible apply keeps_State_endDesc)
    | (with_reducible apply RKeeps.next)
    | split)

theorem keeps_State_stale {s0 : State} (s : State) (p : Nat) (hk : Keeps s0 s) :
    Keeps s0 (State.stale s p) := by
  rw [State.stale.eq_def]
  repeat' (first
    | (with_reducible assumption)
    | (with_reducible apply keeps_State_bumpP))

theorem keeps_execFaultRespResume {s0 : State} (p : Nat) (recordId : U32) (s : State) (hk : Keeps s0 s) :
    RKeeps s0 (execFaultRespResume p recordId s) := by
  rw [execFaultRespResume.eq_def]
  repeat' (first
    | (with_reducible assumption)
    | (with_reducible apply keeps_State_stale)
    | (with_reducible apply keeps_State_changeDesc)
    | (with_reducible apply RKeeps.next)
    | split)

theorem keeps_execFaultRespFatal {s0 : State} (p : Nat) (recordId : U32) (s : State) (hk : Keeps s0 s) :
    RKeeps s0 (execFaultRespFatal p recordId s) := by
  rw [execFaultRespFatal.eq_def]
  repeat' (first
    | (with_reducible assumption)
    | (with_reducible apply keeps_State_stale)
    | (with_reducible apply keeps_State_endDesc)
    | (with_reducible apply RKeeps.next)
    | split)

theorem keeps_execFaultRecordPost {s0 : State} (p : Nat) (s : State) (hk : Keeps s0 s) :
    RKeeps s0 (execFaultRecordPost p s) := by
  rw [execFaultRecordPost.eq_def]
  repeat' (first
    | (with_reducible assumption)
    | (with_reducible apply keeps_State_postFault)
    | (with_reducible apply RKeeps.next))

theorem keeps_State_countMember {s0 : State} (s : State) (d : Desc) (k : Nat) (hk : Keeps s0 s) :
    Keeps s0 (State.countMember s d k) := by
  rw [State.countMember.eq_def]
  repeat' (first
    | (with_reducible assumption)
    | (with_reducible apply keeps_State_markAdd)
    | (with_reducible refine Keeps.ite ?_ ?_))

theorem keeps_State_memberWrites {s0 : State} (s : State) (m : MoverRef) (d : Desc) (k : Nat) (x : StairMember) (f : SkidFrame) (d' : Desc) (hk : Keeps s0 s) :
    Keeps s0 (State.memberWrites s m d k x f d') := by
  rw [State.memberWrites.eq_def]
  repeat' (first
    | (with_reducible assumption)
    | (with_reducible apply keeps_State_onCore)
    | (with_reducible apply keeps_State_changeDesc)
    | (with_reducible apply keeps_State_countMember))

theorem keeps_State_forwardRead {s0 : State} (s : State) (d : Desc) (x : StairMember) (f : SkidFrame) (hk : Keeps s0 s) :
    Keeps s0 (State.forwardRead s d x f) := by
  rw [State.forwardRead.eq_def]
  repeat' (first
    | (with_reducible assumption)
    | (with_reducible apply keeps_State_correctPond)
    | (with_reducible refine Keeps.ite ?_ ?_))

theorem keeps_State_memberFetched {s0 : State} (s : State) (m : MoverRef) (d : Desc) (k : Nat) (x : StairMember) (t : Nat) (f : List Byte) (hk : Keeps s0 s) :
    Keeps s0 (State.memberFetched s m d k x t f) := by
  rw [State.memberFetched.eq_def]
  repeat' (first
    | (with_reducible assumption)
    | (with_reducible apply keeps_State_stopDesc)
    | (with_reducible apply keeps_State_tallyTile)
    | (with_reducible apply keeps_State_flagTile)
    | (with_reducible apply keeps_State_changeDesc)
    | (with_reducible apply keeps_State_onCore)
    | (with_reducible apply keeps_State_countMember)
    | (with_reducible apply PKeeps.fst)
    | (extract_lets -underBinder)
    | (with_reducible refine Keeps.ite ?_ ?_)
    | split)

set_option maxRecDepth 20000 in
theorem keeps_State_memberFetch {s0 : State} (s : State) (m : MoverRef) (d : Desc) (k : Nat) (x : StairMember) (again : ReadFailure → State → State)  (hagain : ∀ (y0 : ReadFailure) (y1 : State), Keeps s0 y1 → Keeps s0 (again y0 y1)) (hk : Keeps s0 s) :
    Keeps s0 (State.memberFetch s m d k x again) := by
  rw [State.memberFetch.eq_def]
  repeat' (first
    | (with_reducible assumption)
    | (with_reducible apply hagain)
    | (with_reducible apply keeps_State_faultDesc)
    | (with_reducible apply keeps_State_stopDesc)
    | (with_reducible apply keeps_State_sendRemote)
    | (with_reducible apply keeps_State_changeDesc)
    | (with_reducible apply keeps_State_unstage)
    | (with_reducible apply keeps_State_memberFetched)
    | (with_reducible apply PKeeps.fst)
    | (extract_lets -underBinder)
    | split)

theorem keeps_execStairForward {s0 : State} (m : MoverRef) (k : Nat) (s : State) (hk : Keeps s0 s) :
    RKeeps s0 (execStairForward m k s) := by
  rw [execStairForward.eq_def]
  repeat' (first
    | (with_reducible assumption)
    | (with_reducible apply keeps_State_forwardRead)
    | (with_reducible apply keeps_State_changeDesc)
    | (with_reducible apply keeps_State_memberWrites)
    | (with_reducible apply keeps_State_awaitRecovery)
    | (with_reducible apply keeps_State_readPond)
    | (with_reducible apply keeps_State_memberFetch)
    | (with_reducible apply keeps_State_noteFailure)
    | (with_reducible apply RKeeps.next)
    | (intro _)
    | (extract_lets -underBinder)
    | split)

theorem keeps_State_memberReread {s0 : State} (s : State) (m : MoverRef) (d : Desc) (k : Nat) (t : Nat) (why : ReadFailure) (hk : Keeps s0 s) :
    Keeps s0 (State.memberReread s m d k t why) := by
  rw [State.memberReread.eq_def]
  repeat' (first
    | (with_reducible assumption)
    | (with_reducible apply keeps_State_memberFetch)
    | (with_reducible apply keeps_State_sourceFailed)
    | (with_reducible apply keeps_State_stopDesc)
    | (with_reducible apply keeps_State_forwardRead)
    | (intro _)
    | (extract_lets -underBinder)
    | (with_reducible refine Keeps.ite ?_ ?_)
    | split)

theorem keeps_execSpringSourceReread {s0 : State} (m : MoverRef) (s : State) (hk : Keeps s0 s) :
    RKeeps s0 (execSpringSourceReread m s) := by
  rw [execSpringSourceReread.eq_def]
  repeat' (first
    | (with_reducible assumption)
    | (with_reducible apply keeps_State_awaitRecovery)
    | (with_reducible apply keeps_State_bumpP)
    | (with_reducible apply keeps_State_changeDesc)
    | (with_reducible apply keeps_State_onSource)
    | (with_reducible apply keeps_State_sourceFailed)
    | (with_reducible apply keeps_State_memberReread)
    | (with_reducible apply RKeeps.next)
    | (intro _)
    | (extract_lets -underBinder)
    | split)

theorem keeps_execStairDetach {s0 : State} (m : MoverRef) (k : Nat) (s : State) (hk : Keeps s0 s) :
    RKeeps s0 (execStairDetach m k s) := by
  rw [execStairDetach.eq_def]
  repeat' (first
    | (with_reducible assumption)
    | (with_reducible apply keeps_State_changeDesc)
    | (with_reducible apply keeps_State_bumpP)
    | (with_reducible apply RKeeps.next)
    | split)

theorem keeps_execArbiterGrant {s0 : State} (a : ArbiterRef) (pend : Byte) (borrower : Bool) (s : State) (hk : Keeps s0 s) :
    RKeeps s0 (execArbiterGrant a pend borrower s) := by
  rw [execArbiterGrant.eq_def]
  repeat' (first
    | (with_reducible assumption)
    | (with_reducible exact id)
    | (with_reducible exact Nat.le_refl _)
    | (with_reducible exact BitVec.le_refl _)
    | (with_reducible apply keeps_State_bumpP)
    | (with_reducible refine Keeps.boxed ?_ ?_ ?_ ?_)
    | (with_reducible apply RKeeps.next)
    | (extract_lets -underBinder)
    | (with_reducible refine Keeps.ite ?_ ?_)
    | (with_reducible rw [State.mk_boxed])
    | split
    | (dsimp +zetaDelta only))

/-! ## Machine/Commands.lean -/


theorem keeps_State_startIf {s0 : State} (s : State) (p : Nat) (w : Nat) (q : Nat) (op : Nat) (may : Cmd → Bool) (act : Cmd → State → State)  (hact : ∀ (y0 : Cmd) (y1 : State), Keeps s0 y1 → Keeps s0 (act y0 y1)) (hk : Keeps s0 s) :
    Keeps s0 (State.startIf s p w q op may act) := by
  rw [State.startIf.eq_def]
  repeat' (first
    | (with_reducible assumption)
    | (with_reducible apply hact)
    | (with_reducible apply keeps_State_onCmd)
    | (with_reducible apply keeps_State_complete)
    | (extract_lets -underBinder)
    | (with_reducible refine Keeps.ite ?_ ?_)
    | split)

theorem keeps_State_startCmd {s0 : State} (s : State) (p : Nat) (w : Nat) (q : Nat) (op : Nat) (act : Cmd → State → State)  (hact : ∀ (y0 : Cmd) (y1 : State), Keeps s0 y1 → Keeps s0 (act y0 y1)) (hk : Keeps s0 s) :
    Keeps s0 (State.startCmd s p w q op act) := by
  rw [State.startCmd.eq_def]
  repeat' (first
    | (with_reducible assumption)
    | (with_reducible apply keeps_State_startIf))

theorem keeps_execMarkSet {s0 : State} (p : Nat) (w : Nat) (q : Nat) (s : State) (hk : Keeps s0 s) :
    RKeeps s0 (execMarkSet p w q s) := by
  rw [execMarkSet.eq_def]
  repeat' (first
    | (with_reducible assumption)
    | (with_reducible apply keeps_State_startCmd)
    | (with_reducible apply keeps_State_applyMark)
    | (with_reducible apply keeps_State_complete)
    | (with_reducible apply RKeeps.next)
    | (intro _))

theorem keeps_State_settleMarkWait {s0 : State} (s : State) (p : Nat) (w : Nat) (q : Nat) (hk : Keeps s0 s) :
    Keeps s0 (State.settleMarkWait s p w q) := by
  rw [State.settleMarkWait.eq_def]
  repeat' (first
    | (with_reducible assumption)
    | (with_reducible apply keeps_State_complete)
    | (with_reducible refine Keeps.ite ?_ ?_)
    | split)

theorem keeps_execMarkWait {s0 : State} (p : Nat) (w : Nat) (q : Nat) (s : State) (hk : Keeps s0 s) :
    RKeeps s0 (execMarkWait p w q s) := by
  rw [execMarkWait.eq_def]
  repeat' (first
    | (with_reducible assumption)
    | (with_reducible apply keeps_State_startCmd)
    | (with_reducible apply keeps_State_onCmd)
    | (with_reducible apply keeps_State_settleMarkWait)
    | (with_reducible apply RKeeps.next)
    | (intro _)
    | (extract_lets -underBinder)
    | (with_reducible refine Keeps.ite ?_ ?_))

theorem keeps_execMarkWaitTimeout {s0 : State} (p : Nat) (w : Nat) (q : Nat) (s : State) (hk : Keeps s0 s) :
    RKeeps s0 (execMarkWaitTimeout p w q s) := by
  rw [execMarkWaitTimeout.eq_def]
  repeat' (first
    | (with_reducible assumption)
    | (with_reducible apply keeps_State_complete)
    | (with_reducible apply RKeeps.next)
    | split)

theorem keeps_execMove {s0 : State} (p : Nat) (w : Nat) (q : Nat) (s : State) (hk : Keeps s0 s) :
    RKeeps s0 (execMove p w q s) := by
  rw [execMove.eq_def]
  repeat' (first
    | (with_reducible assumption)
    | (with_reducible apply keeps_State_startCmd)
    | (with_reducible apply keeps_State_complete)
    | (with_reducible apply keeps_State_setQueue)
    | (with_reducible apply keeps_State_noteRead)
    | (with_reducible apply RKeeps.next)
    | (intro _)
    | (extract_lets -underBinder)
    | (with_reducible refine Keeps.ite ?_ ?_)
    | split)

theorem keeps_State_settleFeeds {s0 : State} (s : State) (p : Nat) (w : Nat) (service : Nat) (hk : Keeps s0 s) :
    Keeps s0 (State.settleFeeds s p w service) := by
  rw [State.settleFeeds.eq_def]
  repeat' (first
    | (with_reducible assumption)
    | (with_reducible apply keeps_State_complete)
    | (with_reducible refine Keeps.foldl ?_ ?_)
    | (intro _)
    | (with_reducible refine Keeps.ite ?_ ?_))

theorem keeps_State_endServe {s0 : State} (s : State) (p : Nat) (w : Nat) (q : Nat) (hk : Keeps s0 s) :
    Keeps s0 (State.endServe s p w q) := by
  rw [State.endServe.eq_def]
  repeat' (first
    | (with_reducible assumption)
    | (with_reducible apply keeps_State_onPartn)
    | (with_reducible apply keeps_State_complete)
    | (with_reducible apply keeps_State_settleFeeds)
    | (with_reducible refine Keeps.foldl ?_ ?_)
    | (intro _)
    | split)

theorem keeps_State_settleFence {s0 : State} (s : State) (p : Nat) (w : Nat) (q : Nat) (hk : Keeps s0 s) :
    Keeps s0 (State.settleFence s p w q) := by
  rw [State.settleFence.eq_def]
  repeat' (first
    | (with_reducible assumption)
    | (with_reducible apply keeps_State_complete)
    | (with_reducible refine Keeps.ite ?_ ?_)
    | split)

theorem keeps_State_startFence {s0 : State} (s : State) (p : Nat) (w : Nat) (q : Nat) (stop : Bool) (act : Cmd → State → State)  (hact : ∀ (y0 : Cmd) (y1 : State), Keeps s0 y1 → Keeps s0 (act y0 y1)) (hk : Keeps s0 s) :
    Keeps s0 (State.startFence s p w q stop act) := by
  rw [State.startFence.eq_def]
  repeat' (first
    | (with_reducible assumption)
    | (with_reducible apply keeps_State_startCmd)
    | (with_reducible refine Keeps.ite ?_ ?_)
    | split)

theorem keeps_execFenceWait {s0 : State} (p : Nat) (w : Nat) (q : Nat) (s : State) (hk : Keeps s0 s) :
    RKeeps s0 (execFenceWait p w q s) := by
  rw [execFenceWait.eq_def]
  repeat' (first
    | (with_reducible assumption)
    | (with_reducible exact id)
    | (with_reducible apply keeps_State_startFence)
    | (with_reducible apply keeps_State_settleFence)
    | (with_reducible apply RKeeps.next)
    | (intro _)
    | split)

/-! ## Machine/Tiers.lean -/


theorem keeps_State_setObj {s0 : State} (s : State) (p : Nat) (x : Nat) (o : TierObj) (hk : Keeps s0 s) :
    Keeps s0 (State.setObj s p x o) := by
  rw [State.setObj.eq_def]
  repeat' (first
    | (with_reducible assumption)
    | (with_reducible apply keeps_State_onPartn))

theorem keeps_State_onObj {s0 : State} (s : State) (p : Nat) (x : Nat) (f : TierObj → TierObj) (hk : Keeps s0 s) :
    Keeps s0 (State.onObj s p x f) := by
  rw [State.onObj.eq_def]
  repeat' (first
    | (with_reducible assumption)
    | (with_reducible apply keeps_State_setObj))

theorem keeps_State_tierEvent {s0 : State} (s : State) (p : Nat) (x : Nat) (code : Nat) (ext : Nat) (hk : Keeps s0 s) :
    Keeps s0 (State.tierEvent s p x code ext) := by
  rw [State.tierEvent.eq_def]
  repeat' (first
    | (with_reducible assumption)
    | (with_reducible apply keeps_State_raiseP))

theorem keeps_State_gain {s0 : State} (s : State) (p : Nat) (mark : Option Nat) (n : Nat) (hk : Keeps s0 s) :
    Keeps s0 (State.gain s p mark n) := by
  rw [State.gain.eq_def]
  repeat' (first
    | (with_reducible assumption)
    | (with_reducible apply keeps_State_applyMark)
    | split)

theorem keeps_State_endSpans {s0 : State} (s : State) (p : Nat) (since : Nat) (l : List TierReq) (hk : Keeps s0 s) :
    Keeps s0 (State.endSpans s p since l) := by
  rw [State.endSpans.eq_def]
  repeat' (first
    | (with_reducible assumption)
    | (with_reducible apply keeps_State_onPartn)
    | (with_reducible refine Keeps.foldl ?_ ?_)
    | (intro _)
    | (extract_lets -underBinder)
    | (with_reducible refine Keeps.ite ?_ ?_)
    | split)

theorem keeps_State_endBusy {s0 : State} (s : State) (p : Nat) (x : Nat) (hk : Keeps s0 s) :
    Keeps s0 (State.endBusy s p x) := by
  rw [State.endBusy.eq_def]
  repeat' (first
    | (with_reducible assumption)
    | (with_reducible apply keeps_State_onObj)
    | (with_reducible apply keeps_State_bumpP)
    | split)

theorem keeps_State_grantFlash {s0 : State} (s : State) (die : Nat) (hk : Keeps s0 s) :
    Keeps s0 (State.grantFlash s die) := by
  rw [State.grantFlash.eq_def]
  repeat' (first
    | (with_reducible assumption)
    | (with_reducible apply keeps_State_endBusy)
    | (extract_lets -underBinder)
    | (with_reducible refine Keeps.ite ?_ ?_)
    | split
    | (dsimp only)
    | (dsimp +zetaDelta only))

theorem keeps_State_endLadder {s0 : State} (s : State) (p : Nat) (r : Recovery) (hk : Keeps s0 s) :
    Keeps s0 (State.endLadder s p r) := by
  rw [State.endLadder.eq_def]
  repeat' (first
    | (with_reducible assumption)
    | (with_reducible apply keeps_State_bumpP)
    | split)

theorem keeps_State_endDemotes {s0 : State} (s : State) (p : Nat) (x : Nat) (ok : Bool) (hk : Keeps s0 s) :
    Keeps s0 (State.endDemotes s p x ok) := by
  rw [State.endDemotes.eq_def]
  repeat' (first
    | (with_reducible assumption)
    | (with_reducible apply keeps_State_onObj)
    | (with_reducible apply keeps_State_gain)
    | (with_reducible apply keeps_State_complete)
    | (with_reducible refine Keeps.foldl ?_ ?_)
    | (intro _)
    | (extract_lets -underBinder)
    | (with_reducible refine Keeps.ite ?_ ?_)
    | split)

theorem keeps_State_enterDemoting {s0 : State} (s : State) (p : Nat) (x : Nat) (hk : Keeps s0 s) :
    Keeps s0 (State.enterDemoting s p x) := by
  rw [State.enterDemoting.eq_def]
  repeat' (first
    | (with_reducible assumption)
    | (with_reducible apply keeps_State_onObj))

theorem keeps_State_settlePins {s0 : State} (s : State) (p : Nat) (x : Nat) (hk : Keeps s0 s) :
    Keeps s0 (State.settlePins s p x) := by
  rw [State.settlePins.eq_def]
  repeat' (first
    | (with_reducible assumption)
    | (with_reducible apply keeps_State_enterDemoting)
    | (extract_lets -underBinder)
    | (with_reducible refine Keeps.ite ?_ ?_))

theorem keeps_State_cancelDemotion {s0 : State} (s : State) (p : Nat) (x : Nat) (hk : Keeps s0 s) :
    Keeps s0 (State.cancelDemotion s p x) := by
  rw [State.cancelDemotion.eq_def]
  repeat' (first
    | (with_reducible assumption)
    | (with_reducible apply keeps_State_onObj)
    | (with_reducible apply keeps_State_bumpP)
    | (with_reducible apply keeps_State_endDemotes))

theorem keeps_State_becomeAbsent {s0 : State} (s : State) (p : Nat) (x : Nat) (hk : Keeps s0 s) :
    Keeps s0 (State.becomeAbsent s p x) := by
  rw [State.becomeAbsent.eq_def]
  repeat' (first
    | (with_reducible assumption)
    | (with_reducible apply keeps_State_onObj)
    | (with_reducible apply keeps_State_endDemotes))

theorem keeps_State_noteRange {s0 : State} (s : State) (p : Nat) (addr : Nat) (n : Nat) (hk : Keeps s0 s) :
    Keeps s0 (State.noteRange s p addr n) := by
  rw [State.noteRange.eq_def]
  repeat' (first
    | (with_reducible assumption)
    | (with_reducible apply keeps_State_noteFault)
    | split)

theorem keeps_State_startFill {s0 : State} (s : State) (p : Nat) (x : Nat) (addr : Nat) (waiters : List TierReq) (hk : Keeps s0 s) :
    Keeps s0 (State.startFill s p x addr waiters) := by
  rw [State.startFill.eq_def]
  repeat' (first
    | (with_reducible assumption)
    | (with_reducible apply keeps_State_onObj)
    | (with_reducible apply keeps_State_bumpP)
    | (with_reducible apply keeps_State_awaitRecovery))

theorem keeps_State_applyPromote {s0 : State} (s : State) (p : Nat) (x : Nat) (w : Nat) (q : Nat) (addr : Nat) (mark : Option Nat) (prio : Nat) (hk : Keeps s0 s) :
    EKeeps s0 (State.applyPromote s p x w q addr mark prio) := by
  rw [State.applyPromote.eq_def]
  repeat' (first
    | (with_reducible assumption)
    | (with_reducible apply keeps_State_bumpP)
    | (with_reducible apply keeps_State_gain)
    | (with_reducible apply keeps_State_complete)
    | (with_reducible apply keeps_State_noteRange)
    | (with_reducible apply keeps_State_startFill)
    | (with_reducible apply keeps_State_onObj)
    | (with_reducible apply keeps_State_cancelDemotion)
    | (with_reducible exact EKeeps.error)
    | (with_reducible apply EKeeps.ok)
    | (extract_lets -underBinder)
    | (with_reducible refine Keeps.ite ?_ ?_)
    | split)

theorem keeps_State_applyDemote {s0 : State} (s : State) (p : Nat) (x : Nat) (w : Nat) (q : Nat) (mark : Option Nat) (hk : Keeps s0 s) :
    Keeps s0 (State.applyDemote s p x w q mark) := by
  rw [State.applyDemote.eq_def]
  repeat' (first
    | (with_reducible assumption)
    | (with_reducible apply keeps_State_onObj)
    | (with_reducible apply keeps_State_bumpP)
    | (with_reducible apply keeps_State_complete)
    | (with_reducible apply keeps_State_gain)
    | (with_reducible apply keeps_State_enterDemoting)
    | (extract_lets -underBinder)
    | (with_reducible refine Keeps.ite ?_ ?_)
    | split)

theorem keeps_State_applyPin {s0 : State} (s : State) (p : Nat) (x : Nat) (w : Nat) (q : Nat) (pin : Bool) (hk : Keeps s0 s) :
    Keeps s0 (State.applyPin s p x w q pin) := by
  rw [State.applyPin.eq_def]
  repeat' (first
    | (with_reducible assumption)
    | (with_reducible apply keeps_State_complete)
    | (with_reducible apply keeps_State_onObj)
    | (with_reducible apply keeps_State_settlePins)
    | (extract_lets -underBinder)
    | (with_reducible refine Keeps.ite ?_ ?_))

theorem keeps_State_unpinAll {s0 : State} (s : State) (p : Nat) (w : Nat) (hk : Keeps s0 s) :
    Keeps s0 (State.unpinAll s p w) := by
  rw [State.unpinAll.eq_def]
  repeat' (first
    | (with_reducible assumption)
    | (with_reducible apply keeps_State_onObj)
    | (with_reducible apply keeps_State_settlePins)
    | (with_reducible refine Keeps.foldl ?_ ?_)
    | (intro _))

theorem keeps_State_applySweepWrite {s0 : State} (s : State) (p : Nat) (x : Nat) (stack : Nat) (mark : Option Nat) (hk : Keeps s0 s) :
    EKeeps s0 (State.applySweepWrite s p x stack mark) := by
  rw [State.applySweepWrite.eq_def]
  repeat' (first
    | (with_reducible assumption)
    | (with_reducible apply keeps_State_bumpP)
    | (with_reducible apply keeps_State_onObj)
    | (with_reducible apply keeps_State_cancelDemotion)
    | (with_reducible exact EKeeps.error)
    | (with_reducible apply EKeeps.ok)
    | (extract_lets -underBinder)
    | split)

theorem keeps_State_writeCopy {s0 : State} (s : State) (p : Nat) (addr : Nat) (x0 : List (List Byte)) (hk : Keeps s0 s) :
    PKeeps s0 (State.writeCopy s p addr x0) := by
  induction x0 generalizing s p addr with
  | nil =>
    rw [State.writeCopy]
    repeat' (first
      | (with_reducible assumption)
      | (with_reducible apply PKeeps.mk))
  | cons a r ih =>
    rw [State.writeCopy]
    repeat' (first
      | (apply ih)
      | (with_reducible assumption)
      | (with_reducible apply keeps_State_noteFault)
      | (with_reducible apply keeps_State_writeParts)
      | split
      | (with_reducible apply PKeeps.mk))

theorem keeps_State_applyImport {s0 : State} (s : State) (p : Nat) (x : Nat) (w : Nat) (q : Nat) (frames : List (List Byte)) (hk : Keeps s0 s) :
    EKeeps s0 (State.applyImport s p x w q frames) := by
  rw [State.applyImport.eq_def]
  repeat' (first
    | (with_reducible assumption)
    | (with_reducible apply keeps_State_onObj)
    | (with_reducible apply keeps_State_complete)
    | (with_reducible apply keeps_State_writeCopy)
    | (with_reducible exact EKeeps.error)
    | (with_reducible apply EKeeps.ok)
    | (with_reducible apply PKeeps.fst)
    | (extract_lets -underBinder)
    | split)

theorem keeps_State_tierApply {s0 : State} (s : State) (p : Nat) (x : Nat) (x0 : TierReq) (hk : Keeps s0 s) :
    EKeeps s0 (State.tierApply s p x x0) := by
  rw [State.tierApply.eq_def]
  repeat' (first
    | (with_reducible assumption)
    | (with_reducible apply keeps_State_applyPromote)
    | (with_reducible apply keeps_State_applyDemote)
    | (with_reducible apply keeps_State_applySweepWrite)
    | (with_reducible apply keeps_State_applyImport)
    | (with_reducible apply EKeeps.ok)
    | split)

theorem keeps_State_holdTier {s0 : State} (s : State) (p : Nat) (x : Nat) (w : TierWait) (r : TierReq) (hk : Keeps s0 s) :
    Keeps s0 (State.holdTier s p x w r) := by
  rw [State.holdTier.eq_def]
  repeat' (first
    | (with_reducible assumption)
    | (with_reducible apply keeps_State_onObj))

theorem keeps_State_tierOne {s0 : State} (s : State) (p : Nat) (x : Nat) (r : TierReq) (hk : Keeps s0 s) :
    Keeps s0 (State.tierOne s p x r) := by
  rw [State.tierOne.eq_def]
  repeat' (first
    | (with_reducible assumption)
    | (with_reducible apply keeps_State_tierApply)
    | (with_reducible apply keeps_State_holdTier)
    | split
    | (refine EKeeps.use ?_ (by assumption)))

theorem keeps_State_releasePass {s0 : State} (s : State) (p : Nat) (x : Nat) (done : List TierWait) (hk : Keeps s0 s) :
    Keeps s0 (State.releasePass s p x done) := by
  rw [State.releasePass.eq_def]
  repeat' (first
    | (with_reducible assumption)
    | (with_reducible apply keeps_State_tierOne)
    | (with_reducible apply keeps_State_holdTier)
    | (with_reducible apply keeps_State_onObj)
    | (with_reducible refine Keeps.foldl ?_ ?_)
    | (intro _)
    | (extract_lets -underBinder)
    | (with_reducible refine Keeps.ite ?_ ?_))

theorem keeps_State_tierArrive {s0 : State} (s : State) (p : Nat) (x : Nat) (r : TierReq) (hk : Keeps s0 s) :
    Keeps s0 (State.tierArrive s p x r) := by
  rw [State.tierArrive.eq_def]
  repeat' (first
    | (with_reducible assumption)
    | (with_reducible apply keeps_State_tierOne)
    | (with_reducible apply keeps_State_releasePass)
    | (extract_lets -underBinder)
    | (with_reducible refine Keeps.ite ?_ ?_))

theorem keeps_State_releaseHeld {s0 : State} (s : State) (p : Nat) (x : Nat) (done : List TierWait) (hk : Keeps s0 s) :
    Keeps s0 (State.releaseHeld s p x done) := by
  rw [State.releaseHeld.eq_def]
  repeat' (first
    | (with_reducible assumption)
    | (with_reducible apply keeps_State_releasePass)
    | (extract_lets -underBinder)
    | (with_reducible refine Keeps.ite ?_ ?_))

theorem keeps_State_forgetTier {s0 : State} (s : State) (p : Nat) (w : Nat) (q : Nat) (hk : Keeps s0 s) :
    Keeps s0 (State.forgetTier s p w q) := by
  rw [State.forgetTier.eq_def]
  repeat' (first
    | (with_reducible assumption)
    | (with_reducible apply keeps_State_endSpans)
    | (with_reducible apply keeps_State_onPartn)
    | (with_reducible refine Keeps.foldl ?_ ?_)
    | (intro _)
    | (extract_lets -underBinder)
    | split)

theorem keeps_State_startTier {s0 : State} (s : State) (p : Nat) (w : Nat) (q : Nat) (op : Nat) (act : Cmd → Nat → State → State)  (hact : ∀ (y0 : Cmd) (y1 : Nat) (y2 : State), Keeps s0 y2 → Keeps s0 (act y0 y1 y2)) (hk : Keeps s0 s) :
    Keeps s0 (State.startTier s p w q op act) := by
  rw [State.startTier.eq_def]
  repeat' (first
    | (with_reducible assumption)
    | (with_reducible apply hact)
    | (with_reducible apply keeps_State_startCmd)
    | (with_reducible apply keeps_State_complete)
    | (intro _)
    | (extract_lets -underBinder)
    | (with_reducible refine Keeps.ite ?_ ?_)
    | split)

theorem keeps_execTierPromote {s0 : State} (p : Nat) (w : Nat) (q : Nat) (s : State) (hk : Keeps s0 s) :
    RKeeps s0 (execTierPromote p w q s) := by
  rw [execTierPromote.eq_def]
  repeat' (first
    | (with_reducible assumption)
    | (with_reducible apply keeps_State_startTier)
    | (with_reducible apply keeps_State_tierArrive)
    | (with_reducible apply RKeeps.next)
    | (intro _))

theorem keeps_execTierDemote {s0 : State} (p : Nat) (w : Nat) (q : Nat) (s : State) (hk : Keeps s0 s) :
    RKeeps s0 (execTierDemote p w q s) := by
  rw [execTierDemote.eq_def]
  repeat' (first
    | (with_reducible assumption)
    | (with_reducible apply keeps_State_startTier)
    | (with_reducible apply keeps_State_tierArrive)
    | (with_reducible apply RKeeps.next)
    | (intro _))

theorem keeps_execTierPin {s0 : State} (p : Nat) (w : Nat) (q : Nat) (s : State) (hk : Keeps s0 s) :
    RKeeps s0 (execTierPin p w q s) := by
  rw [execTierPin.eq_def]
  repeat' (first
    | (with_reducible assumption)
    | (with_reducible apply keeps_State_startTier)
    | (with_reducible apply keeps_State_applyPin)
    | (with_reducible apply RKeeps.next)
    | (intro _))

theorem keeps_execTierUnpin {s0 : State} (p : Nat) (w : Nat) (q : Nat) (s : State) (hk : Keeps s0 s) :
    RKeeps s0 (execTierUnpin p w q s) := by
  rw [execTierUnpin.eq_def]
  repeat' (first
    | (with_reducible assumption)
    | (with_reducible apply keeps_State_startTier)
    | (with_reducible apply keeps_State_applyPin)
    | (with_reducible apply RKeeps.next)
    | (intro _))

theorem keeps_State_noteFrames {s0 : State} (s : State) (p : Nat) (x0 : FrameFail) (hk : Keeps s0 s) :
    Keeps s0 (State.noteFrames s p x0) := by
  rw [State.noteFrames.eq_def]
  repeat' (first
    | (with_reducible assumption)
    | (with_reducible apply keeps_State_noteFault)
    | (with_reducible apply keeps_State_lakeUncorrectable)
    | (with_reducible apply keeps_State_bumpP)
    | split)

theorem keeps_execImportObject {s0 : State} (p : Nat) (w : Nat) (q : Nat) (s : State) (hk : Keeps s0 s) :
    RKeeps s0 (execImportObject p w q s) := by
  rw [execImportObject.eq_def]
  repeat' (first
    | (with_reducible assumption)
    | (with_reducible apply keeps_State_startCmd)
    | (with_reducible apply keeps_State_complete)
    | (with_reducible apply keeps_State_noteFault)
    | (with_reducible apply keeps_State_noteFrames)
    | (with_reducible apply keeps_State_tierArrive)
    | (with_reducible apply RKeeps.next)
    | (intro _)
    | (extract_lets -underBinder)
    | (with_reducible refine Keeps.ite ?_ ?_)
    | split)

theorem keeps_State_endFill {s0 : State} (s : State) (p : Nat) (x : Nat) (out : Outcome) (hk : Keeps s0 s) :
    Keeps s0 (State.endFill s p x out) := by
  rw [State.endFill.eq_def]
  repeat' (first
    | (with_reducible assumption)
    | (with_reducible apply keeps_State_endSpans)
    | (with_reducible apply keeps_State_becomeAbsent)
    | (with_reducible apply keeps_State_complete)
    | (with_reducible apply keeps_State_releaseHeld)
    | (with_reducible apply keeps_State_grantFlash)
    | (with_reducible refine Keeps.foldl ?_ ?_)
    | (intro _)
    | (extract_lets -underBinder)
    | split)

theorem keeps_State_startRecovery {s0 : State} (s : State) (p : Nat) (x : Nat) (ext : Nat) (hk : Keeps s0 s) :
    Keeps s0 (State.startRecovery s p x ext) := by
  rw [State.startRecovery.eq_def]
  repeat' (first
    | (with_reducible assumption)
    | (with_reducible apply keeps_State_onObj))

theorem keeps_execFlashReadComplete {s0 : State} (p : Nat) (x : Nat) (ext : Nat) (bad : Bool) (s : State) (hk : Keeps s0 s) :
    RKeeps s0 (execFlashReadComplete p x ext bad s) := by
  rw [execFlashReadComplete.eq_def]
  repeat' (first
    | (with_reducible assumption)
    | (with_reducible apply keeps_State_bumpP)
    | (with_reducible apply keeps_State_startRecovery)
    | (with_reducible apply keeps_State_endBusy)
    | (with_reducible apply keeps_State_onObj)
    | (with_reducible apply keeps_State_grantFlash)
    | (with_reducible apply RKeeps.next)
    | (extract_lets -underBinder)
    | split)

theorem keeps_execFillFrameDelivered {s0 : State} (p : Nat) (x : Nat) (s : State) (hk : Keeps s0 s) :
    RKeeps s0 (execFillFrameDelivered p x s) := by
  rw [execFillFrameDelivered.eq_def]
  repeat' (first
    | (with_reducible assumption)
    | (with_reducible apply keeps_State_noteFault)
    | (with_reducible apply keeps_State_endFill)
    | (with_reducible apply keeps_State_writeParts)
    | (with_reducible apply keeps_State_onObj)
    | (with_reducible apply keeps_State_gain)
    | (with_reducible refine Keeps.foldl ?_ ?_)
    | (with_reducible apply RKeeps.next)
    | (intro _)
    | (extract_lets -underBinder)
    | split)

theorem keeps_execFillDone {s0 : State} (p : Nat) (x : Nat) (s : State) (hk : Keeps s0 s) :
    RKeeps s0 (execFillDone p x s) := by
  rw [execFillDone.eq_def]
  repeat' (first
    | (with_reducible assumption)
    | (with_reducible apply keeps_State_endSpans)
    | (with_reducible apply keeps_State_onObj)
    | (with_reducible apply keeps_State_complete)
    | (with_reducible apply keeps_State_settlePins)
    | (with_reducible apply keeps_State_releaseHeld)
    | (with_reducible refine Keeps.foldl ?_ ?_)
    | (with_reducible apply RKeeps.next)
    | (intro _)
    | (extract_lets -underBinder)
    | split)

theorem keeps_execReleaseDone {s0 : State} (p : Nat) (x : Nat) (s : State) (hk : Keeps s0 s) :
    RKeeps s0 (execReleaseDone p x s) := by
  rw [execReleaseDone.eq_def]
  repeat' (first
    | (with_reducible assumption)
    | (with_reducible apply keeps_State_becomeAbsent)
    | (with_reducible apply keeps_State_releaseHeld)
    | (with_reducible apply RKeeps.next)
    | split)

theorem keeps_execTierCommit {s0 : State} (p : Nat) (x : Nat) (s : State) (hk : Keeps s0 s) :
    RKeeps s0 (execTierCommit p x s) := by
  rw [execTierCommit.eq_def]
  repeat' (first
    | (with_reducible assumption)
    | (with_reducible exact id)
    | (with_reducible exact Nat.le_refl _)
    | (with_reducible exact BitVec.le_refl _)
    | (with_reducible apply keeps_State_setObj)
    | (with_reducible apply keeps_State_onPartn)
    | (with_reducible apply keeps_State_complete)
    | (with_reducible apply keeps_State_gain)
    | (with_reducible apply keeps_State_settlePins)
    | (with_reducible apply keeps_State_endDemotes)
    | (with_reducible apply keeps_State_releaseHeld)
    | (with_reducible refine Keeps.boxed ?_ ?_ ?_ ?_)
    | (with_reducible apply RKeeps.next)
    | (extract_lets -underBinder)
    | (with_reducible refine Keeps.ite ?_ ?_)
    | (with_reducible rw [State.mk_boxed])
    | split
    | (dsimp +zetaDelta only))

theorem keeps_execExtentRetire {s0 : State} (p : Nat) (x : Nat) (s : State) (hk : Keeps s0 s) :
    RKeeps s0 (execExtentRetire p x s) := by
  rw [execExtentRetire.eq_def]
  repeat' (first
    | (with_reducible assumption)
    | (with_reducible apply keeps_State_onObj)
    | (with_reducible apply RKeeps.next)
    | (extract_lets -underBinder)
    | split)

theorem keeps_State_nextSource {s0 : State} (s : State) (p : Nat) (x : Nat) (r : Recovery) (hk : Keeps s0 s) :
    Keeps s0 (State.nextSource s p x r) := by
  rw [State.nextSource.eq_def]
  repeat' (first
    | (with_reducible assumption)
    | (with_reducible apply keeps_State_onObj)
    | (with_reducible apply keeps_State_tierEvent)
    | (extract_lets -underBinder)
    | split
    | (dsimp +zetaDelta only))

theorem keeps_State_recovered {s0 : State} (s : State) (p : Nat) (x : Nat) (r : Recovery) (fs : List (List Byte)) (code : Nat) (hk : Keeps s0 s) :
    Keeps s0 (State.recovered s p x r fs code) := by
  rw [State.recovered.eq_def]
  repeat' (first
    | (with_reducible assumption)
    | (with_reducible exact id)
    | (with_reducible exact Nat.le_refl _)
    | (with_reducible exact BitVec.le_refl _)
    | (with_reducible apply keeps_State_endLadder)
    | (with_reducible apply keeps_State_onObj)
    | (with_reducible apply keeps_State_onPartn)
    | (with_reducible apply keeps_State_tierEvent)
    | (with_reducible apply keeps_State_releaseHeld)
    | (with_reducible refine Keeps.boxed ?_ ?_ ?_ ?_)
    | (extract_lets -underBinder)
    | (with_reducible rw [State.mk_boxed]))

theorem keeps_execRecoverySourceTimeout {s0 : State} (p : Nat) (x : Nat) (out : RecoveryOutcome) (s : State) (hk : Keeps s0 s) :
    RKeeps s0 (execRecoverySourceTimeout p x out s) := by
  rw [execRecoverySourceTimeout.eq_def]
  repeat' (first
    | (with_reducible assumption)
    | (with_reducible apply keeps_State_nextSource)
    | (with_reducible apply keeps_State_recovered)
    | (with_reducible apply keeps_State_bumpP)
    | (with_reducible apply RKeeps.next)
    | (extract_lets -underBinder)
    | split)

theorem keeps_State_extentUnrecoverable {s0 : State} (s : State) (p : Nat) (x : Nat) (r : Recovery) (hk : Keeps s0 s) :
    Keeps s0 (State.extentUnrecoverable s p x r) := by
  rw [State.extentUnrecoverable.eq_def]
  repeat' (first
    | (with_reducible assumption)
    | (with_reducible exact id)
    | (with_reducible exact Nat.le_refl _)
    | (with_reducible exact BitVec.le_refl _)
    | (with_reducible apply keeps_State_endLadder)
    | (with_reducible apply keeps_State_tierEvent)
    | (with_reducible apply keeps_State_onObj)
    | (with_reducible apply keeps_State_bumpP)
    | (with_reducible apply keeps_State_releaseHeld)
    | (with_reducible apply keeps_State_endFill)
    | (with_reducible apply keeps_State_becomeAbsent)
    | (with_reducible apply keeps_State_onPartn)
    | (with_reducible apply keeps_State_noteRead)
    | (with_reducible refine Keeps.boxed ?_ ?_ ?_ ?_)
    | (extract_lets -underBinder)
    | (with_reducible rw [State.mk_boxed])
    | split)

theorem keeps_execHostRecoveryTimeout {s0 : State} (p : Nat) (x : Nat) (s : State) (hk : Keeps s0 s) :
    RKeeps s0 (execHostRecoveryTimeout p x s) := by
  rw [execHostRecoveryTimeout.eq_def]
  repeat' (first
    | (with_reducible assumption)
    | (with_reducible apply keeps_State_extentUnrecoverable)
    | (with_reducible apply RKeeps.next)
    | split)

theorem keeps_execImportRepair {s0 : State} (p : Nat) (w : Nat) (q : Nat) (s : State) (hk : Keeps s0 s) :
    RKeeps s0 (execImportRepair p w q s) := by
  rw [execImportRepair.eq_def]
  repeat' (first
    | (with_reducible assumption)
    | (with_reducible apply keeps_State_startCmd)
    | (with_reducible apply keeps_State_complete)
    | (with_reducible apply keeps_State_noteFault)
    | (with_reducible apply keeps_State_noteFrames)
    | (with_reducible apply keeps_State_bumpP)
    | (with_reducible apply keeps_State_recovered)
    | (with_reducible apply RKeeps.next)
    | (intro _)
    | (extract_lets -underBinder)
    | (with_reducible refine Keeps.ite ?_ ?_)
    | split)

theorem keeps_State_noteLoss {s0 : State} (s : State) (p : Nat) (loss : Nat × Nat × Nat) (hk : Keeps s0 s) :
    Keeps s0 (State.noteLoss s p loss) := by
  rw [State.noteLoss.eq_def]
  repeat' (first
    | (with_reducible assumption)
    | (with_reducible apply keeps_State_onPartn))

theorem keeps_State_stateLost {s0 : State} (s : State) (p : Nat) (x : Nat) (loss : Nat × Nat × Nat) (hk : Keeps s0 s) :
    Keeps s0 (State.stateLost s p x loss) := by
  rw [State.stateLost.eq_def]
  repeat' (first
    | (with_reducible assumption)
    | (with_reducible apply keeps_State_onPartn)
    | (with_reducible apply keeps_State_tierEvent)
    | (with_reducible apply keeps_State_noteLoss)
    | (with_reducible apply keeps_State_onObj)
    | (with_reducible apply keeps_State_becomeAbsent)
    | (with_reducible apply keeps_State_releaseHeld))

theorem keeps_State_copyLost {s0 : State} (s : State) (p : Nat) (x : Nat) (kind : Nat) (detail : Nat) (hk : Keeps s0 s) :
    Keeps s0 (State.copyLost s p x kind detail) := by
  rw [State.copyLost.eq_def]
  repeat' (first
    | (with_reducible assumption)
    | (with_reducible apply keeps_State_endFill)
    | (with_reducible apply keeps_State_becomeAbsent)
    | (with_reducible apply keeps_State_releaseHeld)
    | (with_reducible apply keeps_State_stateLost)
    | (with_reducible apply keeps_State_onObj)
    | (extract_lets -underBinder)
    | (with_reducible refine Keeps.ite ?_ ?_)
    | split)

theorem keeps_State_repairCopy {s0 : State} (s : State) (p : Nat) (x : Nat) (tile : Nat) (hk : Keeps s0 s) :
    OKeeps s0 (State.repairCopy s p x tile) := by
  rw [State.repairCopy.eq_def]
  repeat' (first
    | (with_reducible assumption)
    | (with_reducible apply keeps_State_writeParts)
    | (with_reducible apply keeps_State_tierEvent)
    | (with_reducible exact OKeeps.none)
    | (with_reducible apply OKeeps.some)
    | (extract_lets -underBinder)
    | split)

theorem keeps_State_repairAt {s0 : State} (s : State) (p : Nat) (pa : Nat) (hk : Keeps s0 s) :
    OKeeps s0 (State.repairAt s p pa) := by
  rw [State.repairAt.eq_def]
  repeat' (first
    | (with_reducible assumption)
    | (with_reducible apply keeps_State_repairCopy)
    | (with_reducible refine OKeeps.findSome ?_)
    | (with_reducible refine OKeeps.bind ?_)
    | (intro _))

theorem keeps_execLakeCopyRepair {s0 : State} (p : Nat) (x : Nat) (tile : Nat) (s : State) (hk : Keeps s0 s) :
    RKeeps s0 (execLakeCopyRepair p x tile s) := by
  rw [execLakeCopyRepair.eq_def]
  repeat' (first
    | (with_reducible assumption)
    | (with_reducible apply keeps_State_repairCopy)
    | (with_reducible apply keeps_State_stateLost)
    | (with_reducible apply RKeeps.next)
    | (extract_lets -underBinder)
    | split
    | (refine OKeeps.use ?_ (by assumption)))

theorem keeps_State_noteCorrection {s0 : State} (s : State) (p : Nat) (stack : Nat) (ch : Nat) (dev : Nat) (hk : Keeps s0 s) :
    Keeps s0 (State.noteCorrection s p stack ch dev) := by
  rw [State.noteCorrection.eq_def]
  repeat' (first
    | (with_reducible assumption)
    | (with_reducible exact id)
    | (with_reducible exact Nat.le_refl _)
    | (with_reducible exact BitVec.le_refl _)
    | (with_reducible apply keeps_State_bumpP)
    | (with_reducible apply keeps_State_raise)
    | (with_reducible refine Keeps.boxed ?_ ?_ ?_ ?_)
    | (extract_lets -underBinder)
    | (with_reducible refine Keeps.ite ?_ ?_)
    | (with_reducible rw [State.mk_boxed])
    | (dsimp +zetaDelta only))

theorem keeps_execLakeScrub {s0 : State} (g : Nat) (found : GranuleError) (s : State) (hk : Keeps s0 s) :
    RKeeps s0 (execLakeScrub g found s) := by
  rw [execLakeScrub.eq_def]
  repeat' (first
    | (with_reducible assumption)
    | (with_reducible apply keeps_State_poisonGranules)
    | (with_reducible apply keeps_State_lakeUncorrectable)
    | (with_reducible apply keeps_State_noteCorrection)
    | (with_reducible apply RKeeps.next)
    | (extract_lets -underBinder)
    | split)

theorem keeps_execFlashBackgroundWork {s0 : State} (die : Nat) (w : FlashWork) (s : State) (hk : Keeps s0 s) :
    RKeeps s0 (execFlashBackgroundWork die w s) := by
  rw [execFlashBackgroundWork.eq_def]
  repeat' (first
    | (with_reducible assumption)
    | (with_reducible exact id)
    | (with_reducible exact Nat.le_refl _)
    | (with_reducible exact BitVec.le_refl _)
    | (with_reducible apply keeps_State_raiseM)
    | (with_reducible refine Keeps.boxed ?_ ?_ ?_ ?_)
    | (with_reducible apply RKeeps.next)
    | (extract_lets -underBinder)
    | (with_reducible refine Keeps.ite ?_ ?_)
    | (with_reducible rw [State.mk_boxed])
    | split
    | (dsimp +zetaDelta only))

theorem keeps_State_flashArrival {s0 : State} (s : State) (die : Nat) (p : Nat) (x : Nat) (tile : Nat) (ok : Bool) (f : List Byte) (hk : Keeps s0 s) :
    Keeps s0 (State.flashArrival s die p x tile ok f) := by
  rw [State.flashArrival.eq_def]
  repeat' (first
    | (with_reducible assumption)
    | (with_reducible apply keeps_State_onObj)
    | (with_reducible apply keeps_State_bumpP)
    | (with_reducible apply keeps_State_startRecovery)
    | (extract_lets -underBinder)
    | (with_reducible refine Keeps.ite ?_ ?_)
    | split
    | (dsimp +zetaDelta only))

theorem keeps_State_stage {s0 : State} (s : State) (m : MoverRef) (t : Nat) (f : List Byte) (hk : Keeps s0 s) :
    Keeps s0 (State.stage s m t f) := by
  rw [State.stage.eq_def]
  repeat' (first
    | (with_reducible assumption)
    | (with_reducible apply keeps_State_setLanding))

theorem keeps_State_hostArrival {s0 : State} (s : State) (m : MoverRef) (unit : Bool) (f : List Byte) (hk : Keeps s0 s) :
    Keeps s0 (State.hostArrival s m unit f) := by
  rw [State.hostArrival.eq_def]
  repeat' (first
    | (with_reducible assumption)
    | (with_reducible apply keeps_State_stage)
    | (with_reducible apply keeps_State_bumpP)
    | (with_reducible apply keeps_State_changeDesc)
    | (with_reducible apply keeps_State_stopDesc)
    | (extract_lets -underBinder)
    | (with_reducible refine Keeps.ite ?_ ?_)
    | split)

theorem keeps_State_importArrival {s0 : State} (s : State) (p : Nat) (w : Nat) (q : Nat) (tile : Nat) (f : List Byte) (hk : Keeps s0 s) :
    Keeps s0 (State.importArrival s p w q tile f) := by
  rw [State.importArrival.eq_def]
  repeat' (first
    | (with_reducible assumption)
    | (with_reducible apply keeps_State_bumpP)
    | (with_reducible apply keeps_State_forgetTier)
    | (with_reducible apply keeps_State_complete)
    | (extract_lets -underBinder)
    | (with_reducible refine Keeps.ite ?_ ?_)
    | split)

theorem keeps_execLandingFrameArrival {s0 : State} (die : Nat) (p : Nat) (src : ArrivalSource) (f : List Byte) (s : State) (hk : Keeps s0 s) :
    RKeeps s0 (execLandingFrameArrival die p src f s) := by
  rw [execLandingFrameArrival.eq_def]
  repeat' (first
    | (with_reducible assumption)
    | (with_reducible apply keeps_State_flashArrival)
    | (with_reducible apply keeps_State_hostArrival)
    | (with_reducible apply keeps_State_importArrival)
    | (with_reducible apply RKeeps.next)
    | (extract_lets -underBinder)
    | (with_reducible refine Keeps.ite ?_ ?_)
    | split)

/-! ## Machine/Sweep.lean -/


theorem keeps_State_noteBad {s0 : State} (s : State) (p : Nat) (x0 : RecordBad) (hk : Keeps s0 s) :
    Keeps s0 (State.noteBad s p x0) := by
  rw [State.noteBad.eq_def]
  repeat' (first
    | (with_reducible assumption)
    | (with_reducible apply keeps_State_lakeUncorrectable)
    | (with_reducible apply keeps_State_entryLost)
    | split)

theorem keeps_State_passRecords {s0 : State} (s : State) (p : Nat) (k : Nat) (x0 : List SweepRec) (hk : Keeps s0 s) :
    Keeps s0 (State.passRecords s p k x0) := by
  induction x0 generalizing s p k with
  | nil =>
    rw [State.passRecords]
    repeat' (first
      | (with_reducible assumption))
  | cons a r ih =>
    rw [State.passRecords]
    repeat' (first
      | (apply ih)
      | (with_reducible assumption)
      | (with_reducible apply keeps_State_markAdd)
      | (with_reducible apply keeps_State_setCursor)
      | (extract_lets -underBinder)
      | (with_reducible refine Keeps.ite ?_ ?_))

theorem keeps_State_advanceCursor {s0 : State} (s : State) (p : Nat) (k : Nat) (run : SweepRun) (hk : Keeps s0 s) :
    Keeps s0 (State.advanceCursor s p k run) := by
  rw [State.advanceCursor.eq_def]
  repeat' (first
    | (with_reducible assumption)
    | (with_reducible apply keeps_State_setCursor)
    | (with_reducible apply keeps_State_passRecords))

theorem keeps_State_unask {s0 : State} (s : State) (p : Nat) (k : Nat) (x : Nat) (hk : Keeps s0 s) :
    Keeps s0 (State.unask s p k x) := by
  rw [State.unask.eq_def]
  repeat' (first
    | (with_reducible assumption)
    | (with_reducible apply keeps_State_bumpP)
    | (with_reducible apply keeps_State_onObj)
    | (extract_lets -underBinder)
    | split)

theorem keeps_State_acquire {s0 : State} (s : State) (p : Nat) (k : Nat) (r : SweepRec) (x : Nat) (hk : Keeps s0 s) :
    PKeeps s0 (State.acquire s p k r x) := by
  rw [State.acquire.eq_def]
  repeat' (first
    | (with_reducible assumption)
    | (with_reducible apply keeps_State_onObj)
    | (with_reducible apply keeps_State_noteRange)
    | (with_reducible apply keeps_State_unask)
    | (with_reducible apply keeps_State_startFill)
    | (with_reducible apply keeps_State_tierArrive)
    | (extract_lets -underBinder)
    | split
    | (dsimp +zetaDelta only)
    | (with_reducible apply PKeeps.mk))

theorem keeps_State_onSweep {s0 : State} (s : State) (p : Nat) (f : SweepRun → SweepRun) (hk : Keeps s0 s) :
    Keeps s0 (State.onSweep s p f) := by
  rw [State.onSweep.eq_def]
  repeat' (first
    | (with_reducible assumption)
    | (with_reducible apply keeps_State_onPartn))

set_option maxRecDepth 20000 in
theorem keeps_State_restamp {s0 : State} (s : State) (p : Nat) (x : Nat) (run : SweepRun) (hk : Keeps s0 s) :
    Keeps s0 (State.restamp s p x run) := by
  rw [State.restamp.eq_def]
  repeat' (first
    | (with_reducible assumption)
    | (with_reducible apply keeps_State_vwrite)
    | (with_reducible refine Keeps.foldl ?_ ?_)
    | (intro _)
    | (extract_lets -underBinder)
    | (with_reducible refine Keeps.ite ?_ ?_)
    | split
    | (refine EKeeps.use ?_ (by assumption)))

theorem keeps_State_leaveObject {s0 : State} (s : State) (p : Nat) (x : Nat) (tensor : Nat) (run : SweepRun) (hk : Keeps s0 s) :
    Keeps s0 (State.leaveObject s p x tensor run) := by
  rw [State.leaveObject.eq_def]
  repeat' (first
    | (with_reducible assumption)
    | (with_reducible apply keeps_State_restamp)
    | (with_reducible apply keeps_State_noteRead)
    | (with_reducible apply keeps_State_stateLost)
    | (with_reducible apply keeps_State_onObj)
    | (with_reducible apply keeps_State_tierEvent)
    | (with_reducible apply keeps_State_bumpP)
    | (with_reducible apply keeps_State_gain)
    | (with_reducible apply keeps_State_releaseHeld)
    | (extract_lets -underBinder)
    | (with_reducible refine Keeps.ite ?_ ?_)
    | split)

theorem keeps_State_leaveObjects {s0 : State} (s : State) (p : Nat) (k : Nat) (run : SweepRun) (hk : Keeps s0 s) :
    Keeps s0 (State.leaveObjects s p k run) := by
  rw [State.leaveObjects.eq_def]
  repeat' (first
    | (with_reducible assumption)
    | (with_reducible apply keeps_State_leaveObject)
    | (with_reducible refine Keeps.foldl ?_ ?_)
    | (intro _))

theorem keeps_State_skipPoisoned {s0 : State} (s : State) (p : Nat) (k : Nat) (run : SweepRun) (r : SweepRec) (x : Nat) (hk : Keeps s0 s) :
    Keeps s0 (State.skipPoisoned s p k run r x) := by
  rw [State.skipPoisoned.eq_def]
  repeat' (first
    | (with_reducible assumption)
    | (with_reducible apply keeps_State_bumpP)
    | (with_reducible apply keeps_State_raiseP)
    | (with_reducible apply keeps_State_unask)
    | (with_reducible apply keeps_State_onSweep)
    | (with_reducible apply keeps_State_advanceCursor)
    | (with_reducible apply keeps_State_leaveObjects))

theorem keeps_State_skipUnreadable {s0 : State} (s : State) (p : Nat) (k : Nat) (run : SweepRun) (r : SweepRec) (b : Nat) (e : Unreadable) (hk : Keeps s0 s) :
    Keeps s0 (State.skipUnreadable s p k run r b e) := by
  rw [State.skipUnreadable.eq_def]
  repeat' (first
    | (with_reducible assumption)
    | (with_reducible apply keeps_State_lakeUncorrectable)
    | (with_reducible apply keeps_State_bumpP)
    | (with_reducible apply keeps_State_raiseP)
    | (with_reducible apply keeps_State_onPartn)
    | (with_reducible apply keeps_State_onSweep)
    | (with_reducible apply keeps_State_advanceCursor)
    | (with_reducible apply keeps_State_leaveObjects)
    | (extract_lets -underBinder)
    | (with_reducible refine Keeps.ite ?_ ?_)
    | split)

theorem keeps_State_writeHome {s0 : State} (s : State) (p : Nat) (l : List (Nat × List Byte)) (hk : Keeps s0 s) :
    Keeps s0 (State.writeHome s p l) := by
  rw [State.writeHome.eq_def]
  repeat' (first
    | (with_reducible assumption)
    | (with_reducible apply keeps_State_vwrite)
    | (with_reducible refine Keeps.foldl ?_ ?_)
    | (intro _)
    | (extract_lets -underBinder)
    | split
    | (refine EKeeps.use ?_ (by assumption)))

theorem keeps_State_commitBlock {s0 : State} (s : State) (p : Nat) (k : Nat) (run : SweepRun) (o : BlockOut) (hk : Keeps s0 s) :
    Keeps s0 (State.commitBlock s p k run o) := by
  rw [State.commitBlock.eq_def]
  repeat' (first
    | (with_reducible assumption)
    | (with_reducible apply keeps_State_setShadow)
    | (with_reducible apply keeps_State_setCursor)
    | (with_reducible apply keeps_State_writeHome)
    | (with_reducible apply keeps_State_tally)
    | (with_reducible apply keeps_State_advanceCursor)
    | (with_reducible apply keeps_State_leaveObjects)
    | (with_reducible refine Keeps.foldl ?_ ?_)
    | (intro _))

theorem keeps_State_skipFactored {s0 : State} (s : State) (p : Nat) (k : Nat) (run : SweepRun) (r : SweepRec) (e : Unreadable) (hk : Keeps s0 s) :
    Keeps s0 (State.skipFactored s p k run r e) := by
  rw [State.skipFactored.eq_def]
  repeat' (first
    | (with_reducible assumption)
    | (with_reducible apply keeps_State_bumpP)
    | (with_reducible apply keeps_State_setCursor)
    | (with_reducible apply keeps_State_skipUnreadable))

theorem keeps_State_readAgain {s0 : State} (s : State) (p : Nat) (e : Unreadable) (skip : State → State)  (hskip : ∀ (y0 : State), Keeps s0 y0 → Keeps s0 (skip y0)) (hk : Keeps s0 s) :
    Keeps s0 (State.readAgain s p e skip) := by
  rw [State.readAgain.eq_def]
  repeat' (first
    | (with_reducible assumption)
    | (with_reducible apply hskip)
    | (with_reducible apply keeps_State_repairAt)
    | (with_reducible apply keeps_State_lakeUncorrectable)
    | (extract_lets -underBinder)
    | split
    | (refine OKeeps.use ?_ (by assumption)))

theorem keeps_State_sweepWork {s0 : State} (s : State) (p : Nat) (k : Nat) (run : SweepRun) (r : SweepRec) (hk : Keeps s0 s) :
    Keeps s0 (State.sweepWork s p k run r) := by
  rw [State.sweepWork.eq_def]
  repeat' (first
    | (with_reducible assumption)
    | (with_reducible apply keeps_State_readAgain)
    | (with_reducible apply keeps_State_skipFactored)
    | (with_reducible apply keeps_State_setStats)
    | (with_reducible apply keeps_State_setCursor)
    | (with_reducible apply keeps_State_skipUnreadable)
    | (with_reducible apply keeps_State_bumpP)
    | (with_reducible apply keeps_State_commitBlock)
    | (intro _)
    | (extract_lets -underBinder)
    | (with_reducible refine Keeps.ite ?_ ?_)
    | split)

theorem keeps_State_acquireAll {s0 : State} (s : State) (p : Nat) (k : Nat) (r : SweepRec) (x0 : List Nat) (hk : Keeps s0 s) :
    PKeeps s0 (State.acquireAll s p k r x0) := by
  induction x0 generalizing s p k r with
  | nil =>
    rw [State.acquireAll]
    repeat' (first
      | (with_reducible assumption)
      | (with_reducible apply PKeeps.mk))
  | cons a r ih =>
    rw [State.acquireAll]
    repeat' (first
      | (apply ih)
      | (with_reducible assumption)
      | (with_reducible apply keeps_State_acquire)
      | (extract_lets -underBinder)
      | split
      | (with_reducible apply PKeeps.mk)
      | (refine PKeeps.use ?_ (by assumption)))

theorem keeps_State_endRepairWait {s0 : State} (s : State) (p : Nat) (hk : Keeps s0 s) :
    Keeps s0 (State.endRepairWait s p) := by
  rw [State.endRepairWait.eq_def]
  repeat' (first
    | (with_reducible assumption)
    | (with_reducible apply keeps_State_onPartn)
    | (with_reducible apply keeps_State_bumpP)
    | split)

theorem keeps_State_sweepStep {s0 : State} (s : State) (p : Nat) (k : Nat) (run : SweepRun) (r : SweepRec) (hk : Keeps s0 s) :
    Keeps s0 (State.sweepStep s p k run r) := by
  rw [State.sweepStep.eq_def]
  repeat' (first
    | (with_reducible assumption)
    | (with_reducible apply keeps_State_onPartn)
    | (with_reducible apply keeps_State_endRepairWait)
    | (with_reducible apply keeps_State_bumpP)
    | (with_reducible apply keeps_State_setCursor)
    | (with_reducible apply keeps_State_skipPoisoned)
    | (with_reducible apply keeps_State_acquireAll)
    | (with_reducible apply keeps_State_skipUnreadable)
    | (with_reducible apply keeps_State_sweepWork)
    | (extract_lets -underBinder)
    | (with_reducible refine Keeps.ite ?_ ?_)
    | split
    | (refine PKeeps.use ?_ (by assumption)))

theorem keeps_execSweepBlock {s0 : State} (p : Nat) (k : Nat) (s : State) (hk : Keeps s0 s) :
    RKeeps s0 (execSweepBlock p k s) := by
  rw [execSweepBlock.eq_def]
  repeat' (first
    | (with_reducible assumption)
    | (with_reducible apply keeps_State_sweepStep)
    | (with_reducible apply RKeeps.next)
    | (extract_lets -underBinder)
    | split)

theorem keeps_State_resumeUnit {s0 : State} (s : State) (p : Nat) (k : Nat) (run : SweepRun) (hk : Keeps s0 s) :
    Keeps s0 (State.resumeUnit s p k run) := by
  rw [State.resumeUnit.eq_def]
  repeat' (first
    | (with_reducible assumption)
    | (with_reducible apply keeps_State_setStore)
    | (with_reducible apply keeps_State_bumpP)
    | (with_reducible apply keeps_State_raiseP)
    | (with_reducible apply keeps_State_writeHome)
    | (with_reducible apply keeps_State_advanceCursor)
    | (with_reducible apply keeps_State_leaveObjects)
    | (extract_lets -underBinder)
    | (with_reducible refine Keeps.ite ?_ ?_))

theorem keeps_State_startStep {s0 : State} (s : State) (p : Nat) (w : Nat) (q : Nat) (op : Nat) (act : Cmd → State → State)  (hact : ∀ (y0 : Cmd) (y1 : State), Keeps s0 y1 → Keeps s0 (act y0 y1)) (hk : Keeps s0 s) :
    Keeps s0 (State.startStep s p w q op act) := by
  rw [State.startStep.eq_def]
  repeat' (first
    | (with_reducible assumption)
    | (with_reducible apply hact)
    | (with_reducible apply keeps_State_startCmd)
    | (with_reducible apply keeps_State_complete)
    | (intro _)
    | (extract_lets -underBinder)
    | (with_reducible refine Keeps.ite ?_ ?_)
    | split)

theorem keeps_execStepOpen {s0 : State} (p : Nat) (w : Nat) (q : Nat) (s : State) (hk : Keeps s0 s) :
    RKeeps s0 (execStepOpen p w q s) := by
  rw [execStepOpen.eq_def]
  repeat' (first
    | (with_reducible assumption)
    | (with_reducible apply keeps_State_startStep)
    | (with_reducible apply keeps_State_complete)
    | (with_reducible apply keeps_State_startSlots)
    | (with_reducible apply keeps_State_onPartn)
    | (with_reducible apply RKeeps.next)
    | (intro _)
    | (extract_lets -underBinder)
    | (with_reducible refine Keeps.ite ?_ ?_)
    | split
    | (refine PKeeps.use ?_ (by assumption)))

theorem keeps_execStepSeal {s0 : State} (p : Nat) (w : Nat) (q : Nat) (s : State) (hk : Keeps s0 s) :
    RKeeps s0 (execStepSeal p w q s) := by
  rw [execStepSeal.eq_def]
  repeat' (first
    | (with_reducible assumption)
    | (with_reducible apply keeps_State_startStep)
    | (with_reducible apply keeps_State_complete)
    | (with_reducible apply keeps_State_sealEvents)
    | (with_reducible apply keeps_State_onPartn)
    | (with_reducible apply keeps_State_raiseP)
    | (with_reducible apply keeps_State_enterDiscarded)
    | (with_reducible apply RKeeps.next)
    | (intro _)
    | (extract_lets -underBinder)
    | (with_reducible refine Keeps.ite ?_ ?_)
    | split)

theorem keeps_execSweep {s0 : State} (p : Nat) (w : Nat) (q : Nat) (s : State) (hk : Keeps s0 s) :
    RKeeps s0 (execSweep p w q s) := by
  rw [execSweep.eq_def]
  repeat' (first
    | (with_reducible assumption)
    | (with_reducible apply keeps_State_startStep)
    | (with_reducible apply keeps_State_complete)
    | (with_reducible apply keeps_State_noteRead)
    | (with_reducible apply keeps_State_noteBad)
    | (with_reducible apply keeps_State_readScale)
    | (with_reducible apply keeps_State_onCmd)
    | (with_reducible apply keeps_State_onPartn)
    | (with_reducible apply keeps_State_setCursor)
    | (with_reducible apply keeps_State_setStore)
    | (with_reducible apply keeps_State_passRecords)
    | (with_reducible refine Keeps.foldl ?_ ?_)
    | (with_reducible apply RKeeps.next)
    | (with_reducible apply PKeeps.fst)
    | (intro _)
    | (extract_lets -underBinder)
    | (with_reducible refine Keeps.ite ?_ ?_)
    | split)

theorem keeps_State_takeDigests {s0 : State} (s : State) (p : Nat) (run : SweepRun) (hk : Keeps s0 s) :
    Keeps s0 (State.takeDigests s p run) := by
  rw [State.takeDigests.eq_def]
  repeat' (first
    | (with_reducible assumption)
    | (with_reducible apply keeps_State_lakeUncorrectable)
    | (with_reducible apply keeps_State_onPartn)
    | (with_reducible refine Keeps.foldl ?_ ?_)
    | (intro _)
    | (extract_lets -underBinder)
    | (with_reducible refine Keeps.ite ?_ ?_))

theorem keeps_State_settleOwed {s0 : State} (s : State) (p : Nat) (hk : Keeps s0 s) :
    Keeps s0 (State.settleOwed s p) := by
  rw [State.settleOwed.eq_def]
  repeat' (first
    | (with_reducible assumption)
    | (with_reducible apply keeps_State_commitStep)
    | (with_reducible apply keeps_State_onPartn)
    | (with_reducible apply keeps_State_complete)
    | (with_reducible refine Keeps.foldl ?_ ?_)
    | (intro _)
    | (extract_lets -underBinder)
    | (with_reducible refine Keeps.ite ?_ ?_))

theorem keeps_execSweepEnd {s0 : State} (p : Nat) (s : State) (hk : Keeps s0 s) :
    RKeeps s0 (execSweepEnd p s) := by
  rw [execSweepEnd.eq_def]
  repeat' (first
    | (with_reducible assumption)
    | (with_reducible apply keeps_State_takeDigests)
    | (with_reducible apply keeps_State_onPartn)
    | (with_reducible apply keeps_State_complete)
    | (with_reducible apply keeps_State_settleOwed)
    | (with_reducible apply RKeeps.next)
    | (extract_lets -underBinder)
    | split)

theorem keeps_execStepCommit {s0 : State} (p : Nat) (w : Nat) (q : Nat) (s : State) (hk : Keeps s0 s) :
    RKeeps s0 (execStepCommit p w q s) := by
  rw [execStepCommit.eq_def]
  repeat' (first
    | (with_reducible assumption)
    | (with_reducible apply keeps_State_startStep)
    | (with_reducible apply keeps_State_complete)
    | (with_reducible apply keeps_State_commitStep)
    | (with_reducible apply RKeeps.next)
    | (intro _)
    | (extract_lets -underBinder)
    | (with_reducible refine Keeps.ite ?_ ?_)
    | split)

theorem keeps_execStepDiscard {s0 : State} (p : Nat) (w : Nat) (q : Nat) (s : State) (hk : Keeps s0 s) :
    RKeeps s0 (execStepDiscard p w q s) := by
  rw [execStepDiscard.eq_def]
  repeat' (first
    | (with_reducible assumption)
    | (with_reducible apply keeps_State_startStep)
    | (with_reducible apply keeps_State_complete)
    | (with_reducible apply keeps_State_stepToIdle)
    | (with_reducible apply RKeeps.next)
    | (intro _)
    | (extract_lets -underBinder)
    | (with_reducible refine Keeps.ite ?_ ?_))

theorem keeps_State_repairTile {s0 : State} (s : State) (p : Nat) (r : SweepRec) (factor : Nat) (pos : Nat) (va : Nat) (others : List (Nat × List Byte)) (hk : Keeps s0 s) :
    Keeps s0 (State.repairTile s p r factor pos va others) := by
  rw [State.repairTile.eq_def]
  repeat' (first
    | (with_reducible assumption)
    | (with_reducible apply keeps_State_noteRead)
    | (with_reducible apply keeps_State_raiseP)
    | (with_reducible apply keeps_State_bumpP)
    | (with_reducible apply keeps_State_vwrite)
    | (extract_lets -underBinder)
    | (with_reducible refine Keeps.ite ?_ ?_)
    | split
    | (refine EKeeps.use ?_ (by assumption)))

theorem keeps_State_repairRecord {s0 : State} (s : State) (p : Nat) (r : SweepRec) (mirrors : List MirrorCopy) (hk : Keeps s0 s) :
    Keeps s0 (State.repairRecord s p r mirrors) := by
  rw [State.repairRecord.eq_def]
  repeat' (first
    | (with_reducible assumption)
    | (with_reducible apply keeps_State_repairTile)
    | (with_reducible apply keeps_State_onPartn)
    | (with_reducible apply keeps_State_endRepairWait)
    | (with_reducible refine Keeps.foldl ?_ ?_)
    | (intro _))

theorem keeps_execDigestExchange {s0 : State} (p : Nat) (rec : Nat) (mirrors : List MirrorCopy) (s : State) (hk : Keeps s0 s) :
    RKeeps s0 (execDigestExchange p rec mirrors s) := by
  rw [execDigestExchange.eq_def]
  repeat' (first
    | (with_reducible assumption)
    | (with_reducible apply keeps_State_repairRecord)
    | (with_reducible apply keeps_State_onPartn)
    | (with_reducible apply keeps_State_bumpP)
    | (with_reducible apply keeps_State_raiseP)
    | (with_reducible apply RKeeps.next)
    | (extract_lets -underBinder)
    | (with_reducible refine Keeps.ite ?_ ?_)
    | split)

theorem keeps_execDigestTimeout {s0 : State} (p : Nat) (rec : Nat) (s : State) (hk : Keeps s0 s) :
    RKeeps s0 (execDigestTimeout p rec s) := by
  rw [execDigestTimeout.eq_def]
  repeat' (first
    | (with_reducible assumption)
    | (with_reducible apply keeps_State_onPartn)
    | (with_reducible apply keeps_State_raiseP)
    | (with_reducible apply RKeeps.next)
    | (extract_lets -underBinder)
    | split)

/-! ## Machine/Exchange.lean -/


theorem keeps_State_noteBadX {s0 : State} (s : State) (p : Nat) (x0 : RecordBad) (hk : Keeps s0 s) :
    Keeps s0 (State.noteBadX s p x0) := by
  rw [State.noteBadX.eq_def]
  repeat' (first
    | (with_reducible assumption)
    | (with_reducible apply keeps_State_lakeUncorrectable)
    | (with_reducible apply keeps_State_entryLost)
    | split)

theorem keeps_execExchange {s0 : State} (p : Nat) (w : Nat) (q : Nat) (s : State) (hk : Keeps s0 s) :
    RKeeps s0 (execExchange p w q s) := by
  rw [execExchange.eq_def]
  repeat' (first
    | (with_reducible assumption)
    | (with_reducible apply keeps_State_startStep)
    | (with_reducible apply keeps_State_complete)
    | (with_reducible apply keeps_State_noteRead)
    | (with_reducible apply keeps_State_noteBadX)
    | (with_reducible apply keeps_State_readScale)
    | (with_reducible apply keeps_State_onPartn)
    | (with_reducible refine Keeps.foldl ?_ ?_)
    | (with_reducible apply RKeeps.next)
    | (with_reducible apply PKeeps.fst)
    | (intro _)
    | (extract_lets -underBinder)
    | (with_reducible refine Keeps.ite ?_ ?_)
    | split)

theorem keeps_State_recallX {s0 : State} (s : State) (p : Nat) (r : XRun) (hk : Keeps s0 s) :
    Keeps s0 (State.recallX s p r) := by
  rw [State.recallX.eq_def]
  repeat' (first
    | (with_reducible assumption)
    | (with_reducible exact id)
    | (with_reducible exact Nat.le_refl _)
    | (with_reducible exact BitVec.le_refl _)
    | (with_reducible refine Keeps.boxed ?_ ?_ ?_ ?_)
    | (extract_lets -underBinder)
    | (with_reducible rw [State.mk_boxed]))

theorem keeps_State_endX {s0 : State} (s : State) (p : Nat) (x : Nat) (cause : Nat) (arg : Nat) (detail : Nat) (hk : Keeps s0 s) :
    Keeps s0 (State.endX s p x cause arg detail) := by
  rw [State.endX.eq_def]
  repeat' (first
    | (with_reducible assumption)
    | (with_reducible apply keeps_State_bumpP)
    | (with_reducible apply keeps_State_recallX)
    | (with_reducible apply keeps_State_onX)
    | (with_reducible apply keeps_State_stopForX)
    | (with_reducible apply keeps_State_stepFault)
    | (with_reducible apply keeps_State_onPartn)
    | (with_reducible apply keeps_State_complete)
    | (extract_lets -underBinder)
    | (with_reducible refine Keeps.ite ?_ ?_)
    | split)

theorem keeps_State_endPeer {s0 : State} (s : State) (p : Nat) (x : Nat) (cause : Nat) (peer : Nat) (event : Option Nat) (hk : Keeps s0 s) :
    Keeps s0 (State.endPeer s p x cause peer event) := by
  rw [State.endPeer.eq_def]
  repeat' (first
    | (with_reducible assumption)
    | (with_reducible apply keeps_State_raiseP)
    | (with_reducible apply keeps_State_endX)
    | (extract_lets -underBinder)
    | split)

theorem keeps_State_sendFrame {s0 : State} (s : State) (p : Nat) (x : Nat) (peer : Nat) (index : Nat) (frame : List Byte) (hk : Keeps s0 s) :
    Keeps s0 (State.sendFrame s p x peer index frame) := by
  rw [State.sendFrame.eq_def]
  repeat' (first
    | (with_reducible assumption)
    | (with_reducible apply keeps_State_sendX)
    | (with_reducible apply keeps_State_onX)
    | (with_reducible apply keeps_State_bumpP)
    | (with_reducible apply PKeeps.fst)
    | split)

theorem keeps_State_resendX {s0 : State} (s : State) (p : Nat) (x : Nat) (u : XSent) (hk : Keeps s0 s) :
    Keeps s0 (State.resendX s p x u) := by
  rw [State.resendX.eq_def]
  repeat' (first
    | (with_reducible assumption)
    | (with_reducible apply keeps_State_sendX)
    | (with_reducible apply keeps_State_onX)
    | (with_reducible apply keeps_State_bumpP)
    | (with_reducible apply PKeeps.fst)
    | split)

theorem keeps_State_serveFetches {s0 : State} (s : State) (p : Nat) (x : Nat) (index : Nat) (hk : Keeps s0 s) :
    Keeps s0 (State.serveFetches s p x index) := by
  rw [State.serveFetches.eq_def]
  repeat' (first
    | (with_reducible assumption)
    | (with_reducible apply keeps_State_resendX)
    | (with_reducible apply keeps_State_onX)
    | (with_reducible refine Keeps.foldl ?_ ?_)
    | (intro _)
    | split)

theorem keeps_State_multicast {s0 : State} (s : State) (p : Nat) (x : Nat) (index : Nat) (frame : List Byte) (hk : Keeps s0 s) :
    Keeps s0 (State.multicast s p x index frame) := by
  rw [State.multicast.eq_def]
  repeat' (first
    | (with_reducible assumption)
    | (with_reducible apply keeps_State_sendX)
    | (with_reducible apply keeps_State_onX)
    | (with_reducible apply keeps_State_bumpP)
    | (with_reducible apply keeps_State_serveFetches)
    | (with_reducible apply PKeeps.fst)
    | (extract_lets -underBinder)
    | (with_reducible refine Keeps.ite ?_ ?_)
    | split)

theorem keeps_State_countRank {s0 : State} (s : State) (p : Nat) (x : Nat) (lo : Nat) (mark : Nat) (rank : Nat) (x0 : Nat) (hk : Keeps s0 s) :
    Keeps s0 (State.countRank s p x lo mark rank x0) := by
  induction x0 generalizing s p x lo mark rank with
  | zero => exact hk
  | succ n ih =>
    rw [State.countRank]
    repeat' (first
      | (with_reducible assumption)
      | (with_reducible apply ih)
      | (with_reducible apply keeps_State_markAdd)
      | (with_reducible apply keeps_State_onX)
      | (with_reducible refine Keeps.ite ?_ ?_)
      | split)

theorem keeps_State_noteTile {s0 : State} (s : State) (p : Nat) (x : Nat) (index : Nat) (rank : Nat) (hk : Keeps s0 s) :
    Keeps s0 (State.noteTile s p x index rank) := by
  rw [State.noteTile.eq_def]
  repeat' (first
    | (with_reducible assumption)
    | (with_reducible apply keeps_State_onX)
    | (with_reducible apply keeps_State_countRank)
    | (with_reducible apply keeps_State_markAdd)
    | (extract_lets -underBinder)
    | (with_reducible refine Keeps.ite ?_ ?_)
    | split)

theorem keeps_State_putTile {s0 : State} (s : State) (p : Nat) (x : Nat) (index : Nat) (rank : Nat) (frame : List Byte) (hk : Keeps s0 s) :
    Keeps s0 (State.putTile s p x index rank frame) := by
  rw [State.putTile.eq_def]
  repeat' (first
    | (with_reducible assumption)
    | (with_reducible apply keeps_State_vwrite)
    | (with_reducible apply keeps_State_noteFault)
    | (with_reducible apply keeps_State_endPeer)
    | (with_reducible apply keeps_State_onX)
    | (with_reducible apply keeps_State_noteTile)
    | (extract_lets -underBinder)
    | split
    | (refine EKeeps.use ?_ (by assumption)))

set_option maxRecDepth 20000 in
theorem keeps_State_xTile {s0 : State} (s : State) (p : Nat) (r : XRun) (i : Nat) (hk : Keeps s0 s) :
    PKeeps s0 (State.xTile s p r i) := by
  rw [State.xTile.eq_def]
  repeat' (first
    | (with_reducible assumption)
    | (with_reducible apply keeps_State_noteRead)
    | (extract_lets -underBinder)
    | split
    | (dsimp only)
    | (dsimp +zetaDelta only)
    | (with_reducible apply PKeeps.mk))

theorem keeps_State_notePeers {s0 : State} (s : State) (p : Nat) (hk : Keeps s0 s) :
    Keeps s0 (State.notePeers s p) := by
  rw [State.notePeers.eq_def]
  repeat' (first
    | (with_reducible assumption)
    | (with_reducible apply keeps_State_onPartn)
    | (with_reducible apply keeps_State_endPeerWait)
    | (extract_lets -underBinder)
    | (with_reducible refine Keeps.ite ?_ ?_))

theorem keeps_State_xAwait {s0 : State} (s : State) (p : Nat) (r : XRun) (hk : Keeps s0 s) :
    Keeps s0 (State.xAwait s p r) := by
  rw [State.xAwait.eq_def]
  repeat' (first
    | (with_reducible assumption)
    | (with_reducible apply keeps_State_awaitRecovery)
    | split)

theorem keeps_State_gatherTile {s0 : State} (s : State) (p : Nat) (x : Nat) (r : XRun) (hk : Keeps s0 s) :
    OKeeps s0 (State.gatherTile s p x r) := by
  rw [State.gatherTile.eq_def]
  repeat' (first
    | (with_reducible assumption)
    | (with_reducible apply keeps_State_xTile)
    | (with_reducible apply keeps_State_endPeer)
    | (with_reducible apply keeps_State_onX)
    | (with_reducible apply keeps_State_putTile)
    | (with_reducible apply keeps_State_multicast)
    | (with_reducible exact OKeeps.none)
    | (with_reducible apply OKeeps.some)
    | (extract_lets -underBinder)
    | (with_reducible refine Keeps.ite ?_ ?_)
    | split
    | (refine PKeeps.use ?_ (by assumption)))

theorem keeps_State_gather {s0 : State} (s : State) (p : Nat) (x : Nat) (x0 : Nat) (hk : Keeps s0 s) :
    Keeps s0 (State.gather s p x x0) := by
  induction x0 generalizing s p x with
  | zero =>
    rw [State.gather]
    repeat' (first
      | (with_reducible assumption))
  | succ n ih =>
    rw [State.gather]
    repeat' (first
      | (apply ih)
      | (with_reducible assumption)
      | (with_reducible apply keeps_State_gatherTile)
      | (with_reducible apply keeps_State_xAwait)
      | (extract_lets -underBinder)
      | (with_reducible refine Keeps.ite ?_ ?_)
      | split
      | (refine OKeeps.use ?_ (by assumption)))

theorem keeps_State_startX {s0 : State} (s : State) (p : Nat) (x : Nat) (hk : Keeps s0 s) :
    Keeps s0 (State.startX s p x) := by
  rw [State.startX.eq_def]
  repeat' (first
    | (with_reducible assumption)
    | (with_reducible apply keeps_State_onX)
    | (with_reducible apply keeps_State_gather)
    | split)

theorem keeps_execExchangeRecordTrigger {s0 : State} (p : Nat) (x : Nat) (s : State) (hk : Keeps s0 s) :
    RKeeps s0 (execExchangeRecordTrigger p x s) := by
  rw [execExchangeRecordTrigger.eq_def]
  repeat' (first
    | (with_reducible assumption)
    | (with_reducible apply keeps_State_startX)
    | (with_reducible apply keeps_State_notePeers)
    | (with_reducible apply RKeeps.next)
    | (extract_lets -underBinder)
    | split)

theorem keeps_execExchangeRecordStart {s0 : State} (p : Nat) (x : Nat) (s : State) (hk : Keeps s0 s) :
    RKeeps s0 (execExchangeRecordStart p x s) := by
  rw [execExchangeRecordStart.eq_def]
  repeat' (first
    | (with_reducible assumption)
    | (with_reducible apply keeps_State_startX)
    | (with_reducible apply keeps_State_notePeers)
    | (with_reducible apply RKeeps.next)
    | (extract_lets -underBinder)
    | split)

set_option maxRecDepth 20000 in
theorem keeps_State_residuals {s0 : State} (s : State) (p : Nat) (r : XRun) (i : Nat) (hk : Keeps s0 s) :
    PKeeps s0 (State.residuals s p r i) := by
  rw [State.residuals.eq_def]
  repeat' (first
    | (with_reducible assumption)
    | (with_reducible apply keeps_State_noteRead)
    | (with_reducible refine PKeeps.foldl ?_ ?_)
    | (with_reducible apply PKeeps.fst)
    | (intro _)
    | (extract_lets -underBinder)
    | split
    | (dsimp +zetaDelta only)
    | (with_reducible apply PKeeps.mk))

theorem keeps_State_writeResiduals {s0 : State} (s : State) (p : Nat) (x : Nat) (x0 : List Nat) (hk : Keeps s0 s) :
    Keeps s0 (State.writeResiduals s p x x0) := by
  induction x0 generalizing s p x with
  | nil =>
    rw [State.writeResiduals]
    repeat' (first
      | (with_reducible assumption))
  | cons a r ih =>
    rw [State.writeResiduals]
    repeat' (first
      | (apply ih)
      | (with_reducible assumption)
      | (with_reducible apply keeps_State_vwrite)
      | (with_reducible apply keeps_State_noteFault)
      | (with_reducible apply keeps_State_endPeer)
      | (with_reducible apply keeps_State_onX)
      | (with_reducible apply keeps_State_bumpP)
      | (extract_lets -underBinder)
      | (with_reducible refine Keeps.ite ?_ ?_)
      | split
      | (refine EKeeps.use ?_ (by assumption)))

theorem keeps_State_flushPack {s0 : State} (s : State) (p : Nat) (x : Nat) (rank : Nat) (hk : Keeps s0 s) :
    Keeps s0 (State.flushPack s p x rank) := by
  rw [State.flushPack.eq_def]
  repeat' (first
    | (with_reducible assumption)
    | (with_reducible apply keeps_State_onX)
    | (with_reducible apply keeps_State_sendFrame)
    | split)

theorem keeps_State_packBlock {s0 : State} (s : State) (p : Nat) (x : Nat) (rank : Nat) (block : Nat) (bytes : List Byte) (sat : Bool) (last : Bool) (hk : Keeps s0 s) :
    Keeps s0 (State.packBlock s p x rank block bytes sat last) := by
  rw [State.packBlock.eq_def]
  repeat' (first
    | (with_reducible assumption)
    | (with_reducible apply keeps_State_flushPack)
    | (with_reducible apply keeps_State_onX)
    | (extract_lets -underBinder)
    | (with_reducible refine Keeps.ite ?_ ?_)
    | split
    | (dsimp +zetaDelta only))

theorem keeps_State_addOwn {s0 : State} (s : State) (p : Nat) (x : Nat) (block : Nat) (rank : Nat) (vals : List Val) (sats : List Bool) (hk : Keeps s0 s) :
    Keeps s0 (State.addOwn s p x block rank vals sats) := by
  rw [State.addOwn.eq_def]
  repeat' (first
    | (with_reducible assumption)
    | (with_reducible apply keeps_State_onX))

theorem keeps_State_sendBlocks {s0 : State} (s : State) (p : Nat) (x : Nat) (owner : Nat) (me : Nat) (first : Nat) (lastTile : Bool) (x0 : List (XBlock × Bool)) (x1 : Nat) (hk : Keeps s0 s) :
    Keeps s0 (State.sendBlocks s p x owner me first lastTile x0 x1) := by
  induction x0 generalizing s p x owner me first lastTile x1 with
  | nil =>
    rw [State.sendBlocks]
    repeat' (first
      | (with_reducible assumption))
  | cons a r ih =>
    rw [State.sendBlocks]
    repeat' (first
      | (apply ih)
      | (with_reducible assumption)
      | (with_reducible apply keeps_State_addOwn)
      | (with_reducible apply keeps_State_packBlock)
      | (extract_lets -underBinder)
      | (with_reducible refine Keeps.ite ?_ ?_))

theorem keeps_State_encodeTile {s0 : State} (s : State) (p : Nat) (x : Nat) (r : XRun) (i : Nat) (els : List XEl) (res : List Val) (hk : Keeps s0 s) :
    Keeps s0 (State.encodeTile s p x r i els res) := by
  rw [State.encodeTile.eq_def]
  repeat' (first
    | (with_reducible assumption)
    | (with_reducible apply keeps_State_onX)
    | (with_reducible apply keeps_State_tally)
    | (with_reducible apply keeps_State_writeResiduals)
    | (with_reducible apply keeps_State_sendBlocks)
    | (extract_lets -underBinder)
    | (with_reducible refine Keeps.ite ?_ ?_))

theorem keeps_State_compressTile {s0 : State} (s : State) (p : Nat) (x : Nat) (r : XRun) (tile : Nat) (hk : Keeps s0 s) :
    Keeps s0 (State.compressTile s p x r tile) := by
  rw [State.compressTile.eq_def]
  repeat' (first
    | (with_reducible assumption)
    | (with_reducible apply keeps_State_xTile)
    | (with_reducible apply keeps_State_endPeer)
    | (with_reducible apply keeps_State_onX)
    | (with_reducible apply keeps_State_bumpP)
    | (with_reducible apply keeps_State_sendFrame)
    | (with_reducible apply keeps_State_addOwn)
    | (with_reducible apply keeps_State_residuals)
    | (with_reducible apply keeps_State_encodeTile)
    | (with_reducible refine Keeps.foldl ?_ ?_)
    | (intro _)
    | (extract_lets -underBinder)
    | (with_reducible refine Keeps.ite ?_ ?_)
    | split
    | (refine PKeeps.use ?_ (by assumption)))

theorem keeps_execExchangeTileCompress {s0 : State} (p : Nat) (x : Nat) (tile : Nat) (s : State) (hk : Keeps s0 s) :
    RKeeps s0 (execExchangeTileCompress p x tile s) := by
  rw [execExchangeTileCompress.eq_def]
  repeat' (first
    | (with_reducible assumption)
    | (with_reducible apply keeps_State_gatherTile)
    | (with_reducible apply keeps_State_xAwait)
    | (with_reducible apply keeps_State_notePeers)
    | (with_reducible apply keeps_State_compressTile)
    | (with_reducible apply RKeeps.next)
    | (with_reducible refine OKeeps.getD ?_ ?_)
    | (extract_lets -underBinder)
    | (with_reducible refine Keeps.ite ?_ ?_)
    | split)

theorem keeps_State_writeReduced {s0 : State} (s : State) (p : Nat) (x : Nat) (lo : Nat) (n : Nat) (rank : Nat) (x0 : List Nat) (hk : Keeps s0 s) :
    Keeps s0 (State.writeReduced s p x lo n rank x0) := by
  induction x0 generalizing s p x lo n rank with
  | nil =>
    rw [State.writeReduced]
    repeat' (first
      | (with_reducible assumption))
  | cons a r ih =>
    rw [State.writeReduced]
    repeat' (first
      | (apply ih)
      | (with_reducible assumption)
      | (with_reducible apply keeps_State_putTile)
      | (with_reducible apply keeps_State_multicast)
      | (with_reducible apply keeps_State_bumpP)
      | (extract_lets -underBinder)
      | (with_reducible refine Keeps.ite ?_ ?_)
      | split)

theorem keeps_State_reduceTile {s0 : State} (s : State) (p : Nat) (x : Nat) (r : XRun) (tile : Nat) (sum : List U32 × List Bool) (hk : Keeps s0 s) :
    Keeps s0 (State.reduceTile s p x r tile sum) := by
  rw [State.reduceTile.eq_def]
  repeat' (first
    | (with_reducible assumption)
    | (with_reducible apply keeps_State_xTile)
    | (with_reducible apply keeps_State_endPeer)
    | (with_reducible apply keeps_State_onX)
    | (with_reducible apply keeps_State_tally)
    | (with_reducible apply keeps_State_writeReduced)
    | (extract_lets -underBinder)
    | split
    | (refine PKeeps.use ?_ (by assumption)))

theorem keeps_execReduceContribution {s0 : State} (p : Nat) (x : Nat) (tile : Nat) (s : State) (hk : Keeps s0 s) :
    RKeeps s0 (execReduceContribution p x tile s) := by
  rw [execReduceContribution.eq_def]
  repeat' (first
    | (with_reducible assumption)
    | (with_reducible apply keeps_State_awaitRecovery)
    | (with_reducible apply keeps_State_onX)
    | (with_reducible apply keeps_State_reduceTile)
    | (with_reducible apply keeps_State_notePeers)
    | (with_reducible apply RKeeps.next)
    | (extract_lets -underBinder)
    | (with_reducible refine Keeps.ite ?_ ?_)
    | split)

theorem keeps_State_checkPrints {s0 : State} (s : State) (p : Nat) (r : XRun) (ranks : Nat) (k : Nat) (x0 : Nat) (hk : Keeps s0 s) :
    PKeeps s0 (State.checkPrints s p r ranks k x0) := by
  induction x0 generalizing s p r ranks k with
  | zero =>
    rw [State.checkPrints]
    repeat' (first
      | (with_reducible assumption)
      | (with_reducible apply PKeeps.mk))
  | succ n ih =>
    rw [State.checkPrints]
    repeat' (first
      | (apply ih)
      | (with_reducible assumption)
      | (with_reducible apply keeps_State_onPartn)
      | split
      | (with_reducible apply PKeeps.mk))

theorem keeps_State_settleX {s0 : State} (s : State) (p : Nat) (w : Nat) (q : Nat) (hk : Keeps s0 s) :
    Keeps s0 (State.settleX s p w q) := by
  rw [State.settleX.eq_def]
  repeat' (first
    | (with_reducible assumption)
    | (with_reducible apply keeps_State_complete)
    | (with_reducible apply keeps_State_onPartn)
    | (extract_lets -underBinder)
    | (with_reducible refine Keeps.ite ?_ ?_))

theorem keeps_execExchangeRecordComplete {s0 : State} (p : Nat) (x : Nat) (s : State) (hk : Keeps s0 s) :
    RKeeps s0 (execExchangeRecordComplete p x s) := by
  rw [execExchangeRecordComplete.eq_def]
  repeat' (first
    | (with_reducible assumption)
    | (with_reducible apply keeps_State_checkPrints)
    | (with_reducible apply keeps_State_bumpP)
    | (with_reducible apply keeps_State_raiseP)
    | (with_reducible apply keeps_State_endX)
    | (with_reducible apply keeps_State_notePeers)
    | (with_reducible apply keeps_State_onX)
    | (with_reducible apply keeps_State_settleX)
    | (with_reducible apply RKeeps.next)
    | (extract_lets -underBinder)
    | split
    | (with_reducible apply PKeeps.mk)
    | (refine PKeeps.use ?_ (by assumption)))

theorem keeps_execExchangePeerTimeout {s0 : State} (p : Nat) (x : Nat) (member : Nat) (s : State) (hk : Keeps s0 s) :
    RKeeps s0 (execExchangePeerTimeout p x member s) := by
  rw [execExchangePeerTimeout.eq_def]
  repeat' (first
    | (with_reducible assumption)
    | (with_reducible apply keeps_State_endPeer)
    | (with_reducible apply keeps_State_notePeers)
    | (with_reducible apply RKeeps.next)
    | split)

theorem keeps_State_fetchX {s0 : State} (s : State) (p : Nat) (r : XRun) (peer : Nat) (index : Nat) (hk : Keeps s0 s) :
    Keeps s0 (State.fetchX s p r peer index) := by
  rw [State.fetchX.eq_def]
  repeat' (first
    | (with_reducible assumption)
    | (with_reducible apply keeps_State_sendX)
    | (with_reducible apply PKeeps.fst))

theorem keeps_State_forwardGain {s0 : State} (s : State) (p : Nat) (to' : Nat) (seen : U32) (v : U32) (hk : Keeps s0 s) :
    Keeps s0 (State.forwardGain s p to' seen v) := by
  rw [State.forwardGain.eq_def]
  repeat' (first
    | (with_reducible assumption)
    | (with_reducible apply keeps_State_applyMark))

theorem keeps_execStageQueueMarkForward {s0 : State} (p : Nat) (sq : Nat) (gain : StageGain) (s : State) (hk : Keeps s0 s) :
    RKeeps s0 (execStageQueueMarkForward p sq gain s) := by
  rw [execStageQueueMarkForward.eq_def]
  repeat' (first
    | (with_reducible assumption)
    | (with_reducible apply keeps_State_onPartn)
    | (with_reducible apply keeps_State_forwardGain)
    | (with_reducible apply RKeeps.next)
    | (extract_lets -underBinder)
    | (with_reducible refine Keeps.ite ?_ ?_)
    | split)

/-! ## Machine/Fabric.lean -/


theorem keeps_State_noteRoutes {s0 : State} (s : State) (q : Nat) (hk : Keeps s0 s) :
    Keeps s0 (State.noteRoutes s q) := by
  rw [State.noteRoutes.eq_def]
  repeat' (first
    | (with_reducible assumption)
    | (with_reducible exact id)
    | (with_reducible exact Nat.le_refl _)
    | (with_reducible exact BitVec.le_refl _)
    | (with_reducible apply keeps_State_raiseM)
    | (with_reducible refine Keeps.foldl ?_ ?_)
    | (with_reducible refine Keeps.boxed ?_ ?_ ?_ ?_)
    | (intro _)
    | (extract_lets -underBinder)
    | (with_reducible refine Keeps.ite ?_ ?_)
    | (with_reducible rw [State.mk_boxed]))

theorem keeps_State_waitHere {s0 : State} (s : State) (k : Packet) (hk : Keeps s0 s) :
    Keeps s0 (State.waitHere s k) := by
  rw [State.waitHere.eq_def]
  repeat' (first
    | (with_reducible assumption)
    | (with_reducible apply keeps_State_setLanding))

theorem keeps_State_enqueue {s0 : State} (s : State) (q : Nat) (key : Nat) (k : Packet) (hk : Keeps s0 s) :
    Keeps s0 (State.enqueue s q key k) := by
  rw [State.enqueue.eq_def]
  repeat' (first
    | (with_reducible assumption)
    | (with_reducible apply keeps_State_setPort)
    | (with_reducible apply keeps_State_drive))

theorem keeps_State_rerouteOne {s0 : State} (s : State) (x : Nat) (k : Packet) (key : Nat) (hk : Keeps s0 s) :
    Keeps s0 (State.rerouteOne s x k key) := by
  rw [State.rerouteOne.eq_def]
  repeat' (first
    | (with_reducible assumption)
    | (with_reducible apply keeps_State_waitHere)
    | (with_reducible apply keeps_State_enqueue)
    | (with_reducible refine Keeps.foldl ?_ ?_)
    | (intro _)
    | (extract_lets -underBinder)
    | split)

theorem keeps_State_feedOut {s0 : State} (s : State) (k : Packet) (bs : List Byte) (hk : Keeps s0 s) :
    Keeps s0 (State.feedOut s k bs) := by
  rw [State.feedOut.eq_def]
  repeat' (first
    | (with_reducible assumption)
    | (with_reducible apply keeps_State_setLanding)
    | (with_reducible apply keeps_State_setPort)
    | (with_reducible apply keeps_State_drive)
    | (with_reducible refine Keeps.foldl ?_ ?_)
    | (intro _)
    | (extract_lets -underBinder)
    | (with_reducible refine Keeps.ite ?_ ?_))

theorem keeps_State_stompOut {s0 : State} (s : State) (k : Packet) (hk : Keeps s0 s) :
    Keeps s0 (State.stompOut s k) := by
  rw [State.stompOut.eq_def]
  repeat' (first
    | (with_reducible assumption)
    | (with_reducible apply keeps_State_setLanding)
    | (with_reducible apply keeps_State_setPort)
    | (with_reducible apply keeps_State_drive)
    | (with_reducible refine Keeps.foldl ?_ ?_)
    | (intro _))

theorem keeps_State_setTaken {s0 : State} (s : State) (input : Nat) (k : Packet) (l : List Nat) (hk : Keeps s0 s) :
    Keeps s0 (State.setTaken s input k l) := by
  rw [State.setTaken.eq_def]
  repeat' (first
    | (with_reducible assumption)
    | (with_reducible exact id)
    | (with_reducible exact Nat.le_refl _)
    | (with_reducible exact BitVec.le_refl _)
    | (with_reducible refine Keeps.boxed ?_ ?_ ?_ ?_)
    | (extract_lets -underBinder)
    | (with_reducible rw [State.mk_boxed]))

theorem keeps_State_portDown {s0 : State} (s : State) (q : Nat) (next : PortState) (hk : Keeps s0 s) :
    Keeps s0 (State.portDown s q next) := by
  rw [State.portDown.eq_def]
  repeat' (first
    | (with_reducible assumption)
    | (with_reducible apply keeps_State_setPort)
    | (with_reducible apply keeps_State_bump)
    | (with_reducible apply keeps_State_raiseM)
    | (with_reducible apply keeps_State_rerouteOne)
    | (with_reducible apply keeps_State_stompOut)
    | (with_reducible apply keeps_State_setTaken)
    | (with_reducible apply keeps_State_noteRoutes)
    | (with_reducible refine Keeps.foldl ?_ ?_)
    | (intro _)
    | (extract_lets -underBinder)
    | (with_reducible refine Keeps.ite ?_ ?_)
    | split
    | (dsimp +zetaDelta only))

theorem keeps_execFlitReceive {s0 : State} (port : Nat) (r : ReceivedFlit) (s : State) (hk : Keeps s0 s) :
    RKeeps s0 (execFlitReceive port r s) := by
  rw [execFlitReceive.eq_def]
  repeat' (first
    | (with_reducible assumption)
    | (with_reducible apply keeps_State_bump)
    | (with_reducible apply keeps_State_setPort)
    | (with_reducible apply keeps_State_drive)
    | (with_reducible apply RKeeps.next)
    | (extract_lets -underBinder)
    | split)

theorem keeps_execFlitNakReplay {s0 : State} (port : Nat) (ack : Nat) (s : State) (hk : Keeps s0 s) :
    RKeeps s0 (execFlitNakReplay port ack s) := by
  rw [execFlitNakReplay.eq_def]
  repeat' (first
    | (with_reducible assumption)
    | (with_reducible apply keeps_State_setPort)
    | (with_reducible apply keeps_State_drive)
    | (with_reducible apply keeps_State_bump)
    | (with_reducible apply keeps_State_portDown)
    | (with_reducible apply RKeeps.next)
    | (extract_lets -underBinder)
    | (with_reducible refine Keeps.ite ?_ ?_)
    | split)

theorem keeps_execAckProgressTimeout {s0 : State} (port : Nat) (s : State) (hk : Keeps s0 s) :
    RKeeps s0 (execAckProgressTimeout port s) := by
  rw [execAckProgressTimeout.eq_def]
  repeat' (first
    | (with_reducible assumption)
    | (with_reducible apply keeps_State_portDown)
    | (with_reducible apply RKeeps.next)
    | (extract_lets -underBinder)
    | (with_reducible refine Keeps.ite ?_ ?_))

theorem keeps_State_toOutput {s0 : State} (s : State) (inPort : Option Nat) (b : Branch) (hk : Keeps s0 s) :
    Keeps s0 (State.toOutput s inPort b) := by
  rw [State.toOutput.eq_def]
  repeat' (first
    | (with_reducible assumption)
    | (with_reducible apply keeps_State_waitHere)
    | (with_reducible apply keeps_State_setPort)
    | (with_reducible apply keeps_State_enqueue)
    | split)

theorem keeps_State_noteWait {s0 : State} (s : State) (inPort : Option Nat) (b : Branch) (hk : Keeps s0 s) :
    Keeps s0 (State.noteWait s inPort b) := by
  rw [State.noteWait.eq_def]
  repeat' (first
    | (with_reducible assumption)
    | (with_reducible apply keeps_State_setPort)
    | (with_reducible apply keeps_State_noteStall)
    | (extract_lets -underBinder)
    | (with_reducible refine Keeps.ite ?_ ?_)
    | split)

theorem keeps_State_land {s0 : State} (s : State) (inPort : Option Nat) (k : Packet) (hk : Keeps s0 s) :
    Keeps s0 (State.land s inPort k) := by
  rw [State.land.eq_def]
  repeat' (first
    | (with_reducible assumption)
    | (with_reducible apply keeps_State_bump)
    | (with_reducible apply keeps_State_setLanding)
    | (extract_lets -underBinder)
    | (with_reducible refine Keeps.ite ?_ ?_))

theorem keeps_State_dropped {s0 : State} (s : State) (inPort : Option Nat) (k : Packet) (hk : Keeps s0 s) :
    OKeeps s0 (State.dropped s inPort k) := by
  rw [State.dropped.eq_def]
  repeat' (first
    | (with_reducible assumption)
    | (with_reducible apply keeps_State_bump)
    | (with_reducible apply keeps_State_raiseM)
    | (with_reducible exact OKeeps.none)
    | (with_reducible apply OKeeps.some)
    | (extract_lets -underBinder)
    | split)

theorem keeps_State_endCuts {s0 : State} (s : State) (k : Packet) (hk : Keeps s0 s) :
    Keeps s0 (State.endCuts s k) := by
  rw [State.endCuts.eq_def]
  repeat' (first
    | (with_reducible assumption)
    | (with_reducible exact id)
    | (with_reducible exact Nat.le_refl _)
    | (with_reducible exact BitVec.le_refl _)
    | (with_reducible refine Keeps.boxed ?_ ?_ ?_ ?_)
    | (extract_lets -underBinder)
    | (with_reducible refine Keeps.ite ?_ ?_)
    | (with_reducible rw [State.mk_boxed]))

theorem keeps_State_forward {s0 : State} (s : State) (input : Nat) (inPort : Option Nat) (k : Packet) (hk : Keeps s0 s) :
    PKeeps s0 (State.forward s input inPort k) := by
  rw [State.forward.eq_def]
  repeat' (first
    | (with_reducible assumption)
    | (with_reducible apply keeps_State_endCuts)
    | (with_reducible apply keeps_State_dropped)
    | (with_reducible apply keeps_State_setTaken)
    | (with_reducible apply keeps_State_toOutput)
    | (with_reducible apply keeps_State_land)
    | (with_reducible apply keeps_State_noteWait)
    | (with_reducible refine Keeps.foldl ?_ ?_)
    | (with_reducible exact OKeeps.none)
    | (intro _)
    | (extract_lets -underBinder)
    | split
    | (dsimp +zetaDelta only)
    | (with_reducible apply PKeeps.mk)
    | (refine OKeeps.use ?_ (by assumption)))

theorem keeps_State_setRx {s0 : State} (s : State) (q : Nat) (key : Nat) (rx : Rx) (passing : List Byte) (hk : Keeps s0 s) :
    Keeps s0 (State.setRx s q key rx passing) := by
  rw [State.setRx.eq_def]
  repeat' (first
    | (with_reducible assumption)
    | (with_reducible apply keeps_State_setPort))

theorem keeps_State_passMore {s0 : State} (s : State) (q : Nat) (key : Nat) (rx : Rx) (old : List Byte) (k : Packet) (hk : Keeps s0 s) :
    Keeps s0 (State.passMore s q key rx old k) := by
  rw [State.passMore.eq_def]
  repeat' (first
    | (with_reducible assumption)
    | (with_reducible apply keeps_State_setRx)
    | (with_reducible apply keeps_State_stompOut)
    | (with_reducible apply keeps_State_setTaken)
    | (with_reducible apply keeps_State_bump)
    | (with_reducible apply keeps_State_feedOut)
    | (with_reducible apply keeps_State_forward)
    | (with_reducible apply PKeeps.fst)
    | (extract_lets -underBinder)
    | (with_reducible refine Keeps.ite ?_ ?_))

theorem keeps_State_passPacket {s0 : State} (s : State) (q : Nat) (key : Nat) (hk : Keeps s0 s) :
    Keeps s0 (State.passPacket s q key) := by
  rw [State.passPacket.eq_def]
  repeat' (first
    | (with_reducible assumption)
    | (with_reducible apply keeps_State_setRx)
    | (with_reducible apply keeps_State_noteWait)
    | (with_reducible apply keeps_State_passMore)
    | (with_reducible refine Keeps.foldl ?_ ?_)
    | (intro _)
    | (extract_lets -underBinder)
    | (with_reducible refine Keeps.ite ?_ ?_))

theorem keeps_execPacketForward {s0 : State} (src : PacketSource) (s : State) (hk : Keeps s0 s) :
    RKeeps s0 (execPacketForward src s) := by
  rw [execPacketForward.eq_def]
  repeat' (first
    | (with_reducible assumption)
    | (with_reducible apply keeps_State_passPacket)
    | (with_reducible apply keeps_State_drive)
    | (with_reducible apply keeps_State_noteWait)
    | (with_reducible apply keeps_State_forward)
    | (with_reducible apply keeps_State_setLanding)
    | (with_reducible refine Keeps.foldl ?_ ?_)
    | (with_reducible apply RKeeps.next)
    | (with_reducible apply PKeeps.fst)
    | (intro _)
    | (extract_lets -underBinder)
    | (with_reducible refine Keeps.ite ?_ ?_)
    | split)

theorem keeps_State_receive {s0 : State} (s : State) (d : Nat) (k : Packet) (ptype : Nat) (hk : Keeps s0 s) :
    TKeeps s0 (State.receive s d k ptype) := by
  rw [State.receive.eq_def]
  repeat' (first
    | (with_reducible assumption)
    | (with_reducible apply keeps_State_takeArrived)
    | (with_reducible apply keeps_State_bump)
    | (with_reducible exact TKeeps.none)
    | (with_reducible apply TKeeps.some)
    | (extract_lets -underBinder)
    | (with_reducible refine Keeps.ite ?_ ?_)
    | split
    | (refine OKeeps.use ?_ (by assumption)))

theorem keeps_State_answer {s0 : State} (s : State) (k : Packet) (ptype : Nat) (kind : Nat) (body : List Byte) (hk : Keeps s0 s) :
    Keeps s0 (State.answer s k ptype kind body) := by
  rw [State.answer.eq_def]
  repeat' (first
    | (with_reducible assumption)
    | (with_reducible apply keeps_State_takePsn)
    | (with_reducible apply keeps_State_send)
    | (with_reducible apply PKeeps.fst))

theorem keeps_State_badArrival {s0 : State} (s : State) (p : Nat) (hk : Keeps s0 s) :
    Keeps s0 (State.badArrival s p) := by
  rw [State.badArrival.eq_def]
  repeat' (first
    | (with_reducible assumption)
    | (with_reducible apply keeps_State_bumpP))

theorem keeps_execFabricWrite {s0 : State} (die : Nat) (pk : Packet) (s : State) (hk : Keeps s0 s) :
    RKeeps s0 (execFabricWrite die pk s) := by
  rw [execFabricWrite.eq_def]
  repeat' (first
    | (with_reducible assumption)
    | (with_reducible apply keeps_State_receive)
    | (with_reducible apply keeps_State_answer)
    | (with_reducible apply keeps_State_badArrival)
    | (with_reducible apply keeps_State_writeParts)
    | (with_reducible apply keeps_State_enterPsn)
    | (with_reducible apply RKeeps.next)
    | (extract_lets -underBinder)
    | split
    | (refine TKeeps.use ?_ (by assumption)))

theorem keeps_State_serveFetch {s0 : State} (s : State) (k : Packet) (hk : Keeps s0 s) :
    Keeps s0 (State.serveFetch s k) := by
  rw [State.serveFetch.eq_def]
  repeat' (first
    | (with_reducible assumption)
    | (with_reducible apply keeps_State_onX)
    | (with_reducible apply keeps_State_resendX)
    | (extract_lets -underBinder)
    | (with_reducible refine Keeps.ite ?_ ?_)
    | split)

theorem keeps_execReadReq {s0 : State} (die : Nat) (pk : Packet) (s : State) (hk : Keeps s0 s) :
    RKeeps s0 (execReadReq die pk s) := by
  rw [execReadReq.eq_def]
  repeat' (first
    | (with_reducible assumption)
    | (with_reducible apply keeps_State_receive)
    | (with_reducible apply keeps_State_enterPsn)
    | (with_reducible apply keeps_State_serveFetch)
    | (with_reducible apply keeps_State_answer)
    | (with_reducible apply keeps_State_lakeUncorrectable)
    | (with_reducible apply RKeeps.next)
    | (extract_lets -underBinder)
    | (with_reducible refine Keeps.ite ?_ ?_)
    | split
    | (refine TKeeps.use ?_ (by assumption)))

theorem keeps_State_dropRemote {s0 : State} (s : State) (r : Remote) (hk : Keeps s0 s) :
    Keeps s0 (State.dropRemote s r) := by
  rw [State.dropRemote.eq_def]
  repeat' (first
    | (with_reducible assumption)
    | (with_reducible exact id)
    | (with_reducible exact Nat.le_refl _)
    | (with_reducible exact BitVec.le_refl _)
    | (with_reducible refine Keeps.boxed ?_ ?_ ?_ ?_)
    | (extract_lets -underBinder)
    | (with_reducible rw [State.mk_boxed]))

theorem keeps_State_setRemote {s0 : State} (s : State) (r : Remote) (r' : Remote) (hk : Keeps s0 s) :
    Keeps s0 (State.setRemote s r r') := by
  rw [State.setRemote.eq_def]
  repeat' (first
    | (with_reducible assumption)
    | (with_reducible exact id)
    | (with_reducible exact Nat.le_refl _)
    | (with_reducible exact BitVec.le_refl _)
    | (with_reducible refine Keeps.boxed ?_ ?_ ?_ ?_)
    | (extract_lets -underBinder)
    | (with_reducible rw [State.mk_boxed]))

theorem keeps_State_sendAgain {s0 : State} (s : State) (r : Remote) (r' : Remote) (hk : Keeps s0 s) :
    Keeps s0 (State.sendAgain s r r') := by
  rw [State.sendAgain.eq_def]
  repeat' (first
    | (with_reducible assumption)
    | (with_reducible apply keeps_State_setRemote)
    | (with_reducible apply keeps_State_send))

theorem keeps_State_onLoads {s0 : State} (s : State) (p : Nat) (f : List ShardLoad → List ShardLoad) (hk : Keeps s0 s) :
    Keeps s0 (State.onLoads s p f) := by
  rw [State.onLoads.eq_def]
  repeat' (first
    | (with_reducible assumption)
    | (with_reducible apply keeps_State_onPartn))

theorem keeps_State_dropLoad {s0 : State} (s : State) (p : Nat) (w : Nat) (q : Nat) (hk : Keeps s0 s) :
    Keeps s0 (State.dropLoad s p w q) := by
  rw [State.dropLoad.eq_def]
  repeat' (first
    | (with_reducible assumption)
    | (with_reducible exact id)
    | (with_reducible exact Nat.le_refl _)
    | (with_reducible exact BitVec.le_refl _)
    | (with_reducible apply keeps_State_onLoads)
    | (with_reducible refine Keeps.boxed ?_ ?_ ?_ ?_)
    | (extract_lets -underBinder)
    | (with_reducible rw [State.mk_boxed]))

theorem keeps_State_failLoad {s0 : State} (s : State) (p : Nat) (w : Nat) (q : Nat) (hk : Keeps s0 s) :
    Keeps s0 (State.failLoad s p w q) := by
  rw [State.failLoad.eq_def]
  repeat' (first
    | (with_reducible assumption)
    | (with_reducible apply keeps_State_dropLoad)
    | (with_reducible apply keeps_State_complete)
    | split)

theorem keeps_State_loadArrived {s0 : State} (s : State) (r : Remote) (w : Nat) (q : Nat) (framed : Bool) (body : List Byte) (hk : Keeps s0 s) :
    Keeps s0 (State.loadArrived s r w q framed body) := by
  rw [State.loadArrived.eq_def]
  repeat' (first
    | (with_reducible assumption)
    | (with_reducible apply keeps_State_badArrival)
    | (with_reducible apply keeps_State_failLoad)
    | (with_reducible apply keeps_State_bumpP)
    | (with_reducible apply keeps_State_sendAgain)
    | (with_reducible apply keeps_State_dropRemote)
    | (with_reducible apply keeps_State_onLoads)
    | (extract_lets -underBinder)
    | (with_reducible refine Keeps.ite ?_ ?_))

theorem keeps_State_tileArrived {s0 : State} (s : State) (r : Remote) (d : Desc) (f : List Byte) (hk : Keeps s0 s) :
    Keeps s0 (State.tileArrived s r d f) := by
  rw [State.tileArrived.eq_def]
  repeat' (first
    | (with_reducible assumption)
    | (with_reducible apply keeps_State_placeTile)
    | (with_reducible apply keeps_State_memberFetched)
    | split)

theorem keeps_State_tileBad {s0 : State} (s : State) (r : Remote) (d : Desc) (hk : Keeps s0 s) :
    Keeps s0 (State.tileBad s r d) := by
  rw [State.tileBad.eq_def]
  repeat' (first
    | (with_reducible assumption)
    | (with_reducible apply keeps_State_badArrival)
    | (with_reducible apply keeps_State_dropRemote)
    | (with_reducible apply keeps_State_stopDesc)
    | (with_reducible apply keeps_State_bumpP)
    | (with_reducible apply keeps_State_sendAgain)
    | (extract_lets -underBinder)
    | (with_reducible refine Keeps.ite ?_ ?_))

theorem keeps_execReadData {s0 : State} (die : Nat) (pk : Packet) (s : State) (hk : Keeps s0 s) :
    RKeeps s0 (execReadData die pk s) := by
  rw [execReadData.eq_def]
  repeat' (first
    | (with_reducible assumption)
    | (with_reducible apply keeps_State_receive)
    | (with_reducible apply keeps_State_enterPsn)
    | (with_reducible apply keeps_State_loadArrived)
    | (with_reducible apply keeps_State_dropRemote)
    | (with_reducible apply keeps_State_tileArrived)
    | (with_reducible apply keeps_State_tileBad)
    | (with_reducible apply RKeeps.next)
    | (extract_lets -underBinder)
    | split
    | (refine TKeeps.use ?_ (by assumption)))

theorem keeps_State_writeDelivered {s0 : State} (s : State) (r : Remote) (hk : Keeps s0 s) :
    Keeps s0 (State.writeDelivered s r) := by
  rw [State.writeDelivered.eq_def]
  repeat' (first
    | (with_reducible assumption)
    | (with_reducible apply keeps_State_dropRemote)
    | (with_reducible apply keeps_State_changeDesc)
    | (extract_lets -underBinder)
    | split)

theorem keeps_State_ackX {s0 : State} (s : State) (k : Packet) (lane : Bool) (hk : Keeps s0 s) :
    Keeps s0 (State.ackX s k lane) := by
  rw [State.ackX.eq_def]
  repeat' (first
    | (with_reducible assumption)
    | (with_reducible apply keeps_State_onPartn)
    | (with_reducible apply keeps_State_notePeers))

theorem keeps_execFabricAck {s0 : State} (die : Nat) (pk : Packet) (s : State) (hk : Keeps s0 s) :
    RKeeps s0 (execFabricAck die pk s) := by
  rw [execFabricAck.eq_def]
  repeat' (first
    | (with_reducible assumption)
    | (with_reducible apply keeps_State_receive)
    | (with_reducible apply keeps_State_enterPsn)
    | (with_reducible apply keeps_State_writeDelivered)
    | (with_reducible apply keeps_State_ackX)
    | (with_reducible apply RKeeps.next)
    | (extract_lets -underBinder)
    | split
    | (refine TKeeps.use ?_ (by assumption)))

theorem keeps_State_badFrame {s0 : State} (s : State) (p : Nat) (x : Nat) (r : XRun) (peer : Nat) (index : Nat) (hk : Keeps s0 s) :
    Keeps s0 (State.badFrame s p x r peer index) := by
  rw [State.badFrame.eq_def]
  repeat' (first
    | (with_reducible assumption)
    | (with_reducible apply keeps_State_badArrival)
    | (with_reducible apply keeps_State_endPeer)
    | (with_reducible apply keeps_State_onX)
    | (with_reducible apply keeps_State_fetchX)
    | (extract_lets -underBinder)
    | (with_reducible refine Keeps.ite ?_ ?_))

theorem keeps_State_disagree {s0 : State} (s : State) (p : Nat) (x : Nat) (peer : Nat) (hk : Keeps s0 s) :
    Keeps s0 (State.disagree s p x peer) := by
  rw [State.disagree.eq_def]
  repeat' (first
    | (with_reducible assumption)
    | (with_reducible apply keeps_State_endPeer))

theorem keeps_State_takeXframe {s0 : State} (s : State) (p : Nat) (x : Nat) (r : XRun) (pk : Packet) (hk : Keeps s0 s) :
    Keeps s0 (State.takeXframe s p x r pk) := by
  rw [State.takeXframe.eq_def]
  repeat' (first
    | (with_reducible assumption)
    | (with_reducible apply keeps_State_disagree)
    | (with_reducible apply keeps_State_badFrame)
    | (with_reducible apply keeps_State_onX)
    | (with_reducible apply keeps_State_enterPsn)
    | (with_reducible apply keeps_State_answer)
    | (extract_lets -underBinder)
    | (with_reducible refine Keeps.ite ?_ ?_)
    | split)

theorem keeps_execXframe {s0 : State} (die : Nat) (pk : Packet) (s : State) (hk : Keeps s0 s) :
    RKeeps s0 (execXframe die pk s) := by
  rw [execXframe.eq_def]
  repeat' (first
    | (with_reducible assumption)
    | (with_reducible apply keeps_State_receive)
    | (with_reducible apply keeps_State_takeXframe)
    | (with_reducible apply keeps_State_notePeers)
    | (with_reducible apply RKeeps.next)
    | (extract_lets -underBinder)
    | split
    | (refine TKeeps.use ?_ (by assumption)))

theorem keeps_State_takeMcast {s0 : State} (s : State) (p : Nat) (x : Nat) (r : XRun) (pk : Packet) (hk : Keeps s0 s) :
    Keeps s0 (State.takeMcast s p x r pk) := by
  rw [State.takeMcast.eq_def]
  repeat' (first
    | (with_reducible assumption)
    | (with_reducible apply keeps_State_answer)
    | (with_reducible apply keeps_State_disagree)
    | (with_reducible apply keeps_State_badFrame)
    | (with_reducible apply keeps_State_enterPsn)
    | (with_reducible apply keeps_State_putTile)
    | (extract_lets -underBinder)
    | (with_reducible refine Keeps.ite ?_ ?_))

theorem keeps_execMcast {s0 : State} (die : Nat) (pk : Packet) (s : State) (hk : Keeps s0 s) :
    RKeeps s0 (execMcast die pk s) := by
  rw [execMcast.eq_def]
  repeat' (first
    | (with_reducible assumption)
    | (with_reducible apply keeps_State_receive)
    | (with_reducible apply keeps_State_takeMcast)
    | (with_reducible apply keeps_State_notePeers)
    | (with_reducible apply RKeeps.next)
    | (extract_lets -underBinder)
    | split
    | (refine TKeeps.use ?_ (by assumption)))

theorem keeps_State_cancelled {s0 : State} (s : State) (p : Nat) (xid : Nat) (peer : Nat) (hk : Keeps s0 s) :
    Keeps s0 (State.cancelled s p xid peer) := by
  rw [State.cancelled.eq_def]
  repeat' (first
    | (with_reducible assumption)
    | (with_reducible apply keeps_State_endPeer)
    | (with_reducible refine Keeps.ite ?_ ?_)
    | split)

theorem keeps_execFabricCancel {s0 : State} (die : Nat) (pk : Packet) (s : State) (hk : Keeps s0 s) :
    RKeeps s0 (execFabricCancel die pk s) := by
  rw [execFabricCancel.eq_def]
  repeat' (first
    | (with_reducible assumption)
    | (with_reducible apply keeps_State_receive)
    | (with_reducible apply keeps_State_enterPsn)
    | (with_reducible apply keeps_State_cancelled)
    | (with_reducible apply keeps_State_notePeers)
    | (with_reducible apply RKeeps.next)
    | (extract_lets -underBinder)
    | split
    | (refine TKeeps.use ?_ (by assumption)))

theorem keeps_State_dropHeld {s0 : State} (s : State) (xid : Nat) (m : Nat) (hk : Keeps s0 s) :
    Keeps s0 (State.dropHeld s xid m) := by
  rw [State.dropHeld.eq_def]
  repeat' (first
    | (with_reducible assumption)
    | (with_reducible exact id)
    | (with_reducible exact Nat.le_refl _)
    | (with_reducible exact BitVec.le_refl _)
    | (with_reducible refine Keeps.boxed ?_ ?_ ?_ ?_)
    | (extract_lets -underBinder)
    | (with_reducible rw [State.mk_boxed]))

theorem keeps_State_cutMember {s0 : State} (s : State) (xid : Nat) (member : Nat) (hk : Keeps s0 s) :
    Keeps s0 (State.cutMember s xid member) := by
  rw [State.cutMember.eq_def]
  repeat' (first
    | (with_reducible assumption)
    | (with_reducible exact id)
    | (with_reducible exact Nat.le_refl _)
    | (with_reducible exact BitVec.le_refl _)
    | (with_reducible apply keeps_State_dropHeld)
    | (with_reducible refine Keeps.boxed ?_ ?_ ?_ ?_)
    | (extract_lets -underBinder)
    | (with_reducible rw [State.mk_boxed])
    | split)

theorem keeps_execMulticastDetach {s0 : State} (p : Nat) (x : Nat) (member : Nat) (s : State) (hk : Keeps s0 s) :
    RKeeps s0 (execMulticastDetach p x member s) := by
  rw [execMulticastDetach.eq_def]
  repeat' (first
    | (with_reducible assumption)
    | (with_reducible apply keeps_State_cutMember)
    | (with_reducible apply keeps_State_raiseM)
    | (with_reducible apply keeps_State_dropHeld)
    | (with_reducible apply keeps_State_onX)
    | (with_reducible apply keeps_State_bumpP)
    | (with_reducible apply keeps_State_raiseP)
    | (with_reducible apply keeps_State_fetchX)
    | (with_reducible refine Keeps.foldl ?_ ?_)
    | (with_reducible apply RKeeps.next)
    | (intro _)
    | (extract_lets -underBinder)
    | split)

theorem keeps_State_remoteEnds {s0 : State} (s : State) (r : Remote) (act : Desc → State → State)  (hact : ∀ (y0 : Desc) (y1 : State), Keeps s0 y1 → Keeps s0 (act y0 y1)) (hk : Keeps s0 s) :
    Keeps s0 (State.remoteEnds s r act) := by
  rw [State.remoteEnds.eq_def]
  repeat' (first
    | (with_reducible assumption)
    | (with_reducible apply hact)
    | (with_reducible apply keeps_State_dropRemote)
    | (with_reducible apply keeps_State_failLoad)
    | (with_reducible apply keeps_State_changeDesc)
    | (extract_lets -underBinder)
    | split)

theorem keeps_execNakFault {s0 : State} (die : Nat) (pk : Packet) (s : State) (hk : Keeps s0 s) :
    RKeeps s0 (execNakFault die pk s) := by
  rw [execNakFault.eq_def]
  repeat' (first
    | (with_reducible assumption)
    | (with_reducible apply keeps_State_receive)
    | (with_reducible apply keeps_State_enterPsn)
    | (with_reducible apply keeps_State_remoteEnds)
    | (with_reducible apply keeps_State_faultDesc)
    | (with_reducible apply RKeeps.next)
    | (intro _)
    | (extract_lets -underBinder)
    | split
    | (refine TKeeps.use ?_ (by assumption)))

theorem keeps_State_recall {s0 : State} (s : State) (r : Remote) (hk : Keeps s0 s) :
    Keeps s0 (State.recall s r) := by
  rw [State.recall.eq_def]
  repeat' (first
    | (with_reducible assumption)
    | (with_reducible exact id)
    | (with_reducible exact Nat.le_refl _)
    | (with_reducible exact BitVec.le_refl _)
    | (with_reducible refine Keeps.boxed ?_ ?_ ?_ ?_)
    | (extract_lets -underBinder)
    | (with_reducible rw [State.mk_boxed]))

theorem keeps_execPacketTimeout {s0 : State} (p : Nat) (l : LanePsn) (s : State) (hk : Keeps s0 s) :
    RKeeps s0 (execPacketTimeout p l s) := by
  rw [execPacketTimeout.eq_def]
  repeat' (first
    | (with_reducible assumption)
    | (with_reducible apply keeps_State_bump)
    | (with_reducible apply keeps_State_sendAgain)
    | (with_reducible apply keeps_State_recall)
    | (with_reducible apply keeps_State_raise)
    | (with_reducible apply keeps_State_remoteEnds)
    | (with_reducible apply keeps_State_stopDesc)
    | (with_reducible apply RKeeps.next)
    | (intro _)
    | (extract_lets -underBinder)
    | split)

theorem keeps_execLaneSignalLoss {s0 : State} (port : Nat) (lane : Nat) (s : State) (hk : Keeps s0 s) :
    RKeeps s0 (execLaneSignalLoss port lane s) := by
  rw [execLaneSignalLoss.eq_def]
  repeat' (first
    | (with_reducible assumption)
    | (with_reducible apply keeps_State_portDown)
    | (with_reducible apply RKeeps.next)
    | (extract_lets -underBinder)
    | (with_reducible refine Keeps.ite ?_ ?_))

theorem keeps_execLinkTrainingComplete {s0 : State} (port : Nat) (r : TrainResult) (s : State) (hk : Keeps s0 s) :
    RKeeps s0 (execLinkTrainingComplete port r s) := by
  rw [execLinkTrainingComplete.eq_def]
  repeat' (first
    | (with_reducible assumption)
    | (with_reducible exact id)
    | (with_reducible exact Nat.le_refl _)
    | (with_reducible exact BitVec.le_refl _)
    | (with_reducible apply keeps_State_setPort)
    | (with_reducible apply keeps_State_raiseM)
    | (with_reducible apply keeps_State_bump)
    | (with_reducible apply keeps_State_noteRoutes)
    | (with_reducible apply keeps_State_drive)
    | (with_reducible refine Keeps.boxed ?_ ?_ ?_ ?_)
    | (with_reducible apply RKeeps.next)
    | (extract_lets -underBinder)
    | (with_reducible refine Keeps.ite ?_ ?_)
    | (with_reducible rw [State.mk_boxed])
    | split)

theorem keeps_execCablePresenceChange {s0 : State} (port : Nat) (present : Bool) (s : State) (hk : Keeps s0 s) :
    RKeeps s0 (execCablePresenceChange port present s) := by
  rw [execCablePresenceChange.eq_def]
  repeat' (first
    | (with_reducible assumption)
    | (with_reducible apply keeps_State_setPort)
    | (with_reducible apply RKeeps.next)
    | (extract_lets -underBinder)
    | split)

theorem keeps_execCablePowerShort {s0 : State} (port : Nat) (s : State) (hk : Keeps s0 s) :
    RKeeps s0 (execCablePowerShort port s) := by
  rw [execCablePowerShort.eq_def]
  repeat' (first
    | (with_reducible assumption)
    | (with_reducible apply keeps_State_portDown)
    | (with_reducible apply keeps_State_setPort)
    | (with_reducible apply RKeeps.next)
    | (extract_lets -underBinder)
    | split)

theorem keeps_State_setValue {s0 : State} (s : State) (key : Nat) (v : List Byte) (hk : Keeps s0 s) :
    Keeps s0 (State.setValue s key v) := by
  rw [State.setValue.eq_def]
  repeat' (first
    | (with_reducible assumption)
    | (with_reducible exact id)
    | (with_reducible exact Nat.le_refl _)
    | (with_reducible exact BitVec.le_refl _)
    | (with_reducible refine Keeps.boxed ?_ ?_ ?_ ?_)
    | (extract_lets -underBinder)
    | (with_reducible rw [State.mk_boxed]))

theorem keeps_State_endLinkTest {s0 : State} (s : State) (q : Nat) (bits : Nat) (errors : Nat) (hk : Keeps s0 s) :
    Keeps s0 (State.endLinkTest s q bits errors) := by
  rw [State.endLinkTest.eq_def]
  repeat' (first
    | (with_reducible assumption)
    | (with_reducible apply keeps_State_setPort)
    | (with_reducible apply keeps_State_raiseM))

theorem keeps_State_cutLinkTest {s0 : State} (s : State) (q : Nat) (hk : Keeps s0 s) :
    Keeps s0 (State.cutLinkTest s q) := by
  rw [State.cutLinkTest.eq_def]
  repeat' (first
    | (with_reducible assumption)
    | (with_reducible apply keeps_State_fresh)
    | (with_reducible apply keeps_State_endLinkTest)
    | split)

theorem keeps_State_enablePort {s0 : State} (s : State) (q : Nat) (hk : Keeps s0 s) :
    Keeps s0 (State.enablePort s q) := by
  rw [State.enablePort.eq_def]
  repeat' (first
    | (with_reducible assumption)
    | (with_reducible apply keeps_State_setValue)
    | (with_reducible apply keeps_State_cutLinkTest)
    | (with_reducible apply keeps_State_setPort)
    | (extract_lets -underBinder)
    | (with_reducible refine Keeps.ite ?_ ?_))

theorem keeps_State_disablePort {s0 : State} (s : State) (q : Nat) (hk : Keeps s0 s) :
    Keeps s0 (State.disablePort s q) := by
  rw [State.disablePort.eq_def]
  repeat' (first
    | (with_reducible assumption)
    | (with_reducible apply keeps_State_setValue)
    | (with_reducible apply keeps_State_portDown)
    | (with_reducible apply keeps_State_setPort)
    | (extract_lets -underBinder)
    | (with_reducible refine Keeps.ite ?_ ?_))

theorem keeps_execPortEnable {s0 : State} (port : Nat) (s : State) (hk : Keeps s0 s) :
    RKeeps s0 (execPortEnable port s) := by
  rw [execPortEnable.eq_def]
  repeat' (first
    | (with_reducible assumption)
    | (with_reducible apply keeps_State_enablePort)
    | (with_reducible apply RKeeps.next)
    | (extract_lets -underBinder)
    | (with_reducible refine Keeps.ite ?_ ?_))

theorem keeps_execPortDisable {s0 : State} (port : Nat) (s : State) (hk : Keeps s0 s) :
    RKeeps s0 (execPortDisable port s) := by
  rw [execPortDisable.eq_def]
  repeat' (first
    | (with_reducible assumption)
    | (with_reducible apply keeps_State_disablePort)
    | (with_reducible apply RKeeps.next)
    | (extract_lets -underBinder)
    | (with_reducible refine Keeps.ite ?_ ?_))

theorem keeps_State_startLinkTest {s0 : State} (s : State) (q : Nat) (hk : Keeps s0 s) :
    Keeps s0 (State.startLinkTest s q) := by
  rw [State.startLinkTest.eq_def]
  repeat' (first
    | (with_reducible assumption)
    | (with_reducible apply keeps_State_setPort)
    | (extract_lets -underBinder)
    | (with_reducible refine Keeps.ite ?_ ?_))

theorem keeps_execLinkTestStart {s0 : State} (port : Nat) (s : State) (hk : Keeps s0 s) :
    RKeeps s0 (execLinkTestStart port s) := by
  rw [execLinkTestStart.eq_def]
  repeat' (first
    | (with_reducible assumption)
    | (with_reducible apply keeps_State_startLinkTest)
    | (with_reducible apply RKeeps.next)
    | (extract_lets -underBinder)
    | (with_reducible refine Keeps.ite ?_ ?_))

theorem keeps_execLinkTestEnd {s0 : State} (port : Nat) (bits : Nat) (errors : Nat) (s : State) (hk : Keeps s0 s) :
    RKeeps s0 (execLinkTestEnd port bits errors s) := by
  rw [execLinkTestEnd.eq_def]
  repeat' (first
    | (with_reducible assumption)
    | (with_reducible apply keeps_State_endLinkTest)
    | (with_reducible apply RKeeps.next)
    | (extract_lets -underBinder)
    | split)

/-! ## Machine/Segments.lean -/


theorem keeps_State_dropDescs {s0 : State} (s : State) (g : Segment) (hk : Keeps s0 s) :
    Keeps s0 (State.dropDescs s g) := by
  rw [State.dropDescs.eq_def]
  repeat' (first
    | (with_reducible assumption)
    | (with_reducible apply keeps_State_descGone)
    | (with_reducible refine Keeps.foldl ?_ ?_)
    | (intro _))

theorem keeps_State_releaseCores {s0 : State} (s : State) (g : Segment) (hk : Keeps s0 s) :
    Keeps s0 (State.releaseCores s g) := by
  rw [State.releaseCores.eq_def]
  repeat' (first
    | (with_reducible assumption)
    | (with_reducible apply keeps_State_onCore)
    | (with_reducible apply keeps_State_endMwaits)
    | (with_reducible apply keeps_State_bumpP)
    | (with_reducible apply keeps_State_onPartn)
    | (with_reducible refine Keeps.foldl ?_ ?_)
    | (intro _)
    | (extract_lets -underBinder)
    | (with_reducible refine Keeps.ite ?_ ?_))

theorem keeps_State_startPeriod {s0 : State} (s : State) (p : Nat) (hk : Keeps s0 s) :
    PKeeps s0 (State.startPeriod s p) := by
  rw [State.startPeriod.eq_def]
  repeat' (first
    | (with_reducible assumption)
    | (with_reducible apply keeps_State_startSlots)
    | (with_reducible apply keeps_State_onPartn)
    | (extract_lets -underBinder)
    | split
    | (with_reducible apply PKeeps.mk)
    | (refine PKeeps.use ?_ (by assumption)))

theorem keeps_State_runPeriodEnd {s0 : State} (s : State) (p : Nat) (hk : Keeps s0 s) :
    Keeps s0 (State.runPeriodEnd s p) := by
  rw [State.runPeriodEnd.eq_def]
  repeat' (first
    | (with_reducible assumption)
    | (with_reducible apply keeps_State_endPeriod)
    | (with_reducible apply keeps_State_startPeriod)
    | (with_reducible apply PKeeps.fst)
    | (extract_lets -underBinder)
    | (with_reducible refine Keeps.ite ?_ ?_))

theorem keeps_State_setQueueMarks {s0 : State} (s : State) (p : Nat) (q : StageQueueDecl) (hk : Keeps s0 s) :
    Keeps s0 (State.setQueueMarks s p q) := by
  rw [State.setQueueMarks.eq_def]
  repeat' (first
    | (with_reducible assumption)
    | (with_reducible apply keeps_State_applyMark)
    | (extract_lets -underBinder)
    | (with_reducible refine Keeps.ite ?_ ?_))

theorem keeps_State_noteRefused {s0 : State} (s : State) (p : Nat) (k : Cmd) (img : Image) (o : Outcome) (hk : Keeps s0 s) :
    Keeps s0 (State.noteRefused s p k img o) := by
  rw [State.noteRefused.eq_def]
  repeat' (first
    | (with_reducible assumption)
    | (with_reducible apply keeps_State_noteRead)
    | (with_reducible apply keeps_State_entryLost)
    | (extract_lets -underBinder)
    | (with_reducible refine Keeps.ite ?_ ?_))

theorem keeps_State_install {s0 : State} (s : State) (p : Nat) (img : Image) (hk : Keeps s0 s) :
    PKeeps s0 (State.install s p img) := by
  rw [State.install.eq_def]
  repeat' (first
    | (with_reducible assumption)
    | (with_reducible apply keeps_State_onPartn)
    | (with_reducible apply keeps_State_setQueueMarks)
    | (with_reducible apply keeps_State_startSlots)
    | (with_reducible refine Keeps.foldl ?_ ?_)
    | (intro _)
    | (extract_lets -underBinder)
    | split
    | (with_reducible apply PKeeps.mk)
    | (refine PKeeps.use ?_ (by assumption)))

theorem keeps_State_startRun {s0 : State} (s : State) (p : Nat) (w : Nat) (q : Nat) (img : Image) (serve : Bool) (hk : Keeps s0 s) :
    Keeps s0 (State.startRun s p w q img serve) := by
  rw [State.startRun.eq_def]
  repeat' (first
    | (with_reducible assumption)
    | (with_reducible apply keeps_State_startCmd)
    | (with_reducible apply keeps_State_complete)
    | (with_reducible apply keeps_State_noteRefused)
    | (with_reducible apply keeps_State_install)
    | (with_reducible apply keeps_State_onCmd)
    | (intro _)
    | (extract_lets -underBinder)
    | (with_reducible refine Keeps.ite ?_ ?_)
    | split
    | (refine PKeeps.use ?_ (by assumption)))

theorem keeps_execRun {s0 : State} (p : Nat) (s' : Nat) (q : Nat) (img : Image) (s : State) (hk : Keeps s0 s) :
    RKeeps s0 (execRun p s' q img s) := by
  rw [execRun.eq_def]
  repeat' (first
    | (with_reducible assumption)
    | (with_reducible apply keeps_State_startRun)
    | (with_reducible apply RKeeps.next))

theorem keeps_State_launch {s0 : State} (s : State) (p : Nat) (w : Nat) (q : Nat) (num : Nat) (vno : Nat) (batch : Nat) (v : Variant) (keys : U64 × U64) (hk : Keeps s0 s) :
    Keeps s0 (State.launch s p w q num vno batch v keys) := by
  rw [State.launch.eq_def]
  repeat' (first
    | (with_reducible assumption)
    | (with_reducible apply keeps_State_onPartn)
    | (with_reducible apply keeps_State_onCore)
    | (with_reducible refine Keeps.foldl ?_ ?_)
    | (intro _))

theorem keeps_State_launchRecords {s0 : State} (s : State) (p : Nat) (w : Nat) (q : Nat) (g : SegDecl) (keys : U64 × U64) (hk : Keeps s0 s) :
    Keeps s0 (State.launchRecords s p w q g keys) := by
  rw [State.launchRecords.eq_def]
  repeat' (first
    | (with_reducible assumption)
    | (with_reducible apply keeps_State_onPartn))

theorem keeps_execRunLaunch {s0 : State} (p : Nat) (w : Nat) (q : Nat) (s : State) (hk : Keeps s0 s) :
    RKeeps s0 (execRunLaunch p w q s) := by
  rw [execRunLaunch.eq_def]
  repeat' (first
    | (with_reducible assumption)
    | (with_reducible apply keeps_State_complete)
    | (with_reducible apply keeps_State_startPeriod)
    | (with_reducible apply keeps_State_launchRecords)
    | (with_reducible apply keeps_State_onCmd)
    | (with_reducible apply keeps_State_launch)
    | (with_reducible apply RKeeps.next)
    | (extract_lets -underBinder)
    | split
    | (refine PKeeps.use ?_ (by assumption)))

theorem keeps_execSegmentEnd {s0 : State} (p : Nat) (w : Nat) (q : Nat) (s : State) (hk : Keeps s0 s) :
    RKeeps s0 (execSegmentEnd p w q s) := by
  rw [execSegmentEnd.eq_def]
  repeat' (first
    | (with_reducible assumption)
    | (with_reducible apply keeps_State_releaseCores)
    | (with_reducible apply keeps_State_onPartn)
    | (with_reducible apply keeps_State_complete)
    | (with_reducible apply keeps_State_runPeriodEnd)
    | (with_reducible apply RKeeps.next)
    | (extract_lets -underBinder)
    | (with_reducible refine Keeps.ite ?_ ?_)
    | split)

theorem keeps_State_teardown {s0 : State} (s : State) (g : Segment) (hk : Keeps s0 s) :
    Keeps s0 (State.teardown s g) := by
  rw [State.teardown.eq_def]
  repeat' (first
    | (with_reducible assumption)
    | (with_reducible apply keeps_State_dropDescs)
    | (with_reducible apply keeps_State_releaseCores)
    | (with_reducible apply keeps_State_cancelWhere))

theorem keeps_execSegmentFaultStopped {s0 : State} (p : Nat) (w : Nat) (q : Nat) (s : State) (hk : Keeps s0 s) :
    RKeeps s0 (execSegmentFaultStopped p w q s) := by
  rw [execSegmentFaultStopped.eq_def]
  repeat' (first
    | (with_reducible assumption)
    | (with_reducible apply keeps_State_teardown)
    | (with_reducible apply keeps_State_stepFault)
    | (with_reducible apply keeps_State_endServe)
    | (with_reducible apply keeps_State_complete)
    | (with_reducible apply keeps_State_raiseP)
    | (with_reducible apply keeps_State_runPeriodEnd)
    | (with_reducible apply RKeeps.next)
    | (extract_lets -underBinder)
    | (with_reducible refine Keeps.ite ?_ ?_)
    | split)

theorem keeps_State_restartCores {s0 : State} (s : State) (g : Segment) (entries : List (Nat × Nat × Nat)) (hk : Keeps s0 s) :
    Keeps s0 (State.restartCores s g entries) := by
  rw [State.restartCores.eq_def]
  repeat' (first
    | (with_reducible assumption)
    | (with_reducible apply keeps_State_onCore)
    | (with_reducible apply keeps_State_endMwaits)
    | (with_reducible refine Keeps.foldl ?_ ?_)
    | (intro _))

theorem keeps_State_tellRepeat {s0 : State} (s : State) (p : Nat) (how : Nat) (layer : Nat) (a : Attempt) (hk : Keeps s0 s) :
    Keeps s0 (State.tellRepeat s p how layer a) := by
  rw [State.tellRepeat.eq_def]
  repeat' (first
    | (with_reducible assumption)
    | (with_reducible apply keeps_State_bumpP)
    | (with_reducible apply keeps_State_raiseP)
    | (extract_lets -underBinder)
    | (with_reducible refine Keeps.ite ?_ ?_))

theorem keeps_State_restoreLayer {s0 : State} (s : State) (p : Nat) (w : Nat) (q : Nat) (g : Segment) (l : LayerRec) (hk : Keeps s0 s) :
    Keeps s0 (State.restoreLayer s p w q g l) := by
  rw [State.restoreLayer.eq_def]
  repeat' (first
    | (with_reducible assumption)
    | (with_reducible apply keeps_State_dropDescs)
    | (with_reducible apply keeps_State_applyMark)
    | (with_reducible apply keeps_State_onCore)
    | (with_reducible apply keeps_State_onSegment)
    | (with_reducible refine Keeps.foldl ?_ ?_)
    | (intro _)
    | (extract_lets -underBinder)
    | split)

theorem keeps_State_repeatLayer {s0 : State} (s : State) (p : Nat) (w : Nat) (q : Nat) (g : Segment) (i : Nat) (l : LayerRec) (hk : Keeps s0 s) :
    Keeps s0 (State.repeatLayer s p w q g i l) := by
  rw [State.repeatLayer.eq_def]
  repeat' (first
    | (with_reducible assumption)
    | (with_reducible apply keeps_State_onPartn)
    | (with_reducible apply keeps_State_writeEntries)
    | (with_reducible apply keeps_State_onSegment)
    | (with_reducible apply keeps_State_tellRepeat)
    | (with_reducible apply keeps_State_bumpP)
    | (with_reducible apply keeps_State_restartCores)
    | (extract_lets -underBinder)
    | split
    | (refine PKeeps.use ?_ (by assumption)))

theorem keeps_execLayerRestart {s0 : State} (p : Nat) (w : Nat) (q : Nat) (s : State) (hk : Keeps s0 s) :
    RKeeps s0 (execLayerRestart p w q s) := by
  rw [execLayerRestart.eq_def]
  repeat' (first
    | (with_reducible assumption)
    | (with_reducible apply keeps_State_restoreLayer)
    | (with_reducible apply keeps_State_repeatLayer)
    | (with_reducible apply RKeeps.next)
    | (extract_lets -underBinder)
    | (with_reducible refine Keeps.ite ?_ ?_)
    | split)

theorem keeps_execWatchPeriodEnd {s0 : State} (p : Nat) (s : State) (hk : Keeps s0 s) :
    RKeeps s0 (execWatchPeriodEnd p s) := by
  rw [execWatchPeriodEnd.eq_def]
  repeat' (first
    | (with_reducible assumption)
    | (with_reducible apply keeps_State_endPeriod)
    | (with_reducible apply keeps_State_startPeriod)
    | (with_reducible apply RKeeps.next)
    | (with_reducible apply PKeeps.fst)
    | (extract_lets -underBinder)
    | split)

/-! ## Machine/Serving.lean -/


theorem keeps_execRunServe {s0 : State} (p : Nat) (w : Nat) (q : Nat) (img : Image) (s : State) (hk : Keeps s0 s) :
    RKeeps s0 (execRunServe p w q img s) := by
  rw [execRunServe.eq_def]
  repeat' (first
    | (with_reducible assumption)
    | (with_reducible apply keeps_State_startRun)
    | (with_reducible apply keeps_State_onCmd)
    | (with_reducible apply keeps_State_onPartn)
    | (with_reducible apply RKeeps.next)
    | (extract_lets -underBinder)
    | split)

theorem keeps_execRequestOpen {s0 : State} (p : Nat) (w : Nat) (q : Nat) (s : State) (hk : Keeps s0 s) :
    RKeeps s0 (execRequestOpen p w q s) := by
  rw [execRequestOpen.eq_def]
  repeat' (first
    | (with_reducible assumption)
    | (with_reducible apply keeps_State_startIf)
    | (with_reducible apply keeps_State_complete)
    | (with_reducible apply keeps_State_onPartn)
    | (with_reducible apply RKeeps.next)
    | (intro _)
    | (extract_lets -underBinder)
    | split)

theorem keeps_execRequestFeed {s0 : State} (p : Nat) (w : Nat) (q : Nat) (s : State) (hk : Keeps s0 s) :
    RKeeps s0 (execRequestFeed p w q s) := by
  rw [execRequestFeed.eq_def]
  repeat' (first
    | (with_reducible assumption)
    | (with_reducible apply keeps_State_startIf)
    | (with_reducible apply keeps_State_complete)
    | (with_reducible apply keeps_State_noteFault)
    | (with_reducible apply keeps_State_onPartn)
    | (with_reducible apply RKeeps.next)
    | (intro _)
    | (extract_lets -underBinder)
    | split)

theorem keeps_execRequestClose {s0 : State} (p : Nat) (w : Nat) (q : Nat) (s : State) (hk : Keeps s0 s) :
    RKeeps s0 (execRequestClose p w q s) := by
  rw [execRequestClose.eq_def]
  repeat' (first
    | (with_reducible assumption)
    | (with_reducible apply keeps_State_startIf)
    | (with_reducible apply keeps_State_onPartn)
    | (with_reducible apply keeps_State_complete)
    | (with_reducible apply RKeeps.next)
    | (intro _))

theorem keeps_State_writeBatch {s0 : State} (s : State) (p : Nat) (d : ServeDecl) (c : Choice) (hk : Keeps s0 s) :
    EKeeps s0 (State.writeBatch s p d c) := by
  rw [State.writeBatch.eq_def]
  repeat' (first
    | (with_reducible assumption)
    | (with_reducible apply keeps_State_vwrite))

theorem keeps_State_launchPass {s0 : State} (s : State) (p : Nat) (v : Serve) (d : ServeDecl) (g : SegDecl) (c : Choice) (hk : Keeps s0 s) :
    Keeps s0 (State.launchPass s p v d g c) := by
  rw [State.launchPass.eq_def]
  repeat' (first
    | (with_reducible assumption)
    | (with_reducible apply keeps_State_onPartn)
    | (with_reducible apply keeps_State_bumpP)
    | (with_reducible apply keeps_State_launchRecords)
    | (with_reducible apply keeps_State_launch)
    | (extract_lets -underBinder)
    | (with_reducible refine Keeps.ite ?_ ?_)
    | split)

theorem keeps_execServePassStart {s0 : State} (p : Nat) (w : Nat) (s : State) (hk : Keeps s0 s) :
    RKeeps s0 (execServePassStart p w s) := by
  rw [execServePassStart.eq_def]
  repeat' (first
    | (with_reducible assumption)
    | (with_reducible apply keeps_State_startPeriod)
    | (with_reducible apply keeps_State_endServe)
    | (with_reducible apply keeps_State_complete)
    | (with_reducible apply keeps_State_runPeriodEnd)
    | (with_reducible apply keeps_State_writeBatch)
    | (with_reducible apply keeps_State_noteFault)
    | (with_reducible apply keeps_State_launchPass)
    | (with_reducible apply RKeeps.next)
    | (extract_lets -underBinder)
    | split
    | (refine PKeeps.use ?_ (by assumption))
    | (refine EKeeps.use ?_ (by assumption)))

theorem keeps_State_endFeedSlot {s0 : State} (s : State) (p : Nat) (b : BatchSlot) (hk : Keeps s0 s) :
    Keeps s0 (State.endFeedSlot s p b) := by
  rw [State.endFeedSlot.eq_def]
  repeat' (first
    | (with_reducible assumption)
    | (with_reducible apply keeps_State_onPartn)
    | (with_reducible apply keeps_State_complete)
    | (extract_lets -underBinder)
    | (with_reducible refine Keeps.ite ?_ ?_)
    | split)

theorem keeps_State_readSlot {s0 : State} (s : State) (p : Nat) (d : ServeDecl) (i : Nat) (hk : Keeps s0 s) :
    QKeeps s0 (State.readSlot s p d i) := by
  rw [State.readSlot.eq_def]
  repeat' (first
    | (with_reducible assumption)
    | (with_reducible apply keeps_State_noteRead)
    | (with_reducible apply keeps_State_fresh)
    | (extract_lets -underBinder)
    | split
    | (dsimp +zetaDelta only)
    | (with_reducible apply QKeeps.mk))

set_option maxRecDepth 20000 in
theorem keeps_State_endTokenSlot {s0 : State} (s : State) (p : Nat) (d : ServeDecl) (e : BatchSlot × Nat) (hk : Keeps s0 s) :
    Keeps s0 (State.endTokenSlot s p d e) := by
  rw [State.endTokenSlot.eq_def]
  repeat' (first
    | (with_reducible assumption)
    | (with_reducible apply keeps_State_readSlot)
    | (with_reducible apply keeps_State_putRecord)
    | (with_reducible apply keeps_State_bumpP)
    | (with_reducible apply keeps_State_onPartn)
    | (with_reducible apply keeps_State_complete)
    | (with_reducible apply keeps_State_settleFeeds)
    | (with_reducible apply QKeeps.snd)
    | (extract_lets -underBinder)
    | (with_reducible refine Keeps.ite ?_ ?_)
    | split)

theorem keeps_State_endStopped {s0 : State} (s : State) (p : Nat) (w : Nat) (hk : Keeps s0 s) :
    Keeps s0 (State.endStopped s p w) := by
  rw [State.endStopped.eq_def]
  repeat' (first
    | (with_reducible assumption)
    | (with_reducible apply keeps_State_endServe)
    | (with_reducible apply keeps_State_complete)
    | (with_reducible apply keeps_State_runPeriodEnd)
    | (with_reducible refine Keeps.ite ?_ ?_)
    | split)

theorem keeps_execServePassEnd {s0 : State} (p : Nat) (w : Nat) (s : State) (hk : Keeps s0 s) :
    RKeeps s0 (execServePassEnd p w s) := by
  rw [execServePassEnd.eq_def]
  repeat' (first
    | (with_reducible assumption)
    | (with_reducible apply keeps_State_releaseCores)
    | (with_reducible apply keeps_State_onPartn)
    | (with_reducible apply keeps_State_endFeedSlot)
    | (with_reducible apply keeps_State_endTokenSlot)
    | (with_reducible apply keeps_State_endStopped)
    | (with_reducible refine Keeps.foldl ?_ ?_)
    | (with_reducible apply RKeeps.next)
    | (intro _)
    | (extract_lets -underBinder)
    | (with_reducible refine Keeps.ite ?_ ?_)
    | split)

theorem keeps_State_stopOne {s0 : State} (s : State) (p : Nat) (v : Nat) (j : Cmd) (hk : Keeps s0 s) :
    Keeps s0 (State.stopOne s p v j) := by
  rw [State.stopOne.eq_def]
  repeat' (first
    | (with_reducible assumption)
    | (with_reducible apply keeps_State_complete)
    | (with_reducible apply keeps_State_onCmd)
    | (with_reducible apply keeps_State_settleMove)
    | (with_reducible apply keeps_State_onPartn)
    | (with_reducible apply keeps_State_endStopped)
    | (with_reducible refine Keeps.foldl ?_ ?_)
    | (intro _)
    | (extract_lets -underBinder)
    | (with_reducible refine Keeps.ite ?_ ?_)
    | split)

theorem keeps_execFenceStop {s0 : State} (p : Nat) (w : Nat) (q : Nat) (s : State) (hk : Keeps s0 s) :
    RKeeps s0 (execFenceStop p w q s) := by
  rw [execFenceStop.eq_def]
  repeat' (first
    | (with_reducible assumption)
    | (with_reducible apply keeps_State_startFence)
    | (with_reducible apply keeps_State_stopOne)
    | (with_reducible apply keeps_State_settleFence)
    | (with_reducible refine Keeps.foldl ?_ ?_)
    | (with_reducible apply RKeeps.next)
    | (intro _)
    | (extract_lets -underBinder)
    | split)

/-! ## Machine/Shards.lean -/


theorem keeps_State_writeShards {s0 : State} (s : State) (p : Nat) (dst : Nat) (x0 : List (ShardPart × Nat × Nat × Nat)) (hk : Keeps s0 s) :
    PKeeps s0 (State.writeShards s p dst x0) := by
  induction x0 generalizing s p dst with
  | nil =>
    rw [State.writeShards]
    repeat' (first
      | (with_reducible assumption)
      | (with_reducible apply PKeeps.mk))
  | cons a r ih =>
    rw [State.writeShards]
    repeat' (first
      | (apply ih)
      | (with_reducible assumption)
      | (with_reducible apply keeps_State_noteRead)
      | (with_reducible apply keeps_State_vwrite)
      | (with_reducible apply keeps_State_noteFault)
      | (extract_lets -underBinder)
      | split
      | (with_reducible apply PKeeps.mk)
      | (refine EKeeps.use ?_ (by assumption)))

theorem keeps_execExportState {s0 : State} (p : Nat) (w : Nat) (q : Nat) (s : State) (hk : Keeps s0 s) :
    RKeeps s0 (execExportState p w q s) := by
  rw [execExportState.eq_def]
  repeat' (first
    | (with_reducible assumption)
    | (with_reducible apply keeps_State_startCmd)
    | (with_reducible apply keeps_State_complete)
    | (with_reducible apply keeps_State_noteRead)
    | (with_reducible apply keeps_State_noteFault)
    | (with_reducible apply keeps_State_writeShards)
    | (with_reducible apply RKeeps.next)
    | (intro _)
    | (extract_lets -underBinder)
    | (with_reducible refine Keeps.ite ?_ ?_)
    | split
    | (refine PKeeps.use ?_ (by assumption)))

theorem keeps_State_askLoad {s0 : State} (s : State) (p : Nat) (w : Nat) (q : Nat) (src : Nat) (i : Nat) (e : Nat × Bool) (hk : Keeps s0 s) :
    Keeps s0 (State.askLoad s p w q src i e) := by
  rw [State.askLoad.eq_def]
  repeat' (first
    | (with_reducible assumption)
    | (with_reducible exact id)
    | (with_reducible exact Nat.le_refl _)
    | (with_reducible exact BitVec.le_refl _)
    | (with_reducible apply keeps_State_takePsn)
    | (with_reducible apply keeps_State_send)
    | (with_reducible apply keeps_State_onLoads)
    | (with_reducible apply keeps_State_failLoad)
    | (with_reducible apply keeps_State_noteFault)
    | (with_reducible apply keeps_State_dropLoad)
    | (with_reducible apply keeps_State_complete)
    | (with_reducible refine Keeps.boxed ?_ ?_ ?_ ?_)
    | (extract_lets -underBinder)
    | (with_reducible refine Keeps.ite ?_ ?_)
    | (with_reducible rw [State.mk_boxed])
    | split
    | (refine PKeeps.use ?_ (by assumption)))

theorem keeps_State_continueImport {s0 : State} (s : State) (p : Nat) (w : Nat) (q : Nat) (hk : Keeps s0 s) :
    Keeps s0 (State.continueImport s p w q) := by
  rw [State.continueImport.eq_def]
  repeat' (first
    | (with_reducible assumption)
    | (with_reducible apply keeps_State_noteRead)
    | (with_reducible apply keeps_State_dropLoad)
    | (with_reducible apply keeps_State_complete)
    | (with_reducible apply keeps_State_askLoad)
    | (with_reducible apply keeps_State_bumpP)
    | (with_reducible apply keeps_State_vwrite)
    | (with_reducible apply keeps_State_onPartn)
    | (with_reducible refine Keeps.foldl ?_ ?_)
    | (intro _)
    | (extract_lets -underBinder)
    | split
    | (refine EKeeps.use ?_ (by assumption)))

theorem keeps_execImportShard {s0 : State} (p : Nat) (w : Nat) (q : Nat) (s : State) (hk : Keeps s0 s) :
    RKeeps s0 (execImportShard p w q s) := by
  rw [execImportShard.eq_def]
  repeat' (first
    | (with_reducible assumption)
    | (with_reducible apply keeps_State_startCmd)
    | (with_reducible apply keeps_State_complete)
    | (with_reducible apply keeps_State_onLoads)
    | (with_reducible apply keeps_State_continueImport)
    | (with_reducible apply RKeeps.next)
    | (intro _)
    | (extract_lets -underBinder)
    | (with_reducible refine Keeps.ite ?_ ?_)
    | split)

theorem keeps_State_putOrphans {s0 : State} (s : State) (p : Nat) (first : Nat) (version : U64) (x0 : List (List (List Byte))) (hk : Keeps s0 s) :
    Keeps s0 (State.putOrphans s p first version x0) := by
  induction x0 generalizing s p first version with
  | nil =>
    rw [State.putOrphans]
    repeat' (first
      | (with_reducible assumption))
  | cons a r ih =>
    rw [State.putOrphans]
    repeat' (first
      | (apply ih)
      | (with_reducible assumption)
      | (with_reducible exact id)
      | (with_reducible exact Nat.le_refl _)
      | (with_reducible exact BitVec.le_refl _)
      | (with_reducible apply keeps_State_setObj)
      | (with_reducible apply keeps_State_onPartn)
      | (with_reducible refine Keeps.boxed ?_ ?_ ?_ ?_)
      | (extract_lets -underBinder)
      | (with_reducible rw [State.mk_boxed]))

theorem keeps_State_orphanExport {s0 : State} (s : State) (p : Nat) (hk : Keeps s0 s) :
    Keeps s0 (State.orphanExport s p) := by
  rw [State.orphanExport.eq_def]
  repeat' (first
    | (with_reducible assumption)
    | (with_reducible apply keeps_State_enterDiscarded)
    | (with_reducible apply keeps_State_noteRead)
    | (with_reducible apply keeps_State_raiseP)
    | (with_reducible apply keeps_State_putOrphans)
    | (with_reducible apply keeps_State_onPartn)
    | (extract_lets -underBinder)
    | (with_reducible refine Keeps.ite ?_ ?_)
    | split)

end Sys2Proof.Machine
end

