-- ==== Sys2Proof/Laws/KeepsModule.lean ====
section
/-! SUPPORT. What the operations of the Machine files imported here keep (Safety.lean, Keeps): one lemma each. -/

namespace Sys2Proof.Machine

/-! ## Machine/Streams.lean -/


theorem keeps_State_enableStream {s0 : State} (s : State) (p : Nat) (w : Nat) (hk : Keeps s0 s) :
    Keeps s0 (State.enableStream s p w) := by
  rw [State.enableStream.eq_def]
  repeat' (first
    | (with_reducible assumption)
    | (with_reducible apply keeps_State_onStream)
    | (with_reducible refine Keeps.ite ?_ ?_))

theorem keeps_State_disableStream {s0 : State} (s : State) (p : Nat) (w : Nat) (hk : Keeps s0 s) :
    Keeps s0 (State.disableStream s p w) := by
  rw [State.disableStream.eq_def]
  repeat' (first
    | (with_reducible assumption)
    | (with_reducible apply keeps_State_onStream)
    | (with_reducible apply keeps_State_unpinAll)
    | (extract_lets -underBinder)
    | (with_reducible refine Keeps.ite ?_ ?_))

theorem keeps_execStreamEnable {s0 : State} (p : Nat) (w : Nat) (s : State) (hk : Keeps s0 s) :
    RKeeps s0 (execStreamEnable p w s) := by
  rw [execStreamEnable.eq_def]
  repeat' (first
    | (with_reducible assumption)
    | (with_reducible apply keeps_State_enableStream)
    | (with_reducible apply RKeeps.next)
    | (extract_lets -underBinder)
    | (with_reducible refine Keeps.ite ?_ ?_))

theorem keeps_execStreamDisable {s0 : State} (p : Nat) (w : Nat) (s : State) (hk : Keeps s0 s) :
    RKeeps s0 (execStreamDisable p w s) := by
  rw [execStreamDisable.eq_def]
  repeat' (first
    | (with_reducible assumption)
    | (with_reducible apply keeps_State_disableStream)
    | (with_reducible apply RKeeps.next)
    | (extract_lets -underBinder)
    | (with_reducible refine Keeps.ite ?_ ?_))

set_option maxRecDepth 20000 in
theorem keeps_State_acceptOne {s0 : State} (s : State) (p : Nat) (w : Nat) (hk : Keeps s0 s) :
    Keeps s0 (State.acceptOne s p w) := by
  rw [State.acceptOne.eq_def]
  repeat' (first
    | (with_reducible assumption)
    | (with_reducible exact id)
    | (with_reducible exact Nat.le_refl _)
    | (with_reducible exact BitVec.le_refl _)
    | (with_reducible apply keeps_State_noteRead)
    | (with_reducible apply keeps_State_onStream)
    | (with_reducible apply keeps_State_bumpP)
    | (with_reducible apply keeps_State_startWake)
    | (with_reducible apply keeps_State_complete)
    | (with_reducible refine Keeps.boxed ?_ ?_ ?_ ?_)
    | (extract_lets -underBinder)
    | (with_reducible rw [State.mk_boxed])
    | split
    | (dsimp +zetaDelta only))

theorem keeps_State_endPause {s0 : State} (s : State) (p : Nat) (w : Nat) (hk : Keeps s0 s) :
    Keeps s0 (State.endPause s p w) := by
  rw [State.endPause.eq_def]
  repeat' (first
    | (with_reducible assumption)
    | (with_reducible apply keeps_State_onStream)
    | (with_reducible apply keeps_State_bumpP)
    | split)

theorem keeps_State_settlePause {s0 : State} (s : State) (p : Nat) (w : Nat) (hk : Keeps s0 s) :
    Keeps s0 (State.settlePause s p w) := by
  rw [State.settlePause.eq_def]
  repeat' (first
    | (with_reducible assumption)
    | (with_reducible apply keeps_State_onStream)
    | (with_reducible apply keeps_State_endPause)
    | (extract_lets -underBinder)
    | (with_reducible refine Keeps.ite ?_ ?_))

theorem keeps_State_settlePauses {s0 : State} (s : State) (hk : Keeps s0 s) :
    Keeps s0 (State.settlePauses s) := by
  rw [State.settlePauses.eq_def]
  repeat' (first
    | (with_reducible assumption)
    | (with_reducible apply keeps_State_settlePause)
    | (with_reducible refine Keeps.foldl ?_ ?_)
    | (intro _))

theorem keeps_execCommandAccept {s0 : State} (p : Nat) (w : Nat) (s : State) (hk : Keeps s0 s) :
    RKeeps s0 (execCommandAccept p w s) := by
  rw [execCommandAccept.eq_def]
  repeat' (first
    | (with_reducible assumption)
    | (with_reducible exact id)
    | (with_reducible exact Nat.le_refl _)
    | (with_reducible exact BitVec.le_refl _)
    | (with_reducible apply keeps_State_acceptOne)
    | (with_reducible refine Keeps.boxed ?_ ?_ ?_ ?_)
    | (with_reducible apply RKeeps.next)
    | (extract_lets -underBinder)
    | (with_reducible rw [State.mk_boxed])
    | split)

theorem keeps_State_acceptMirrored {s0 : State} (s : State) (p : Nat) (w : Nat) (hk : Keeps s0 s) :
    Keeps s0 (State.acceptMirrored s p w) := by
  rw [State.acceptMirrored.eq_def]
  repeat' (first
    | (with_reducible assumption)
    | (with_reducible exact id)
    | (with_reducible exact Nat.le_refl _)
    | (with_reducible exact BitVec.le_refl _)
    | (with_reducible apply keeps_State_acceptOne)
    | (with_reducible refine Keeps.boxed ?_ ?_ ?_ ?_)
    | (extract_lets -underBinder)
    | (with_reducible refine Keeps.ite ?_ ?_)
    | (with_reducible rw [State.mk_boxed]))

theorem keeps_execJournalTailMirrored {s0 : State} (n : Nat) (s : State) (hk : Keeps s0 s) :
    RKeeps s0 (execJournalTailMirrored n s) := by
  rw [execJournalTailMirrored.eq_def]
  repeat' (first
    | (with_reducible assumption)
    | (with_reducible exact id)
    | (with_reducible exact Nat.le_refl _)
    | (with_reducible exact BitVec.le_refl _)
    | (with_reducible apply keeps_State_acceptMirrored)
    | (with_reducible refine Keeps.foldl ?_ ?_)
    | (with_reducible refine Keeps.boxed ?_ ?_ ?_ ?_)
    | (with_reducible apply RKeeps.next)
    | (intro _)
    | (extract_lets -underBinder)
    | (with_reducible rw [State.mk_boxed])
    | split
    | (dsimp +zetaDelta only))

theorem keeps_State_acceptTo {s0 : State} (s : State) (p : Nat) (w : Nat) (a : U48) (x0 : Nat) (hk : Keeps s0 s) :
    Keeps s0 (State.acceptTo s p w a x0) := by
  induction x0 generalizing s p w a with
  | zero =>
    rw [State.acceptTo]
    repeat' (first
      | (with_reducible assumption))
  | succ n ih =>
    rw [State.acceptTo]
    repeat' (first
      | (apply ih)
      | (with_reducible assumption)
      | (with_reducible apply keeps_State_acceptOne)
      | (with_reducible refine Keeps.ite ?_ ?_))

theorem keeps_State_abortRun {s0 : State} (s : State) (p : Nat) (w : Nat) (q : Nat) (hk : Keeps s0 s) :
    Keeps s0 (State.abortRun s p w q) := by
  rw [State.abortRun.eq_def]
  repeat' (first
    | (with_reducible assumption)
    | (with_reducible apply keeps_State_onCmd)
    | (with_reducible apply keeps_State_onSegment)
    | (with_reducible apply keeps_State_endServe)
    | (with_reducible apply keeps_State_complete)
    | split)

theorem keeps_State_abortOne {s0 : State} (s : State) (p : Nat) (w : Nat) (k : Cmd) (hk : Keeps s0 s) :
    Keeps s0 (State.abortOne s p w k) := by
  rw [State.abortOne.eq_def]
  repeat' (first
    | (with_reducible assumption)
    | (with_reducible apply keeps_State_complete)
    | (with_reducible apply keeps_State_abortRun)
    | (with_reducible apply keeps_State_onCmd)
    | (with_reducible apply keeps_State_settleMove)
    | (with_reducible apply keeps_State_cancelWhere)
    | (with_reducible apply keeps_State_forgetTier)
    | (with_reducible apply keeps_State_dropLoad)
    | (with_reducible apply keeps_State_onPartn)
    | (with_reducible refine Keeps.foldl ?_ ?_)
    | (intro _)
    | (extract_lets -underBinder)
    | (with_reducible refine Keeps.ite ?_ ?_)
    | split)

theorem keeps_State_abortStream {s0 : State} (s : State) (p : Nat) (w : Nat) (a : U48) (hk : Keeps s0 s) :
    Keeps s0 (State.abortStream s p w a) := by
  rw [State.abortStream.eq_def]
  repeat' (first
    | (with_reducible assumption)
    | (with_reducible apply keeps_State_acceptTo)
    | (with_reducible apply keeps_State_onStream)
    | (with_reducible apply keeps_State_unpinAll)
    | (with_reducible apply keeps_State_abortStep)
    | (with_reducible apply keeps_State_abortOne)
    | (with_reducible apply keeps_State_settleOwed)
    | (with_reducible apply keeps_State_settleFeeds)
    | (with_reducible apply keeps_State_writeAborts)
    | (with_reducible refine Keeps.foldl ?_ ?_)
    | (intro _)
    | (extract_lets -underBinder)
    | (with_reducible refine Keeps.ite ?_ ?_))

theorem keeps_State_ringDoorbell {s0 : State} (s : State) (p : Nat) (w : Nat) (d : U48) (hk : Keeps s0 s) :
    Keeps s0 (State.ringDoorbell s p w d) := by
  rw [State.ringDoorbell.eq_def]
  repeat' (first
    | (with_reducible assumption)
    | (with_reducible apply keeps_State_bumpP)
    | (with_reducible apply keeps_State_raiseP)
    | (with_reducible apply keeps_State_onStream)
    | (extract_lets -underBinder)
    | (with_reducible refine Keeps.ite ?_ ?_))

theorem keeps_State_setCplHead {s0 : State} (s : State) (p : Nat) (w : Nat) (h : U48) (hk : Keeps s0 s) :
    Keeps s0 (State.setCplHead s p w h) := by
  rw [State.setCplHead.eq_def]
  repeat' (first
    | (with_reducible assumption)
    | (with_reducible apply keeps_State_onStream)
    | (with_reducible apply keeps_State_flushHeld)
    | (with_reducible refine Keeps.ite ?_ ?_))

theorem keeps_State_pageWrite {s0 : State} (s : State) (kind : Nat) (p : Nat) (w : Nat) (v : U64) (hk : Keeps s0 s) :
    Keeps s0 (State.pageWrite s kind p w v) := by
  rw [State.pageWrite.eq_def]
  repeat' (first
    | (with_reducible assumption)
    | (with_reducible apply keeps_State_ringDoorbell)
    | (with_reducible apply keeps_State_abortStream)
    | (with_reducible apply keeps_State_setCplHead)
    | (extract_lets -underBinder)
    | (with_reducible refine Keeps.ite ?_ ?_))

theorem keeps_State_pageWriteOrLatch {s0 : State} (s : State) (kind : Nat) (p : Nat) (w : Nat) (v : U64) (hk : Keeps s0 s) :
    Keeps s0 (State.pageWriteOrLatch s kind p w v) := by
  rw [State.pageWriteOrLatch.eq_def]
  repeat' (first
    | (with_reducible assumption)
    | (with_reducible exact id)
    | (with_reducible exact Nat.le_refl _)
    | (with_reducible exact BitVec.le_refl _)
    | (with_reducible apply keeps_State_pageWrite)
    | (with_reducible refine Keeps.boxed ?_ ?_ ?_ ?_)
    | (extract_lets -underBinder)
    | (with_reducible refine Keeps.ite ?_ ?_)
    | (with_reducible rw [State.mk_boxed]))

theorem keeps_State_releaseLatched {s0 : State} (s : State) (hk : Keeps s0 s) :
    Keeps s0 (State.releaseLatched s) := by
  rw [State.releaseLatched.eq_def]
  repeat' (first
    | (with_reducible assumption)
    | (with_reducible exact id)
    | (with_reducible exact Nat.le_refl _)
    | (with_reducible exact BitVec.le_refl _)
    | (with_reducible apply keeps_State_pageWrite)
    | (with_reducible refine Keeps.foldl ?_ ?_)
    | (with_reducible refine Keeps.boxed ?_ ?_ ?_ ?_)
    | (intro _)
    | (extract_lets -underBinder)
    | (with_reducible rw [State.mk_boxed]))

theorem keeps_execCmdDoorbell {s0 : State} (p : Nat) (w : Nat) (d : U64) (hostWrites : List (Nat × List Byte)) (s : State) (hk : Keeps s0 s) :
    RKeeps s0 (execCmdDoorbell p w d hostWrites s) := by
  rw [execCmdDoorbell.eq_def]
  repeat' (first
    | (with_reducible assumption)
    | (with_reducible exact id)
    | (with_reducible exact Nat.le_refl _)
    | (with_reducible exact BitVec.le_refl _)
    | (with_reducible apply keeps_State_pageWriteOrLatch)
    | (with_reducible refine Keeps.foldl ?_ ?_)
    | (with_reducible refine Keeps.boxed ?_ ?_ ?_ ?_)
    | (with_reducible apply RKeeps.next)
    | (intro _)
    | (extract_lets -underBinder)
    | (with_reducible rw [State.mk_boxed]))

theorem keeps_execAbortDoorbell {s0 : State} (p : Nat) (w : Nat) (a : U64) (s : State) (hk : Keeps s0 s) :
    RKeeps s0 (execAbortDoorbell p w a s) := by
  rw [execAbortDoorbell.eq_def]
  repeat' (first
    | (with_reducible assumption)
    | (with_reducible apply keeps_State_pageWriteOrLatch)
    | (with_reducible apply RKeeps.next))

theorem keeps_execCplHead {s0 : State} (p : Nat) (w : Nat) (h : U64) (s : State) (hk : Keeps s0 s) :
    RKeeps s0 (execCplHead p w h s) := by
  rw [execCplHead.eq_def]
  repeat' (first
    | (with_reducible assumption)
    | (with_reducible apply keeps_State_pageWriteOrLatch)
    | (with_reducible apply RKeeps.next))

theorem keeps_State_refuseAttach {s0 : State} (s : State) (p : Nat) (v : U64) (hk : Keeps s0 s) :
    Keeps s0 (State.refuseAttach s p v) := by
  rw [State.refuseAttach.eq_def]
  repeat' (first
    | (with_reducible assumption)
    | (with_reducible apply keeps_State_bumpP)
    | (with_reducible apply keeps_State_raiseP))

theorem keeps_State_beginSession {s0 : State} (s : State) (p : Nat) (token : U64) (hk : Keeps s0 s) :
    Keeps s0 (State.beginSession s p token) := by
  rw [State.beginSession.eq_def]
  repeat' (first
    | (with_reducible assumption)
    | (with_reducible apply keeps_State_onPartn))

theorem keeps_State_replaceSession {s0 : State} (s : State) (p : Nat) (hk : Keeps s0 s) :
    Keeps s0 (State.replaceSession s p) := by
  rw [State.replaceSession.eq_def]
  repeat' (first
    | (with_reducible assumption)
    | (with_reducible apply keeps_State_unpinAll)
    | (with_reducible apply keeps_State_bump)
    | (with_reducible apply keeps_State_onPartn)
    | (with_reducible apply keeps_State_runPeriodEnd)
    | (with_reducible apply keeps_State_raiseP)
    | (with_reducible refine Keeps.foldl ?_ ?_)
    | (intro _)
    | (extract_lets -underBinder)
    | (with_reducible refine Keeps.ite ?_ ?_))

theorem keeps_State_flushAll {s0 : State} (s : State) (p : Nat) (hk : Keeps s0 s) :
    Keeps s0 (State.flushAll s p) := by
  rw [State.flushAll.eq_def]
  repeat' (first
    | (with_reducible assumption)
    | (with_reducible apply keeps_State_flushHeld)
    | (with_reducible refine Keeps.foldl ?_ ?_)
    | (intro _))

theorem keeps_State_attach {s0 : State} (s : State) (p : Nat) (v : U64) (hk : Keeps s0 s) :
    Keeps s0 (State.attach s p v) := by
  rw [State.attach.eq_def]
  repeat' (first
    | (with_reducible assumption)
    | (with_reducible apply keeps_State_onPartn)
    | (with_reducible apply keeps_State_fresh)
    | (with_reducible apply keeps_State_refuseAttach)
    | (with_reducible apply keeps_State_replaceSession)
    | (with_reducible apply keeps_State_beginSession)
    | (with_reducible apply keeps_State_raiseP)
    | (with_reducible apply keeps_State_flushAll)
    | (extract_lets -underBinder)
    | (with_reducible refine Keeps.ite ?_ ?_))

theorem keeps_execAttach {s0 : State} (p : Nat) (v : U64) (s : State) (hk : Keeps s0 s) :
    RKeeps s0 (execAttach p v s) := by
  rw [execAttach.eq_def]
  repeat' (first
    | (with_reducible assumption)
    | (with_reducible apply keeps_State_attach)
    | (with_reducible apply keeps_State_startWake)
    | (with_reducible apply RKeeps.next)
    | (extract_lets -underBinder)
    | (with_reducible refine Keeps.ite ?_ ?_))

theorem keeps_State_renewLease {s0 : State} (s : State) (p : Nat) (v : U64) (hk : Keeps s0 s) :
    Keeps s0 (State.renewLease s p v) := by
  rw [State.renewLease.eq_def]
  repeat' (first
    | (with_reducible assumption)
    | (with_reducible apply keeps_State_bumpP)
    | (with_reducible apply keeps_State_onPartn)
    | (extract_lets -underBinder)
    | (with_reducible refine Keeps.ite ?_ ?_))

theorem keeps_execLease {s0 : State} (p : Nat) (v : U64) (s : State) (hk : Keeps s0 s) :
    RKeeps s0 (execLease p v s) := by
  rw [execLease.eq_def]
  repeat' (first
    | (with_reducible assumption)
    | (with_reducible apply keeps_State_renewLease)
    | (with_reducible apply RKeeps.next)
    | (extract_lets -underBinder)
    | (with_reducible refine Keeps.ite ?_ ?_))

theorem keeps_State_enterOrphan {s0 : State} (s : State) (p : Nat) (hk : Keeps s0 s) :
    Keeps s0 (State.enterOrphan s p) := by
  rw [State.enterOrphan.eq_def]
  repeat' (first
    | (with_reducible assumption)
    | (with_reducible apply keeps_State_onPartn)
    | (with_reducible apply keeps_State_bumpP)
    | (with_reducible apply keeps_State_raiseP))

theorem keeps_State_expireLease {s0 : State} (s : State) (p : Nat) (hk : Keeps s0 s) :
    Keeps s0 (State.expireLease s p) := by
  rw [State.expireLease.eq_def]
  repeat' (first
    | (with_reducible assumption)
    | (with_reducible apply keeps_State_onPartn)
    | (with_reducible apply keeps_State_enterOrphan)
    | (extract_lets -underBinder)
    | (with_reducible refine Keeps.ite ?_ ?_))

theorem keeps_execLeaseExpiry {s0 : State} (p : Nat) (s : State) (hk : Keeps s0 s) :
    RKeeps s0 (execLeaseExpiry p s) := by
  rw [execLeaseExpiry.eq_def]
  repeat' (first
    | (with_reducible assumption)
    | (with_reducible apply keeps_State_expireLease)
    | (with_reducible apply RKeeps.next)
    | (extract_lets -underBinder)
    | (with_reducible refine Keeps.ite ?_ ?_))

theorem keeps_execPartitionPark {s0 : State} (p : Nat) (s : State) (hk : Keeps s0 s) :
    RKeeps s0 (execPartitionPark p s) := by
  rw [execPartitionPark.eq_def]
  repeat' (first
    | (with_reducible assumption)
    | (with_reducible apply keeps_State_onPartn)
    | (with_reducible apply keeps_State_raiseP)
    | (with_reducible apply keeps_State_orphanExport)
    | (with_reducible apply RKeeps.next)
    | (extract_lets -underBinder)
    | (with_reducible refine Keeps.ite ?_ ?_)
    | split)

theorem keeps_execOrphanHoldExpiry {s0 : State} (p : Nat) (s : State) (hk : Keeps s0 s) :
    RKeeps s0 (execOrphanHoldExpiry p s) := by
  rw [execOrphanHoldExpiry.eq_def]
  repeat' (first
    | (with_reducible assumption)
    | (with_reducible apply keeps_State_onPartn)
    | (with_reducible apply keeps_State_orphanExport)
    | (with_reducible apply RKeeps.next)
    | (extract_lets -underBinder)
    | (with_reducible refine Keeps.ite ?_ ?_)
    | split)

theorem keeps_State_onSession {s0 : State} (s : State) (n : Nat) (f : Session → Session) (hk : Keeps s0 s) :
    Keeps s0 (State.onSession s n f) := by
  rw [State.onSession.eq_def]
  repeat' (first
    | (with_reducible assumption)
    | (with_reducible exact id)
    | (with_reducible exact Nat.le_refl _)
    | (with_reducible exact BitVec.le_refl _)
    | (with_reducible refine Keeps.boxed ?_ ?_ ?_ ?_)
    | (extract_lets -underBinder)
    | (with_reducible rw [State.mk_boxed]))

theorem keeps_State_dropOpenSet {s0 : State} (s : State) (n : Nat) (hk : Keeps s0 s) :
    Keeps s0 (State.dropOpenSet s n) := by
  rw [State.dropOpenSet.eq_def]
  repeat' (first
    | (with_reducible assumption)
    | (with_reducible exact id)
    | (with_reducible exact Nat.le_refl _)
    | (with_reducible exact BitVec.le_refl _)
    | (with_reducible refine Keeps.boxed ?_ ?_ ?_ ?_)
    | (extract_lets -underBinder)
    | (with_reducible rw [State.mk_boxed]))

theorem keeps_execFunctionLevelReset {s0 : State} (p : Nat) (s : State) (hk : Keeps s0 s) :
    RKeeps s0 (execFunctionLevelReset p s) := by
  rw [execFunctionLevelReset.eq_def]
  repeat' (first
    | (with_reducible assumption)
    | (with_reducible apply keeps_State_onPartn)
    | (with_reducible apply keeps_State_dropOpenSet)
    | (with_reducible apply keeps_State_onSession)
    | (with_reducible apply keeps_State_expireLease)
    | (with_reducible apply RKeeps.next)
    | (extract_lets -underBinder)
    | (with_reducible refine Keeps.ite ?_ ?_)
    | split)

theorem keeps_State_setPtRoot {s0 : State} (s : State) (p : Nat) (v : U64) (hk : Keeps s0 s) :
    Keeps s0 (State.setPtRoot s p v) := by
  rw [State.setPtRoot.eq_def]
  repeat' (first
    | (with_reducible assumption)
    | (with_reducible apply keeps_State_onPartn)
    | (with_reducible refine Keeps.ite ?_ ?_))

theorem keeps_execPtRoot {s0 : State} (p : Nat) (v : U64) (s : State) (hk : Keeps s0 s) :
    RKeeps s0 (execPtRoot p v s) := by
  rw [execPtRoot.eq_def]
  repeat' (first
    | (with_reducible assumption)
    | (with_reducible apply keeps_State_setPtRoot)
    | (with_reducible apply RKeeps.next)
    | (extract_lets -underBinder)
    | (with_reducible refine Keeps.ite ?_ ?_))

theorem keeps_State_postFaults {s0 : State} (s : State) (p : Nat) (x0 : Nat) (hk : Keeps s0 s) :
    Keeps s0 (State.postFaults s p x0) := by
  induction x0 generalizing s p with
  | zero =>
    rw [State.postFaults]
    repeat' (first
      | (with_reducible assumption))
  | succ n ih =>
    rw [State.postFaults]
    repeat' (first
      | (apply ih)
      | (with_reducible assumption)
      | (with_reducible apply keeps_State_postFault))

theorem keeps_State_setFqHead {s0 : State} (s : State) (p : Nat) (v : U64) (hk : Keeps s0 s) :
    Keeps s0 (State.setFqHead s p v) := by
  rw [State.setFqHead.eq_def]
  repeat' (first
    | (with_reducible assumption)
    | (with_reducible apply keeps_State_onPartn)
    | (with_reducible apply keeps_State_postFaults)
    | (extract_lets -underBinder)
    | (with_reducible refine Keeps.ite ?_ ?_))

theorem keeps_execFqHead {s0 : State} (p : Nat) (v : U64) (s : State) (hk : Keeps s0 s) :
    RKeeps s0 (execFqHead p v s) := by
  rw [execFqHead.eq_def]
  repeat' (first
    | (with_reducible assumption)
    | (with_reducible apply keeps_State_setFqHead)
    | (with_reducible apply RKeeps.next)
    | (extract_lets -underBinder)
    | (with_reducible refine Keeps.ite ?_ ?_))

theorem keeps_State_badAccess {s0 : State} (s : State) (p : Nat) (hk : Keeps s0 s) :
    Keeps s0 (State.badAccess s p) := by
  rw [State.badAccess.eq_def]
  repeat' (first
    | (with_reducible assumption)
    | (with_reducible apply keeps_State_onPartn)
    | (with_reducible apply keeps_State_bumpP)
    | (with_reducible refine Keeps.ite ?_ ?_))

theorem keeps_State_mailboxCtrl {s0 : State} (s : State) (v : U64) (hk : Keeps s0 s) :
    Keeps s0 (State.mailboxCtrl s v) := by
  rw [State.mailboxCtrl.eq_def]
  repeat' (first
    | (with_reducible assumption)
    | (with_reducible exact id)
    | (with_reducible exact Nat.le_refl _)
    | (with_reducible exact BitVec.le_refl _)
    | (with_reducible apply keeps_State_badAccess)
    | (with_reducible refine Keeps.boxed ?_ ?_ ?_ ?_)
    | (extract_lets -underBinder)
    | (with_reducible refine Keeps.ite ?_ ?_)
    | (with_reducible rw [State.mk_boxed]))

theorem keeps_execMbCtrl {s0 : State} (v : U64) (s : State) (hk : Keeps s0 s) :
    RKeeps s0 (execMbCtrl v s) := by
  rw [execMbCtrl.eq_def]
  repeat' (first
    | (with_reducible assumption)
    | (with_reducible apply keeps_State_mailboxCtrl)
    | (with_reducible apply RKeeps.next)
    | (extract_lets -underBinder)
    | (with_reducible refine Keeps.ite ?_ ?_))

theorem keeps_State_mailboxReq {s0 : State} (s : State) (offset : Nat) (v : U64) (hk : Keeps s0 s) :
    Keeps s0 (State.mailboxReq s offset v) := by
  rw [State.mailboxReq.eq_def]
  repeat' (first
    | (with_reducible assumption)
    | (with_reducible exact id)
    | (with_reducible exact Nat.le_refl _)
    | (with_reducible exact BitVec.le_refl _)
    | (with_reducible apply keeps_State_badAccess)
    | (with_reducible refine Keeps.boxed ?_ ?_ ?_ ?_)
    | (extract_lets -underBinder)
    | (with_reducible refine Keeps.ite ?_ ?_)
    | (with_reducible rw [State.mk_boxed]))

theorem keeps_State_contextWrite {s0 : State} (s : State) (p : Nat) (w : Nat) (i : Nat) (v : U64) (hk : Keeps s0 s) :
    Keeps s0 (State.contextWrite s p w i v) := by
  rw [State.contextWrite.eq_def]
  repeat' (first
    | (with_reducible assumption)
    | (with_reducible apply keeps_State_onStream)
    | (with_reducible apply keeps_State_enableStream)
    | (with_reducible apply keeps_State_disableStream)
    | (extract_lets -underBinder)
    | (with_reducible refine Keeps.ite ?_ ?_))

theorem keeps_State_bar0Write {s0 : State} (s : State) (p : Nat) (offset : Nat) (v : U64) (hk : Keeps s0 s) :
    Keeps s0 (State.bar0Write s p offset v) := by
  rw [State.bar0Write.eq_def]
  repeat' (first
    | (with_reducible assumption)
    | (with_reducible apply keeps_State_onPartn)
    | (with_reducible apply keeps_State_mailboxCtrl)
    | (with_reducible apply keeps_State_mailboxReq)
    | (with_reducible apply keeps_State_contextWrite)
    | (with_reducible apply keeps_State_setPtRoot)
    | (with_reducible apply keeps_State_attach)
    | (with_reducible apply keeps_State_renewLease)
    | (with_reducible apply keeps_State_setFqHead)
    | (with_reducible apply keeps_execFaultRespResume)
    | (with_reducible apply keeps_execFaultRespFatal)
    | (extract_lets -underBinder)
    | (with_reducible refine Keeps.ite ?_ ?_)
    | split
    | (refine RKeeps.use ?_ (by assumption)))

theorem keeps_State_sendPending {s0 : State} (s : State) (p : Nat) (hk : Keeps s0 s) :
    Keeps s0 (State.sendPending s p) := by
  rw [State.sendPending.eq_def]
  repeat' (first
    | (with_reducible assumption)
    | (with_reducible apply keeps_State_signal)
    | (with_reducible apply keeps_State_onPartn)
    | (with_reducible refine Keeps.foldl ?_ ?_)
    | (intro _))

theorem keeps_State_msixWrite {s0 : State} (s : State) (p : Nat) (offset : Nat) (size : Nat) (v : U64) (hk : Keeps s0 s) :
    Keeps s0 (State.msixWrite s p offset size v) := by
  rw [State.msixWrite.eq_def]
  repeat' (first
    | (with_reducible assumption)
    | (with_reducible apply keeps_State_onPartn)
    | (with_reducible apply keeps_State_sendPending)
    | (extract_lets -underBinder)
    | (with_reducible refine Keeps.ite ?_ ?_))

theorem keeps_execRegisterWrite {s0 : State} (p : Nat) (bar : Nat) (offset : Nat) (size : Nat) (v : U64) (s : State) (hk : Keeps s0 s) :
    RKeeps s0 (execRegisterWrite p bar offset size v s) := by
  rw [execRegisterWrite.eq_def]
  repeat' (first
    | (with_reducible assumption)
    | (with_reducible apply keeps_State_msixWrite)
    | (with_reducible apply keeps_State_badAccess)
    | (with_reducible apply keeps_State_bar0Write)
    | (with_reducible apply keeps_State_pageWriteOrLatch)
    | (with_reducible apply RKeeps.next)
    | split)

theorem keeps_State_registerRead {s0 : State} (s : State) (p : Nat) (bar : Nat) (offset : Nat) (size : Nat) (hk : Keeps s0 s) :
    PKeeps s0 (State.registerRead s p bar offset size) := by
  rw [State.registerRead.eq_def]
  repeat' (first
    | (with_reducible assumption)
    | (with_reducible apply keeps_State_badAccess)
    | split
    | (with_reducible apply PKeeps.mk))

/-! ## Machine/Alu.lean -/


theorem keeps_execAluAdd {s0 : State} (c : Nat) (t : Nat) (w : U32) (s : State) (hk : Keeps s0 s) :
    RKeeps s0 (execAluAdd c t w s) := by
  rw [execAluAdd.eq_def]
  repeat' (first
    | (with_reducible assumption)
    | (with_reducible apply keeps_issue)
    | (with_reducible apply keeps_onThreadAct)
    | (with_reducible apply RKeeps.next))

theorem keeps_execAluSub {s0 : State} (c : Nat) (t : Nat) (w : U32) (s : State) (hk : Keeps s0 s) :
    RKeeps s0 (execAluSub c t w s) := by
  rw [execAluSub.eq_def]
  repeat' (first
    | (with_reducible assumption)
    | (with_reducible apply keeps_issue)
    | (with_reducible apply keeps_onThreadAct)
    | (with_reducible apply RKeeps.next))

theorem keeps_execAluAnd {s0 : State} (c : Nat) (t : Nat) (w : U32) (s : State) (hk : Keeps s0 s) :
    RKeeps s0 (execAluAnd c t w s) := by
  rw [execAluAnd.eq_def]
  repeat' (first
    | (with_reducible assumption)
    | (with_reducible apply keeps_issue)
    | (with_reducible apply keeps_onThreadAct)
    | (with_reducible apply RKeeps.next))

theorem keeps_execAluOr {s0 : State} (c : Nat) (t : Nat) (w : U32) (s : State) (hk : Keeps s0 s) :
    RKeeps s0 (execAluOr c t w s) := by
  rw [execAluOr.eq_def]
  repeat' (first
    | (with_reducible assumption)
    | (with_reducible apply keeps_issue)
    | (with_reducible apply keeps_onThreadAct)
    | (with_reducible apply RKeeps.next))

theorem keeps_execAluXor {s0 : State} (c : Nat) (t : Nat) (w : U32) (s : State) (hk : Keeps s0 s) :
    RKeeps s0 (execAluXor c t w s) := by
  rw [execAluXor.eq_def]
  repeat' (first
    | (with_reducible assumption)
    | (with_reducible apply keeps_issue)
    | (with_reducible apply keeps_onThreadAct)
    | (with_reducible apply RKeeps.next))

theorem keeps_execAluShl {s0 : State} (c : Nat) (t : Nat) (w : U32) (s : State) (hk : Keeps s0 s) :
    RKeeps s0 (execAluShl c t w s) := by
  rw [execAluShl.eq_def]
  repeat' (first
    | (with_reducible assumption)
    | (with_reducible apply keeps_issue)
    | (with_reducible apply keeps_onThreadAct)
    | (with_reducible apply RKeeps.next))

theorem keeps_execAluShr {s0 : State} (c : Nat) (t : Nat) (w : U32) (s : State) (hk : Keeps s0 s) :
    RKeeps s0 (execAluShr c t w s) := by
  rw [execAluShr.eq_def]
  repeat' (first
    | (with_reducible assumption)
    | (with_reducible apply keeps_issue)
    | (with_reducible apply keeps_onThreadAct)
    | (with_reducible apply RKeeps.next))

theorem keeps_execAluSra {s0 : State} (c : Nat) (t : Nat) (w : U32) (s : State) (hk : Keeps s0 s) :
    RKeeps s0 (execAluSra c t w s) := by
  rw [execAluSra.eq_def]
  repeat' (first
    | (with_reducible assumption)
    | (with_reducible apply keeps_issue)
    | (with_reducible apply keeps_onThreadAct)
    | (with_reducible apply RKeeps.next))

theorem keeps_execAluMul {s0 : State} (c : Nat) (t : Nat) (w : U32) (s : State) (hk : Keeps s0 s) :
    RKeeps s0 (execAluMul c t w s) := by
  rw [execAluMul.eq_def]
  repeat' (first
    | (with_reducible assumption)
    | (with_reducible apply keeps_issue)
    | (with_reducible apply keeps_onThreadAct)
    | (with_reducible apply RKeeps.next))

theorem keeps_execAluMulhu {s0 : State} (c : Nat) (t : Nat) (w : U32) (s : State) (hk : Keeps s0 s) :
    RKeeps s0 (execAluMulhu c t w s) := by
  rw [execAluMulhu.eq_def]
  repeat' (first
    | (with_reducible assumption)
    | (with_reducible apply keeps_issue)
    | (with_reducible apply keeps_onThreadAct)
    | (with_reducible apply RKeeps.next))

theorem keeps_execAluDivu {s0 : State} (c : Nat) (t : Nat) (w : U32) (s : State) (hk : Keeps s0 s) :
    RKeeps s0 (execAluDivu c t w s) := by
  rw [execAluDivu.eq_def]
  repeat' (first
    | (with_reducible assumption)
    | (with_reducible apply keeps_issue)
    | (with_reducible apply keeps_onThreadAct)
    | (with_reducible apply RKeeps.next))

theorem keeps_execAluRemu {s0 : State} (c : Nat) (t : Nat) (w : U32) (s : State) (hk : Keeps s0 s) :
    RKeeps s0 (execAluRemu c t w s) := by
  rw [execAluRemu.eq_def]
  repeat' (first
    | (with_reducible assumption)
    | (with_reducible apply keeps_issue)
    | (with_reducible apply keeps_onThreadAct)
    | (with_reducible apply RKeeps.next))

theorem keeps_execAluMin {s0 : State} (c : Nat) (t : Nat) (w : U32) (s : State) (hk : Keeps s0 s) :
    RKeeps s0 (execAluMin c t w s) := by
  rw [execAluMin.eq_def]
  repeat' (first
    | (with_reducible assumption)
    | (with_reducible apply keeps_issue)
    | (with_reducible apply keeps_onThreadAct)
    | (with_reducible apply RKeeps.next))

theorem keeps_execAluMax {s0 : State} (c : Nat) (t : Nat) (w : U32) (s : State) (hk : Keeps s0 s) :
    RKeeps s0 (execAluMax c t w s) := by
  rw [execAluMax.eq_def]
  repeat' (first
    | (with_reducible assumption)
    | (with_reducible apply keeps_issue)
    | (with_reducible apply keeps_onThreadAct)
    | (with_reducible apply RKeeps.next))

theorem keeps_execAluFadd {s0 : State} (c : Nat) (t : Nat) (w : U32) (s : State) (hk : Keeps s0 s) :
    RKeeps s0 (execAluFadd c t w s) := by
  rw [execAluFadd.eq_def]
  repeat' (first
    | (with_reducible assumption)
    | (with_reducible apply keeps_issue)
    | (with_reducible apply keeps_onThreadAct)
    | (with_reducible apply RKeeps.next))

theorem keeps_execAluFsub {s0 : State} (c : Nat) (t : Nat) (w : U32) (s : State) (hk : Keeps s0 s) :
    RKeeps s0 (execAluFsub c t w s) := by
  rw [execAluFsub.eq_def]
  repeat' (first
    | (with_reducible assumption)
    | (with_reducible apply keeps_issue)
    | (with_reducible apply keeps_onThreadAct)
    | (with_reducible apply RKeeps.next))

theorem keeps_execAluFmul {s0 : State} (c : Nat) (t : Nat) (w : U32) (s : State) (hk : Keeps s0 s) :
    RKeeps s0 (execAluFmul c t w s) := by
  rw [execAluFmul.eq_def]
  repeat' (first
    | (with_reducible assumption)
    | (with_reducible apply keeps_issue)
    | (with_reducible apply keeps_onThreadAct)
    | (with_reducible apply RKeeps.next))

theorem keeps_execAluFdiv {s0 : State} (c : Nat) (t : Nat) (w : U32) (s : State) (hk : Keeps s0 s) :
    RKeeps s0 (execAluFdiv c t w s) := by
  rw [execAluFdiv.eq_def]
  repeat' (first
    | (with_reducible assumption)
    | (with_reducible apply keeps_issue)
    | (with_reducible apply keeps_onThreadAct)
    | (with_reducible apply RKeeps.next))

theorem keeps_execAluFmin {s0 : State} (c : Nat) (t : Nat) (w : U32) (s : State) (hk : Keeps s0 s) :
    RKeeps s0 (execAluFmin c t w s) := by
  rw [execAluFmin.eq_def]
  repeat' (first
    | (with_reducible assumption)
    | (with_reducible apply keeps_issue)
    | (with_reducible apply keeps_onThreadAct)
    | (with_reducible apply RKeeps.next))

theorem keeps_execAluFmax {s0 : State} (c : Nat) (t : Nat) (w : U32) (s : State) (hk : Keeps s0 s) :
    RKeeps s0 (execAluFmax c t w s) := by
  rw [execAluFmax.eq_def]
  repeat' (first
    | (with_reducible assumption)
    | (with_reducible apply keeps_issue)
    | (with_reducible apply keeps_onThreadAct)
    | (with_reducible apply RKeeps.next))

theorem keeps_execAddi {s0 : State} (c : Nat) (t : Nat) (w : U32) (s : State) (hk : Keeps s0 s) :
    RKeeps s0 (execAddi c t w s) := by
  rw [execAddi.eq_def]
  repeat' (first
    | (with_reducible assumption)
    | (with_reducible apply keeps_issue)
    | (with_reducible apply keeps_onThreadAct)
    | (with_reducible apply RKeeps.next))

theorem keeps_execAndi {s0 : State} (c : Nat) (t : Nat) (w : U32) (s : State) (hk : Keeps s0 s) :
    RKeeps s0 (execAndi c t w s) := by
  rw [execAndi.eq_def]
  repeat' (first
    | (with_reducible assumption)
    | (with_reducible apply keeps_issue)
    | (with_reducible apply keeps_onThreadAct)
    | (with_reducible apply RKeeps.next))

theorem keeps_execOri {s0 : State} (c : Nat) (t : Nat) (w : U32) (s : State) (hk : Keeps s0 s) :
    RKeeps s0 (execOri c t w s) := by
  rw [execOri.eq_def]
  repeat' (first
    | (with_reducible assumption)
    | (with_reducible apply keeps_issue)
    | (with_reducible apply keeps_onThreadAct)
    | (with_reducible apply RKeeps.next))

theorem keeps_execXori {s0 : State} (c : Nat) (t : Nat) (w : U32) (s : State) (hk : Keeps s0 s) :
    RKeeps s0 (execXori c t w s) := by
  rw [execXori.eq_def]
  repeat' (first
    | (with_reducible assumption)
    | (with_reducible apply keeps_issue)
    | (with_reducible apply keeps_onThreadAct)
    | (with_reducible apply RKeeps.next))

theorem keeps_execShli {s0 : State} (c : Nat) (t : Nat) (w : U32) (s : State) (hk : Keeps s0 s) :
    RKeeps s0 (execShli c t w s) := by
  rw [execShli.eq_def]
  repeat' (first
    | (with_reducible assumption)
    | (with_reducible apply keeps_issue)
    | (with_reducible apply keeps_onThreadAct)
    | (with_reducible apply RKeeps.next))

theorem keeps_execShri {s0 : State} (c : Nat) (t : Nat) (w : U32) (s : State) (hk : Keeps s0 s) :
    RKeeps s0 (execShri c t w s) := by
  rw [execShri.eq_def]
  repeat' (first
    | (with_reducible assumption)
    | (with_reducible apply keeps_issue)
    | (with_reducible apply keeps_onThreadAct)
    | (with_reducible apply RKeeps.next))

theorem keeps_execSrai {s0 : State} (c : Nat) (t : Nat) (w : U32) (s : State) (hk : Keeps s0 s) :
    RKeeps s0 (execSrai c t w s) := by
  rw [execSrai.eq_def]
  repeat' (first
    | (with_reducible assumption)
    | (with_reducible apply keeps_issue)
    | (with_reducible apply keeps_onThreadAct)
    | (with_reducible apply RKeeps.next))

theorem keeps_execLis {s0 : State} (c : Nat) (t : Nat) (w : U32) (s : State) (hk : Keeps s0 s) :
    RKeeps s0 (execLis c t w s) := by
  rw [execLis.eq_def]
  repeat' (first
    | (with_reducible assumption)
    | (with_reducible apply keeps_issue)
    | (with_reducible apply keeps_reserveChecked)
    | (with_reducible apply keeps_onThreadAct)
    | (with_reducible apply RKeeps.next)
    | (intro _))

theorem keeps_ldAct {s0 : State} (c : Nat) (t : Nat) (w : U32) (s : State) (hk : Keeps s0 s) :
    Keeps s0 (ldAct c t w s) := by
  rw [ldAct.eq_def]
  repeat' (first
    | (with_reducible assumption)
    | (with_reducible apply keeps_haltAt)
    | (with_reducible apply keeps_State_correctPond)
    | (with_reducible apply keeps_State_onThread)
    | (extract_lets -underBinder)
    | (with_reducible refine Keeps.ite ?_ ?_)
    | split)

theorem keeps_execLd {s0 : State} (c : Nat) (t : Nat) (w : U32) (s : State) (hk : Keeps s0 s) :
    RKeeps s0 (execLd c t w s) := by
  rw [execLd.eq_def]
  repeat' (first
    | (with_reducible assumption)
    | (with_reducible apply keeps_issue)
    | (with_reducible apply keeps_lockChecked)
    | (with_reducible apply keeps_ldAct)
    | (with_reducible apply RKeeps.next)
    | (intro _))

theorem keeps_execPondLoadResult {s0 : State} (c : Nat) (t : Nat) (s : State) (hk : Keeps s0 s) :
    RKeeps s0 (execPondLoadResult c t s) := by
  rw [execPondLoadResult.eq_def]
  repeat' (first
    | (with_reducible assumption)
    | (with_reducible apply keeps_State_onThread)
    | (with_reducible apply RKeeps.next)
    | split)

theorem keeps_stAct {s0 : State} (c : Nat) (t : Nat) (w : U32) (s : State) (hk : Keeps s0 s) :
    Keeps s0 (stAct c t w s) := by
  rw [stAct.eq_def]
  repeat' (first
    | (with_reducible assumption)
    | (with_reducible apply keeps_haltAt)
    | (with_reducible apply keeps_State_onCore)
    | (with_reducible apply keeps_State_onThread)
    | (extract_lets -underBinder)
    | split)

theorem keeps_execSt {s0 : State} (c : Nat) (t : Nat) (w : U32) (s : State) (hk : Keeps s0 s) :
    RKeeps s0 (execSt c t w s) := by
  rw [execSt.eq_def]
  repeat' (first
    | (with_reducible assumption)
    | (with_reducible apply keeps_issue)
    | (with_reducible apply keeps_lockChecked)
    | (with_reducible apply keeps_stAct)
    | (with_reducible apply RKeeps.next)
    | (intro _))

theorem keeps_execCmpEq {s0 : State} (c : Nat) (t : Nat) (w : U32) (s : State) (hk : Keeps s0 s) :
    RKeeps s0 (execCmpEq c t w s) := by
  rw [execCmpEq.eq_def]
  repeat' (first
    | (with_reducible assumption)
    | (with_reducible apply keeps_issue)
    | (with_reducible apply keeps_reserveChecked)
    | (with_reducible apply keeps_onThreadAct)
    | (with_reducible apply RKeeps.next)
    | (intro _))

theorem keeps_execCmpNe {s0 : State} (c : Nat) (t : Nat) (w : U32) (s : State) (hk : Keeps s0 s) :
    RKeeps s0 (execCmpNe c t w s) := by
  rw [execCmpNe.eq_def]
  repeat' (first
    | (with_reducible assumption)
    | (with_reducible apply keeps_issue)
    | (with_reducible apply keeps_reserveChecked)
    | (with_reducible apply keeps_onThreadAct)
    | (with_reducible apply RKeeps.next)
    | (intro _))

theorem keeps_execCmpLt {s0 : State} (c : Nat) (t : Nat) (w : U32) (s : State) (hk : Keeps s0 s) :
    RKeeps s0 (execCmpLt c t w s) := by
  rw [execCmpLt.eq_def]
  repeat' (first
    | (with_reducible assumption)
    | (with_reducible apply keeps_issue)
    | (with_reducible apply keeps_reserveChecked)
    | (with_reducible apply keeps_onThreadAct)
    | (with_reducible apply RKeeps.next)
    | (intro _))

theorem keeps_execCmpLtu {s0 : State} (c : Nat) (t : Nat) (w : U32) (s : State) (hk : Keeps s0 s) :
    RKeeps s0 (execCmpLtu c t w s) := by
  rw [execCmpLtu.eq_def]
  repeat' (first
    | (with_reducible assumption)
    | (with_reducible apply keeps_issue)
    | (with_reducible apply keeps_reserveChecked)
    | (with_reducible apply keeps_onThreadAct)
    | (with_reducible apply RKeeps.next)
    | (intro _))

theorem keeps_execCmpGe {s0 : State} (c : Nat) (t : Nat) (w : U32) (s : State) (hk : Keeps s0 s) :
    RKeeps s0 (execCmpGe c t w s) := by
  rw [execCmpGe.eq_def]
  repeat' (first
    | (with_reducible assumption)
    | (with_reducible apply keeps_issue)
    | (with_reducible apply keeps_reserveChecked)
    | (with_reducible apply keeps_onThreadAct)
    | (with_reducible apply RKeeps.next)
    | (intro _))

theorem keeps_execCmpGeu {s0 : State} (c : Nat) (t : Nat) (w : U32) (s : State) (hk : Keeps s0 s) :
    RKeeps s0 (execCmpGeu c t w s) := by
  rw [execCmpGeu.eq_def]
  repeat' (first
    | (with_reducible assumption)
    | (with_reducible apply keeps_issue)
    | (with_reducible apply keeps_reserveChecked)
    | (with_reducible apply keeps_onThreadAct)
    | (with_reducible apply RKeeps.next)
    | (intro _))

theorem keeps_fcmpAct {s0 : State} (f : U64 → U64 → Bool) (c : Nat) (t : Nat) (w : U32) (s : State) (hk : Keeps s0 s) :
    Keeps s0 (fcmpAct f c t w s) := by
  rw [fcmpAct.eq_def]
  repeat' (first
    | (with_reducible assumption)
    | (with_reducible apply keeps_onThreadAct)
    | (with_reducible apply keeps_State_onCore))

theorem keeps_execCmpFeq {s0 : State} (c : Nat) (t : Nat) (w : U32) (s : State) (hk : Keeps s0 s) :
    RKeeps s0 (execCmpFeq c t w s) := by
  rw [execCmpFeq.eq_def]
  repeat' (first
    | (with_reducible assumption)
    | (with_reducible apply keeps_issue)
    | (with_reducible apply keeps_reserveChecked)
    | (with_reducible apply keeps_fcmpAct)
    | (with_reducible apply RKeeps.next)
    | (intro _))

theorem keeps_execCmpFne {s0 : State} (c : Nat) (t : Nat) (w : U32) (s : State) (hk : Keeps s0 s) :
    RKeeps s0 (execCmpFne c t w s) := by
  rw [execCmpFne.eq_def]
  repeat' (first
    | (with_reducible assumption)
    | (with_reducible apply keeps_issue)
    | (with_reducible apply keeps_reserveChecked)
    | (with_reducible apply keeps_fcmpAct)
    | (with_reducible apply RKeeps.next)
    | (intro _))

theorem keeps_execCmpFlt {s0 : State} (c : Nat) (t : Nat) (w : U32) (s : State) (hk : Keeps s0 s) :
    RKeeps s0 (execCmpFlt c t w s) := by
  rw [execCmpFlt.eq_def]
  repeat' (first
    | (with_reducible assumption)
    | (with_reducible apply keeps_issue)
    | (with_reducible apply keeps_reserveChecked)
    | (with_reducible apply keeps_fcmpAct)
    | (with_reducible apply RKeeps.next)
    | (intro _))

theorem keeps_execCmpFle {s0 : State} (c : Nat) (t : Nat) (w : U32) (s : State) (hk : Keeps s0 s) :
    RKeeps s0 (execCmpFle c t w s) := by
  rw [execCmpFle.eq_def]
  repeat' (first
    | (with_reducible assumption)
    | (with_reducible apply keeps_issue)
    | (with_reducible apply keeps_reserveChecked)
    | (with_reducible apply keeps_fcmpAct)
    | (with_reducible apply RKeeps.next)
    | (intro _))

theorem keeps_execCmpFgt {s0 : State} (c : Nat) (t : Nat) (w : U32) (s : State) (hk : Keeps s0 s) :
    RKeeps s0 (execCmpFgt c t w s) := by
  rw [execCmpFgt.eq_def]
  repeat' (first
    | (with_reducible assumption)
    | (with_reducible apply keeps_issue)
    | (with_reducible apply keeps_reserveChecked)
    | (with_reducible apply keeps_fcmpAct)
    | (with_reducible apply RKeeps.next)
    | (intro _))

theorem keeps_execCmpFge {s0 : State} (c : Nat) (t : Nat) (w : U32) (s : State) (hk : Keeps s0 s) :
    RKeeps s0 (execCmpFge c t w s) := by
  rw [execCmpFge.eq_def]
  repeat' (first
    | (with_reducible assumption)
    | (with_reducible apply keeps_issue)
    | (with_reducible apply keeps_reserveChecked)
    | (with_reducible apply keeps_fcmpAct)
    | (with_reducible apply RKeeps.next)
    | (intro _))

/-! ## Machine/Control.lean -/


theorem keeps_takeBranch {s0 : State} (target : Int) (c : Nat) (t : Nat) (w : U32) (s : State) (hk : Keeps s0 s) :
    Keeps s0 (takeBranch target c t w s) := by
  rw [takeBranch.eq_def]
  repeat' (first
    | (with_reducible assumption)
    | (with_reducible apply keeps_State_onThread)
    | (with_reducible apply keeps_haltAt)
    | (with_reducible refine Keeps.ite ?_ ?_))

theorem keeps_brAct {s0 : State} (c : Nat) (t : Nat) (w : U32) (s : State) (hk : Keeps s0 s) :
    Keeps s0 (brAct c t w s) := by
  rw [brAct.eq_def]
  repeat' (first
    | (with_reducible assumption)
    | (with_reducible apply keeps_takeBranch))

theorem keeps_execBr {s0 : State} (c : Nat) (t : Nat) (w : U32) (s : State) (hk : Keeps s0 s) :
    RKeeps s0 (execBr c t w s) := by
  rw [execBr.eq_def]
  repeat' (first
    | (with_reducible assumption)
    | (with_reducible apply keeps_issue)
    | (with_reducible apply keeps_brAct)
    | (with_reducible apply RKeeps.next))

theorem keeps_execBranchShadowEnd {s0 : State} (c : Nat) (t : Nat) (s : State) (hk : Keeps s0 s) :
    RKeeps s0 (execBranchShadowEnd c t s) := by
  rw [execBranchShadowEnd.eq_def]
  repeat' (first
    | (with_reducible assumption)
    | (with_reducible apply keeps_State_onThread)
    | (with_reducible apply RKeeps.next)
    | split)

theorem keeps_jrAct {s0 : State} (c : Nat) (t : Nat) (w : U32) (s : State) (hk : Keeps s0 s) :
    Keeps s0 (jrAct c t w s) := by
  rw [jrAct.eq_def]
  repeat' (first
    | (with_reducible assumption)
    | (with_reducible apply keeps_takeBranch))

theorem keeps_execJr {s0 : State} (c : Nat) (t : Nat) (w : U32) (s : State) (hk : Keeps s0 s) :
    RKeeps s0 (execJr c t w s) := by
  rw [execJr.eq_def]
  repeat' (first
    | (with_reducible assumption)
    | (with_reducible apply keeps_issue)
    | (with_reducible apply keeps_jrAct)
    | (with_reducible apply RKeeps.next))

theorem keeps_loopAct {s0 : State} (c : Nat) (t : Nat) (w : U32) (s : State) (hk : Keeps s0 s) :
    Keeps s0 (loopAct c t w s) := by
  rw [loopAct.eq_def]
  repeat' (first
    | (with_reducible assumption)
    | (with_reducible apply keeps_haltAt)
    | (with_reducible apply keeps_State_onThread)
    | (extract_lets -underBinder)
    | (with_reducible refine Keeps.ite ?_ ?_))

theorem keeps_execLoop {s0 : State} (c : Nat) (t : Nat) (w : U32) (s : State) (hk : Keeps s0 s) :
    RKeeps s0 (execLoop c t w s) := by
  rw [execLoop.eq_def]
  repeat' (first
    | (with_reducible assumption)
    | (with_reducible apply keeps_issue)
    | (with_reducible apply keeps_reserveChecked)
    | (with_reducible apply keeps_loopAct)
    | (with_reducible apply RKeeps.next)
    | (intro _))

theorem keeps_execEndThread {s0 : State} (c : Nat) (t : Nat) (w : U32) (s : State) (hk : Keeps s0 s) :
    RKeeps s0 (execEndThread c t w s) := by
  rw [execEndThread.eq_def]
  repeat' (first
    | (with_reducible assumption)
    | (with_reducible apply keeps_issue)
    | (with_reducible apply keeps_State_onThread)
    | (with_reducible apply RKeeps.next)
    | (intro _))

theorem keeps_haltAct {s0 : State} (c : Nat) (t : Nat) (w : U32) (s : State) (hk : Keeps s0 s) :
    Keeps s0 (haltAct c t w s) := by
  rw [haltAct.eq_def]
  repeat' (first
    | (with_reducible assumption)
    | (with_reducible apply keeps_haltAt)
    | (with_reducible refine Keeps.ite ?_ ?_))

theorem keeps_execHalt {s0 : State} (c : Nat) (t : Nat) (w : U32) (s : State) (hk : Keeps s0 s) :
    RKeeps s0 (execHalt c t w s) := by
  rw [execHalt.eq_def]
  repeat' (first
    | (with_reducible assumption)
    | (with_reducible apply keeps_State_onCore)
    | (with_reducible apply keeps_State_halt)
    | (with_reducible apply keeps_haltAt)
    | (with_reducible apply keeps_issue)
    | (with_reducible apply keeps_haltAct)
    | (with_reducible apply RKeeps.next)
    | (extract_lets -underBinder)
    | split)

theorem keeps_barAct {s0 : State} (c : Nat) (t : Nat) (w : U32) (s : State) (hk : Keeps s0 s) :
    Keeps s0 (barAct c t w s) := by
  rw [barAct.eq_def]
  repeat' (first
    | (with_reducible assumption)
    | (with_reducible apply keeps_State_onThread))

theorem keeps_execBar {s0 : State} (c : Nat) (t : Nat) (w : U32) (s : State) (hk : Keeps s0 s) :
    RKeeps s0 (execBar c t w s) := by
  rw [execBar.eq_def]
  repeat' (first
    | (with_reducible assumption)
    | (with_reducible apply keeps_issue)
    | (with_reducible apply keeps_barAct)
    | (with_reducible apply RKeeps.next))

theorem keeps_execBarRelease {s0 : State} (c : Nat) (mask : Byte) (s : State) (hk : Keeps s0 s) :
    RKeeps s0 (execBarRelease c mask s) := by
  rw [execBarRelease.eq_def]
  repeat' (first
    | (with_reducible assumption)
    | (with_reducible apply keeps_State_setCore)
    | (with_reducible apply RKeeps.next)
    | (extract_lets -underBinder)
    | split)

theorem keeps_waitqAct {s0 : State} (c : Nat) (t : Nat) (_w : U32) (s : State) (hk : Keeps s0 s) :
    Keeps s0 (waitqAct c t _w s) := by
  rw [waitqAct.eq_def]
  repeat' (first
    | (with_reducible assumption)
    | (with_reducible apply keeps_State_onThread))

theorem keeps_execWaitq {s0 : State} (c : Nat) (t : Nat) (w : U32) (s : State) (hk : Keeps s0 s) :
    RKeeps s0 (execWaitq c t w s) := by
  rw [execWaitq.eq_def]
  repeat' (first
    | (with_reducible assumption)
    | (with_reducible apply keeps_issue)
    | (with_reducible apply keeps_waitqAct)
    | (with_reducible apply RKeeps.next))

theorem keeps_execWaitqRelease {s0 : State} (c : Nat) (t : Nat) (s : State) (hk : Keeps s0 s) :
    RKeeps s0 (execWaitqRelease c t s) := by
  rw [execWaitqRelease.eq_def]
  repeat' (first
    | (with_reducible assumption)
    | (with_reducible apply keeps_State_onThread)
    | (with_reducible apply RKeeps.next)
    | (extract_lets -underBinder)
    | split)

theorem keeps_csrrAct {s0 : State} (c : Nat) (t : Nat) (w : U32) (s : State) (hk : Keeps s0 s) :
    Keeps s0 (csrrAct c t w s) := by
  rw [csrrAct.eq_def]
  repeat' (first
    | (with_reducible assumption)
    | (with_reducible apply keeps_State_fresh)
    | (with_reducible apply keeps_State_onCore)
    | (with_reducible apply keeps_State_onThread)
    | (extract_lets -underBinder)
    | (with_reducible refine Keeps.ite ?_ ?_))

theorem keeps_execCsrr {s0 : State} (c : Nat) (t : Nat) (w : U32) (s : State) (hk : Keeps s0 s) :
    RKeeps s0 (execCsrr c t w s) := by
  rw [execCsrr.eq_def]
  repeat' (first
    | (with_reducible assumption)
    | (with_reducible apply keeps_issue)
    | (with_reducible apply keeps_csrrAct)
    | (with_reducible apply RKeeps.next))

theorem keeps_mwaitAct {s0 : State} (c : Nat) (t : Nat) (w : U32) (s : State) (hk : Keeps s0 s) :
    Keeps s0 (mwaitAct c t w s) := by
  rw [mwaitAct.eq_def]
  repeat' (first
    | (with_reducible assumption)
    | (with_reducible apply keeps_haltAt)
    | (with_reducible apply keeps_State_onThread)
    | (extract_lets -underBinder)
    | (with_reducible refine Keeps.ite ?_ ?_)
    | split)

theorem keeps_execMwait {s0 : State} (c : Nat) (t : Nat) (w : U32) (s : State) (hk : Keeps s0 s) :
    RKeeps s0 (execMwait c t w s) := by
  rw [execMwait.eq_def]
  repeat' (first
    | (with_reducible assumption)
    | (with_reducible apply keeps_issue)
    | (with_reducible apply keeps_reserveChecked)
    | (with_reducible apply keeps_mwaitAct)
    | (with_reducible apply RKeeps.next)
    | (intro _))

theorem keeps_execMwaitRelease {s0 : State} (c : Nat) (t : Nat) (s : State) (hk : Keeps s0 s) :
    RKeeps s0 (execMwaitRelease c t s) := by
  rw [execMwaitRelease.eq_def]
  repeat' (first
    | (with_reducible assumption)
    | (with_reducible apply keeps_State_endMwait)
    | (with_reducible apply keeps_State_onThread)
    | (with_reducible apply RKeeps.next)
    | split)

/-! ## Machine/Supervision.lean -/


theorem keeps_State_setProc {s0 : State} (s : State) (n : Nat) (x : Proc) (hk : Keeps s0 s) :
    Keeps s0 (State.setProc s n x) := by
  rw [State.setProc.eq_def]
  repeat' (first
    | (with_reducible assumption)
    | (with_reducible exact id)
    | (with_reducible exact Nat.le_refl _)
    | (with_reducible exact BitVec.le_refl _)
    | (with_reducible refine Keeps.boxed ?_ ?_ ?_ ?_)
    | (extract_lets -underBinder)
    | (with_reducible rw [State.mk_boxed]))

theorem keeps_State_setSlot {s0 : State} (s : State) (i : Nat) (x : FwSlot) (hk : Keeps s0 s) :
    Keeps s0 (State.setSlot s i x) := by
  rw [State.setSlot.eq_def]
  repeat' (first
    | (with_reducible assumption)
    | (with_reducible exact id)
    | (with_reducible exact Nat.le_refl _)
    | (with_reducible exact BitVec.le_refl _)
    | (with_reducible refine Keeps.boxed ?_ ?_ ?_ ?_)
    | (with_reducible rw [State.mk_boxed]))

theorem keeps_State_failUpdate {s0 : State} (s : State) (reason : Nat) (hk : Keeps s0 s) :
    Keeps s0 (State.failUpdate s reason) := by
  rw [State.failUpdate.eq_def]
  repeat' (first
    | (with_reducible assumption)
    | (with_reducible exact id)
    | (with_reducible exact Nat.le_refl _)
    | (with_reducible exact BitVec.le_refl _)
    | (with_reducible refine Keeps.boxed ?_ ?_ ?_ ?_)
    | (extract_lets -underBinder)
    | (with_reducible refine Keeps.ite ?_ ?_)
    | (with_reducible rw [State.mk_boxed]))

theorem keeps_State_haltWork {s0 : State} (s : State) (hk : Keeps s0 s) :
    Keeps s0 (State.haltWork s) := by
  rw [State.haltWork.eq_def]
  repeat' (first
    | (with_reducible assumption)
    | (with_reducible exact id)
    | (with_reducible exact Nat.le_refl _)
    | (with_reducible exact BitVec.le_refl _)
    | (with_reducible apply keeps_State_endMwaits)
    | (with_reducible refine Keeps.boxed ?_ ?_ ?_ ?_)
    | (extract_lets -underBinder)
    | (with_reducible rw [State.mk_boxed]))

theorem keeps_State_fatalStop {s0 : State} (s : State) (cause : Nat) (proc : Nat) (hk : Keeps s0 s) :
    Keeps s0 (State.fatalStop s cause proc) := by
  rw [State.fatalStop.eq_def]
  repeat' (first
    | (with_reducible assumption)
    | (with_reducible exact id)
    | (with_reducible exact Nat.le_refl _)
    | (with_reducible exact BitVec.le_refl _)
    | (with_reducible apply keeps_State_failUpdate)
    | (with_reducible apply keeps_State_haltWork)
    | (with_reducible apply keeps_State_bump)
    | (with_reducible apply keeps_State_raiseM)
    | (with_reducible refine Keeps.boxed ?_ ?_ ?_ ?_)
    | (extract_lets -underBinder)
    | (with_reducible refine Keeps.ite ?_ ?_)
    | (with_reducible rw [State.mk_boxed])
    | (dsimp +zetaDelta only))

theorem keeps_State_fatalNow {s0 : State} (s : State) (cause : Nat) (proc : Nat) (hk : Keeps s0 s) :
    Keeps s0 (State.fatalNow s cause proc) := by
  rw [State.fatalNow.eq_def]
  repeat' (first
    | (with_reducible assumption)
    | (with_reducible apply keeps_State_fatalStop)
    | split)

theorem keeps_execFatalError {s0 : State} (cause : Nat) (proc : Nat) (s : State) (hk : Keeps s0 s) :
    RKeeps s0 (execFatalError cause proc s) := by
  rw [execFatalError.eq_def]
  repeat' (first
    | (with_reducible assumption)
    | (with_reducible apply keeps_State_fatalNow)
    | (with_reducible apply RKeeps.next))

theorem keeps_State_releaseDumps {s0 : State} (s : State) (hk : Keeps s0 s) :
    Keeps s0 (State.releaseDumps s) := by
  rw [State.releaseDumps.eq_def]
  repeat' (first
    | (with_reducible assumption)
    | (with_reducible exact id)
    | (with_reducible exact Nat.le_refl _)
    | (with_reducible exact BitVec.le_refl _)
    | (with_reducible refine Keeps.boxed ?_ ?_ ?_ ?_)
    | (extract_lets -underBinder)
    | (with_reducible rw [State.mk_boxed]))

theorem keeps_execDumpRelease {s0 : State} (s : State) (hk : Keeps s0 s) :
    RKeeps s0 (execDumpRelease s) := by
  rw [execDumpRelease.eq_def]
  repeat' (first
    | (with_reducible assumption)
    | (with_reducible apply keeps_State_releaseDumps)
    | (with_reducible apply RKeeps.next)
    | (extract_lets -underBinder)
    | (with_reducible refine Keeps.ite ?_ ?_))

theorem keeps_State_restartWhole {s0 : State} (s : State) (n : Nat) (hk : Keeps s0 s) :
    Keeps s0 (State.restartWhole s n) := by
  rw [State.restartWhole.eq_def]
  repeat' (first
    | (with_reducible assumption)
    | (with_reducible exact id)
    | (with_reducible exact Nat.le_refl _)
    | (with_reducible exact BitVec.le_refl _)
    | (with_reducible apply keeps_State_failUpdate)
    | (with_reducible apply keeps_State_setProc)
    | (with_reducible apply keeps_State_raiseM)
    | (with_reducible apply keeps_State_fatalNow)
    | (with_reducible refine Keeps.boxed ?_ ?_ ?_ ?_)
    | (extract_lets -underBinder)
    | (with_reducible refine Keeps.ite ?_ ?_)
    | (with_reducible rw [State.mk_boxed]))

theorem keeps_State_supervisorFault {s0 : State} (s : State) (n : Nat) (hk : Keeps s0 s) :
    Keeps s0 (State.supervisorFault s n) := by
  rw [State.supervisorFault.eq_def]
  repeat' (first
    | (with_reducible assumption)
    | (with_reducible exact id)
    | (with_reducible exact Nat.le_refl _)
    | (with_reducible exact BitVec.le_refl _)
    | (with_reducible apply keeps_State_restartWhole)
    | (with_reducible apply keeps_State_fatalNow)
    | (with_reducible apply keeps_State_raiseM)
    | (with_reducible refine Keeps.boxed ?_ ?_ ?_ ?_)
    | (extract_lets -underBinder)
    | (with_reducible refine Keeps.ite ?_ ?_)
    | (with_reducible rw [State.mk_boxed]))

theorem keeps_State_restartProc {s0 : State} (s : State) (n : Nat) (hk : Keeps s0 s) :
    Keeps s0 (State.restartProc s n) := by
  rw [State.restartProc.eq_def]
  repeat' (first
    | (with_reducible assumption)
    | (with_reducible apply keeps_State_supervisorFault)
    | (with_reducible apply keeps_State_restartWhole)
    | (with_reducible refine Keeps.ite ?_ ?_))

theorem keeps_State_restartComponent {s0 : State} (s : State) (n : Nat) (c : Nat) (hk : Keeps s0 s) :
    Keeps s0 (State.restartComponent s n c) := by
  rw [State.restartComponent.eq_def]
  repeat' (first
    | (with_reducible assumption)
    | (with_reducible apply keeps_State_setProc)
    | (with_reducible apply keeps_State_restartProc)
    | (extract_lets -underBinder)
    | (with_reducible refine Keeps.ite ?_ ?_))

theorem keeps_State_componentsFault {s0 : State} (s : State) (n : Nat) (hung : List Nat) (hk : Keeps s0 s) :
    Keeps s0 (State.componentsFault s n hung) := by
  rw [State.componentsFault.eq_def]
  repeat' (first
    | (with_reducible assumption)
    | (with_reducible apply keeps_State_supervisorFault)
    | (with_reducible apply keeps_State_restartComponent)
    | (with_reducible apply keeps_State_restartProc)
    | (extract_lets -underBinder)
    | (with_reducible refine Keeps.ite ?_ ?_)
    | split
    | (dsimp +zetaDelta only))

theorem keeps_execWatchdogExpiry {s0 : State} (n : Nat) (hung : List Nat) (s : State) (hk : Keeps s0 s) :
    RKeeps s0 (execWatchdogExpiry n hung s) := by
  rw [execWatchdogExpiry.eq_def]
  repeat' (first
    | (with_reducible assumption)
    | (with_reducible apply keeps_State_componentsFault)
    | (with_reducible apply RKeeps.next))

theorem keeps_State_writeBoot {s0 : State} (s : State) (prov : Option Nat) (active : Nat) (hk : Keeps s0 s) :
    Keeps s0 (State.writeBoot s prov active) := by
  rw [State.writeBoot.eq_def]
  repeat' (first
    | (with_reducible assumption)
    | (with_reducible exact id)
    | (with_reducible exact Nat.le_refl _)
    | (with_reducible exact BitVec.le_refl _)
    | (with_reducible refine Keeps.boxed ?_ ?_ ?_ ?_)
    | (extract_lets -underBinder)
    | (with_reducible rw [State.mk_boxed]))

theorem keeps_State_handoverBack {s0 : State} (s : State) (hk : Keeps s0 s) :
    Keeps s0 (State.handoverBack s) := by
  rw [State.handoverBack.eq_def]
  repeat' (first
    | (with_reducible assumption)
    | (with_reducible exact id)
    | (with_reducible exact Nat.le_refl _)
    | (with_reducible exact BitVec.le_refl _)
    | (with_reducible apply keeps_State_setSlot)
    | (with_reducible apply keeps_State_writeBoot)
    | (with_reducible apply keeps_State_raiseM)
    | (with_reducible refine Keeps.boxed ?_ ?_ ?_ ?_)
    | (extract_lets -underBinder)
    | (with_reducible rw [State.mk_boxed]))

theorem keeps_execProtectionBreach {s0 : State} (n : Nat) (comp : Nat) (s : State) (hk : Keeps s0 s) :
    RKeeps s0 (execProtectionBreach n comp s) := by
  rw [execProtectionBreach.eq_def]
  repeat' (first
    | (with_reducible assumption)
    | (with_reducible apply keeps_State_componentsFault)
    | (with_reducible apply keeps_State_handoverBack)
    | (with_reducible apply RKeeps.next)
    | (extract_lets -underBinder)
    | (with_reducible refine Keeps.ite ?_ ?_))

theorem keeps_execProcessorMemoryUncorrectable {s0 : State} (n : Nat) (s : State) (hk : Keeps s0 s) :
    RKeeps s0 (execProcessorMemoryUncorrectable n s) := by
  rw [execProcessorMemoryUncorrectable.eq_def]
  repeat' (first
    | (with_reducible assumption)
    | (with_reducible apply keeps_State_restartProc)
    | (with_reducible apply RKeeps.next)
    | split)

theorem keeps_State_restartRecoveries {s0 : State} (s : State) (t : Nat) (hk : Keeps s0 s) :
    Keeps s0 (State.restartRecoveries s t) := by
  rw [State.restartRecoveries.eq_def]
  repeat' (first
    | (with_reducible assumption)
    | (with_reducible exact id)
    | (with_reducible exact Nat.le_refl _)
    | (with_reducible exact BitVec.le_refl _)
    | (with_reducible refine Keeps.boxed ?_ ?_ ?_ ?_)
    | (with_reducible rw [State.mk_boxed]))

theorem keeps_State_afterRestart {s0 : State} (s : State) (n : Nat) (micros : Nat) (ladder : Bool) (hk : Keeps s0 s) :
    Keeps s0 (State.afterRestart s n micros ladder) := by
  rw [State.afterRestart.eq_def]
  repeat' (first
    | (with_reducible assumption)
    | (with_reducible apply keeps_State_bump)
    | (with_reducible apply keeps_State_restartRecoveries)
    | (extract_lets -underBinder)
    | (with_reducible refine Keeps.ite ?_ ?_))

theorem keeps_execProcessorRestartComplete {s0 : State} (n : Nat) (s : State) (hk : Keeps s0 s) :
    RKeeps s0 (execProcessorRestartComplete n s) := by
  rw [execProcessorRestartComplete.eq_def]
  repeat' (first
    | (with_reducible assumption)
    | (with_reducible exact id)
    | (with_reducible exact Nat.le_refl _)
    | (with_reducible exact BitVec.le_refl _)
    | (with_reducible apply keeps_State_setProc)
    | (with_reducible apply keeps_State_afterRestart)
    | (with_reducible apply keeps_State_bump)
    | (with_reducible apply keeps_State_raiseM)
    | (with_reducible refine Keeps.boxed ?_ ?_ ?_ ?_)
    | (with_reducible apply RKeeps.next)
    | (extract_lets -underBinder)
    | (with_reducible refine Keeps.ite ?_ ?_)
    | (with_reducible rw [State.mk_boxed])
    | split)

theorem keeps_State_refreshEligible {s0 : State} (s : State) (hk : Keeps s0 s) :
    Keeps s0 (State.refreshEligible s) := by
  rw [State.refreshEligible.eq_def]
  repeat' (first
    | (with_reducible assumption)
    | (with_reducible exact id)
    | (with_reducible exact Nat.le_refl _)
    | (with_reducible exact BitVec.le_refl _)
    | (with_reducible refine Keeps.boxed ?_ ?_ ?_ ?_)
    | (extract_lets -underBinder)
    | (with_reducible rw [State.mk_boxed]))

theorem keeps_State_rollbackSet {s0 : State} (s : State) (csid : Nat) (reason : Nat) (part : Option Nat) (hk : Keeps s0 s) :
    Keeps s0 (State.rollbackSet s csid reason part) := by
  rw [State.rollbackSet.eq_def]
  repeat' (first
    | (with_reducible assumption)
    | (with_reducible exact id)
    | (with_reducible exact Nat.le_refl _)
    | (with_reducible exact BitVec.le_refl _)
    | (with_reducible apply keeps_State_refreshEligible)
    | (with_reducible apply keeps_State_bump)
    | (with_reducible apply keeps_State_raiseM)
    | (with_reducible refine Keeps.boxed ?_ ?_ ?_ ?_)
    | (extract_lets -underBinder)
    | (with_reducible refine Keeps.ite ?_ ?_)
    | (with_reducible rw [State.mk_boxed])
    | split)

theorem keeps_State_rollbackUndecided {s0 : State} (s : State) (reason : Nat) (hk : Keeps s0 s) :
    Keeps s0 (State.rollbackUndecided s reason) := by
  rw [State.rollbackUndecided.eq_def]
  repeat' (first
    | (with_reducible assumption)
    | (with_reducible apply keeps_State_rollbackSet)
    | (with_reducible refine Keeps.foldl ?_ ?_)
    | (intro _))

theorem keeps_State_endWindow {s0 : State} (s : State) (reason : Nat) (hk : Keeps s0 s) :
    Keeps s0 (State.endWindow s reason) := by
  rw [State.endWindow.eq_def]
  repeat' (first
    | (with_reducible assumption)
    | (with_reducible exact id)
    | (with_reducible exact Nat.le_refl _)
    | (with_reducible exact BitVec.le_refl _)
    | (with_reducible apply keeps_State_raiseM)
    | (with_reducible refine Keeps.boxed ?_ ?_ ?_ ?_)
    | (with_reducible rw [State.mk_boxed])
    | split)

theorem keeps_State_loseCopies {s0 : State} (s : State) (ks : List Nat) (hk : Keeps s0 s) :
    Keeps s0 (State.loseCopies s ks) := by
  rw [State.loseCopies.eq_def]
  repeat' (first
    | (with_reducible assumption)
    | (with_reducible exact id)
    | (with_reducible exact Nat.le_refl _)
    | (with_reducible exact BitVec.le_refl _)
    | (with_reducible apply keeps_State_fatalNow)
    | (with_reducible refine Keeps.boxed ?_ ?_ ?_ ?_)
    | (extract_lets -underBinder)
    | (with_reducible refine Keeps.ite ?_ ?_)
    | (with_reducible rw [State.mk_boxed])
    | (dsimp +zetaDelta only))

theorem keeps_execJournalCopyRebuild {s0 : State} (s : State) (hk : Keeps s0 s) :
    RKeeps s0 (execJournalCopyRebuild s) := by
  rw [execJournalCopyRebuild.eq_def]
  repeat' (first
    | (with_reducible assumption)
    | (with_reducible exact id)
    | (with_reducible exact Nat.le_refl _)
    | (with_reducible exact BitVec.le_refl _)
    | (with_reducible apply keeps_State_raiseM)
    | (with_reducible refine Keeps.boxed ?_ ?_ ?_ ?_)
    | (with_reducible apply RKeeps.next)
    | (extract_lets -underBinder)
    | (with_reducible rw [State.mk_boxed])
    | split)

theorem keeps_State_zeroResidual {s0 : State} (s : State) (p : Nat) (e : Nat × Nat × Nat) (hk : Keeps s0 s) :
    Keeps s0 (State.zeroResidual s p e) := by
  rw [State.zeroResidual.eq_def]
  repeat' (first
    | (with_reducible assumption)
    | (with_reducible apply keeps_State_vwrite)
    | (with_reducible apply keeps_State_bump)
    | (extract_lets -underBinder)
    | split
    | (refine EKeeps.use ?_ (by assumption)))

theorem keeps_State_dropMoves {s0 : State} (s : State) (p : Nat) (hk : Keeps s0 s) :
    Keeps s0 (State.dropMoves s p) := by
  rw [State.dropMoves.eq_def]
  repeat' (first
    | (with_reducible assumption)
    | (with_reducible apply keeps_State_descGone)
    | (with_reducible refine Keeps.foldl ?_ ?_)
    | (intro _)
    | (extract_lets -underBinder)
    | split)

theorem keeps_State_stopHard {s0 : State} (s : State) (p : Nat) (l : Loss) (hk : Keeps s0 s) :
    Keeps s0 (State.stopHard s p l) := by
  rw [State.stopHard.eq_def]
  repeat' (first
    | (with_reducible assumption)
    | (with_reducible apply keeps_State_onPartn))

theorem keeps_State_endTransfers {s0 : State} (s : State) (p : Nat) (l : Loss) (hk : Keeps s0 s) :
    Keeps s0 (State.endTransfers s p l) := by
  rw [State.endTransfers.eq_def]
  repeat' (first
    | (with_reducible assumption)
    | (with_reducible apply keeps_State_dropMoves)
    | (with_reducible apply keeps_State_cancelWhere)
    | (with_reducible apply keeps_State_endServe)
    | (with_reducible apply keeps_State_complete)
    | (with_reducible apply keeps_State_runPeriodEnd)
    | (with_reducible apply keeps_State_dropLoad)
    | (with_reducible refine Keeps.foldl ?_ ?_)
    | (intro _))

theorem keeps_State_holdWhich {s0 : State} (s : State) (p : Nat) (pos : Nat) (arg : Nat) (detail : Nat) (which : Nat × Cmd → Bool) (hk : Keeps s0 s) :
    Keeps s0 (State.holdWhich s p pos arg detail which) := by
  rw [State.holdWhich.eq_def]
  repeat' (first
    | (with_reducible assumption)
    | (with_reducible apply keeps_State_forgetTier)
    | (with_reducible apply keeps_State_dropLoad)
    | (with_reducible apply keeps_State_complete)
    | (with_reducible apply keeps_State_onPartn)
    | (with_reducible apply keeps_State_raise)
    | (with_reducible apply keeps_State_runPeriodEnd)
    | (with_reducible refine Keeps.foldl ?_ ?_)
    | (intro _)
    | (extract_lets -underBinder)
    | (with_reducible refine Keeps.ite ?_ ?_))

theorem keeps_State_teardownAll {s0 : State} (s : State) (p : Nat) (hk : Keeps s0 s) :
    Keeps s0 (State.teardownAll s p) := by
  rw [State.teardownAll.eq_def]
  repeat' (first
    | (with_reducible assumption)
    | (with_reducible apply keeps_State_teardown)
    | (with_reducible refine Keeps.foldl ?_ ?_))

theorem keeps_State_holdAll {s0 : State} (s : State) (p : Nat) (l : Loss) (stateGone : Bool) (hk : Keeps s0 s) :
    Keeps s0 (State.holdAll s p l stateGone) := by
  rw [State.holdAll.eq_def]
  repeat' (first
    | (with_reducible assumption)
    | (with_reducible apply keeps_State_teardownAll)
    | (with_reducible apply keeps_State_dropMoves)
    | (with_reducible apply keeps_State_cancelWhere)
    | (with_reducible apply keeps_State_onPartn)
    | (with_reducible apply keeps_State_enterDiscarded)
    | (with_reducible apply keeps_State_holdWhich)
    | (extract_lets -underBinder)
    | (with_reducible refine Keeps.ite ?_ ?_))

theorem keeps_State_holdStarted {s0 : State} (s : State) (p : Nat) (l : Loss) (stateGone : Bool) (hk : Keeps s0 s) :
    Keeps s0 (State.holdStarted s p l stateGone) := by
  rw [State.holdStarted.eq_def]
  repeat' (first
    | (with_reducible assumption)
    | (with_reducible apply keeps_State_teardownAll)
    | (with_reducible apply keeps_State_dropMoves)
    | (with_reducible apply keeps_State_cancelWhere)
    | (with_reducible apply keeps_State_onPartn)
    | (with_reducible apply keeps_State_enterDiscarded)
    | (with_reducible apply keeps_State_holdWhich)
    | (extract_lets -underBinder)
    | (with_reducible refine Keeps.ite ?_ ?_))

theorem keeps_State_recheckRuns {s0 : State} (s : State) (p : Nat) (hk : Keeps s0 s) :
    Keeps s0 (State.recheckRuns s p) := by
  rw [State.recheckRuns.eq_def]
  repeat' (first
    | (with_reducible assumption)
    | (with_reducible apply keeps_State_onPartn))

theorem keeps_State_afterLoss {s0 : State} (s : State) (before' : State) (p : Nat) (l : Loss) (hk : Keeps s0 s) :
    Keeps s0 (State.afterLoss s before' p l) := by
  rw [State.afterLoss.eq_def]
  repeat' (first
    | (with_reducible assumption)
    | (with_reducible exact id)
    | (with_reducible exact Nat.le_refl _)
    | (with_reducible exact BitVec.le_refl _)
    | (with_reducible apply keeps_State_copyLost)
    | (with_reducible apply keeps_State_stopHard)
    | (with_reducible apply keeps_State_endTransfers)
    | (with_reducible apply keeps_State_stepFault)
    | (with_reducible apply keeps_State_zeroResidual)
    | (with_reducible apply keeps_State_recheckRuns)
    | (with_reducible apply keeps_State_raise)
    | (with_reducible apply keeps_State_holdStarted)
    | (with_reducible apply keeps_State_holdAll)
    | (with_reducible refine Keeps.foldl ?_ ?_)
    | (with_reducible refine Keeps.boxed ?_ ?_ ?_ ?_)
    | (intro _)
    | (extract_lets -underBinder)
    | (with_reducible refine Keeps.ite ?_ ?_)
    | (with_reducible rw [State.mk_boxed])
    | (dsimp +zetaDelta only))

theorem keeps_State_clearStacks {s0 : State} (s : State) (ks : List Nat) (hk : Keeps s0 s) :
    Keeps s0 (State.clearStacks s ks) := by
  rw [State.clearStacks.eq_def]
  repeat' (first
    | (with_reducible assumption)
    | (with_reducible apply keeps_State_setCursor)
    | (with_reducible apply keeps_State_setStore)
    | (with_reducible refine Keeps.foldl ?_ ?_)
    | (intro _))

theorem keeps_State_stackGone {s0 : State} (s : State) (k : Nat) (hk : Keeps s0 s) :
    Keeps s0 (State.stackGone s k) := by
  rw [State.stackGone.eq_def]
  repeat' (first
    | (with_reducible assumption)
    | (with_reducible exact id)
    | (with_reducible exact Nat.le_refl _)
    | (with_reducible exact BitVec.le_refl _)
    | (with_reducible apply keeps_State_raise)
    | (with_reducible apply keeps_State_clearStacks)
    | (with_reducible apply keeps_State_afterLoss)
    | (with_reducible apply keeps_State_loseCopies)
    | (with_reducible refine Keeps.boxed ?_ ?_ ?_ ?_)
    | (extract_lets -underBinder)
    | (with_reducible refine Keeps.ite ?_ ?_)
    | (with_reducible rw [State.mk_boxed]))

theorem keeps_execSweepResume {s0 : State} (p : Nat) (k : Nat) (s : State) (hk : Keeps s0 s) :
    RKeeps s0 (execSweepResume p k s) := by
  rw [execSweepResume.eq_def]
  repeat' (first
    | (with_reducible assumption)
    | (with_reducible apply keeps_State_stackGone)
    | (with_reducible apply keeps_State_resumeUnit)
    | (with_reducible apply RKeeps.next)
    | split)

theorem keeps_State_channelGone {s0 : State} (s : State) (k : Nat) (ch : Nat) (hk : Keeps s0 s) :
    Keeps s0 (State.channelGone s k ch) := by
  rw [State.channelGone.eq_def]
  repeat' (first
    | (with_reducible assumption)
    | (with_reducible exact id)
    | (with_reducible exact Nat.le_refl _)
    | (with_reducible exact BitVec.le_refl _)
    | (with_reducible apply keeps_State_raise)
    | (with_reducible apply keeps_State_stackGone)
    | (with_reducible apply keeps_State_afterLoss)
    | (with_reducible apply keeps_State_loseCopies)
    | (with_reducible refine Keeps.boxed ?_ ?_ ?_ ?_)
    | (extract_lets -underBinder)
    | (with_reducible refine Keeps.ite ?_ ?_)
    | (with_reducible rw [State.mk_boxed])
    | split)

theorem keeps_execChannelLoss {s0 : State} (k : Nat) (ch : Nat) (s : State) (hk : Keeps s0 s) :
    RKeeps s0 (execChannelLoss k ch s) := by
  rw [execChannelLoss.eq_def]
  repeat' (first
    | (with_reducible assumption)
    | (with_reducible apply keeps_State_channelGone)
    | (with_reducible apply RKeeps.next)
    | (extract_lets -underBinder)
    | (with_reducible refine Keeps.ite ?_ ?_))

theorem keeps_execStackLoss {s0 : State} (k : Nat) (s : State) (hk : Keeps s0 s) :
    RKeeps s0 (execStackLoss k s) := by
  rw [execStackLoss.eq_def]
  repeat' (first
    | (with_reducible assumption)
    | (with_reducible apply keeps_State_stackGone)
    | (with_reducible apply RKeeps.next)
    | (extract_lets -underBinder)
    | (with_reducible refine Keeps.ite ?_ ?_))

theorem keeps_State_stopCores {s0 : State} (s : State) (h : Nat) (hk : Keeps s0 s) :
    Keeps s0 (State.stopCores s h) := by
  rw [State.stopCores.eq_def]
  repeat' (first
    | (with_reducible assumption)
    | (with_reducible exact id)
    | (with_reducible exact Nat.le_refl _)
    | (with_reducible exact BitVec.le_refl _)
    | (with_reducible refine Keeps.boxed ?_ ?_ ?_ ?_)
    | (with_reducible rw [State.mk_boxed]))

theorem keeps_State_hallOut {s0 : State} (s : State) (h : Nat) (hk : Keeps s0 s) :
    Keeps s0 (State.hallOut s h) := by
  rw [State.hallOut.eq_def]
  repeat' (first
    | (with_reducible assumption)
    | (with_reducible exact id)
    | (with_reducible exact Nat.le_refl _)
    | (with_reducible exact BitVec.le_refl _)
    | (with_reducible apply keeps_State_stopCores)
    | (with_reducible apply keeps_State_clearStacks)
    | (with_reducible apply keeps_State_raise)
    | (with_reducible refine Keeps.boxed ?_ ?_ ?_ ?_)
    | (extract_lets -underBinder)
    | (with_reducible rw [State.mk_boxed]))

theorem keeps_State_hallGone {s0 : State} (s : State) (h : Nat) (hk : Keeps s0 s) :
    Keeps s0 (State.hallGone s h) := by
  rw [State.hallGone.eq_def]
  repeat' (first
    | (with_reducible assumption)
    | (with_reducible apply keeps_State_hallOut)
    | (with_reducible apply keeps_State_afterLoss)
    | (with_reducible apply keeps_State_loseCopies)
    | (extract_lets -underBinder)
    | (with_reducible refine Keeps.ite ?_ ?_))

theorem keeps_execHallLoss {s0 : State} (h : Nat) (s : State) (hk : Keeps s0 s) :
    RKeeps s0 (execHallLoss h s) := by
  rw [execHallLoss.eq_def]
  repeat' (first
    | (with_reducible assumption)
    | (with_reducible apply keeps_State_hallGone)
    | (with_reducible apply RKeeps.next)
    | (extract_lets -underBinder)
    | (with_reducible refine Keeps.ite ?_ ?_))

theorem keeps_State_finishSweep {s0 : State} (s : State) (p : Nat) (hk : Keeps s0 s) :
    Keeps s0 (State.finishSweep s p) := by
  rw [State.finishSweep.eq_def]
  repeat' (first
    | (with_reducible assumption)
    | (with_reducible apply keeps_State_leaveObject)
    | (with_reducible apply keeps_State_takeDigests)
    | (with_reducible apply keeps_State_onPartn)
    | (with_reducible apply keeps_State_complete)
    | (with_reducible apply keeps_State_settleOwed)
    | (with_reducible refine Keeps.foldl ?_ ?_)
    | (intro _)
    | (extract_lets -underBinder)
    | (with_reducible refine Keeps.ite ?_ ?_)
    | split)

theorem keeps_execReplicaRecoveryComplete {s0 : State} (p : Nat) (frames : ReplicaFrames) (s : State) (hk : Keeps s0 s) :
    RKeeps s0 (execReplicaRecoveryComplete p frames s) := by
  rw [execReplicaRecoveryComplete.eq_def]
  repeat' (first
    | (with_reducible assumption)
    | (with_reducible exact id)
    | (with_reducible exact Nat.le_refl _)
    | (with_reducible exact BitVec.le_refl _)
    | (with_reducible apply keeps_State_writeHome)
    | (with_reducible apply keeps_State_bump)
    | (with_reducible apply keeps_State_raise)
    | (with_reducible apply keeps_State_finishSweep)
    | (with_reducible refine Keeps.boxed ?_ ?_ ?_ ?_)
    | (with_reducible apply RKeeps.next)
    | (extract_lets -underBinder)
    | (with_reducible rw [State.mk_boxed])
    | split
    | (dsimp +zetaDelta only))

theorem keeps_State_losePower {s0 : State} (s : State) (flushed : Bool) (hk : Keeps s0 s) :
    Keeps s0 (State.losePower s flushed) := by
  rw [State.losePower.eq_def]
  repeat' (first
    | (with_reducible assumption)
    | (with_reducible exact id)
    | (with_reducible exact Nat.le_refl _)
    | (with_reducible exact BitVec.le_refl _)
    | (with_reducible apply keeps_State_haltWork)
    | (with_reducible refine Keeps.boxed ?_ ?_ ?_ ?_)
    | (extract_lets -underBinder)
    | (with_reducible refine Keeps.ite ?_ ?_)
    | (with_reducible rw [State.mk_boxed]))

theorem keeps_execPowerFail {s0 : State} (flushed : Bool) (s : State) (hk : Keeps s0 s) :
    RKeeps s0 (execPowerFail flushed s) := by
  rw [execPowerFail.eq_def]
  repeat' (first
    | (with_reducible assumption)
    | (with_reducible apply keeps_State_losePower)
    | (with_reducible apply RKeeps.next))

/-! ## Machine/Power.lean -/


theorem keeps_State_onSensors {s0 : State} (s : State) (f : Sensors → Sensors) (hk : Keeps s0 s) :
    Keeps s0 (State.onSensors s f) := by
  rw [State.onSensors.eq_def]
  repeat' (first
    | (with_reducible assumption)
    | (with_reducible exact id)
    | (with_reducible exact Nat.le_refl _)
    | (with_reducible exact BitVec.le_refl _)
    | (with_reducible refine Keeps.boxed ?_ ?_ ?_ ?_)
    | (extract_lets -underBinder)
    | (with_reducible rw [State.mk_boxed]))

theorem keeps_execInputVoltageLow {s0 : State} (mv : Nat) (s : State) (hk : Keeps s0 s) :
    RKeeps s0 (execInputVoltageLow mv s) := by
  rw [execInputVoltageLow.eq_def]
  repeat' (first
    | (with_reducible assumption)
    | (with_reducible apply keeps_State_onSensors)
    | (with_reducible apply keeps_State_raiseM)
    | (with_reducible apply RKeeps.next)
    | split)

theorem keeps_execInputVoltageInRange {s0 : State} (mv : Nat) (s : State) (hk : Keeps s0 s) :
    RKeeps s0 (execInputVoltageInRange mv s) := by
  rw [execInputVoltageInRange.eq_def]
  repeat' (first
    | (with_reducible assumption)
    | (with_reducible apply keeps_State_onSensors)
    | (with_reducible apply RKeeps.next)
    | split)

theorem keeps_execInputVoltageHigh {s0 : State} (mv : Nat) (s : State) (hk : Keeps s0 s) :
    RKeeps s0 (execInputVoltageHigh mv s) := by
  rw [execInputVoltageHigh.eq_def]
  repeat' (first
    | (with_reducible assumption)
    | (with_reducible apply keeps_State_onSensors)
    | (with_reducible apply keeps_State_raiseM)
    | (with_reducible apply RKeeps.next)
    | split)

theorem keeps_execInputOvervoltage {s0 : State} (mv : Nat) (s : State) (hk : Keeps s0 s) :
    RKeeps s0 (execInputOvervoltage mv s) := by
  rw [execInputOvervoltage.eq_def]
  repeat' (first
    | (with_reducible assumption)
    | (with_reducible apply keeps_State_onSensors)
    | (with_reducible apply keeps_State_losePower)
    | (with_reducible apply RKeeps.next)
    | split)

theorem keeps_State_setDomain {s0 : State} (s : State) (d : Nat) (x : Domain) (hk : Keeps s0 s) :
    Keeps s0 (State.setDomain s d x) := by
  rw [State.setDomain.eq_def]
  repeat' (first
    | (with_reducible assumption)
    | (with_reducible exact id)
    | (with_reducible exact Nat.le_refl _)
    | (with_reducible exact BitVec.le_refl _)
    | (with_reducible refine Keeps.boxed ?_ ?_ ?_ ?_)
    | (extract_lets -underBinder)
    | (with_reducible rw [State.mk_boxed]))

theorem keeps_State_hallFault {s0 : State} (s : State) (h : Nat) (hk : Keeps s0 s) :
    Keeps s0 (State.hallFault s h) := by
  rw [State.hallFault.eq_def]
  repeat' (first
    | (with_reducible assumption)
    | (with_reducible apply keeps_State_stopCores)
    | (with_reducible apply keeps_State_stopHard)
    | (with_reducible apply keeps_State_stepFault)
    | (extract_lets -underBinder)
    | (with_reducible refine Keeps.ite ?_ ?_))

theorem keeps_State_endEngineX {s0 : State} (s : State) (p : Nat) (d : Nat) (x0 : Nat) (hk : Keeps s0 s) :
    Keeps s0 (State.endEngineX s p d x0) := by
  induction x0 generalizing s p d with
  | zero =>
    rw [State.endEngineX]
    repeat' (first
      | (with_reducible assumption))
  | succ n ih =>
    rw [State.endEngineX]
    repeat' (first
      | (apply ih)
      | (with_reducible assumption)
      | (with_reducible apply keeps_State_cancelX)
      | (with_reducible apply keeps_State_endX)
      | (extract_lets -underBinder)
      | split)

theorem keeps_State_fabricDown {s0 : State} (s : State) (q : Nat) (beyond : Bool) (hk : Keeps s0 s) :
    Keeps s0 (State.fabricDown s q beyond) := by
  rw [State.fabricDown.eq_def]
  repeat' (first
    | (with_reducible assumption)
    | (with_reducible apply keeps_State_portDown)
    | (with_reducible apply keeps_State_setPort)
    | (with_reducible apply keeps_State_raiseM)
    | (extract_lets -underBinder)
    | (with_reducible refine Keeps.ite ?_ ?_))

theorem keeps_State_domainFaulted {s0 : State} (s : State) (d : Nat) (beyond : Bool) (hk : Keeps s0 s) :
    Keeps s0 (State.domainFaulted s d beyond) := by
  rw [State.domainFaulted.eq_def]
  repeat' (first
    | (with_reducible assumption)
    | (with_reducible apply keeps_State_hallGone)
    | (with_reducible apply keeps_State_hallFault)
    | (with_reducible apply keeps_State_stackGone)
    | (with_reducible apply keeps_State_fabricDown)
    | (with_reducible apply keeps_State_fatalNow)
    | (with_reducible apply keeps_State_endEngineX)
    | (with_reducible refine Keeps.foldl ?_ ?_)
    | (intro _)
    | (extract_lets -underBinder)
    | (with_reducible refine Keeps.ite ?_ ?_)
    | split)

theorem keeps_execDomainFault {s0 : State} (d : Nat) (s : State) (hk : Keeps s0 s) :
    RKeeps s0 (execDomainFault d s) := by
  rw [execDomainFault.eq_def]
  repeat' (first
    | (with_reducible assumption)
    | (with_reducible apply keeps_State_setDomain)
    | (with_reducible apply keeps_State_raiseM)
    | (with_reducible apply keeps_State_domainFaulted)
    | (with_reducible apply RKeeps.next)
    | (extract_lets -underBinder)
    | split)

theorem keeps_State_countFlashWait {s0 : State} (s : State) (die : Nat) (since : Nat) (hk : Keeps s0 s) :
    Keeps s0 (State.countFlashWait s die since) := by
  rw [State.countFlashWait.eq_def]
  repeat' (first
    | (with_reducible assumption)
    | (with_reducible apply keeps_State_bumpP)
    | (with_reducible refine Keeps.foldl ?_ ?_)
    | (intro _)
    | (extract_lets -underBinder)
    | (with_reducible refine Keeps.ite ?_ ?_))

theorem keeps_execDomainRetry {s0 : State} (d : Nat) (regulates : Bool) (s : State) (hk : Keeps s0 s) :
    RKeeps s0 (execDomainRetry d regulates s) := by
  rw [execDomainRetry.eq_def]
  repeat' (first
    | (with_reducible assumption)
    | (with_reducible apply keeps_State_setDomain)
    | (with_reducible apply keeps_State_countFlashWait)
    | (with_reducible apply keeps_State_domainFaulted)
    | (with_reducible apply RKeeps.next)
    | (extract_lets -underBinder)
    | split)

theorem keeps_execDomainRestored {s0 : State} (d : Nat) (s : State) (hk : Keeps s0 s) :
    RKeeps s0 (execDomainRestored d s) := by
  rw [execDomainRestored.eq_def]
  repeat' (first
    | (with_reducible assumption)
    | (with_reducible apply keeps_State_setDomain)
    | (with_reducible apply keeps_State_raiseM)
    | (with_reducible apply RKeeps.next)
    | (extract_lets -underBinder)
    | split)

theorem keeps_State_lowerTo {s0 : State} (s : State) (h : Nat) (g : Nat) (target : Nat) (x0 : Nat) (hk : Keeps s0 s) :
    Keeps s0 (State.lowerTo s h g target x0) := by
  induction x0 generalizing s h g target with
  | zero =>
    rw [State.lowerTo]
    repeat' (first
      | (with_reducible assumption))
  | succ n ih =>
    rw [State.lowerTo]
    repeat' (first
      | (apply ih)
      | (with_reducible assumption)
      | (with_reducible apply keeps_State_setClock)
      | (with_reducible refine Keeps.ite ?_ ?_))

theorem keeps_State_lowerClocks {s0 : State} (s : State) (hk : Keeps s0 s) :
    Keeps s0 (State.lowerClocks s) := by
  rw [State.lowerClocks.eq_def]
  repeat' (first
    | (with_reducible assumption)
    | (with_reducible apply keeps_State_lowerTo)
    | (with_reducible refine Keeps.foldl ?_ ?_)
    | (intro _))

theorem keeps_State_lockClocks {s0 : State} (s : State) (hk : Keeps s0 s) :
    Keeps s0 (State.lockClocks s) := by
  rw [State.lockClocks.eq_def]
  repeat' (first
    | (with_reducible assumption)
    | (with_reducible apply keeps_State_setClock)
    | (with_reducible refine Keeps.foldl ?_ ?_)
    | (intro _))

theorem keeps_execClockRaiseStep {s0 : State} (h : Nat) (g : Nat) (mhz : Nat) (s : State) (hk : Keeps s0 s) :
    RKeeps s0 (execClockRaiseStep h g mhz s) := by
  rw [execClockRaiseStep.eq_def]
  repeat' (first
    | (with_reducible assumption)
    | (with_reducible apply keeps_State_setClock)
    | (with_reducible apply RKeeps.next)
    | (extract_lets -underBinder)
    | split)

theorem keeps_State_capOne {s0 : State} (s : State) (w : List Nat) (p : Nat) (hk : Keeps s0 s) :
    Keeps s0 (State.capOne s w p) := by
  rw [State.capOne.eq_def]
  repeat' (first
    | (with_reducible assumption)
    | (with_reducible apply keeps_State_onPartn))

theorem keeps_State_countCapped {s0 : State} (s : State) (p : Nat) (hk : Keeps s0 s) :
    Keeps s0 (State.countCapped s p) := by
  rw [State.countCapped.eq_def]
  repeat' (first
    | (with_reducible assumption)
    | (with_reducible apply keeps_State_bump)
    | (with_reducible apply keeps_State_onPartn)
    | (with_reducible apply keeps_State_raiseP)
    | (extract_lets -underBinder)
    | (with_reducible refine Keeps.ite ?_ ?_))

theorem keeps_execPowerCapTick {s0 : State} (r : PowerReading) (s : State) (hk : Keeps s0 s) :
    RKeeps s0 (execPowerCapTick r s) := by
  rw [execPowerCapTick.eq_def]
  repeat' (first
    | (with_reducible assumption)
    | (with_reducible apply keeps_State_onSensors)
    | (with_reducible apply keeps_State_capOne)
    | (with_reducible apply keeps_State_lowerClocks)
    | (with_reducible apply keeps_State_countCapped)
    | (with_reducible refine Keeps.foldl ?_ ?_)
    | (with_reducible apply RKeeps.next)
    | (intro _)
    | (extract_lets -underBinder)
    | (with_reducible refine Keeps.ite ?_ ?_)
    | split)

theorem keeps_State_thermalQuarter {s0 : State} (s : State) (junctions : List Int) (h : Nat) (q : Nat) (hk : Keeps s0 s) :
    Keeps s0 (State.thermalQuarter s junctions h q) := by
  rw [State.thermalQuarter.eq_def]
  repeat' (first
    | (with_reducible assumption)
    | (with_reducible apply keeps_State_setDomain)
    | (with_reducible refine Keeps.foldl ?_ ?_)
    | (intro _))

theorem keeps_State_tellThrottle {s0 : State} (s : State) (h : Nat) (hk : Keeps s0 s) :
    Keeps s0 (State.tellThrottle s h) := by
  rw [State.tellThrottle.eq_def]
  repeat' (first
    | (with_reducible assumption)
    | (with_reducible apply keeps_State_onSensors)
    | (with_reducible apply keeps_State_raiseM)
    | (extract_lets -underBinder)
    | (with_reducible refine Keeps.ite ?_ ?_))

theorem keeps_State_thermalHall {s0 : State} (s : State) (r : ThermalReading) (h : Nat) (hk : Keeps s0 s) :
    Keeps s0 (State.thermalHall s r h) := by
  rw [State.thermalHall.eq_def]
  repeat' (first
    | (with_reducible assumption)
    | (with_reducible apply keeps_State_thermalQuarter)
    | (with_reducible apply keeps_State_tellThrottle)
    | (with_reducible refine Keeps.foldl ?_ ?_)
    | (intro _)
    | (extract_lets -underBinder)
    | (with_reducible refine Keeps.ite ?_ ?_))

theorem keeps_State_sampleHall {s0 : State} (s : State) (r : ThermalReading) (h : Nat) (hk : Keeps s0 s) :
    Keeps s0 (State.sampleHall s r h) := by
  rw [State.sampleHall.eq_def]
  repeat' (first
    | (with_reducible assumption)
    | (with_reducible apply keeps_State_bump)
    | (with_reducible apply keeps_State_onSensors)
    | (extract_lets -underBinder)
    | (with_reducible refine Keeps.ite ?_ ?_))

theorem keeps_State_governQuarter {s0 : State} (s : State) (junctions : List Int) (h : Nat) (q : Nat) (hk : Keeps s0 s) :
    Keeps s0 (State.governQuarter s junctions h q) := by
  rw [State.governQuarter.eq_def]
  repeat' (first
    | (with_reducible assumption)
    | (with_reducible apply keeps_State_setDomain)
    | (with_reducible apply keeps_State_tellThrottle)
    | (with_reducible refine Keeps.foldl ?_ ?_)
    | (intro _)
    | (extract_lets -underBinder)
    | (with_reducible refine Keeps.ite ?_ ?_))

theorem keeps_State_governThermal {s0 : State} (s : State) (junctions : List Int) (hk : Keeps s0 s) :
    Keeps s0 (State.governThermal s junctions) := by
  rw [State.governThermal.eq_def]
  repeat' (first
    | (with_reducible assumption)
    | (with_reducible apply keeps_State_governQuarter)
    | (with_reducible refine Keeps.foldl ?_ ?_)
    | (intro _)
    | (with_reducible refine Keeps.ite ?_ ?_))

theorem keeps_execFallbackGovernorTick {s0 : State} (watts : Nat) (junctions : List Int) (s : State) (hk : Keeps s0 s) :
    RKeeps s0 (execFallbackGovernorTick watts junctions s) := by
  rw [execFallbackGovernorTick.eq_def]
  repeat' (first
    | (with_reducible assumption)
    | (with_reducible apply keeps_State_setClock)
    | (with_reducible apply keeps_State_governThermal)
    | (with_reducible refine Keeps.foldl ?_ ?_)
    | (with_reducible apply RKeeps.next)
    | (intro _)
    | (extract_lets -underBinder)
    | split)

theorem keeps_State_thermalStack {s0 : State} (s : State) (r : ThermalReading) (k : Nat) (hk : Keeps s0 s) :
    Keeps s0 (State.thermalStack s r k) := by
  rw [State.thermalStack.eq_def]
  repeat' (first
    | (with_reducible assumption)
    | (with_reducible apply keeps_State_onSensors)
    | (with_reducible apply keeps_State_raiseM)
    | (extract_lets -underBinder)
    | (with_reducible refine Keeps.ite ?_ ?_))

theorem keeps_State_coolantCheck {s0 : State} (s : State) (r : ThermalReading) (hk : Keeps s0 s) :
    Keeps s0 (State.coolantCheck s r) := by
  rw [State.coolantCheck.eq_def]
  repeat' (first
    | (with_reducible assumption)
    | (with_reducible apply keeps_State_onSensors)
    | (with_reducible apply keeps_State_raiseM)
    | (extract_lets -underBinder)
    | (with_reducible refine Keeps.ite ?_ ?_))

theorem keeps_execThermalSample {s0 : State} (r : ThermalReading) (s : State) (hk : Keeps s0 s) :
    RKeeps s0 (execThermalSample r s) := by
  rw [execThermalSample.eq_def]
  repeat' (first
    | (with_reducible assumption)
    | (with_reducible apply keeps_State_thermalHall)
    | (with_reducible apply keeps_State_sampleHall)
    | (with_reducible apply keeps_State_thermalStack)
    | (with_reducible apply keeps_State_onSensors)
    | (with_reducible apply keeps_State_coolantCheck)
    | (with_reducible apply keeps_State_lowerClocks)
    | (with_reducible refine Keeps.foldl ?_ ?_)
    | (with_reducible apply RKeeps.next)
    | (intro _)
    | (extract_lets -underBinder)
    | (with_reducible refine Keeps.ite ?_ ?_)
    | split)

theorem keeps_execThermalTrip {s0 : State} (sensor : Nat) (s : State) (hk : Keeps s0 s) :
    RKeeps s0 (execThermalTrip sensor s) := by
  rw [execThermalTrip.eq_def]
  repeat' (first
    | (with_reducible assumption)
    | (with_reducible apply keeps_State_onSensors)
    | (with_reducible apply keeps_State_losePower)
    | (with_reducible apply RKeeps.next)
    | split)

theorem keeps_State_measureHoldup {s0 : State} (s : State) (n : Nat) (hk : Keeps s0 s) :
    Keeps s0 (State.measureHoldup s n) := by
  rw [State.measureHoldup.eq_def]
  repeat' (first
    | (with_reducible assumption)
    | (with_reducible apply keeps_State_onSensors)
    | (with_reducible apply keeps_State_raiseM)
    | (extract_lets -underBinder)
    | (with_reducible refine Keeps.ite ?_ ?_))

theorem keeps_execHoldupCheck {s0 : State} (n : Nat) (s : State) (hk : Keeps s0 s) :
    RKeeps s0 (execHoldupCheck n s) := by
  rw [execHoldupCheck.eq_def]
  repeat' (first
    | (with_reducible assumption)
    | (with_reducible apply keeps_State_measureHoldup)
    | (with_reducible apply RKeeps.next)
    | (extract_lets -underBinder)
    | (with_reducible refine Keeps.ite ?_ ?_))

theorem keeps_State_beginSleep {s0 : State} (s : State) (hk : Keeps s0 s) :
    Keeps s0 (State.beginSleep s) := by
  rw [State.beginSleep.eq_def]
  repeat' (first
    | (with_reducible assumption)
    | (with_reducible exact id)
    | (with_reducible exact Nat.le_refl _)
    | (with_reducible exact BitVec.le_refl _)
    | (with_reducible refine Keeps.boxed ?_ ?_ ?_ ?_)
    | (extract_lets -underBinder)
    | (with_reducible refine Keeps.ite ?_ ?_)
    | (with_reducible rw [State.mk_boxed]))

theorem keeps_execSleepIdleTimeout {s0 : State} (s : State) (hk : Keeps s0 s) :
    RKeeps s0 (execSleepIdleTimeout s) := by
  rw [execSleepIdleTimeout.eq_def]
  repeat' (first
    | (with_reducible assumption)
    | (with_reducible apply keeps_State_beginSleep)
    | (with_reducible apply RKeeps.next)
    | (extract_lets -underBinder)
    | (with_reducible refine Keeps.ite ?_ ?_))

theorem keeps_State_sleepPorts {s0 : State} (s : State) (hk : Keeps s0 s) :
    Keeps s0 (State.sleepPorts s) := by
  rw [State.sleepPorts.eq_def]
  repeat' (first
    | (with_reducible assumption)
    | (with_reducible apply keeps_State_portDown)
    | (with_reducible apply keeps_State_setPort)
    | (with_reducible refine Keeps.foldl ?_ ?_)
    | (intro _)
    | (extract_lets -underBinder)
    | (with_reducible refine Keeps.ite ?_ ?_))

theorem keeps_State_trainPorts {s0 : State} (s : State) (hk : Keeps s0 s) :
    Keeps s0 (State.trainPorts s) := by
  rw [State.trainPorts.eq_def]
  repeat' (first
    | (with_reducible assumption)
    | (with_reducible apply keeps_State_setPort)
    | (with_reducible refine Keeps.foldl ?_ ?_)
    | (intro _)
    | (extract_lets -underBinder)
    | (with_reducible refine Keeps.ite ?_ ?_))

theorem keeps_execSleepEntered {s0 : State} (s : State) (hk : Keeps s0 s) :
    RKeeps s0 (execSleepEntered s) := by
  rw [execSleepEntered.eq_def]
  repeat' (first
    | (with_reducible assumption)
    | (with_reducible exact id)
    | (with_reducible exact Nat.le_refl _)
    | (with_reducible exact BitVec.le_refl _)
    | (with_reducible apply keeps_State_sleepPorts)
    | (with_reducible apply keeps_State_raiseM)
    | (with_reducible refine Keeps.boxed ?_ ?_ ?_ ?_)
    | (with_reducible apply RKeeps.next)
    | (extract_lets -underBinder)
    | (with_reducible refine Keeps.ite ?_ ?_)
    | (with_reducible rw [State.mk_boxed])
    | split
    | (dsimp +zetaDelta only))

theorem keeps_State_sleepFabric {s0 : State} (s : State) (on : Bool) (hk : Keeps s0 s) :
    Keeps s0 (State.sleepFabric s on) := by
  rw [State.sleepFabric.eq_def]
  repeat' (first
    | (with_reducible assumption)
    | (with_reducible apply keeps_State_trainPorts)
    | (with_reducible apply keeps_State_sleepPorts)
    | (extract_lets -underBinder)
    | (with_reducible refine Keeps.ite ?_ ?_))

theorem keeps_execWake {s0 : State} (t : WakeTrigger) (s : State) (hk : Keeps s0 s) :
    RKeeps s0 (execWake t s) := by
  rw [execWake.eq_def]
  repeat' (first
    | (with_reducible assumption)
    | (with_reducible apply keeps_State_startWake)
    | (with_reducible apply RKeeps.next)
    | (extract_lets -underBinder)
    | (with_reducible refine Keeps.ite ?_ ?_))

theorem keeps_execWakeComplete {s0 : State} (s : State) (hk : Keeps s0 s) :
    RKeeps s0 (execWakeComplete s) := by
  rw [execWakeComplete.eq_def]
  repeat' (first
    | (with_reducible assumption)
    | (with_reducible exact id)
    | (with_reducible exact Nat.le_refl _)
    | (with_reducible exact BitVec.le_refl _)
    | (with_reducible apply keeps_State_trainPorts)
    | (with_reducible apply keeps_State_lockClocks)
    | (with_reducible apply keeps_State_raiseM)
    | (with_reducible refine Keeps.boxed ?_ ?_ ?_ ?_)
    | (with_reducible apply RKeeps.next)
    | (extract_lets -underBinder)
    | (with_reducible refine Keeps.ite ?_ ?_)
    | (with_reducible rw [State.mk_boxed])
    | split
    | (dsimp +zetaDelta only))

/-! ## Machine/Layout.lean -/


theorem keeps_State_zeroStack {s0 : State} (s : State) (k : Nat) (hk : Keeps s0 s) :
    Keeps s0 (State.zeroStack s k) := by
  rw [State.zeroStack.eq_def]
  repeat' (first
    | (with_reducible assumption)
    | (with_reducible exact Nat.le_refl _)
    | (with_reducible exact BitVec.le_refl _)
    | (exact Memory.wf_filter _ _)
    | (with_reducible apply keeps_State_clearStacks)
    | (with_reducible refine Keeps.boxed ?_ ?_ ?_ ?_)
    | (extract_lets -underBinder)
    | (with_reducible rw [State.mk_boxed]))

theorem keeps_State_resettle {s0 : State} (s : State) (old : List Nat) (new : List Nat) (p : Nat) (hk : Keeps s0 s) :
    Keeps s0 (State.resettle s old new p) := by
  rw [State.resettle.eq_def]
  repeat' (first
    | (with_reducible assumption)
    | (with_reducible apply keeps_State_onPartn)
    | (extract_lets -underBinder)
    | (with_reducible refine Keeps.ite ?_ ?_))

theorem keeps_State_rebuild {s0 : State} (s : State) (old : List Nat) (hk : Keeps s0 s) :
    Keeps s0 (State.rebuild s old) := by
  rw [State.rebuild.eq_def]
  repeat' (first
    | (with_reducible assumption)
    | (with_reducible apply keeps_State_zeroStack)
    | (with_reducible apply keeps_State_stopCores)
    | (with_reducible apply keeps_State_resettle)
    | (with_reducible refine Keeps.foldl ?_ ?_)
    | (intro _))

theorem keeps_State_applyValue {s0 : State} (s : State) (key : Nat) (v : List Byte) (hk : Keeps s0 s) :
    Keeps s0 (State.applyValue s key v) := by
  rw [State.applyValue.eq_def]
  repeat' (first
    | (with_reducible assumption)
    | (with_reducible apply keeps_State_enablePort)
    | (with_reducible apply keeps_State_disablePort)
    | (with_reducible apply keeps_State_setValue)
    | (with_reducible apply keeps_State_beginSleep)
    | (with_reducible apply keeps_State_startWake)
    | (with_reducible apply keeps_State_sleepFabric)
    | (with_reducible apply keeps_State_raiseM)
    | (with_reducible apply keeps_State_lowerClocks)
    | (extract_lets -underBinder)
    | (with_reducible refine Keeps.ite ?_ ?_))

theorem keeps_State_takeValue {s0 : State} (s : State) (p : Nat) (e : Entry) (hk : Keeps s0 s) :
    Keeps s0 (State.takeValue s p e) := by
  rw [State.takeValue.eq_def]
  repeat' (first
    | (with_reducible assumption)
    | (with_reducible exact id)
    | (with_reducible exact Nat.le_refl _)
    | (with_reducible exact BitVec.le_refl _)
    | (with_reducible apply keeps_State_applyValue)
    | (with_reducible refine Keeps.boxed ?_ ?_ ?_ ?_)
    | (with_reducible refine Keeps.ite ?_ ?_)
    | (with_reducible rw [State.mk_boxed])
    | split)

theorem keeps_State_dropViews {s0 : State} (s : State) (key : Nat) (hk : Keeps s0 s) :
    Keeps s0 (State.dropViews s key) := by
  rw [State.dropViews.eq_def]
  repeat' (first
    | (with_reducible assumption)
    | (with_reducible exact id)
    | (with_reducible exact Nat.le_refl _)
    | (with_reducible exact BitVec.le_refl _)
    | (with_reducible refine Keeps.boxed ?_ ?_ ?_ ?_)
    | (extract_lets -underBinder)
    | (with_reducible rw [State.mk_boxed]))

theorem keeps_State_applyAll {s0 : State} (s : State) (es : List Entry) (hk : Keeps s0 s) :
    Keeps s0 (State.applyAll s es) := by
  rw [State.applyAll.eq_def]
  repeat' (first
    | (with_reducible assumption)
    | (with_reducible apply keeps_State_dropViews)
    | (with_reducible apply keeps_State_applyValue)
    | (with_reducible apply keeps_State_rebuild)
    | (with_reducible apply keeps_State_lowerClocks)
    | (with_reducible apply keeps_State_onPartn)
    | (with_reducible refine Keeps.foldl ?_ ?_)
    | (intro _)
    | (extract_lets -underBinder)
    | (with_reducible refine Keeps.ite ?_ ?_))

theorem keeps_State_setApplied {s0 : State} (s : State) (c : ChangeSet) (pause : Nat) (hk : Keeps s0 s) :
    Keeps s0 (State.setApplied s c pause) := by
  rw [State.setApplied.eq_def]
  repeat' (first
    | (with_reducible assumption)
    | (with_reducible exact id)
    | (with_reducible exact Nat.le_refl _)
    | (with_reducible exact BitVec.le_refl _)
    | (exact Nat.le_succ _)
    | (with_reducible apply keeps_State_refreshEligible)
    | (with_reducible apply keeps_State_bump)
    | (with_reducible apply keeps_State_raiseM)
    | (with_reducible refine Keeps.boxed ?_ ?_ ?_ ?_)
    | (extract_lets -underBinder)
    | (with_reducible refine Keeps.ite ?_ ?_)
    | (with_reducible rw [State.mk_boxed])
    | split
    | (dsimp +zetaDelta only))

/-! ## Machine/Packages.lean -/


theorem keeps_State_raiseFw {s0 : State} (s : State) (code : Nat) (a0 : Nat) (a1 : Nat) (v : U32) (hk : Keeps s0 s) :
    Keeps s0 (State.raiseFw s code a0 a1 v) := by
  rw [State.raiseFw.eq_def]
  repeat' (first
    | (with_reducible assumption)
    | (with_reducible apply keeps_State_raiseM))

theorem keeps_State_onUpdate {s0 : State} (s : State) (f : Update → Update) (h : Keeps s0 s)
    (hf : ∀ u, u.floor ≤ (f u).floor) : Keeps s0 (State.onUpdate s f) :=
  Keeps.boxed h id (Nat.le_refl _) (hf _)

theorem keeps_State_closePort {s0 : State} (s : State) (status : Nat) (v : U32) (hk : Keeps s0 s) :
    Keeps s0 (State.closePort s status v) := by
  rw [State.closePort.eq_def]
  repeat' (first
    | (with_reducible assumption)
    | (with_reducible exact BitVec.le_refl _)
    | (with_reducible apply keeps_State_onUpdate)
    | (intro _))

theorem keeps_State_refuseImage {s0 : State} (s : State) (status : Nat) (pkg : List Byte) (hk : Keeps s0 s) :
    Keeps s0 (State.refuseImage s status pkg) := by
  rw [State.refuseImage.eq_def]
  repeat' (first
    | (with_reducible assumption)
    | (with_reducible apply keeps_State_setSlot)
    | (with_reducible apply keeps_State_raiseFw)
    | (with_reducible apply keeps_State_closePort))

theorem keeps_execServicePortConnect {s0 : State} (request : List Byte) (package : List Byte) (s : State) (hk : Keeps s0 s) :
    RKeeps s0 (execServicePortConnect request package s) := by
  rw [execServicePortConnect.eq_def]
  repeat' (first
    | (with_reducible assumption)
    | (with_reducible exact BitVec.le_refl _)
    | (with_reducible apply keeps_State_closePort)
    | (with_reducible apply keeps_State_setSlot)
    | (with_reducible apply keeps_State_onUpdate)
    | (with_reducible apply keeps_State_refuseImage)
    | (with_reducible apply RKeeps.next)
    | (intro _)
    | (extract_lets -underBinder)
    | (with_reducible refine Keeps.ite ?_ ?_)
    | split)

theorem keeps_execServicePortDataTimeout {s0 : State} (s : State) (hk : Keeps s0 s) :
    RKeeps s0 (execServicePortDataTimeout s) := by
  rw [execServicePortDataTimeout.eq_def]
  repeat' (first
    | (with_reducible assumption)
    | (with_reducible apply keeps_State_refuseImage)
    | (with_reducible apply RKeeps.next)
    | split)

theorem keeps_State_restoreSettings {s0 : State} (s : State) (hk : Keeps s0 s) :
    Keeps s0 (State.restoreSettings s) := by
  rw [State.restoreSettings.eq_def]
  repeat' (first
    | (with_reducible assumption)
    | (with_reducible apply keeps_State_dropViews)
    | (with_reducible apply keeps_State_setValue)
    | (with_reducible apply keeps_State_applyValue)
    | (with_reducible refine Keeps.foldl ?_ ?_)
    | (intro _)
    | (extract_lets -underBinder)
    | (with_reducible refine Keeps.ite ?_ ?_))

theorem keeps_State_completeRollback {s0 : State} (s : State) (reason : Nat) (hk : Keeps s0 s) :
    Keeps s0 (State.completeRollback s reason) := by
  rw [State.completeRollback.eq_def]
  repeat' (first
    | (with_reducible assumption)
    | (with_reducible exact BitVec.le_refl _)
    | (with_reducible apply keeps_State_restoreSettings)
    | (with_reducible apply keeps_State_setSlot)
    | (with_reducible apply keeps_State_writeBoot)
    | (with_reducible apply keeps_State_onUpdate)
    | (with_reducible apply keeps_State_raiseFw)
    | (intro _))

theorem keeps_State_confirmImage {s0 : State} (s : State) (hk : Keeps s0 s) :
    Keeps s0 (State.confirmImage s) := by
  rw [State.confirmImage.eq_def]
  repeat' (first
    | (with_reducible assumption)
    | (with_reducible exact BitVec.le_refl _)
    | ((exact BitVec.le_of_lt (by assumption)))
    | (with_reducible apply keeps_State_setSlot)
    | (with_reducible apply keeps_State_writeBoot)
    | (with_reducible apply keeps_State_onUpdate)
    | (with_reducible apply keeps_State_raiseFw)
    | (intro _)
    | (extract_lets -underBinder)
    | (with_reducible refine Keeps.ite ?_ ?_)
    | split)

theorem keeps_execConfirmTimeout {s0 : State} (s : State) (hk : Keeps s0 s) :
    RKeeps s0 (execConfirmTimeout s) := by
  rw [execConfirmTimeout.eq_def]
  repeat' (first
    | (with_reducible assumption)
    | (with_reducible apply keeps_State_confirmImage)
    | (with_reducible apply RKeeps.next)
    | (extract_lets -underBinder)
    | (with_reducible refine Keeps.ite ?_ ?_))

theorem keeps_execFwConfirm {s0 : State} (s : State) (hk : Keeps s0 s) :
    RKeeps s0 (execFwConfirm s) := by
  rw [execFwConfirm.eq_def]
  repeat' (first
    | (with_reducible assumption)
    | (with_reducible apply keeps_State_confirmImage)
    | (with_reducible apply RKeeps.next)
    | (extract_lets -underBinder)
    | (with_reducible refine Keeps.ite ?_ ?_))

theorem keeps_execFwRollback {s0 : State} (s : State) (hk : Keeps s0 s) :
    RKeeps s0 (execFwRollback s) := by
  rw [execFwRollback.eq_def]
  repeat' (first
    | (with_reducible assumption)
    | (with_reducible apply keeps_State_failUpdate)
    | (with_reducible apply RKeeps.next)
    | (extract_lets -underBinder)
    | (with_reducible refine Keeps.ite ?_ ?_))

theorem keeps_State_activate {s0 : State} (s : State) (n : Nat) (v : U32) (hk : Keeps s0 s) :
    Keeps s0 (State.activate s n v) := by
  rw [State.activate.eq_def]
  repeat' (first
    | (with_reducible assumption)
    | (with_reducible exact BitVec.le_refl _)
    | (with_reducible apply keeps_State_setSlot)
    | (with_reducible apply keeps_State_writeBoot)
    | (with_reducible apply keeps_State_onUpdate)
    | (with_reducible apply keeps_State_raiseFw)
    | (with_reducible apply keeps_State_startWake)
    | (intro _)
    | (extract_lets -underBinder)
    | (with_reducible refine Keeps.ite ?_ ?_)
    | split)

theorem keeps_execFwActivate {s0 : State} (n : Nat) (v : U32) (s : State) (hk : Keeps s0 s) :
    RKeeps s0 (execFwActivate n v s) := by
  rw [execFwActivate.eq_def]
  repeat' (first
    | (with_reducible assumption)
    | (with_reducible apply keeps_State_activate)
    | (with_reducible apply RKeeps.next)
    | (extract_lets -underBinder)
    | (with_reducible refine Keeps.ite ?_ ?_))

theorem keeps_State_becomeProvisional {s0 : State} (s : State) (hk : Keeps s0 s) :
    Keeps s0 (State.becomeProvisional s) := by
  rw [State.becomeProvisional.eq_def]
  repeat' (first
    | (with_reducible assumption)
    | (with_reducible exact BitVec.le_refl _)
    | (with_reducible apply keeps_State_onUpdate)
    | (with_reducible apply keeps_State_raiseFw)
    | (intro _))

theorem keeps_State_handoverDone {s0 : State} (s : State) (n : Nat) (hk : Keeps s0 s) :
    Keeps s0 (State.handoverDone s n) := by
  rw [State.handoverDone.eq_def]
  repeat' (first
    | (with_reducible assumption)
    | (with_reducible exact id)
    | (with_reducible exact Nat.le_refl _)
    | (with_reducible exact BitVec.le_refl _)
    | (with_reducible apply keeps_State_becomeProvisional)
    | (with_reducible apply keeps_State_onUpdate)
    | (with_reducible refine Keeps.boxed ?_ ?_ ?_ ?_)
    | (intro _)
    | (extract_lets -underBinder)
    | (with_reducible refine Keeps.ite ?_ ?_)
    | (with_reducible rw [State.mk_boxed]))

theorem keeps_execHandoverProcessor {s0 : State} (ok : Bool) (pause : Nat) (s : State) (hk : Keeps s0 s) :
    RKeeps s0 (execHandoverProcessor ok pause s) := by
  rw [execHandoverProcessor.eq_def]
  repeat' (first
    | (with_reducible assumption)
    | (with_reducible exact BitVec.le_refl _)
    | (with_reducible apply keeps_State_handoverDone)
    | (with_reducible apply keeps_State_handoverBack)
    | (with_reducible apply keeps_State_onUpdate)
    | (with_reducible apply RKeeps.next)
    | (intro _)
    | (extract_lets -underBinder)
    | split)

theorem keeps_State_resetFormats {s0 : State} (s : State) (hk : Keeps s0 s) :
    Keeps s0 (State.resetFormats s) := by
  rw [State.resetFormats.eq_def]
  repeat' (first
    | (with_reducible assumption)
    | (with_reducible exact BitVec.le_refl _)
    | (with_reducible apply keeps_State_dropViews)
    | (with_reducible apply keeps_State_applyValue)
    | (with_reducible apply keeps_State_onUpdate)
    | (with_reducible apply keeps_State_raiseFw)
    | (with_reducible refine Keeps.foldl ?_ ?_)
    | (intro _)
    | (extract_lets -underBinder)
    | (with_reducible refine Keeps.ite ?_ ?_))

theorem keeps_State_endSession {s0 : State} (s : State) (n : Nat) (hk : Keeps s0 s) :
    Keeps s0 (State.endSession s n) := by
  rw [State.endSession.eq_def]
  repeat' (first
    | (with_reducible assumption)
    | (with_reducible exact id)
    | (with_reducible exact Nat.le_refl _)
    | (with_reducible exact BitVec.le_refl _)
    | (with_reducible apply keeps_State_dropOpenSet)
    | (with_reducible apply keeps_State_raiseM)
    | (with_reducible refine Keeps.boxed ?_ ?_ ?_ ?_)
    | (extract_lets -underBinder)
    | (with_reducible refine Keeps.ite ?_ ?_)
    | (with_reducible rw [State.mk_boxed]))

theorem keeps_State_endSessions {s0 : State} (s : State) (hk : Keeps s0 s) :
    Keeps s0 (State.endSessions s) := by
  rw [State.endSessions.eq_def]
  repeat' (first
    | (with_reducible assumption)
    | (with_reducible apply keeps_State_endSession)
    | (with_reducible refine Keeps.foldl ?_ ?_)
    | (intro _))

theorem keeps_State_restartAll {s0 : State} (s : State) (hk : Keeps s0 s) :
    Keeps s0 (State.restartAll s) := by
  rw [State.restartAll.eq_def]
  repeat' (first
    | (with_reducible assumption)
    | (with_reducible exact id)
    | (with_reducible exact Nat.le_refl _)
    | (with_reducible exact BitVec.le_refl _)
    | (with_reducible apply keeps_State_restartRecoveries)
    | (with_reducible refine Keeps.foldl ?_ ?_)
    | (with_reducible refine Keeps.boxed ?_ ?_ ?_ ?_)
    | (extract_lets -underBinder)
    | (with_reducible rw [State.mk_boxed]))

theorem keeps_execUpdateAbandon {s0 : State} (s : State) (hk : Keeps s0 s) :
    RKeeps s0 (execUpdateAbandon s) := by
  rw [execUpdateAbandon.eq_def]
  repeat' (first
    | (with_reducible assumption)
    | (with_reducible exact BitVec.le_refl _)
    | (with_reducible apply keeps_State_setSlot)
    | (with_reducible apply keeps_State_writeBoot)
    | (with_reducible apply keeps_State_onUpdate)
    | (with_reducible apply keeps_State_raise)
    | (with_reducible apply RKeeps.next)
    | (intro _)
    | (extract_lets -underBinder)
    | split)

theorem keeps_State_boot {s0 : State} (s : State) (hk : Keeps s0 s) :
    PKeeps s0 (State.boot s) := by
  rw [State.boot.eq_def]
  repeat' (first
    | (with_reducible assumption)
    | (with_reducible apply keeps_State_closePort)
    | (with_reducible apply keeps_State_completeRollback)
    | (with_reducible apply keeps_State_resetFormats)
    | (with_reducible apply keeps_State_becomeProvisional)
    | (with_reducible apply keeps_State_setSlot)
    | (with_reducible apply keeps_State_writeBoot)
    | (extract_lets -underBinder)
    | split
    | (dsimp +zetaDelta only)
    | (with_reducible apply PKeeps.mk))

/-! ## Machine/Reset.lean -/


theorem keeps_State_dropImport {s0 : State} (s : State) (p : Nat) (w : Nat) (q : Nat) (hk : Keeps s0 s) :
    Keeps s0 (State.dropImport s p w q) := by
  rw [State.dropImport.eq_def]
  repeat' (first
    | (with_reducible assumption)
    | (with_reducible apply keeps_State_becomeAbsent)
    | (with_reducible apply keeps_State_releaseHeld)
    | (with_reducible apply keeps_State_forgetTier)
    | (with_reducible refine Keeps.foldl ?_ ?_)
    | (intro _))

theorem keeps_State_resetMove {s0 : State} (s : State) (p : Nat) (w : Nat) (k : Cmd) (hk : Keeps s0 s) :
    Keeps s0 (State.resetMove s p w k) := by
  rw [State.resetMove.eq_def]
  repeat' (first
    | (with_reducible assumption)
    | (with_reducible apply keeps_State_complete)
    | (with_reducible apply keeps_State_settleMove)
    | (with_reducible apply keeps_State_descGone)
    | (with_reducible refine Keeps.ite ?_ ?_)
    | split)

theorem keeps_State_resetStep {s0 : State} (s : State) (p : Nat) (w : Nat) (q : Nat) (hk : Keeps s0 s) :
    Keeps s0 (State.resetStep s p w q) := by
  rw [State.resetStep.eq_def]
  repeat' (first
    | (with_reducible assumption)
    | (with_reducible apply keeps_State_stepFault)
    | (with_reducible refine Keeps.ite ?_ ?_))

theorem keeps_State_resetOne {s0 : State} (s : State) (p : Nat) (w : Nat) (k : Cmd) (hk : Keeps s0 s) :
    Keeps s0 (State.resetOne s p w k) := by
  rw [State.resetOne.eq_def]
  repeat' (first
    | (with_reducible assumption)
    | (with_reducible apply keeps_State_endServe)
    | (with_reducible apply keeps_State_complete)
    | (with_reducible apply keeps_State_runPeriodEnd)
    | (with_reducible apply keeps_State_resetStep)
    | (with_reducible apply keeps_State_resetMove)
    | (with_reducible apply keeps_State_dropLoad)
    | (with_reducible apply keeps_State_onPartn)
    | (with_reducible apply keeps_State_dropImport)
    | (extract_lets -underBinder)
    | (with_reducible refine Keeps.ite ?_ ?_))

theorem keeps_State_interruptSweep {s0 : State} (s : State) (p : Nat) (hk : Keeps s0 s) :
    Keeps s0 (State.interruptSweep s p) := by
  rw [State.interruptSweep.eq_def]
  repeat' (first
    | (with_reducible assumption)
    | (with_reducible apply keeps_State_setStore)
    | (with_reducible refine Keeps.foldl ?_ ?_)
    | (intro _)
    | split)

theorem keeps_State_holdSwept {s0 : State} (s : State) (p : Nat) (hk : Keeps s0 s) :
    Keeps s0 (State.holdSwept s p) := by
  rw [State.holdSwept.eq_def]
  repeat' (first
    | (with_reducible assumption)
    | (with_reducible apply keeps_State_onPartn)
    | (with_reducible apply keeps_State_enterDiscarded)
    | (with_reducible apply keeps_State_holdWhich)
    | (extract_lets -underBinder)
    | (with_reducible refine Keeps.ite ?_ ?_))

theorem keeps_State_settleReset {s0 : State} (s : State) (p : Nat) (hk : Keeps s0 s) :
    Keeps s0 (State.settleReset s p) := by
  rw [State.settleReset.eq_def]
  repeat' (first
    | (with_reducible assumption)
    | (with_reducible apply keeps_State_holdSwept)
    | (with_reducible apply keeps_State_resetOne)
    | (with_reducible apply keeps_State_settleFeeds)
    | (with_reducible apply keeps_State_interruptSweep)
    | (with_reducible refine Keeps.foldl ?_ ?_)
    | (intro _))

theorem keeps_State_settleFatal {s0 : State} (s : State) (p : Nat) (hk : Keeps s0 s) :
    Keeps s0 (State.settleFatal s p) := by
  rw [State.settleFatal.eq_def]
  repeat' (first
    | (with_reducible assumption)
    | (with_reducible apply keeps_State_dropMoves)
    | (with_reducible apply keeps_State_holdWhich)
    | (with_reducible apply keeps_State_onPartn)
    | (with_reducible apply keeps_State_stepFault)
    | (with_reducible apply keeps_State_interruptSweep))

theorem keeps_State_enterWarmReset {s0 : State} (s : State) (cause : Nat) (held : Bool) (hk : Keeps s0 s) :
    Keeps s0 (State.enterWarmReset s cause held) := by
  rw [State.enterWarmReset.eq_def]
  repeat' (first
    | (with_reducible assumption)
    | (with_reducible exact id)
    | (with_reducible exact Nat.le_refl _)
    | (with_reducible exact BitVec.le_refl _)
    | (with_reducible apply keeps_State_cancelWhere)
    | (with_reducible apply keeps_State_haltWork)
    | (with_reducible refine Keeps.foldl ?_ ?_)
    | (with_reducible refine Keeps.boxed ?_ ?_ ?_ ?_)
    | (intro _)
    | (extract_lets -underBinder)
    | (with_reducible refine Keeps.ite ?_ ?_)
    | (with_reducible rw [State.mk_boxed])
    | split)

theorem keeps_execDeviceWarmReset {s0 : State} (s : State) (hk : Keeps s0 s) :
    RKeeps s0 (execDeviceWarmReset s) := by
  rw [execDeviceWarmReset.eq_def]
  repeat' (first
    | (with_reducible assumption)
    | (with_reducible apply keeps_State_enterWarmReset)
    | (with_reducible apply RKeeps.next)
    | (extract_lets -underBinder)
    | (with_reducible refine Keeps.ite ?_ ?_))

theorem keeps_execModResetN {s0 : State} (s : State) (hk : Keeps s0 s) :
    RKeeps s0 (execModResetN s) := by
  rw [execModResetN.eq_def]
  repeat' (first
    | (with_reducible assumption)
    | (with_reducible exact id)
    | (with_reducible exact Nat.le_refl _)
    | (with_reducible exact BitVec.le_refl _)
    | (with_reducible apply keeps_State_enterWarmReset)
    | (with_reducible refine Keeps.boxed ?_ ?_ ?_ ?_)
    | (with_reducible apply RKeeps.next)
    | (extract_lets -underBinder)
    | (with_reducible rw [State.mk_boxed]))

theorem keeps_State_releaseReset {s0 : State} (s : State) (hk : Keeps s0 s) :
    Keeps s0 (State.releaseReset s) := by
  rw [State.releaseReset.eq_def]
  repeat' (first
    | (with_reducible assumption)
    | (with_reducible exact id)
    | (with_reducible exact Nat.le_refl _)
    | (with_reducible exact BitVec.le_refl _)
    | (with_reducible refine Keeps.boxed ?_ ?_ ?_ ?_)
    | (extract_lets -underBinder)
    | (with_reducible refine Keeps.ite ?_ ?_)
    | (with_reducible rw [State.mk_boxed])
    | split)

theorem keeps_execModResetNRelease {s0 : State} (s : State) (hk : Keeps s0 s) :
    RKeeps s0 (execModResetNRelease s) := by
  rw [execModResetNRelease.eq_def]
  repeat' (first
    | (with_reducible assumption)
    | (with_reducible exact id)
    | (with_reducible exact Nat.le_refl _)
    | (with_reducible exact BitVec.le_refl _)
    | (with_reducible apply keeps_State_releaseReset)
    | (with_reducible refine Keeps.boxed ?_ ?_ ?_ ?_)
    | (with_reducible apply RKeeps.next)
    | (extract_lets -underBinder)
    | (with_reducible rw [State.mk_boxed]))

theorem keeps_State_trainHost {s0 : State} (s : State) (hk : Keeps s0 s) :
    Keeps s0 (State.trainHost s) := by
  rw [State.trainHost.eq_def]
  repeat' (first
    | (with_reducible assumption)
    | (with_reducible exact id)
    | (with_reducible exact Nat.le_refl _)
    | (with_reducible exact BitVec.le_refl _)
    | (with_reducible apply keeps_State_fresh)
    | (with_reducible refine Keeps.boxed ?_ ?_ ?_ ?_)
    | (extract_lets -underBinder)
    | (with_reducible refine Keeps.ite ?_ ?_)
    | (with_reducible rw [State.mk_boxed]))

theorem keeps_execPerstN {s0 : State} (low : Bool) (s : State) (hk : Keeps s0 s) :
    RKeeps s0 (execPerstN low s) := by
  rw [execPerstN.eq_def]
  repeat' (first
    | (with_reducible assumption)
    | (with_reducible exact id)
    | (with_reducible exact Nat.le_refl _)
    | (with_reducible exact BitVec.le_refl _)
    | (with_reducible apply keeps_State_trainHost)
    | (with_reducible apply keeps_State_onPartn)
    | (with_reducible apply keeps_State_expireLease)
    | (with_reducible refine Keeps.foldl ?_ ?_)
    | (with_reducible refine Keeps.boxed ?_ ?_ ?_ ?_)
    | (with_reducible apply RKeeps.next)
    | (intro _)
    | (extract_lets -underBinder)
    | (with_reducible rw [State.mk_boxed])
    | split)

theorem keeps_State_settleSets {s0 : State} (s : State) (hk : Keeps s0 s) :
    Keeps s0 (State.settleSets s) := by
  rw [State.settleSets.eq_def]
  repeat' (first
    | (with_reducible assumption)
    | (with_reducible apply keeps_State_rollbackUndecided)
    | (with_reducible apply keeps_State_endWindow)
    | (with_reducible apply keeps_State_applyAll)
    | (with_reducible apply keeps_State_setApplied)
    | (with_reducible refine Keeps.foldl ?_ ?_)
    | (intro _))

theorem keeps_State_retrain {s0 : State} (s : State) (before' : Nat × List Nat) (hk : Keeps s0 s) :
    Keeps s0 (State.retrain s before') := by
  rw [State.retrain.eq_def]
  repeat' (first
    | (with_reducible assumption)
    | (with_reducible apply keeps_State_portDown)
    | (with_reducible refine Keeps.foldl ?_ ?_)
    | (intro _)
    | (with_reducible refine Keeps.ite ?_ ?_))

theorem keeps_State_onLakeTest {s0 : State} (s : State) (f : LakeTest → LakeTest) (hk : Keeps s0 s) :
    Keeps s0 (State.onLakeTest s f) := by
  rw [State.onLakeTest.eq_def]
  repeat' (first
    | (with_reducible assumption)
    | (with_reducible exact id)
    | (with_reducible exact Nat.le_refl _)
    | (with_reducible exact BitVec.le_refl _)
    | (with_reducible refine Keeps.boxed ?_ ?_ ?_ ?_)
    | (extract_lets -underBinder)
    | (with_reducible rw [State.mk_boxed]))

theorem keeps_State_stackEmptied {s0 : State} (s : State) (k : Nat) (hk : Keeps s0 s) :
    Keeps s0 (State.stackEmptied s k) := by
  rw [State.stackEmptied.eq_def]
  repeat' (first
    | (with_reducible assumption)
    | (with_reducible apply keeps_State_copyLost)
    | (with_reducible apply keeps_State_zeroStack)
    | (with_reducible apply keeps_State_onPartn)
    | (with_reducible refine Keeps.foldl ?_ ?_)
    | (intro _)
    | (extract_lets -underBinder)
    | (with_reducible refine Keeps.ite ?_ ?_))

theorem keeps_State_loseMove {s0 : State} (s : State) (p : Nat) (w : Nat) (q : Nat) (hk : Keeps s0 s) :
    Keeps s0 (State.loseMove s p w q) := by
  rw [State.loseMove.eq_def]
  repeat' (first
    | (with_reducible assumption)
    | (with_reducible apply keeps_State_descGone)
    | split)

theorem keeps_State_lendLost {s0 : State} (s : State) (k : Nat) (hk : Keeps s0 s) :
    Keeps s0 (State.lendLost s k) := by
  rw [State.lendLost.eq_def]
  repeat' (first
    | (with_reducible assumption)
    | (with_reducible apply keeps_State_raise)
    | (with_reducible apply keeps_State_stackEmptied)
    | (with_reducible apply keeps_State_loseMove)
    | (with_reducible apply keeps_State_forgetTier)
    | (with_reducible apply keeps_State_dropLoad)
    | (with_reducible apply keeps_State_endServe)
    | (with_reducible apply keeps_State_complete)
    | (with_reducible refine Keeps.foldl ?_ ?_)
    | (intro _)
    | (extract_lets -underBinder)
    | (with_reducible refine Keeps.ite ?_ ?_))

theorem keeps_State_failLakeTest {s0 : State} (s : State) (hk : Keeps s0 s) :
    Keeps s0 (State.failLakeTest s) := by
  rw [State.failLakeTest.eq_def]
  repeat' (first
    | (with_reducible assumption)
    | (with_reducible apply keeps_State_stackEmptied)
    | (with_reducible apply keeps_State_fresh)
    | (with_reducible apply keeps_State_lendLost)
    | (with_reducible apply keeps_State_onLakeTest)
    | (with_reducible apply keeps_State_raiseM)
    | (extract_lets -underBinder)
    | (with_reducible refine Keeps.ite ?_ ?_)
    | split
    | (dsimp +zetaDelta only))

theorem keeps_State_started {s0 : State} (s : State) (cause : Nat) (micros : Nat) (hk : Keeps s0 s) :
    Keeps s0 (State.started s cause micros) := by
  rw [State.started.eq_def]
  repeat' (first
    | (with_reducible assumption)
    | (with_reducible exact id)
    | (with_reducible exact Nat.le_refl _)
    | (with_reducible exact BitVec.le_refl _)
    | (with_reducible apply keeps_State_raiseM)
    | (with_reducible refine Keeps.boxed ?_ ?_ ?_ ?_)
    | (extract_lets -underBinder)
    | (with_reducible rw [State.mk_boxed]))

theorem keeps_State_losePartition {s0 : State} (s : State) (p : Nat) (hk : Keeps s0 s) :
    Keeps s0 (State.losePartition s p) := by
  rw [State.losePartition.eq_def]
  repeat' (first
    | (with_reducible assumption)
    | (with_reducible apply keeps_State_onPartn)
    | (with_reducible apply keeps_State_complete)
    | (with_reducible apply keeps_State_enterDiscarded)
    | (with_reducible refine Keeps.foldl ?_ ?_)
    | (intro _)
    | (extract_lets -underBinder)
    | (with_reducible refine Keeps.ite ?_ ?_))

theorem keeps_State_loseTail {s0 : State} (s : State) (hk : Keeps s0 s) :
    Keeps s0 (State.loseTail s) := by
  rw [State.loseTail.eq_def]
  repeat' (first
    | (with_reducible assumption)
    | (with_reducible exact id)
    | (with_reducible exact Nat.le_refl _)
    | (with_reducible exact BitVec.le_refl _)
    | (with_reducible refine Keeps.boxed ?_ ?_ ?_ ?_)
    | (extract_lets -underBinder)
    | (with_reducible rw [State.mk_boxed]))

theorem keeps_State_losePowered {s0 : State} (s : State) (hk : Keeps s0 s) :
    Keeps s0 (State.losePowered s) := by
  rw [State.losePowered.eq_def]
  repeat' (first
    | (with_reducible assumption)
    | (with_reducible exact Nat.le_refl _)
    | (with_reducible exact BitVec.le_refl _)
    | (exact fun _ => Memory.wf_nil)
    | (with_reducible apply keeps_State_losePartition)
    | (with_reducible refine Keeps.foldl ?_ ?_)
    | (with_reducible refine Keeps.boxed ?_ ?_ ?_ ?_)
    | (extract_lets -underBinder)
    | (with_reducible rw [State.mk_boxed]))

theorem keeps_State_resetSessions {s0 : State} (s : State) (hk : Keeps s0 s) :
    Keeps s0 (State.resetSessions s) := by
  rw [State.resetSessions.eq_def]
  repeat' (first
    | (with_reducible assumption)
    | (with_reducible exact id)
    | (with_reducible exact Nat.le_refl _)
    | (with_reducible exact BitVec.le_refl _)
    | (with_reducible apply keeps_State_endSessions)
    | (with_reducible apply keeps_State_dropOpenSet)
    | (with_reducible refine Keeps.boxed ?_ ?_ ?_ ?_)
    | (extract_lets -underBinder)
    | (with_reducible rw [State.mk_boxed]))

theorem keeps_State_rebuildLandings {s0 : State} (s : State) (hk : Keeps s0 s) :
    Keeps s0 (State.rebuildLandings s) := by
  rw [State.rebuildLandings.eq_def]
  repeat' (first
    | (with_reducible assumption)
    | (with_reducible exact id)
    | (with_reducible exact Nat.le_refl _)
    | (with_reducible exact BitVec.le_refl _)
    | (with_reducible refine Keeps.boxed ?_ ?_ ?_ ?_)
    | (extract_lets -underBinder)
    | (with_reducible rw [State.mk_boxed]))

theorem keeps_State_finishWarm {s0 : State} (s : State) (cause : Nat) (since : Nat) (lost : List Nat) (old : Nat × List Nat) (hk : Keeps s0 s) :
    Keeps s0 (State.finishWarm s cause since lost old) := by
  rw [State.finishWarm.eq_def]
  repeat' (first
    | (with_reducible assumption)
    | (with_reducible exact id)
    | (with_reducible exact Nat.le_refl _)
    | (with_reducible exact BitVec.le_refl _)
    | (with_reducible apply keeps_State_restartAll)
    | (with_reducible apply keeps_State_resetSessions)
    | (with_reducible apply keeps_State_settleFatal)
    | (with_reducible apply keeps_State_settleReset)
    | (with_reducible apply keeps_State_hallGone)
    | (with_reducible apply keeps_State_settleSets)
    | (with_reducible apply keeps_State_retrain)
    | (with_reducible apply keeps_State_failLakeTest)
    | (with_reducible apply keeps_State_lockClocks)
    | (with_reducible apply keeps_State_rebuildLandings)
    | (with_reducible apply keeps_State_enterOrphan)
    | (with_reducible apply keeps_State_onPartn)
    | (with_reducible apply keeps_State_started)
    | (with_reducible apply keeps_State_flushAll)
    | (with_reducible apply keeps_State_releaseLatched)
    | (with_reducible refine Keeps.foldl ?_ ?_)
    | (with_reducible refine Keeps.boxed ?_ ?_ ?_ ?_)
    | (intro _)
    | (extract_lets -underBinder)
    | (with_reducible refine Keeps.ite ?_ ?_)
    | (with_reducible rw [State.mk_boxed])
    | (dsimp +zetaDelta only))

theorem keeps_State_enterRecovery {s0 : State} (s : State) (hk : Keeps s0 s) :
    Keeps s0 (State.enterRecovery s) := by
  rw [State.enterRecovery.eq_def]
  repeat' (first
    | (with_reducible assumption)
    | (with_reducible exact id)
    | (with_reducible exact Nat.le_refl _)
    | (with_reducible exact BitVec.le_refl _)
    | (with_reducible apply keeps_State_losePowered)
    | (with_reducible refine Keeps.boxed ?_ ?_ ?_ ?_)
    | (extract_lets -underBinder)
    | (with_reducible rw [State.mk_boxed]))

theorem keeps_execActivateRestart {s0 : State} (pause : Nat) (s : State) (hk : Keeps s0 s) :
    RKeeps s0 (execActivateRestart pause s) := by
  rw [execActivateRestart.eq_def]
  repeat' (first
    | (with_reducible assumption)
    | (with_reducible exact BitVec.le_refl _)
    | (with_reducible apply keeps_State_restartAll)
    | (with_reducible apply keeps_State_endSessions)
    | (with_reducible apply keeps_State_endWindow)
    | (with_reducible apply keeps_State_onUpdate)
    | (with_reducible apply keeps_State_boot)
    | (with_reducible apply keeps_State_enterRecovery)
    | (with_reducible apply RKeeps.next)
    | (with_reducible apply PKeeps.fst)
    | (intro _)
    | (extract_lets -underBinder)
    | (with_reducible refine Keeps.ite ?_ ?_)
    | split)

theorem keeps_execWarmResetComplete {s0 : State} (lost : List Nat) (s : State) (hk : Keeps s0 s) :
    RKeeps s0 (execWarmResetComplete lost s) := by
  rw [execWarmResetComplete.eq_def]
  repeat' (first
    | (with_reducible assumption)
    | (with_reducible exact id)
    | (with_reducible exact Nat.le_refl _)
    | (with_reducible exact BitVec.le_refl _)
    | (with_reducible apply keeps_State_boot)
    | (with_reducible apply keeps_State_finishWarm)
    | (with_reducible apply keeps_State_enterRecovery)
    | (with_reducible refine Keeps.boxed ?_ ?_ ?_ ?_)
    | (with_reducible apply RKeeps.next)
    | (with_reducible apply PKeeps.fst)
    | (extract_lets -underBinder)
    | (with_reducible refine Keeps.ite ?_ ?_)
    | (with_reducible rw [State.mk_boxed])
    | split)

theorem keeps_State_startCopies {s0 : State} (s : State) (hk : Keeps s0 s) :
    Keeps s0 (State.startCopies s) := by
  rw [State.startCopies.eq_def]
  repeat' (first
    | (with_reducible assumption)
    | (with_reducible exact id)
    | (with_reducible exact Nat.le_refl _)
    | (with_reducible exact BitVec.le_refl _)
    | (with_reducible apply keeps_State_fatalNow)
    | (with_reducible refine Keeps.boxed ?_ ?_ ?_ ?_)
    | (extract_lets -underBinder)
    | (with_reducible refine Keeps.ite ?_ ?_)
    | (with_reducible rw [State.mk_boxed])
    | split
    | (dsimp +zetaDelta only))

theorem keeps_State_startHalls {s0 : State} (s : State) (lost : List Nat) (hk : Keeps s0 s) :
    Keeps s0 (State.startHalls s lost) := by
  rw [State.startHalls.eq_def]
  repeat' (first
    | (with_reducible assumption)
    | (with_reducible exact id)
    | (with_reducible exact Nat.le_refl _)
    | (with_reducible exact BitVec.le_refl _)
    | (with_reducible apply keeps_State_hallOut)
    | (with_reducible apply keeps_State_startCopies)
    | (with_reducible refine Keeps.foldl ?_ ?_)
    | (with_reducible refine Keeps.boxed ?_ ?_ ?_ ?_)
    | (extract_lets -underBinder)
    | (with_reducible rw [State.mk_boxed]))

theorem keeps_State_startUp {s0 : State} (s : State) (lost : List Nat) (hk : Keeps s0 s) :
    Keeps s0 (State.startUp s lost) := by
  rw [State.startUp.eq_def]
  repeat' (first
    | (with_reducible assumption)
    | (with_reducible exact id)
    | (with_reducible exact Nat.le_refl _)
    | (with_reducible exact BitVec.le_refl _)
    | (with_reducible apply keeps_State_startHalls)
    | (with_reducible apply keeps_State_settleSets)
    | (with_reducible apply keeps_State_trainPorts)
    | (with_reducible apply keeps_State_lockClocks)
    | (with_reducible refine Keeps.boxed ?_ ?_ ?_ ?_)
    | (extract_lets -underBinder)
    | (with_reducible refine Keeps.ite ?_ ?_)
    | (with_reducible rw [State.mk_boxed]))

theorem keeps_State_tellLoss {s0 : State} (s : State) (hk : Keeps s0 s) :
    Keeps s0 (State.tellLoss s) := by
  rw [State.tellLoss.eq_def]
  repeat' (first
    | (with_reducible assumption)
    | (with_reducible exact id)
    | (with_reducible exact Nat.le_refl _)
    | (with_reducible exact BitVec.le_refl _)
    | (with_reducible apply keeps_State_bump)
    | (with_reducible apply keeps_State_raiseM)
    | (with_reducible apply keeps_State_loseTail)
    | (with_reducible refine Keeps.boxed ?_ ?_ ?_ ?_)
    | (extract_lets -underBinder)
    | (with_reducible refine Keeps.ite ?_ ?_)
    | (with_reducible rw [State.mk_boxed])
    | split
    | (dsimp +zetaDelta only))

theorem keeps_State_powerUp {s0 : State} (s : State) (hk : Keeps s0 s) :
    Keeps s0 (State.powerUp s) := by
  rw [State.powerUp.eq_def]
  repeat' (first
    | (with_reducible assumption)
    | (with_reducible exact id)
    | (with_reducible exact Nat.le_refl _)
    | (with_reducible exact BitVec.le_refl _)
    | (with_reducible apply keeps_State_trainHost)
    | (with_reducible apply keeps_State_setValue)
    | (with_reducible refine Keeps.boxed ?_ ?_ ?_ ?_)
    | (extract_lets -underBinder)
    | (with_reducible rw [State.mk_boxed]))

theorem keeps_execColdStart {s0 : State} (r : StartReading) (s : State) (hk : Keeps s0 s) :
    RKeeps s0 (execColdStart r s) := by
  rw [execColdStart.eq_def]
  repeat' (first
    | (with_reducible assumption)
    | (with_reducible exact id)
    | (with_reducible exact Nat.le_refl _)
    | (with_reducible exact BitVec.le_refl _)
    | (with_reducible apply keeps_State_tellLoss)
    | (with_reducible apply keeps_State_losePowered)
    | (with_reducible apply keeps_State_powerUp)
    | (with_reducible apply keeps_State_boot)
    | (with_reducible apply keeps_State_measureHoldup)
    | (with_reducible apply keeps_State_startUp)
    | (with_reducible refine Keeps.boxed ?_ ?_ ?_ ?_)
    | (with_reducible apply RKeeps.next)
    | (with_reducible apply PKeeps.fst)
    | (extract_lets -underBinder)
    | (with_reducible refine Keeps.ite ?_ ?_)
    | (with_reducible rw [State.mk_boxed])
    | split
    | (dsimp +zetaDelta only))

theorem keeps_execModuleRunning {s0 : State} (s : State) (hk : Keeps s0 s) :
    RKeeps s0 (execModuleRunning s) := by
  rw [execModuleRunning.eq_def]
  repeat' (first
    | (with_reducible assumption)
    | (with_reducible apply keeps_State_started)
    | (with_reducible apply keeps_State_releaseLatched)
    | (with_reducible apply RKeeps.next)
    | split)

theorem keeps_execPackageStagingComplete {s0 : State} (written : Bool) (s : State) (hk : Keeps s0 s) :
    RKeeps s0 (execPackageStagingComplete written s) := by
  rw [execPackageStagingComplete.eq_def]
  repeat' (first
    | (with_reducible assumption)
    | (with_reducible apply keeps_State_refuseImage)
    | (with_reducible apply keeps_State_setSlot)
    | (with_reducible apply keeps_State_raiseFw)
    | (with_reducible apply keeps_State_closePort)
    | (with_reducible apply keeps_State_writeBoot)
    | (with_reducible apply keeps_State_startUp)
    | (with_reducible apply RKeeps.next)
    | (extract_lets -underBinder)
    | split)

theorem keeps_State_setIr {s0 : State} (s : State) (v : Byte) (hk : Keeps s0 s) :
    Keeps s0 (State.setIr s v) := by
  rw [State.setIr.eq_def]
  repeat' (first
    | (with_reducible assumption)
    | (with_reducible exact id)
    | (with_reducible exact Nat.le_refl _)
    | (with_reducible exact BitVec.le_refl _)
    | (with_reducible apply keeps_State_releaseReset)
    | (with_reducible refine Keeps.boxed ?_ ?_ ?_ ?_)
    | (extract_lets -underBinder)
    | (with_reducible refine Keeps.ite ?_ ?_)
    | (with_reducible rw [State.mk_boxed]))

theorem keeps_State_scan {s0 : State} (s : State) (v : Byte) (hk : Keeps s0 s) :
    Keeps s0 (State.scan s v) := by
  rw [State.scan.eq_def]
  repeat' (first
    | (with_reducible assumption)
    | (with_reducible apply keeps_State_setIr))

theorem keeps_State_capture {s0 : State} (s : State) (hk : Keeps s0 s) :
    Keeps s0 (State.capture s) := by
  rw [State.capture.eq_def]
  repeat' (first
    | (with_reducible assumption)
    | (with_reducible exact id)
    | (with_reducible exact Nat.le_refl _)
    | (with_reducible exact BitVec.le_refl _)
    | (with_reducible apply keeps_State_fresh)
    | (with_reducible refine Keeps.boxed ?_ ?_ ?_ ?_)
    | (extract_lets -underBinder)
    | (with_reducible rw [State.mk_boxed]))

theorem keeps_State_preloadBoundary {s0 : State} (s : State) (hk : Keeps s0 s) :
    Keeps s0 (State.preloadBoundary s) := by
  rw [State.preloadBoundary.eq_def]
  repeat' (first
    | (with_reducible assumption)
    | (with_reducible exact id)
    | (with_reducible exact Nat.le_refl _)
    | (with_reducible exact BitVec.le_refl _)
    | (with_reducible apply keeps_State_fresh)
    | (with_reducible refine Keeps.boxed ?_ ?_ ?_ ?_)
    | (extract_lets -underBinder)
    | (with_reducible rw [State.mk_boxed]))

theorem keeps_State_sampled {s0 : State} (s : State) (hk : Keeps s0 s) :
    Keeps s0 (State.sampled s) := by
  rw [State.sampled.eq_def]
  repeat' (first
    | (with_reducible assumption)
    | (with_reducible apply keeps_State_capture)
    | (with_reducible refine Keeps.ite ?_ ?_))

theorem keeps_execExtest {s0 : State} (s : State) (hk : Keeps s0 s) :
    RKeeps s0 (execExtest s) := by
  rw [execExtest.eq_def]
  repeat' (first
    | (with_reducible assumption)
    | (with_reducible apply keeps_State_scan)
    | (with_reducible apply keeps_State_sampled)
    | (with_reducible apply RKeeps.next))

theorem keeps_execIdcode {s0 : State} (s : State) (hk : Keeps s0 s) :
    RKeeps s0 (execIdcode s) := by
  rw [execIdcode.eq_def]
  repeat' (first
    | (with_reducible assumption)
    | (with_reducible apply keeps_State_setIr)
    | (with_reducible apply RKeeps.next))

theorem keeps_execSamplePreload {s0 : State} (s : State) (hk : Keeps s0 s) :
    RKeeps s0 (execSamplePreload s) := by
  rw [execSamplePreload.eq_def]
  repeat' (first
    | (with_reducible assumption)
    | (with_reducible apply keeps_State_setIr)
    | (with_reducible apply keeps_State_sampled)
    | (with_reducible apply keeps_State_preloadBoundary)
    | (with_reducible apply RKeeps.next)
    | (extract_lets -underBinder)
    | (with_reducible refine Keeps.ite ?_ ?_))

theorem keeps_execExtestPulse {s0 : State} (s : State) (hk : Keeps s0 s) :
    RKeeps s0 (execExtestPulse s) := by
  rw [execExtestPulse.eq_def]
  repeat' (first
    | (with_reducible assumption)
    | (with_reducible apply keeps_State_scan)
    | (with_reducible apply keeps_State_sampled)
    | (with_reducible apply RKeeps.next))

theorem keeps_execExtestTrain {s0 : State} (s : State) (hk : Keeps s0 s) :
    RKeeps s0 (execExtestTrain s) := by
  rw [execExtestTrain.eq_def]
  repeat' (first
    | (with_reducible assumption)
    | (with_reducible apply keeps_State_scan)
    | (with_reducible apply keeps_State_sampled)
    | (with_reducible apply RKeeps.next))

theorem keeps_execClamp {s0 : State} (s : State) (hk : Keeps s0 s) :
    RKeeps s0 (execClamp s) := by
  rw [execClamp.eq_def]
  repeat' (first
    | (with_reducible assumption)
    | (with_reducible apply keeps_State_scan)
    | (with_reducible apply RKeeps.next))

theorem keeps_execHighz {s0 : State} (s : State) (hk : Keeps s0 s) :
    RKeeps s0 (execHighz s) := by
  rw [execHighz.eq_def]
  repeat' (first
    | (with_reducible assumption)
    | (with_reducible apply keeps_State_scan)
    | (with_reducible apply RKeeps.next))

theorem keeps_execBypass {s0 : State} (code : Byte) (s : State) (hk : Keeps s0 s) :
    RKeeps s0 (execBypass code s) := by
  rw [execBypass.eq_def]
  repeat' (first
    | (with_reducible assumption)
    | (with_reducible apply keeps_State_setIr)
    | (with_reducible apply RKeeps.next)
    | (extract_lets -underBinder)
    | (with_reducible refine Keeps.ite ?_ ?_))

theorem keeps_execSarolberPrivate {s0 : State} (code : Byte) (s : State) (hk : Keeps s0 s) :
    RKeeps s0 (execSarolberPrivate code s) := by
  rw [execSarolberPrivate.eq_def]
  repeat' (first
    | (with_reducible assumption)
    | (with_reducible apply keeps_State_setIr)
    | (with_reducible exact RKeeps.refused)
    | (with_reducible apply RKeeps.next)
    | split)

theorem keeps_execTapTestLogicReset {s0 : State} (s : State) (hk : Keeps s0 s) :
    RKeeps s0 (execTapTestLogicReset s) := by
  rw [execTapTestLogicReset.eq_def]
  repeat' (first
    | (with_reducible assumption)
    | (with_reducible exact id)
    | (with_reducible exact Nat.le_refl _)
    | (with_reducible exact BitVec.le_refl _)
    | (with_reducible apply keeps_State_setIr)
    | (with_reducible refine Keeps.boxed ?_ ?_ ?_ ?_)
    | (with_reducible apply RKeeps.next)
    | (extract_lets -underBinder)
    | (with_reducible refine Keeps.ite ?_ ?_)
    | (with_reducible rw [State.mk_boxed])
    | split)

/-! ## Machine/LakeTest.lean -/


theorem keeps_State_startLakeTest {s0 : State} (s : State) (hk : Keeps s0 s) :
    Keeps s0 (State.startLakeTest s) := by
  rw [State.startLakeTest.eq_def]
  repeat' (first
    | (with_reducible assumption)
    | (with_reducible apply keeps_State_onLakeTest)
    | (with_reducible apply keeps_State_raiseM)
    | (extract_lets -underBinder)
    | (with_reducible refine Keeps.ite ?_ ?_))

theorem keeps_execLakeTestStart {s0 : State} (s : State) (hk : Keeps s0 s) :
    RKeeps s0 (execLakeTestStart s) := by
  rw [execLakeTestStart.eq_def]
  repeat' (first
    | (with_reducible assumption)
    | (with_reducible apply keeps_State_startLakeTest)
    | (with_reducible apply RKeeps.next))

theorem keeps_State_endLakeTest {s0 : State} (s : State) (st : LakeTestState) (code : Nat) (hk : Keeps s0 s) :
    Keeps s0 (State.endLakeTest s st code) := by
  rw [State.endLakeTest.eq_def]
  repeat' (first
    | (with_reducible assumption)
    | (with_reducible apply keeps_State_onLakeTest)
    | (with_reducible apply keeps_State_raiseM))

theorem keeps_State_refuseLakeTest {s0 : State} (s : State) (hk : Keeps s0 s) :
    Keeps s0 (State.refuseLakeTest s) := by
  rw [State.refuseLakeTest.eq_def]
  repeat' (first
    | (with_reducible assumption)
    | (with_reducible apply keeps_State_endLakeTest))

theorem keeps_execLakeTestHoldTimeout {s0 : State} (s : State) (hk : Keeps s0 s) :
    RKeeps s0 (execLakeTestHoldTimeout s) := by
  rw [execLakeTestHoldTimeout.eq_def]
  repeat' (first
    | (with_reducible assumption)
    | (with_reducible apply keeps_State_refuseLakeTest)
    | (with_reducible apply RKeeps.next)
    | (extract_lets -underBinder)
    | (with_reducible refine Keeps.ite ?_ ?_))

theorem keeps_State_moveCopy {s0 : State} (s : State) (k : Nat) (hk : Keeps s0 s) :
    Keeps s0 (State.moveCopy s k) := by
  rw [State.moveCopy.eq_def]
  repeat' (first
    | (with_reducible assumption)
    | (with_reducible exact id)
    | (with_reducible exact Nat.le_refl _)
    | (with_reducible exact BitVec.le_refl _)
    | (with_reducible apply keeps_State_raiseM)
    | (with_reducible refine Keeps.boxed ?_ ?_ ?_ ?_)
    | (extract_lets -underBinder)
    | (with_reducible refine Keeps.ite ?_ ?_)
    | (with_reducible rw [State.mk_boxed])
    | split
    | (dsimp +zetaDelta only))

theorem keeps_State_deviceFails {s0 : State} (s : State) (k : Nat) (e : Nat × Nat) (hk : Keeps s0 s) :
    Keeps s0 (State.deviceFails s k e) := by
  rw [State.deviceFails.eq_def]
  repeat' (first
    | (with_reducible assumption)
    | (with_reducible exact id)
    | (with_reducible exact Nat.le_refl _)
    | (with_reducible exact BitVec.le_refl _)
    | (with_reducible apply keeps_State_raise)
    | (with_reducible apply keeps_State_channelGone)
    | (with_reducible refine Keeps.boxed ?_ ?_ ?_ ?_)
    | (extract_lets -underBinder)
    | (with_reducible refine Keeps.ite ?_ ?_)
    | (with_reducible rw [State.mk_boxed]))

theorem keeps_State_parkReturned {s0 : State} (s : State) (k : Nat) (changed : List (Nat × List Byte)) (hk : Keeps s0 s) :
    Keeps s0 (State.parkReturned s k changed) := by
  rw [State.parkReturned.eq_def]
  repeat' (first
    | (with_reducible assumption)
    | (with_reducible exact id)
    | (with_reducible exact Nat.le_refl _)
    | (with_reducible exact BitVec.le_refl _)
    | (with_reducible apply keeps_State_lendLost)
    | (with_reducible apply keeps_State_lakeWrite)
    | (with_reducible refine Keeps.foldl ?_ ?_)
    | (with_reducible refine Keeps.boxed ?_ ?_ ?_ ?_)
    | (intro _)
    | (extract_lets -underBinder)
    | (with_reducible refine Keeps.ite ?_ ?_)
    | (with_reducible rw [State.mk_boxed])
    | (dsimp +zetaDelta only))

theorem keeps_execLakeTestStackDone {s0 : State} (r : LakeTestResult) (s : State) (hk : Keeps s0 s) :
    RKeeps s0 (execLakeTestStackDone r s) := by
  rw [execLakeTestStackDone.eq_def]
  repeat' (first
    | (with_reducible assumption)
    | (with_reducible apply keeps_State_refuseLakeTest)
    | (with_reducible apply keeps_State_moveCopy)
    | (with_reducible apply keeps_State_raise)
    | (with_reducible apply keeps_State_deviceFails)
    | (with_reducible apply keeps_State_parkReturned)
    | (with_reducible apply keeps_State_lendLost)
    | (with_reducible apply keeps_State_stackEmptied)
    | (with_reducible apply keeps_State_onLakeTest)
    | (with_reducible apply keeps_State_endLakeTest)
    | (with_reducible refine Keeps.foldl ?_ ?_)
    | (with_reducible apply RKeeps.next)
    | (intro _)
    | (extract_lets -underBinder)
    | (with_reducible refine Keeps.ite ?_ ?_)
    | split)

end Sys2Proof.Machine
end

