-- ==== Sys2Proof/Laws/KeepsEngines.lean ====
section
/-! SUPPORT. What the operations of the Machine files imported here keep (Safety.lean, Keeps): one lemma each. -/

namespace Sys2Proof.Machine

/-! ## Machine/Tiles.lean -/


theorem keeps_ttagAct {s0 : State} (c : Nat) (t : Nat) (w : U32) (s : State) (hk : Keeps s0 s) :
    Keeps s0 (ttagAct c t w s) := by
  rw [ttagAct.eq_def]
  repeat' (first
    | (with_reducible assumption)
    | (with_reducible apply keeps_State_onCore))

theorem keeps_ttagChecked {s0 : State} (c : Nat) (t : Nat) (w : U32) (s : State) (hk : Keeps s0 s) :
    Keeps s0 (ttagChecked c t w s) := by
  rw [ttagChecked.eq_def]
  repeat' (first
    | (with_reducible assumption)
    | (with_reducible apply keeps_haltAt)
    | (with_reducible apply keeps_lockChecked)
    | (with_reducible apply keeps_ttagAct)
    | (extract_lets -underBinder)
    | (with_reducible refine Keeps.ite ?_ ?_))

theorem keeps_execTtag {s0 : State} (c : Nat) (t : Nat) (w : U32) (s : State) (hk : Keeps s0 s) :
    RKeeps s0 (execTtag c t w s) := by
  rw [execTtag.eq_def]
  repeat' (first
    | (with_reducible assumption)
    | (with_reducible apply keeps_issue)
    | (with_reducible apply keeps_ttagChecked)
    | (with_reducible apply RKeeps.next))

theorem keeps_tileAct {s0 : State} (c t : Nat) (w : U32) (s : State) (hk : Keeps s0 s) : Keeps s0 (tileAct c t w s) := by
  unfold tileAct
  extract_lets -underBinder
  split
  · exact keeps_haltAt _ _ _ _ _ _ hk
  · exact keeps_State_onCore _ _ _ hk

theorem keeps_tileChecked {s0 : State} (c : Nat) (t : Nat) (w : U32) (s : State) (hk : Keeps s0 s) :
    Keeps s0 (tileChecked c t w s) := by
  rw [tileChecked.eq_def]
  repeat' (first
    | (with_reducible assumption)
    | (with_reducible apply keeps_reserveChecked)
    | (with_reducible apply keeps_lockChecked)
    | (with_reducible apply keeps_tileAct)
    | (intro _))

theorem keeps_execTld {s0 : State} (c : Nat) (t : Nat) (w : U32) (s : State) (hk : Keeps s0 s) :
    RKeeps s0 (execTld c t w s) := by
  rw [execTld.eq_def]
  repeat' (first
    | (with_reducible assumption)
    | (with_reducible apply keeps_issue)
    | (with_reducible apply keeps_tileChecked)
    | (with_reducible apply RKeeps.next))

theorem keeps_execTst {s0 : State} (c : Nat) (t : Nat) (w : U32) (s : State) (hk : Keeps s0 s) :
    RKeeps s0 (execTst c t w s) := by
  rw [execTst.eq_def]
  repeat' (first
    | (with_reducible assumption)
    | (with_reducible apply keeps_issue)
    | (with_reducible apply keeps_tileChecked)
    | (with_reducible apply RKeeps.next))

theorem keeps_tileExec {s0 : State} (c : Nat) (s : State) (hk : Keeps s0 s) : Keeps s0 (tileExec c s) := by
  unfold tileExec
  extract_lets -underBinder
  split
  · exact hk
  · extract_lets -underBinder
    exact Keeps.ite (keeps_State_halt _ _ _ _ _ _ _ (keeps_State_onCore _ _ _ hk)) (Keeps.ite
      (keeps_State_halt _ _ _ _ _ _ _ (keeps_State_onCore _ _ _ hk))
      (keeps_State_onCore _ _ _ (keeps_State_correctPond _ _ _ _ (keeps_State_onCore _ _ _ hk))))

/-! ## Machine/Matrix.lean -/


theorem keeps_mmaEnqueue {s0 : State} (c : Nat) (t : Nat) (w : U32) (s : State) (hk : Keeps s0 s) :
    Keeps s0 (mmaEnqueue c t w s) := by
  rw [mmaEnqueue.eq_def]
  repeat' (first
    | (with_reducible assumption)
    | (with_reducible apply keeps_State_enterLayer)
    | (with_reducible apply keeps_State_setCore)
    | (with_reducible apply PKeeps.fst))

theorem keeps_mmaAct {s0 : State} (c : Nat) (t : Nat) (w : U32) (s : State) (hk : Keeps s0 s) :
    Keeps s0 (mmaAct c t w s) := by
  rw [mmaAct.eq_def]
  repeat' (first
    | (with_reducible assumption)
    | (with_reducible apply keeps_State_onThread)
    | (with_reducible apply keeps_haltAt)
    | (with_reducible apply keeps_mmaEnqueue)
    | (extract_lets -underBinder)
    | (with_reducible refine Keeps.ite ?_ ?_)
    | split)

theorem keeps_mmaChecked {s0 : State} (c : Nat) (t : Nat) (w : U32) (s : State) (hk : Keeps s0 s) :
    Keeps s0 (mmaChecked c t w s) := by
  rw [mmaChecked.eq_def]
  repeat' (first
    | (with_reducible assumption)
    | (with_reducible apply keeps_reserveChecked)
    | (with_reducible apply keeps_lockChecked)
    | (with_reducible apply keeps_mmaAct)
    | (intro _))

theorem keeps_execMma {s0 : State} (c : Nat) (t : Nat) (w : U32) (s : State) (hk : Keeps s0 s) :
    RKeeps s0 (execMma c t w s) := by
  rw [execMma.eq_def]
  repeat' (first
    | (with_reducible assumption)
    | (with_reducible apply keeps_issue)
    | (with_reducible apply keeps_mmaChecked)
    | (with_reducible apply RKeeps.next))

theorem keeps_execMmaExecute {s0 : State} (c : Nat) (s : State) (hk : Keeps s0 s) :
    RKeeps s0 (execMmaExecute c s) := by
  rw [execMmaExecute.eq_def]
  repeat' (first
    | (with_reducible assumption)
    | (with_reducible apply keeps_State_setCore)
    | (with_reducible apply RKeeps.next)
    | (extract_lets -underBinder)
    | split)

theorem keeps_epiEnqueue {s0 : State} (c : Nat) (t : Nat) (w : U32) (s : State) (hk : Keeps s0 s) :
    Keeps s0 (epiEnqueue c t w s) := by
  rw [epiEnqueue.eq_def]
  repeat' (first
    | (with_reducible assumption)
    | (with_reducible apply keeps_State_enterLayer)
    | (with_reducible apply keeps_State_setCore)
    | (with_reducible apply PKeeps.fst))

theorem keeps_epiQueued {s0 : State} (c : Nat) (t : Nat) (w : U32) (s : State) (hk : Keeps s0 s) :
    Keeps s0 (epiQueued c t w s) := by
  rw [epiQueued.eq_def]
  repeat' (first
    | (with_reducible assumption)
    | (with_reducible apply keeps_State_onThread)
    | (with_reducible apply keeps_haltAt)
    | (with_reducible apply keeps_epiEnqueue)
    | (extract_lets -underBinder)
    | (with_reducible refine Keeps.ite ?_ ?_)
    | split)

theorem keeps_epiChecked {s0 : State} (c : Nat) (t : Nat) (w : U32) (s : State) (hk : Keeps s0 s) :
    Keeps s0 (epiChecked c t w s) := by
  rw [epiChecked.eq_def]
  repeat' (first
    | (with_reducible assumption)
    | (with_reducible apply keeps_reserveChecked)
    | (with_reducible apply keeps_lockChecked)
    | (with_reducible apply keeps_epiQueued)
    | (intro _))

theorem keeps_execEpi {s0 : State} (c : Nat) (t : Nat) (w : U32) (s : State) (hk : Keeps s0 s) :
    RKeeps s0 (execEpi c t w s) := by
  rw [execEpi.eq_def]
  repeat' (first
    | (with_reducible assumption)
    | (with_reducible apply keeps_issue)
    | (with_reducible apply keeps_epiChecked)
    | (with_reducible apply RKeeps.next))

theorem keeps_epiReports {s0 : State} (s : State) (c : Nat) (e : MatEntry) (key : U32) (tensor : U32) (ovf : Bool) (tile : Bool) (hk : Keeps s0 s) :
    Keeps s0 (epiReports s c e key tensor ovf tile) := by
  rw [epiReports.eq_def]
  repeat' (first
    | (with_reducible assumption)
    | (with_reducible apply keeps_State_overflow)
    | (with_reducible apply keeps_State_a32Report)
    | (with_reducible apply PKeeps.fst)
    | (extract_lets -underBinder)
    | (with_reducible refine Keeps.ite ?_ ?_))

theorem keeps_execEpiExecute {s0 : State} (c : Nat) (s : State) (hk : Keeps s0 s) :
    RKeeps s0 (execEpiExecute c s) := by
  rw [execEpiExecute.eq_def]
  repeat' (first
    | (with_reducible assumption)
    | (with_reducible apply keeps_State_setCore)
    | (with_reducible apply keeps_State_halt)
    | (with_reducible apply keeps_State_tally)
    | (with_reducible apply keeps_epiReports)
    | (with_reducible apply keeps_State_correctPonds)
    | (with_reducible apply RKeeps.next)
    | (extract_lets -underBinder)
    | split)

theorem keeps_execAccParityError {s0 : State} (c : Nat) (acc : Nat) (s : State) (hk : Keeps s0 s) :
    RKeeps s0 (execAccParityError c acc s) := by
  rw [execAccParityError.eq_def]
  repeat' (first
    | (with_reducible assumption)
    | (with_reducible apply keeps_State_setCore)
    | (with_reducible apply keeps_State_halt)
    | (with_reducible apply RKeeps.next)
    | (extract_lets -underBinder)
    | split
    | (dsimp +zetaDelta only))

/-! ## Machine/Sets.lean -/


theorem keeps_State_noteRw2 {s0 : State} (s : State) (status : Nat) (hk : Keeps s0 s) :
    Keeps s0 (State.noteRw2 s status) := by
  rw [State.noteRw2.eq_def]
  repeat' (first
    | (with_reducible assumption)
    | (with_reducible apply keeps_State_raiseM)
    | (with_reducible refine Keeps.ite ?_ ?_))

theorem keeps_State_overlay {s0 : State} (s : State) (es : List Entry) (hk : Keeps s0 s) :
    Keeps s0 (State.overlay s es) := by
  rw [State.overlay.eq_def]
  repeat' (first
    | (with_reducible assumption)
    | (with_reducible apply keeps_State_dropViews)
    | (with_reducible apply keeps_State_setValue)
    | (with_reducible refine Keeps.foldl ?_ ?_)
    | (intro _))

theorem keeps_State_onSet {s0 : State} (s : State) (csid : Nat) (f : ChangeSet → ChangeSet) (hk : Keeps s0 s) :
    Keeps s0 (State.onSet s csid f) := by
  rw [State.onSet.eq_def]
  repeat' (first
    | (with_reducible assumption)
    | (with_reducible exact id)
    | (with_reducible exact Nat.le_refl _)
    | (with_reducible exact BitVec.le_refl _)
    | (with_reducible refine Keeps.boxed ?_ ?_ ?_ ?_)
    | (extract_lets -underBinder)
    | (with_reducible rw [State.mk_boxed]))

theorem keeps_State_writeOnly {s0 : State} (s : State) (sess : Nat) (e : Entry) (hk : Keeps s0 s) :
    Keeps s0 (State.writeOnly s sess e) := by
  rw [State.writeOnly.eq_def]
  repeat' (first
    | (with_reducible assumption)
    | (with_reducible apply keeps_State_enterWarmReset)
    | (with_reducible apply keeps_State_releaseDumps)
    | (with_reducible apply keeps_State_activate)
    | (with_reducible apply keeps_State_confirmImage)
    | (with_reducible apply keeps_State_failUpdate)
    | (with_reducible apply keeps_State_startLakeTest)
    | (with_reducible apply keeps_State_startLinkTest)
    | (extract_lets -underBinder)
    | (with_reducible refine Keeps.ite ?_ ?_))

theorem keeps_State_applySet {s0 : State} (s : State) (c : ChangeSet) (pause : Nat) (hk : Keeps s0 s) :
    Keeps s0 (State.applySet s c pause) := by
  rw [State.applySet.eq_def]
  repeat' (first
    | (with_reducible assumption)
    | (with_reducible apply keeps_State_applyAll)
    | (with_reducible apply keeps_State_setApplied)
    | (with_reducible apply keeps_State_writeOnly)
    | (with_reducible refine Keeps.foldl ?_ ?_)
    | (intro _))

theorem keeps_State_takeSet {s0 : State} (s : State) (c : ChangeSet) (hk : Keeps s0 s) :
    Keeps s0 (State.takeSet s c) := by
  rw [State.takeSet.eq_def]
  repeat' (first
    | (with_reducible assumption)
    | (with_reducible apply keeps_State_takeValue)
    | (with_reducible apply keeps_State_fresh)
    | (with_reducible apply keeps_State_applySet)
    | (with_reducible apply keeps_State_onSet)
    | (with_reducible refine Keeps.foldl ?_ ?_)
    | (intro _)
    | (extract_lets -underBinder)
    | (with_reducible refine Keeps.ite ?_ ?_))

theorem keeps_State_decideSet {s0 : State} (s : State) (c : ChangeSet) (hk : Keeps s0 s) :
    Keeps s0 (State.decideSet s c) := by
  rw [State.decideSet.eq_def]
  repeat' (first
    | (with_reducible assumption)
    | (with_reducible apply keeps_State_onSet)
    | (with_reducible apply keeps_State_applySet)
    | (with_reducible apply keeps_State_fresh)
    | (with_reducible apply keeps_State_applyValue)
    | (with_reducible apply keeps_State_takeSet)
    | (with_reducible refine Keeps.foldl ?_ ?_)
    | (intro _)
    | (extract_lets -underBinder)
    | (with_reducible refine Keeps.ite ?_ ?_))

theorem keeps_State_progressSet {s0 : State} (s : State) (csid : Nat) (hk : Keeps s0 s) :
    Keeps s0 (State.progressSet s csid) := by
  rw [State.progressSet.eq_def]
  repeat' (first
    | (with_reducible assumption)
    | (with_reducible apply keeps_State_refreshEligible)
    | (with_reducible apply keeps_State_takeSet)
    | (with_reducible apply keeps_State_onSet)
    | (with_reducible apply keeps_State_decideSet)
    | (with_reducible apply keeps_State_rollbackSet)
    | (extract_lets -underBinder)
    | (with_reducible refine Keeps.ite ?_ ?_)
    | split)

theorem keeps_execChangesetDecision {s0 : State} (csid : Nat) (s : State) (hk : Keeps s0 s) :
    RKeeps s0 (execChangesetDecision csid s) := by
  rw [execChangesetDecision.eq_def]
  repeat' (first
    | (with_reducible assumption)
    | (with_reducible apply keeps_State_progressSet)
    | (with_reducible apply RKeeps.next))

theorem keeps_State_timeOut {s0 : State} (s : State) (c : ChangeSet) (hk : Keeps s0 s) :
    Keeps s0 (State.timeOut s c) := by
  rw [State.timeOut.eq_def]
  repeat' (first
    | (with_reducible assumption)
    | (with_reducible apply keeps_State_rollbackSet)
    | (with_reducible apply keeps_State_raiseP)
    | (extract_lets -underBinder)
    | split)

theorem keeps_execChangesetTimeout {s0 : State} (csid : Nat) (s : State) (hk : Keeps s0 s) :
    RKeeps s0 (execChangesetTimeout csid s) := by
  rw [execChangesetTimeout.eq_def]
  repeat' (first
    | (with_reducible assumption)
    | (with_reducible apply keeps_State_timeOut)
    | (with_reducible apply RKeeps.next)
    | split)

theorem keeps_execPowerSleepEnter {s0 : State} (s : State) (hk : Keeps s0 s) :
    RKeeps s0 (execPowerSleepEnter s) := by
  rw [execPowerSleepEnter.eq_def]
  repeat' (first
    | (with_reducible assumption)
    | (with_reducible apply keeps_State_progressSet)
    | (with_reducible refine Keeps.foldl ?_ ?_)
    | (with_reducible apply RKeeps.next)
    | (intro _))

theorem keeps_execSleepWaitTimeout {s0 : State} (s : State) (hk : Keeps s0 s) :
    RKeeps s0 (execSleepWaitTimeout s) := by
  rw [execSleepWaitTimeout.eq_def]
  repeat' (first
    | (with_reducible assumption)
    | (with_reducible apply keeps_State_timeOut)
    | (with_reducible apply RKeeps.next)
    | split)

theorem keeps_State_newCsid {s0 : State} (s : State) (hk : Keeps s0 s) :
    QKeeps s0 (State.newCsid s) := by
  rw [State.newCsid.eq_def]
  repeat' (first
    | (with_reducible assumption)
    | (with_reducible exact id)
    | (with_reducible exact Nat.le_refl _)
    | (with_reducible exact BitVec.le_refl _)
    | (with_reducible refine Keeps.boxed ?_ ?_ ?_ ?_)
    | (extract_lets -underBinder)
    | (with_reducible rw [State.mk_boxed])
    | (dsimp +zetaDelta only)
    | (with_reducible apply QKeeps.mk))

theorem keeps_State_queueSet {s0 : State} (s : State) (c : ChangeSet) (hk : Keeps s0 s) :
    Keeps s0 (State.queueSet s c) := by
  rw [State.queueSet.eq_def]
  repeat' (first
    | (with_reducible assumption)
    | (with_reducible exact id)
    | (with_reducible exact Nat.le_refl _)
    | (with_reducible exact BitVec.le_refl _)
    | (with_reducible apply keeps_State_progressSet)
    | (with_reducible refine Keeps.boxed ?_ ?_ ?_ ?_)
    | (extract_lets -underBinder)
    | (with_reducible rw [State.mk_boxed]))

theorem keeps_State_commitSet {s0 : State} (s : State) (sess : Nat) (csid : Nat) (es : List Entry) (hk : Keeps s0 s) :
    PKeeps s0 (State.commitSet s sess csid es) := by
  rw [State.commitSet.eq_def]
  repeat' (first
    | (with_reducible assumption)
    | (with_reducible apply keeps_State_queueSet)
    | (extract_lets -underBinder)
    | split
    | (dsimp +zetaDelta only)
    | (with_reducible apply PKeeps.mk))

theorem keeps_State_refuseSubmission {s0 : State} (s : State) (hk : Keeps s0 s) :
    PKeeps s0 (State.refuseSubmission s) := by
  rw [State.refuseSubmission.eq_def]
  repeat' (first
    | (with_reducible assumption)
    | (with_reducible apply keeps_State_raiseM)
    | (with_reducible apply PKeeps.mk))

theorem keeps_State_mismatch {s0 : State} (s : State) (hk : Keeps s0 s) :
    Keeps s0 (State.mismatch s) := by
  rw [State.mismatch.eq_def]
  repeat' (first
    | (with_reducible assumption)
    | (with_reducible exact id)
    | (with_reducible exact Nat.le_refl _)
    | (with_reducible exact BitVec.le_refl _)
    | (with_reducible apply keeps_State_raiseM)
    | (with_reducible refine Keeps.boxed ?_ ?_ ?_ ?_)
    | (extract_lets -underBinder)
    | (with_reducible rw [State.mk_boxed]))

theorem keeps_State_submit {s0 : State} (s : State) (sess : Nat) (kind : Nat) (csid : Nat) (es : List Entry) (stated : Option (List Byte)) (hk : Keeps s0 s) :
    PKeeps s0 (State.submit s sess kind csid es stated) := by
  rw [State.submit.eq_def]
  repeat' (first
    | (with_reducible assumption)
    | (with_reducible exact id)
    | (with_reducible exact Nat.le_refl _)
    | (with_reducible exact BitVec.le_refl _)
    | (with_reducible apply keeps_State_refuseSubmission)
    | (with_reducible apply keeps_State_mismatch)
    | (with_reducible apply keeps_State_queueSet)
    | (with_reducible refine Keeps.boxed ?_ ?_ ?_ ?_)
    | (extract_lets -underBinder)
    | (with_reducible rw [State.mk_boxed])
    | split
    | (dsimp +zetaDelta only)
    | (with_reducible apply PKeeps.mk))

theorem keeps_execProtectionWindowExpiry {s0 : State} (s : State) (hk : Keeps s0 s) :
    RKeeps s0 (execProtectionWindowExpiry s) := by
  rw [execProtectionWindowExpiry.eq_def]
  repeat' (first
    | (with_reducible assumption)
    | (with_reducible apply keeps_State_endWindow)
    | (with_reducible apply RKeeps.next)
    | (extract_lets -underBinder)
    | (with_reducible refine Keeps.ite ?_ ?_))

theorem keeps_execProtectionLockoutExpiry {s0 : State} (s : State) (hk : Keeps s0 s) :
    RKeeps s0 (execProtectionLockoutExpiry s) := by
  rw [execProtectionLockoutExpiry.eq_def]
  repeat' (first
    | (with_reducible assumption)
    | (with_reducible exact id)
    | (with_reducible exact Nat.le_refl _)
    | (with_reducible exact BitVec.le_refl _)
    | (with_reducible refine Keeps.boxed ?_ ?_ ?_ ?_)
    | (with_reducible apply RKeeps.next)
    | (extract_lets -underBinder)
    | (with_reducible rw [State.mk_boxed]))

theorem keeps_execDebugUnlocked {s0 : State} (s : State) (hk : Keeps s0 s) :
    RKeeps s0 (execDebugUnlocked s) := by
  rw [execDebugUnlocked.eq_def]
  repeat' (first
    | (with_reducible assumption)
    | (with_reducible apply keeps_State_raiseM)
    | (with_reducible apply RKeeps.next)
    | (extract_lets -underBinder)
    | (with_reducible refine Keeps.ite ?_ ?_))

/-! ## Machine/Ndoit.lean -/


theorem keeps_State_respond {s0 : State} (s : State) (n : Nat) (frame : List Byte) (hk : Keeps s0 s) :
    Keeps s0 (State.respond s n frame) := by
  rw [State.respond.eq_def]
  repeat' (first
    | (with_reducible assumption)
    | (with_reducible exact id)
    | (with_reducible exact Nat.le_refl _)
    | (with_reducible exact BitVec.le_refl _)
    | (with_reducible apply keeps_State_signal)
    | (with_reducible apply keeps_State_onSession)
    | (with_reducible refine Keeps.boxed ?_ ?_ ?_ ?_)
    | (extract_lets -underBinder)
    | (with_reducible refine Keeps.ite ?_ ?_)
    | (with_reducible rw [State.mk_boxed])
    | (dsimp +zetaDelta only))

theorem keeps_State_answerNd {s0 : State} (s : State) (n : Nat) (frame : List Byte) (a : Answer) (hk : Keeps s0 s) :
    Keeps s0 (State.answerNd s n frame a) := by
  rw [State.answerNd.eq_def]
  repeat' (first
    | (with_reducible assumption)
    | (with_reducible apply keeps_State_onSession)
    | (with_reducible apply keeps_State_respond))

theorem keeps_State_request {s0 : State} (s : State) (n : Nat) (frame : List Byte) (act : State → State × Answer)  (hact : ∀ (y0 : State), Keeps s0 y0 → PKeeps s0 (act y0)) (hk : Keeps s0 s) :
    Keeps s0 (State.request s n frame act) := by
  rw [State.request.eq_def]
  repeat' (first
    | (with_reducible assumption)
    | (with_reducible apply hact)
    | (with_reducible apply keeps_State_bump)
    | (with_reducible apply keeps_State_onSession)
    | (with_reducible apply keeps_State_respond)
    | (with_reducible apply keeps_State_answerNd)
    | (with_reducible apply PKeeps.fst)
    | (extract_lets -underBinder)
    | (with_reducible refine Keeps.ite ?_ ?_)
    | split)

theorem keeps_State_holdRequest {s0 : State} (s : State) (n : Nat) (frame : List Byte) (hk : Keeps s0 s) :
    Keeps s0 (State.holdRequest s n frame) := by
  rw [State.holdRequest.eq_def]
  repeat' (first
    | (with_reducible assumption)
    | (with_reducible exact id)
    | (with_reducible exact Nat.le_refl _)
    | (with_reducible exact BitVec.le_refl _)
    | (with_reducible refine Keeps.boxed ?_ ?_ ?_ ?_)
    | (extract_lets -underBinder)
    | (with_reducible rw [State.mk_boxed]))

theorem keeps_State_onRequest {s0 : State} (s : State) (n : Nat) (frame : List Byte) (here : Bool) (act : State → State × Answer)  (hact : ∀ (y0 : State), Keeps s0 y0 → PKeeps s0 (act y0)) (hk : Keeps s0 s) :
    Keeps s0 (State.onRequest s n frame here act) := by
  rw [State.onRequest.eq_def]
  repeat' (first
    | (with_reducible assumption)
    | (with_reducible apply keeps_State_holdRequest)
    | (with_reducible apply keeps_State_request)
    | (extract_lets -underBinder)
    | (with_reducible refine Keeps.ite ?_ ?_))

theorem keeps_execNdoitRead {s0 : State} (n : Nat) (frame : List Byte) (s : State) (hk : Keeps s0 s) :
    RKeeps s0 (execNdoitRead n frame s) := by
  rw [execNdoitRead.eq_def]
  repeat' (first
    | (with_reducible assumption)
    | (with_reducible apply keeps_State_onRequest)
    | (with_reducible apply RKeeps.next)
    | (intro _)
    | (extract_lets -underBinder)
    | split
    | (dsimp +zetaDelta only)
    | (with_reducible apply PKeeps.mk))

theorem keeps_State_writeOne {s0 : State} (s : State) (n : Nat) (e : Entry) (hk : Keeps s0 s) :
    PKeeps s0 (State.writeOne s n e) := by
  rw [State.writeOne.eq_def]
  repeat' (first
    | (with_reducible assumption)
    | (with_reducible apply keeps_State_noteRw2)
    | (with_reducible apply keeps_State_newCsid)
    | (with_reducible apply keeps_State_commitSet)
    | (extract_lets -underBinder)
    | split
    | (dsimp +zetaDelta only)
    | (with_reducible apply PKeeps.mk)
    | (refine PKeeps.use ?_ (by assumption))
    | (refine QKeeps.use ?_ (by assumption)))

theorem keeps_execNdoitWrite {s0 : State} (n : Nat) (frame : List Byte) (s : State) (hk : Keeps s0 s) :
    RKeeps s0 (execNdoitWrite n frame s) := by
  rw [execNdoitWrite.eq_def]
  repeat' (first
    | (with_reducible assumption)
    | (with_reducible apply keeps_State_onRequest)
    | (with_reducible apply keeps_State_writeOne)
    | (with_reducible apply RKeeps.next)
    | (intro _)
    | (extract_lets -underBinder)
    | split
    | (with_reducible apply PKeeps.mk))

theorem keeps_State_readSegment {s0 : State} (s : State) (n : Nat) (key : Nat) (off : Nat) (len : Nat) (hk : Keeps s0 s) :
    PKeeps s0 (State.readSegment s n key off len) := by
  rw [State.readSegment.eq_def]
  repeat' (first
    | (with_reducible assumption)
    | (with_reducible apply keeps_State_onSession)
    | (extract_lets -underBinder)
    | split
    | (dsimp +zetaDelta only)
    | (with_reducible apply PKeeps.mk))

theorem keeps_execReadBlock {s0 : State} (n : Nat) (frame : List Byte) (s : State) (hk : Keeps s0 s) :
    RKeeps s0 (execReadBlock n frame s) := by
  rw [execReadBlock.eq_def]
  repeat' (first
    | (with_reducible assumption)
    | (with_reducible apply keeps_State_onRequest)
    | (with_reducible apply keeps_State_readSegment)
    | (with_reducible apply RKeeps.next)
    | (intro _)
    | (extract_lets -underBinder)
    | split
    | (with_reducible apply PKeeps.mk))

theorem keeps_execWriteBlock {s0 : State} (n : Nat) (frame : List Byte) (s : State) (hk : Keeps s0 s) :
    RKeeps s0 (execWriteBlock n frame s) := by
  rw [execWriteBlock.eq_def]
  repeat' (first
    | (with_reducible assumption)
    | (with_reducible apply keeps_State_onRequest)
    | (with_reducible apply keeps_State_onSession)
    | (with_reducible apply keeps_State_writeOne)
    | (with_reducible apply RKeeps.next)
    | (intro _)
    | (extract_lets -underBinder)
    | split
    | (dsimp +zetaDelta only)
    | (with_reducible apply PKeeps.mk))

theorem keeps_execBlockSnapshotExpiry {s0 : State} (n : Nat) (s : State) (hk : Keeps s0 s) :
    RKeeps s0 (execBlockSnapshotExpiry n s) := by
  rw [execBlockSnapshotExpiry.eq_def]
  repeat' (first
    | (with_reducible assumption)
    | (with_reducible apply keeps_State_onSession)
    | (with_reducible apply RKeeps.next))

theorem keeps_execChangesetOpen {s0 : State} (n : Nat) (frame : List Byte) (s : State) (hk : Keeps s0 s) :
    RKeeps s0 (execChangesetOpen n frame s) := by
  rw [execChangesetOpen.eq_def]
  repeat' (first
    | (with_reducible assumption)
    | (with_reducible exact id)
    | (with_reducible exact Nat.le_refl _)
    | (with_reducible exact BitVec.le_refl _)
    | (with_reducible apply keeps_State_onRequest)
    | (with_reducible apply keeps_State_newCsid)
    | (with_reducible apply keeps_State_onSession)
    | (with_reducible refine Keeps.boxed ?_ ?_ ?_ ?_)
    | (with_reducible apply RKeeps.next)
    | (intro _)
    | (extract_lets -underBinder)
    | (with_reducible rw [State.mk_boxed])
    | split
    | (dsimp +zetaDelta only)
    | (with_reducible apply PKeeps.mk)
    | (refine QKeeps.use ?_ (by assumption)))

theorem keeps_execChangesetAdd {s0 : State} (n : Nat) (frame : List Byte) (s : State) (hk : Keeps s0 s) :
    RKeeps s0 (execChangesetAdd n frame s) := by
  rw [execChangesetAdd.eq_def]
  repeat' (first
    | (with_reducible assumption)
    | (with_reducible apply keeps_State_onRequest)
    | (with_reducible apply keeps_State_noteRw2)
    | (with_reducible apply keeps_State_onSet)
    | (with_reducible apply RKeeps.next)
    | (intro _)
    | (extract_lets -underBinder)
    | split
    | (dsimp +zetaDelta only)
    | (with_reducible apply PKeeps.mk))

theorem keeps_State_closeSet {s0 : State} (s : State) (n : Nat) (hk : Keeps s0 s) :
    Keeps s0 (State.closeSet s n) := by
  rw [State.closeSet.eq_def]
  repeat' (first
    | (with_reducible assumption)
    | (with_reducible apply keeps_State_dropOpenSet)
    | (with_reducible apply keeps_State_onSession))

theorem keeps_execChangesetCommit {s0 : State} (n : Nat) (frame : List Byte) (s : State) (hk : Keeps s0 s) :
    RKeeps s0 (execChangesetCommit n frame s) := by
  rw [execChangesetCommit.eq_def]
  repeat' (first
    | (with_reducible assumption)
    | (with_reducible apply keeps_State_onRequest)
    | (with_reducible apply keeps_State_closeSet)
    | (with_reducible apply keeps_State_commitSet)
    | (with_reducible apply keeps_State_submit)
    | (with_reducible apply RKeeps.next)
    | (intro _)
    | (extract_lets -underBinder)
    | split
    | (with_reducible apply PKeeps.mk)
    | (refine PKeeps.use ?_ (by assumption)))

theorem keeps_execChangesetAbort {s0 : State} (n : Nat) (frame : List Byte) (s : State) (hk : Keeps s0 s) :
    RKeeps s0 (execChangesetAbort n frame s) := by
  rw [execChangesetAbort.eq_def]
  repeat' (first
    | (with_reducible assumption)
    | (with_reducible apply keeps_State_onRequest)
    | (with_reducible apply keeps_State_closeSet)
    | (with_reducible apply keeps_State_endWindow)
    | (with_reducible apply keeps_State_rollbackSet)
    | (with_reducible apply RKeeps.next)
    | (intro _)
    | (extract_lets -underBinder)
    | split
    | (dsimp +zetaDelta only)
    | (with_reducible apply PKeeps.mk))

theorem keeps_execSubscribe {s0 : State} (n : Nat) (frame : List Byte) (s : State) (hk : Keeps s0 s) :
    RKeeps s0 (execSubscribe n frame s) := by
  rw [execSubscribe.eq_def]
  repeat' (first
    | (with_reducible assumption)
    | (with_reducible apply keeps_State_onRequest)
    | (with_reducible apply keeps_State_onSession)
    | (with_reducible apply keeps_State_deliver)
    | (with_reducible apply RKeeps.next)
    | (intro _)
    | (extract_lets -underBinder)
    | (with_reducible refine Keeps.ite ?_ ?_)
    | split
    | (dsimp +zetaDelta only)
    | (with_reducible apply PKeeps.mk))

theorem keeps_execHeartbeat {s0 : State} (n : Nat) (frame : List Byte) (s : State) (hk : Keeps s0 s) :
    RKeeps s0 (execHeartbeat n frame s) := by
  rw [execHeartbeat.eq_def]
  repeat' (first
    | (with_reducible assumption)
    | (with_reducible apply keeps_State_onRequest)
    | (with_reducible apply keeps_State_onSession)
    | (with_reducible apply RKeeps.next)
    | (intro _)
    | (extract_lets -underBinder)
    | split
    | (dsimp +zetaDelta only)
    | (with_reducible apply PKeeps.mk))

theorem keeps_execSubscriberHeartbeatTick {s0 : State} (n : Nat) (s : State) (hk : Keeps s0 s) :
    RKeeps s0 (execSubscriberHeartbeatTick n s) := by
  rw [execSubscriberHeartbeatTick.eq_def]
  repeat' (first
    | (with_reducible assumption)
    | (with_reducible apply keeps_State_respond)
    | (with_reducible apply RKeeps.next)
    | (extract_lets -underBinder)
    | (with_reducible refine Keeps.ite ?_ ?_))

theorem keeps_execDtlsHandshake {s0 : State} (n : Nat) (chains : Bool) (s : State) (hk : Keeps s0 s) :
    RKeeps s0 (execDtlsHandshake n chains s) := by
  rw [execDtlsHandshake.eq_def]
  repeat' (first
    | (with_reducible assumption)
    | (with_reducible apply keeps_State_onSession)
    | (with_reducible apply keeps_State_raiseM)
    | (with_reducible apply keeps_State_bump)
    | (with_reducible apply RKeeps.next)
    | (extract_lets -underBinder)
    | split)

theorem keeps_execSessionHeartbeatTimeout {s0 : State} (n : Nat) (s : State) (hk : Keeps s0 s) :
    RKeeps s0 (execSessionHeartbeatTimeout n s) := by
  rw [execSessionHeartbeatTimeout.eq_def]
  repeat' (first
    | (with_reducible assumption)
    | (with_reducible apply keeps_State_endSession)
    | (with_reducible apply RKeeps.next)
    | (extract_lets -underBinder)
    | (with_reducible refine Keeps.ite ?_ ?_))

/-! ## Machine/Vector.lean -/


theorem keeps_vecEnqueue {s0 : State} (scalar : U32) (addr : Nat) (c : Nat) (t : Nat) (w : U32) (s : State) (hk : Keeps s0 s) :
    Keeps s0 (vecEnqueue scalar addr c t w s) := by
  rw [vecEnqueue.eq_def]
  repeat' (first
    | (with_reducible assumption)
    | (with_reducible apply keeps_State_enterLayer)
    | (with_reducible apply keeps_State_setCore)
    | (with_reducible apply PKeeps.fst))

theorem keeps_vecQueued {s0 : State} (act : Nat → Nat → U32 → State → State) (c : Nat) (t : Nat) (w : U32) (s : State)  (hact : ∀ (y0 : Nat) (y1 : Nat) (y2 : U32) (y3 : State), Keeps s0 y3 → Keeps s0 (act y0 y1 y2 y3)) (hk : Keeps s0 s) :
    Keeps s0 (vecQueued act c t w s) := by
  rw [vecQueued.eq_def]
  repeat' (first
    | (with_reducible assumption)
    | (with_reducible apply hact)
    | (with_reducible apply keeps_State_onThread)
    | (with_reducible refine Keeps.ite ?_ ?_))

theorem keeps_vopAct {s0 : State} (c : Nat) (t : Nat) (w : U32) (s : State) (hk : Keeps s0 s) :
    Keeps s0 (vopAct c t w s) := by
  rw [vopAct.eq_def]
  repeat' (first
    | (with_reducible assumption)
    | (with_reducible apply keeps_haltAt)
    | (with_reducible apply keeps_vecEnqueue)
    | (with_reducible refine Keeps.ite ?_ ?_))

theorem keeps_vecChecked {s0 : State} (act : Nat → Nat → U32 → State → State) (c : Nat) (t : Nat) (w : U32) (s : State)  (hact : ∀ (y0 : Nat) (y1 : Nat) (y2 : U32) (y3 : State), Keeps s0 y3 → Keeps s0 (act y0 y1 y2 y3)) (hk : Keeps s0 s) :
    Keeps s0 (vecChecked act c t w s) := by
  rw [vecChecked.eq_def]
  repeat' (first
    | (with_reducible assumption)
    | (with_reducible apply keeps_haltAt)
    | (with_reducible apply keeps_reserveChecked)
    | (with_reducible refine Keeps.ite ?_ ?_))

theorem keeps_vopChecked {s0 : State} (c : Nat) (t : Nat) (w : U32) (s : State) (hk : Keeps s0 s) :
    Keeps s0 (vopChecked c t w s) := by
  rw [vopChecked.eq_def]
  repeat' (first
    | (with_reducible assumption)
    | (with_reducible apply keeps_vecChecked)
    | (with_reducible apply keeps_lockChecked)
    | (with_reducible apply keeps_vecQueued)
    | (with_reducible apply keeps_vopAct)
    | (intro _))

theorem keeps_execVop {s0 : State} (c : Nat) (t : Nat) (w : U32) (s : State) (hk : Keeps s0 s) :
    RKeeps s0 (execVop c t w s) := by
  rw [execVop.eq_def]
  repeat' (first
    | (with_reducible assumption)
    | (with_reducible apply keeps_issue)
    | (with_reducible apply keeps_vopChecked)
    | (with_reducible apply RKeeps.next))

theorem keeps_vdescAct {s0 : State} (c : Nat) (t : Nat) (w : U32) (s : State) (hk : Keeps s0 s) :
    Keeps s0 (vdescAct c t w s) := by
  rw [vdescAct.eq_def]
  repeat' (first
    | (with_reducible assumption)
    | (with_reducible apply keeps_haltAt)
    | (with_reducible apply keeps_vecEnqueue)
    | (extract_lets -underBinder)
    | split)

theorem keeps_vdescChecked {s0 : State} (c : Nat) (t : Nat) (w : U32) (s : State) (hk : Keeps s0 s) :
    Keeps s0 (vdescChecked c t w s) := by
  rw [vdescChecked.eq_def]
  repeat' (first
    | (with_reducible assumption)
    | (with_reducible apply keeps_vecChecked)
    | (with_reducible apply keeps_lockChecked)
    | (with_reducible apply keeps_vecQueued)
    | (with_reducible apply keeps_vdescAct)
    | (intro _))

theorem keeps_execVdesc {s0 : State} (c : Nat) (t : Nat) (w : U32) (s : State) (hk : Keeps s0 s) :
    RKeeps s0 (execVdesc c t w s) := by
  rw [execVdesc.eq_def]
  repeat' (first
    | (with_reducible assumption)
    | (with_reducible apply keeps_issue)
    | (with_reducible apply keeps_vdescChecked)
    | (with_reducible apply RKeeps.next))

theorem keeps_vecExec {s0 : State} (op : Nat) (c : Nat) (s : State) (hk : Keeps s0 s) :
    Keeps s0 (vecExec op c s) := by
  rw [vecExec.eq_def]
  repeat' (first
    | (with_reducible assumption)
    | (with_reducible apply keeps_State_setCore)
    | (with_reducible apply keeps_State_halt)
    | (with_reducible apply keeps_State_correctPonds)
    | (with_reducible apply keeps_State_tally)
    | (with_reducible apply keeps_State_overflow)
    | (with_reducible apply PKeeps.fst)
    | (extract_lets -underBinder)
    | (with_reducible refine Keeps.ite ?_ ?_)
    | split
    | (dsimp only)
    | (dsimp +zetaDelta only))

theorem keeps_execVecAdd {s0 : State} (c : Nat) (s : State) (hk : Keeps s0 s) :
    RKeeps s0 (execVecAdd c s) := by
  rw [execVecAdd.eq_def]
  repeat' (first
    | (with_reducible assumption)
    | (with_reducible apply keeps_vecExec)
    | (with_reducible apply RKeeps.next))

theorem keeps_execVecSub {s0 : State} (c : Nat) (s : State) (hk : Keeps s0 s) :
    RKeeps s0 (execVecSub c s) := by
  rw [execVecSub.eq_def]
  repeat' (first
    | (with_reducible assumption)
    | (with_reducible apply keeps_vecExec)
    | (with_reducible apply RKeeps.next))

theorem keeps_execVecMul {s0 : State} (c : Nat) (s : State) (hk : Keeps s0 s) :
    RKeeps s0 (execVecMul c s) := by
  rw [execVecMul.eq_def]
  repeat' (first
    | (with_reducible assumption)
    | (with_reducible apply keeps_vecExec)
    | (with_reducible apply RKeeps.next))

theorem keeps_execVecFma {s0 : State} (c : Nat) (s : State) (hk : Keeps s0 s) :
    RKeeps s0 (execVecFma c s) := by
  rw [execVecFma.eq_def]
  repeat' (first
    | (with_reducible assumption)
    | (with_reducible apply keeps_vecExec)
    | (with_reducible apply RKeeps.next))

theorem keeps_execVecDiv {s0 : State} (c : Nat) (s : State) (hk : Keeps s0 s) :
    RKeeps s0 (execVecDiv c s) := by
  rw [execVecDiv.eq_def]
  repeat' (first
    | (with_reducible assumption)
    | (with_reducible apply keeps_vecExec)
    | (with_reducible apply RKeeps.next))

theorem keeps_execVecMax {s0 : State} (c : Nat) (s : State) (hk : Keeps s0 s) :
    RKeeps s0 (execVecMax c s) := by
  rw [execVecMax.eq_def]
  repeat' (first
    | (with_reducible assumption)
    | (with_reducible apply keeps_vecExec)
    | (with_reducible apply RKeeps.next))

theorem keeps_execVecMin {s0 : State} (c : Nat) (s : State) (hk : Keeps s0 s) :
    RKeeps s0 (execVecMin c s) := by
  rw [execVecMin.eq_def]
  repeat' (first
    | (with_reducible assumption)
    | (with_reducible apply keeps_vecExec)
    | (with_reducible apply RKeeps.next))

theorem keeps_execVecAbs {s0 : State} (c : Nat) (s : State) (hk : Keeps s0 s) :
    RKeeps s0 (execVecAbs c s) := by
  rw [execVecAbs.eq_def]
  repeat' (first
    | (with_reducible assumption)
    | (with_reducible apply keeps_vecExec)
    | (with_reducible apply RKeeps.next))

theorem keeps_execVecNeg {s0 : State} (c : Nat) (s : State) (hk : Keeps s0 s) :
    RKeeps s0 (execVecNeg c s) := by
  rw [execVecNeg.eq_def]
  repeat' (first
    | (with_reducible assumption)
    | (with_reducible apply keeps_vecExec)
    | (with_reducible apply RKeeps.next))

theorem keeps_execVecSqrt {s0 : State} (c : Nat) (s : State) (hk : Keeps s0 s) :
    RKeeps s0 (execVecSqrt c s) := by
  rw [execVecSqrt.eq_def]
  repeat' (first
    | (with_reducible assumption)
    | (with_reducible apply keeps_vecExec)
    | (with_reducible apply RKeeps.next))

theorem keeps_execVecRsqrt {s0 : State} (c : Nat) (s : State) (hk : Keeps s0 s) :
    RKeeps s0 (execVecRsqrt c s) := by
  rw [execVecRsqrt.eq_def]
  repeat' (first
    | (with_reducible assumption)
    | (with_reducible apply keeps_vecExec)
    | (with_reducible apply RKeeps.next))

theorem keeps_execVecRecip {s0 : State} (c : Nat) (s : State) (hk : Keeps s0 s) :
    RKeeps s0 (execVecRecip c s) := by
  rw [execVecRecip.eq_def]
  repeat' (first
    | (with_reducible assumption)
    | (with_reducible apply keeps_vecExec)
    | (with_reducible apply RKeeps.next))

theorem keeps_execVecExp {s0 : State} (c : Nat) (s : State) (hk : Keeps s0 s) :
    RKeeps s0 (execVecExp c s) := by
  rw [execVecExp.eq_def]
  repeat' (first
    | (with_reducible assumption)
    | (with_reducible apply keeps_vecExec)
    | (with_reducible apply RKeeps.next))

theorem keeps_execVecExp2 {s0 : State} (c : Nat) (s : State) (hk : Keeps s0 s) :
    RKeeps s0 (execVecExp2 c s) := by
  rw [execVecExp2.eq_def]
  repeat' (first
    | (with_reducible assumption)
    | (with_reducible apply keeps_vecExec)
    | (with_reducible apply RKeeps.next))

theorem keeps_execVecLog {s0 : State} (c : Nat) (s : State) (hk : Keeps s0 s) :
    RKeeps s0 (execVecLog c s) := by
  rw [execVecLog.eq_def]
  repeat' (first
    | (with_reducible assumption)
    | (with_reducible apply keeps_vecExec)
    | (with_reducible apply RKeeps.next))

theorem keeps_execVecLog2 {s0 : State} (c : Nat) (s : State) (hk : Keeps s0 s) :
    RKeeps s0 (execVecLog2 c s) := by
  rw [execVecLog2.eq_def]
  repeat' (first
    | (with_reducible assumption)
    | (with_reducible apply keeps_vecExec)
    | (with_reducible apply RKeeps.next))

theorem keeps_execVecTanh {s0 : State} (c : Nat) (s : State) (hk : Keeps s0 s) :
    RKeeps s0 (execVecTanh c s) := by
  rw [execVecTanh.eq_def]
  repeat' (first
    | (with_reducible assumption)
    | (with_reducible apply keeps_vecExec)
    | (with_reducible apply RKeeps.next))

theorem keeps_execVecSigmoid {s0 : State} (c : Nat) (s : State) (hk : Keeps s0 s) :
    RKeeps s0 (execVecSigmoid c s) := by
  rw [execVecSigmoid.eq_def]
  repeat' (first
    | (with_reducible assumption)
    | (with_reducible apply keeps_vecExec)
    | (with_reducible apply RKeeps.next))

theorem keeps_execVecSilu {s0 : State} (c : Nat) (s : State) (hk : Keeps s0 s) :
    RKeeps s0 (execVecSilu c s) := by
  rw [execVecSilu.eq_def]
  repeat' (first
    | (with_reducible assumption)
    | (with_reducible apply keeps_vecExec)
    | (with_reducible apply RKeeps.next))

theorem keeps_execVecGeluTanh {s0 : State} (c : Nat) (s : State) (hk : Keeps s0 s) :
    RKeeps s0 (execVecGeluTanh c s) := by
  rw [execVecGeluTanh.eq_def]
  repeat' (first
    | (with_reducible assumption)
    | (with_reducible apply keeps_vecExec)
    | (with_reducible apply RKeeps.next))

theorem keeps_execVecRelu {s0 : State} (c : Nat) (s : State) (hk : Keeps s0 s) :
    RKeeps s0 (execVecRelu c s) := by
  rw [execVecRelu.eq_def]
  repeat' (first
    | (with_reducible assumption)
    | (with_reducible apply keeps_vecExec)
    | (with_reducible apply RKeeps.next))

theorem keeps_execVecCmpeq {s0 : State} (c : Nat) (s : State) (hk : Keeps s0 s) :
    RKeeps s0 (execVecCmpeq c s) := by
  rw [execVecCmpeq.eq_def]
  repeat' (first
    | (with_reducible assumption)
    | (with_reducible apply keeps_vecExec)
    | (with_reducible apply RKeeps.next))

theorem keeps_execVecCmpne {s0 : State} (c : Nat) (s : State) (hk : Keeps s0 s) :
    RKeeps s0 (execVecCmpne c s) := by
  rw [execVecCmpne.eq_def]
  repeat' (first
    | (with_reducible assumption)
    | (with_reducible apply keeps_vecExec)
    | (with_reducible apply RKeeps.next))

theorem keeps_execVecCmplt {s0 : State} (c : Nat) (s : State) (hk : Keeps s0 s) :
    RKeeps s0 (execVecCmplt c s) := by
  rw [execVecCmplt.eq_def]
  repeat' (first
    | (with_reducible assumption)
    | (with_reducible apply keeps_vecExec)
    | (with_reducible apply RKeeps.next))

theorem keeps_execVecCmple {s0 : State} (c : Nat) (s : State) (hk : Keeps s0 s) :
    RKeeps s0 (execVecCmple c s) := by
  rw [execVecCmple.eq_def]
  repeat' (first
    | (with_reducible assumption)
    | (with_reducible apply keeps_vecExec)
    | (with_reducible apply RKeeps.next))

theorem keeps_execVecCmpgt {s0 : State} (c : Nat) (s : State) (hk : Keeps s0 s) :
    RKeeps s0 (execVecCmpgt c s) := by
  rw [execVecCmpgt.eq_def]
  repeat' (first
    | (with_reducible assumption)
    | (with_reducible apply keeps_vecExec)
    | (with_reducible apply RKeeps.next))

theorem keeps_execVecCmpge {s0 : State} (c : Nat) (s : State) (hk : Keeps s0 s) :
    RKeeps s0 (execVecCmpge c s) := by
  rw [execVecCmpge.eq_def]
  repeat' (first
    | (with_reducible assumption)
    | (with_reducible apply keeps_vecExec)
    | (with_reducible apply RKeeps.next))

theorem keeps_execVecSel {s0 : State} (c : Nat) (s : State) (hk : Keeps s0 s) :
    RKeeps s0 (execVecSel c s) := by
  rw [execVecSel.eq_def]
  repeat' (first
    | (with_reducible assumption)
    | (with_reducible apply keeps_vecExec)
    | (with_reducible apply RKeeps.next))

theorem keeps_execVecCvt {s0 : State} (c : Nat) (s : State) (hk : Keeps s0 s) :
    RKeeps s0 (execVecCvt c s) := by
  rw [execVecCvt.eq_def]
  repeat' (first
    | (with_reducible assumption)
    | (with_reducible apply keeps_vecExec)
    | (with_reducible apply RKeeps.next))

theorem keeps_execVecRsum {s0 : State} (c : Nat) (s : State) (hk : Keeps s0 s) :
    RKeeps s0 (execVecRsum c s) := by
  rw [execVecRsum.eq_def]
  repeat' (first
    | (with_reducible assumption)
    | (with_reducible apply keeps_vecExec)
    | (with_reducible apply RKeeps.next))

theorem keeps_execVecRmax {s0 : State} (c : Nat) (s : State) (hk : Keeps s0 s) :
    RKeeps s0 (execVecRmax c s) := by
  rw [execVecRmax.eq_def]
  repeat' (first
    | (with_reducible assumption)
    | (with_reducible apply keeps_vecExec)
    | (with_reducible apply RKeeps.next))

theorem keeps_execVecRmin {s0 : State} (c : Nat) (s : State) (hk : Keeps s0 s) :
    RKeeps s0 (execVecRmin c s) := by
  rw [execVecRmin.eq_def]
  repeat' (first
    | (with_reducible assumption)
    | (with_reducible apply keeps_vecExec)
    | (with_reducible apply RKeeps.next))

theorem keeps_execVecAblk {s0 : State} (c : Nat) (s : State) (hk : Keeps s0 s) :
    RKeeps s0 (execVecAblk c s) := by
  rw [execVecAblk.eq_def]
  repeat' (first
    | (with_reducible assumption)
    | (with_reducible apply keeps_vecExec)
    | (with_reducible apply RKeeps.next))

theorem keeps_execVecAblkFinal {s0 : State} (c : Nat) (s : State) (hk : Keeps s0 s) :
    RKeeps s0 (execVecAblkFinal c s) := by
  rw [execVecAblkFinal.eq_def]
  repeat' (first
    | (with_reducible assumption)
    | (with_reducible apply keeps_vecExec)
    | (with_reducible apply RKeeps.next))

theorem keeps_execVecIadd {s0 : State} (c : Nat) (s : State) (hk : Keeps s0 s) :
    RKeeps s0 (execVecIadd c s) := by
  rw [execVecIadd.eq_def]
  repeat' (first
    | (with_reducible assumption)
    | (with_reducible apply keeps_vecExec)
    | (with_reducible apply RKeeps.next))

theorem keeps_execVecIsub {s0 : State} (c : Nat) (s : State) (hk : Keeps s0 s) :
    RKeeps s0 (execVecIsub c s) := by
  rw [execVecIsub.eq_def]
  repeat' (first
    | (with_reducible assumption)
    | (with_reducible apply keeps_vecExec)
    | (with_reducible apply RKeeps.next))

theorem keeps_execVecImul {s0 : State} (c : Nat) (s : State) (hk : Keeps s0 s) :
    RKeeps s0 (execVecImul c s) := by
  rw [execVecImul.eq_def]
  repeat' (first
    | (with_reducible assumption)
    | (with_reducible apply keeps_vecExec)
    | (with_reducible apply RKeeps.next))

theorem keeps_execVecImax {s0 : State} (c : Nat) (s : State) (hk : Keeps s0 s) :
    RKeeps s0 (execVecImax c s) := by
  rw [execVecImax.eq_def]
  repeat' (first
    | (with_reducible assumption)
    | (with_reducible apply keeps_vecExec)
    | (with_reducible apply RKeeps.next))

theorem keeps_execVecImin {s0 : State} (c : Nat) (s : State) (hk : Keeps s0 s) :
    RKeeps s0 (execVecImin c s) := by
  rw [execVecImin.eq_def]
  repeat' (first
    | (with_reducible assumption)
    | (with_reducible apply keeps_vecExec)
    | (with_reducible apply RKeeps.next))

/-! ## Machine/Resume.lean -/


theorem keeps_retryAction {s0 : State} (v : U32) (c t : Nat) (w : U32) (s : State) (hk : Keeps s0 s) :
    Keeps s0 (retryAction v c t w s) := by
  unfold retryAction
  split
  · exact keeps_mmaChecked _ _ _ _ hk
  split
  · exact keeps_epiChecked _ _ _ _ hk
  split
  · exact keeps_vopChecked _ _ _ _ hk
  split
  · exact keeps_vdescChecked _ _ _ _ hk
  split
  · exact keeps_sprChecked _ _ _ _ hk
  split
  · exact keeps_ttagChecked _ _ _ _ hk
  split
  · exact keeps_tileChecked _ _ _ _ hk
  split
  · exact keeps_lockChecked _ _ _ _ _ (fun _ _ _ _ k => keeps_ldAct _ _ _ _ k) hk
  · exact keeps_lockChecked _ _ _ _ _ (fun _ _ _ _ k => keeps_stAct _ _ _ _ k) hk

theorem keeps_State_retryWord {s0 : State} (s : State) (c t : Nat) (word : Option U32) (hk : Keeps s0 s) :
    Keeps s0 (State.retryWord s c t word) := by
  unfold State.retryWord
  split
  · split
    · exact hk
    · exact keeps_retryAction _ _ _ _ _ (keeps_State_onThread _ _ _ _ hk)
  · exact hk

theorem keeps_execEngineQueueAccept {s0 : State} (c : Nat) (t : Nat) (s : State) (hk : Keeps s0 s) :
    RKeeps s0 (execEngineQueueAccept c t s) := by
  rw [execEngineQueueAccept.eq_def]
  repeat' (first
    | (with_reducible assumption)
    | (with_reducible apply keeps_State_retryWord)
    | (with_reducible apply RKeeps.next))

theorem keeps_execTileLockRelease {s0 : State} (c : Nat) (t : Nat) (s : State) (hk : Keeps s0 s) :
    RKeeps s0 (execTileLockRelease c t s) := by
  rw [execTileLockRelease.eq_def]
  repeat' (first
    | (with_reducible assumption)
    | (with_reducible apply keeps_tileExec)
    | (with_reducible apply keeps_State_retryWord)
    | (with_reducible apply RKeeps.next)
    | (extract_lets -underBinder)
    | (with_reducible refine Keeps.ite ?_ ?_))

theorem keeps_execPondScrub {s0 : State} (c : Nat) (found : List WordError) (s : State) (hk : Keeps s0 s) :
    RKeeps s0 (execPondScrub c found s) := by
  rw [execPondScrub.eq_def]
  repeat' (first
    | (with_reducible assumption)
    | (with_reducible apply keeps_State_onCore)
    | (with_reducible apply keeps_State_correctPond)
    | (with_reducible apply RKeeps.next)
    | (extract_lets -underBinder)
    | split)

/-! ## Machine/Takeover.lean -/


theorem keeps_execRequest {s0 : State} (n : Nat) (frame : List Byte) (s : State) (hk : Keeps s0 s) :
    RKeeps s0 (execRequest n frame s) := by
  rw [execRequest.eq_def]
  repeat' (first
    | (with_reducible assumption)
    | (with_reducible apply keeps_execNdoitWrite)
    | (with_reducible apply keeps_execReadBlock)
    | (with_reducible apply keeps_execWriteBlock)
    | (with_reducible apply keeps_execChangesetOpen)
    | (with_reducible apply keeps_execChangesetAdd)
    | (with_reducible apply keeps_execChangesetCommit)
    | (with_reducible apply keeps_execChangesetAbort)
    | (with_reducible apply keeps_execSubscribe)
    | (with_reducible apply keeps_execHeartbeat)
    | (with_reducible apply keeps_execNdoitRead)
    | (extract_lets -underBinder)
    | split)

theorem keeps_State_answerOne {s0 : State} (s : State) (e : Nat × List Byte) (hk : Keeps s0 s) :
    Keeps s0 (State.answerOne s e) := by
  rw [State.answerOne.eq_def]
  repeat' (first
    | (with_reducible assumption)
    | (with_reducible apply keeps_execRequest)
    | split
    | (refine RKeeps.use ?_ (by assumption)))

theorem keeps_State_answerHeld {s0 : State} (s : State) (hk : Keeps s0 s) :
    Keeps s0 (State.answerHeld s) := by
  rw [State.answerHeld.eq_def]
  repeat' (first
    | (with_reducible assumption)
    | (with_reducible exact id)
    | (with_reducible exact Nat.le_refl _)
    | (with_reducible exact BitVec.le_refl _)
    | (with_reducible apply keeps_State_answerOne)
    | (with_reducible refine Keeps.foldl ?_ ?_)
    | (with_reducible refine Keeps.boxed ?_ ?_ ?_ ?_)
    | (extract_lets -underBinder)
    | (with_reducible rw [State.mk_boxed]))

theorem keeps_execSupervisorFailover {s0 : State} (s : State) (hk : Keeps s0 s) :
    RKeeps s0 (execSupervisorFailover s) := by
  rw [execSupervisorFailover.eq_def]
  repeat' (first
    | (with_reducible assumption)
    | (with_reducible exact id)
    | (with_reducible exact Nat.le_refl _)
    | (with_reducible exact BitVec.le_refl _)
    | (with_reducible apply keeps_State_bump)
    | (with_reducible apply keeps_State_raiseM)
    | (with_reducible apply keeps_State_rollbackUndecided)
    | (with_reducible apply keeps_State_endWindow)
    | (with_reducible apply keeps_State_enterOrphan)
    | (with_reducible apply keeps_State_flushAll)
    | (with_reducible apply keeps_State_releaseLatched)
    | (with_reducible apply keeps_State_answerHeld)
    | (with_reducible refine Keeps.foldl ?_ ?_)
    | (with_reducible refine Keeps.boxed ?_ ?_ ?_ ?_)
    | (with_reducible apply RKeeps.next)
    | (intro _)
    | (extract_lets -underBinder)
    | (with_reducible refine Keeps.ite ?_ ?_)
    | (with_reducible rw [State.mk_boxed])
    | split
    | (dsimp +zetaDelta only))

end Sys2Proof.Machine
end

