-- ==== Sys2Proof/Laws/State.lean ====
section
/-! SUPPORT. What each update of the state changes and what it leaves, one law per update and field, so that no proof unfolds a
record update; and what a read gives after the update of the same thing. -/

namespace Sys2Proof.Machine

variable (s : State)

/-! ## Cores and threads -/

@[simp] theorem State.setCore_pending (c : Nat) (k : Core) : (s.setCore c k).pending = s.pending := rfl
@[simp] theorem State.setCore_part (c : Nat) (k : Core) : (s.setCore c k).part = s.part := rfl
@[simp] theorem State.setCore_phase (c : Nat) (k : Core) : (s.setCore c k).phase = s.phase := rfl
@[simp] theorem State.setCore_now (c : Nat) (k : Core) : (s.setCore c k).now = s.now := rfl
@[simp] theorem State.setCore_freeUsed (c : Nat) (k : Core) : (s.setCore c k).freeUsed = s.freeUsed := rfl
@[simp] theorem State.setCore_cores (c : Nat) (k : Core) :
    (s.setCore c k).cores = s.cores.put c k {} := rfl
@[simp] theorem State.setCore_parts (c : Nat) (k : Core) : (s.setCore c k).parts = s.parts := rfl
@[simp] theorem State.setCore_movers (c : Nat) (k : Core) : (s.setCore c k).movers = s.movers := rfl
@[simp] theorem State.setCore_lake (c : Nat) (k : Core) : (s.setCore c k).lake = s.lake := rfl
@[simp] theorem State.setCore_host (c : Nat) (k : Core) : (s.setCore c k).host = s.host := rfl
@[simp] theorem State.setCore_fabric (c : Nat) (k : Core) : (s.setCore c k).fabric = s.fabric := rfl
@[simp] theorem State.setCore_mgmt (c : Nat) (k : Core) : (s.setCore c k).mgmt = s.mgmt := rfl
@[simp] theorem State.setCore_sup (c : Nat) (k : Core) : (s.setCore c k).sup = s.sup := rfl
@[simp] theorem State.setCore_power (c : Nat) (k : Core) : (s.setCore c k).power = s.power := rfl
@[simp] theorem State.setCore_slots (c : Nat) (k : Core) : (s.setCore c k).slots = s.slots := rfl
@[simp] theorem State.setCore_update (c : Nat) (k : Core) : (s.setCore c k).update = s.update := rfl
@[simp] theorem State.setCore_log (c : Nat) (k : Core) : (s.setCore c k).log = s.log := rfl
@[simp] theorem State.setCore_nextEvent (c : Nat) (k : Core) : (s.setCore c k).nextEvent = s.nextEvent := rfl
@[simp] theorem State.setCore_counters (c : Nat) (k : Core) : (s.setCore c k).counters = s.counters := rfl
@[simp] theorem State.setCore_msix (c : Nat) (k : Core) : (s.setCore c k).msix = s.msix := rfl

@[simp] theorem State.onCore_pending (c : Nat) (f : Core → Core) : (s.onCore c f).pending = s.pending := rfl
@[simp] theorem State.onCore_part (c : Nat) (f : Core → Core) : (s.onCore c f).part = s.part := rfl
@[simp] theorem State.onCore_phase (c : Nat) (f : Core → Core) : (s.onCore c f).phase = s.phase := rfl
@[simp] theorem State.onCore_now (c : Nat) (f : Core → Core) : (s.onCore c f).now = s.now := rfl
@[simp] theorem State.onCore_freeUsed (c : Nat) (f : Core → Core) : (s.onCore c f).freeUsed = s.freeUsed := rfl
@[simp] theorem State.onCore_cores (c : Nat) (f : Core → Core) :
    (s.onCore c f).cores = s.cores.put c (f (s.core c)) {} := rfl
@[simp] theorem State.onCore_parts (c : Nat) (f : Core → Core) : (s.onCore c f).parts = s.parts := rfl
@[simp] theorem State.onCore_movers (c : Nat) (f : Core → Core) : (s.onCore c f).movers = s.movers := rfl
@[simp] theorem State.onCore_lake (c : Nat) (f : Core → Core) : (s.onCore c f).lake = s.lake := rfl
@[simp] theorem State.onCore_host (c : Nat) (f : Core → Core) : (s.onCore c f).host = s.host := rfl
@[simp] theorem State.onCore_fabric (c : Nat) (f : Core → Core) : (s.onCore c f).fabric = s.fabric := rfl
@[simp] theorem State.onCore_mgmt (c : Nat) (f : Core → Core) : (s.onCore c f).mgmt = s.mgmt := rfl
@[simp] theorem State.onCore_sup (c : Nat) (f : Core → Core) : (s.onCore c f).sup = s.sup := rfl
@[simp] theorem State.onCore_power (c : Nat) (f : Core → Core) : (s.onCore c f).power = s.power := rfl
@[simp] theorem State.onCore_slots (c : Nat) (f : Core → Core) : (s.onCore c f).slots = s.slots := rfl
@[simp] theorem State.onCore_update (c : Nat) (f : Core → Core) : (s.onCore c f).update = s.update := rfl
@[simp] theorem State.onCore_log (c : Nat) (f : Core → Core) : (s.onCore c f).log = s.log := rfl
@[simp] theorem State.onCore_nextEvent (c : Nat) (f : Core → Core) : (s.onCore c f).nextEvent = s.nextEvent := rfl
@[simp] theorem State.onCore_counters (c : Nat) (f : Core → Core) : (s.onCore c f).counters = s.counters := rfl
@[simp] theorem State.onCore_msix (c : Nat) (f : Core → Core) : (s.onCore c f).msix = s.msix := rfl

@[simp] theorem State.onThread_pending (c t : Nat) (f : Thread → Thread) : (s.onThread c t f).pending = s.pending := rfl
@[simp] theorem State.onThread_part (c t : Nat) (f : Thread → Thread) : (s.onThread c t f).part = s.part := rfl
@[simp] theorem State.onThread_phase (c t : Nat) (f : Thread → Thread) : (s.onThread c t f).phase = s.phase := rfl
@[simp] theorem State.onThread_now (c t : Nat) (f : Thread → Thread) : (s.onThread c t f).now = s.now := rfl
@[simp] theorem State.onThread_freeUsed (c t : Nat) (f : Thread → Thread) : (s.onThread c t f).freeUsed = s.freeUsed := rfl
@[simp] theorem State.onThread_cores (c t : Nat) (f : Thread → Thread) :
    (s.onThread c t f).cores = s.cores.put c ((s.core c).setThread t (f ((s.core c).thread t))) {} := rfl
@[simp] theorem State.onThread_parts (c t : Nat) (f : Thread → Thread) : (s.onThread c t f).parts = s.parts := rfl
@[simp] theorem State.onThread_movers (c t : Nat) (f : Thread → Thread) : (s.onThread c t f).movers = s.movers := rfl
@[simp] theorem State.onThread_lake (c t : Nat) (f : Thread → Thread) : (s.onThread c t f).lake = s.lake := rfl
@[simp] theorem State.onThread_host (c t : Nat) (f : Thread → Thread) : (s.onThread c t f).host = s.host := rfl
@[simp] theorem State.onThread_fabric (c t : Nat) (f : Thread → Thread) : (s.onThread c t f).fabric = s.fabric := rfl
@[simp] theorem State.onThread_mgmt (c t : Nat) (f : Thread → Thread) : (s.onThread c t f).mgmt = s.mgmt := rfl
@[simp] theorem State.onThread_sup (c t : Nat) (f : Thread → Thread) : (s.onThread c t f).sup = s.sup := rfl
@[simp] theorem State.onThread_power (c t : Nat) (f : Thread → Thread) : (s.onThread c t f).power = s.power := rfl
@[simp] theorem State.onThread_slots (c t : Nat) (f : Thread → Thread) : (s.onThread c t f).slots = s.slots := rfl
@[simp] theorem State.onThread_update (c t : Nat) (f : Thread → Thread) : (s.onThread c t f).update = s.update := rfl
@[simp] theorem State.onThread_log (c t : Nat) (f : Thread → Thread) : (s.onThread c t f).log = s.log := rfl
@[simp] theorem State.onThread_nextEvent (c t : Nat) (f : Thread → Thread) : (s.onThread c t f).nextEvent = s.nextEvent := rfl
@[simp] theorem State.onThread_counters (c t : Nat) (f : Thread → Thread) : (s.onThread c t f).counters = s.counters := rfl
@[simp] theorem State.onThread_msix (c t : Nat) (f : Thread → Thread) : (s.onThread c t f).msix = s.msix := rfl

/-! ## Partitions, their segments, streams, commands, records and objects -/

@[simp] theorem State.setPartn_pending (p : Nat) (x : Partition) : (s.setPartn p x).pending = s.pending := rfl
@[simp] theorem State.setPartn_part (p : Nat) (x : Partition) : (s.setPartn p x).part = s.part := rfl
@[simp] theorem State.setPartn_phase (p : Nat) (x : Partition) : (s.setPartn p x).phase = s.phase := rfl
@[simp] theorem State.setPartn_now (p : Nat) (x : Partition) : (s.setPartn p x).now = s.now := rfl
@[simp] theorem State.setPartn_freeUsed (p : Nat) (x : Partition) : (s.setPartn p x).freeUsed = s.freeUsed := rfl
@[simp] theorem State.setPartn_cores (p : Nat) (x : Partition) : (s.setPartn p x).cores = s.cores := rfl
@[simp] theorem State.setPartn_parts (p : Nat) (x : Partition) :
    (s.setPartn p x).parts = s.parts.put p x {} := rfl
@[simp] theorem State.setPartn_movers (p : Nat) (x : Partition) : (s.setPartn p x).movers = s.movers := rfl
@[simp] theorem State.setPartn_lake (p : Nat) (x : Partition) : (s.setPartn p x).lake = s.lake := rfl
@[simp] theorem State.setPartn_host (p : Nat) (x : Partition) : (s.setPartn p x).host = s.host := rfl
@[simp] theorem State.setPartn_fabric (p : Nat) (x : Partition) : (s.setPartn p x).fabric = s.fabric := rfl
@[simp] theorem State.setPartn_mgmt (p : Nat) (x : Partition) : (s.setPartn p x).mgmt = s.mgmt := rfl
@[simp] theorem State.setPartn_sup (p : Nat) (x : Partition) : (s.setPartn p x).sup = s.sup := rfl
@[simp] theorem State.setPartn_power (p : Nat) (x : Partition) : (s.setPartn p x).power = s.power := rfl
@[simp] theorem State.setPartn_slots (p : Nat) (x : Partition) : (s.setPartn p x).slots = s.slots := rfl
@[simp] theorem State.setPartn_update (p : Nat) (x : Partition) : (s.setPartn p x).update = s.update := rfl
@[simp] theorem State.setPartn_log (p : Nat) (x : Partition) : (s.setPartn p x).log = s.log := rfl
@[simp] theorem State.setPartn_nextEvent (p : Nat) (x : Partition) : (s.setPartn p x).nextEvent = s.nextEvent := rfl
@[simp] theorem State.setPartn_counters (p : Nat) (x : Partition) : (s.setPartn p x).counters = s.counters := rfl
@[simp] theorem State.setPartn_msix (p : Nat) (x : Partition) : (s.setPartn p x).msix = s.msix := rfl

@[simp] theorem State.onPartn_pending (p : Nat) (f : Partition → Partition) : (s.onPartn p f).pending = s.pending := rfl
@[simp] theorem State.onPartn_part (p : Nat) (f : Partition → Partition) : (s.onPartn p f).part = s.part := rfl
@[simp] theorem State.onPartn_phase (p : Nat) (f : Partition → Partition) : (s.onPartn p f).phase = s.phase := rfl
@[simp] theorem State.onPartn_now (p : Nat) (f : Partition → Partition) : (s.onPartn p f).now = s.now := rfl
@[simp] theorem State.onPartn_freeUsed (p : Nat) (f : Partition → Partition) : (s.onPartn p f).freeUsed = s.freeUsed := rfl
@[simp] theorem State.onPartn_cores (p : Nat) (f : Partition → Partition) : (s.onPartn p f).cores = s.cores := rfl
@[simp] theorem State.onPartn_parts (p : Nat) (f : Partition → Partition) :
    (s.onPartn p f).parts = s.parts.put p (f (s.partn p)) {} := rfl
@[simp] theorem State.onPartn_movers (p : Nat) (f : Partition → Partition) : (s.onPartn p f).movers = s.movers := rfl
@[simp] theorem State.onPartn_lake (p : Nat) (f : Partition → Partition) : (s.onPartn p f).lake = s.lake := rfl
@[simp] theorem State.onPartn_host (p : Nat) (f : Partition → Partition) : (s.onPartn p f).host = s.host := rfl
@[simp] theorem State.onPartn_fabric (p : Nat) (f : Partition → Partition) : (s.onPartn p f).fabric = s.fabric := rfl
@[simp] theorem State.onPartn_mgmt (p : Nat) (f : Partition → Partition) : (s.onPartn p f).mgmt = s.mgmt := rfl
@[simp] theorem State.onPartn_sup (p : Nat) (f : Partition → Partition) : (s.onPartn p f).sup = s.sup := rfl
@[simp] theorem State.onPartn_power (p : Nat) (f : Partition → Partition) : (s.onPartn p f).power = s.power := rfl
@[simp] theorem State.onPartn_slots (p : Nat) (f : Partition → Partition) : (s.onPartn p f).slots = s.slots := rfl
@[simp] theorem State.onPartn_update (p : Nat) (f : Partition → Partition) : (s.onPartn p f).update = s.update := rfl
@[simp] theorem State.onPartn_log (p : Nat) (f : Partition → Partition) : (s.onPartn p f).log = s.log := rfl
@[simp] theorem State.onPartn_nextEvent (p : Nat) (f : Partition → Partition) : (s.onPartn p f).nextEvent = s.nextEvent := rfl
@[simp] theorem State.onPartn_counters (p : Nat) (f : Partition → Partition) : (s.onPartn p f).counters = s.counters := rfl
@[simp] theorem State.onPartn_msix (p : Nat) (f : Partition → Partition) : (s.onPartn p f).msix = s.msix := rfl

@[simp] theorem State.onSegment_pending (p w q : Nat) (f : Segment → Segment) : (s.onSegment p w q f).pending = s.pending := rfl
@[simp] theorem State.onSegment_part (p w q : Nat) (f : Segment → Segment) : (s.onSegment p w q f).part = s.part := rfl
@[simp] theorem State.onSegment_phase (p w q : Nat) (f : Segment → Segment) : (s.onSegment p w q f).phase = s.phase := rfl
@[simp] theorem State.onSegment_now (p w q : Nat) (f : Segment → Segment) : (s.onSegment p w q f).now = s.now := rfl
@[simp] theorem State.onSegment_freeUsed (p w q : Nat) (f : Segment → Segment) : (s.onSegment p w q f).freeUsed = s.freeUsed := rfl
@[simp] theorem State.onSegment_cores (p w q : Nat) (f : Segment → Segment) : (s.onSegment p w q f).cores = s.cores := rfl
@[simp] theorem State.onSegment_movers (p w q : Nat) (f : Segment → Segment) : (s.onSegment p w q f).movers = s.movers := rfl
@[simp] theorem State.onSegment_lake (p w q : Nat) (f : Segment → Segment) : (s.onSegment p w q f).lake = s.lake := rfl
@[simp] theorem State.onSegment_host (p w q : Nat) (f : Segment → Segment) : (s.onSegment p w q f).host = s.host := rfl
@[simp] theorem State.onSegment_fabric (p w q : Nat) (f : Segment → Segment) : (s.onSegment p w q f).fabric = s.fabric := rfl
@[simp] theorem State.onSegment_mgmt (p w q : Nat) (f : Segment → Segment) : (s.onSegment p w q f).mgmt = s.mgmt := rfl
@[simp] theorem State.onSegment_sup (p w q : Nat) (f : Segment → Segment) : (s.onSegment p w q f).sup = s.sup := rfl
@[simp] theorem State.onSegment_power (p w q : Nat) (f : Segment → Segment) : (s.onSegment p w q f).power = s.power := rfl
@[simp] theorem State.onSegment_slots (p w q : Nat) (f : Segment → Segment) : (s.onSegment p w q f).slots = s.slots := rfl
@[simp] theorem State.onSegment_update (p w q : Nat) (f : Segment → Segment) : (s.onSegment p w q f).update = s.update := rfl
@[simp] theorem State.onSegment_log (p w q : Nat) (f : Segment → Segment) : (s.onSegment p w q f).log = s.log := rfl
@[simp] theorem State.onSegment_nextEvent (p w q : Nat) (f : Segment → Segment) : (s.onSegment p w q f).nextEvent = s.nextEvent := rfl
@[simp] theorem State.onSegment_counters (p w q : Nat) (f : Segment → Segment) : (s.onSegment p w q f).counters = s.counters := rfl
@[simp] theorem State.onSegment_msix (p w q : Nat) (f : Segment → Segment) : (s.onSegment p w q f).msix = s.msix := rfl

@[simp] theorem State.onStream_pending (p w : Nat) (f : Stream → Stream) : (s.onStream p w f).pending = s.pending := rfl
@[simp] theorem State.onStream_part (p w : Nat) (f : Stream → Stream) : (s.onStream p w f).part = s.part := rfl
@[simp] theorem State.onStream_phase (p w : Nat) (f : Stream → Stream) : (s.onStream p w f).phase = s.phase := rfl
@[simp] theorem State.onStream_now (p w : Nat) (f : Stream → Stream) : (s.onStream p w f).now = s.now := rfl
@[simp] theorem State.onStream_freeUsed (p w : Nat) (f : Stream → Stream) : (s.onStream p w f).freeUsed = s.freeUsed := rfl
@[simp] theorem State.onStream_cores (p w : Nat) (f : Stream → Stream) : (s.onStream p w f).cores = s.cores := rfl
@[simp] theorem State.onStream_parts (p w : Nat) (f : Stream → Stream) :
    (s.onStream p w f).parts = s.parts.put p ((s.partn p).onStream w f) {} := rfl
@[simp] theorem State.onStream_movers (p w : Nat) (f : Stream → Stream) : (s.onStream p w f).movers = s.movers := rfl
@[simp] theorem State.onStream_lake (p w : Nat) (f : Stream → Stream) : (s.onStream p w f).lake = s.lake := rfl
@[simp] theorem State.onStream_host (p w : Nat) (f : Stream → Stream) : (s.onStream p w f).host = s.host := rfl
@[simp] theorem State.onStream_fabric (p w : Nat) (f : Stream → Stream) : (s.onStream p w f).fabric = s.fabric := rfl
@[simp] theorem State.onStream_mgmt (p w : Nat) (f : Stream → Stream) : (s.onStream p w f).mgmt = s.mgmt := rfl
@[simp] theorem State.onStream_sup (p w : Nat) (f : Stream → Stream) : (s.onStream p w f).sup = s.sup := rfl
@[simp] theorem State.onStream_power (p w : Nat) (f : Stream → Stream) : (s.onStream p w f).power = s.power := rfl
@[simp] theorem State.onStream_slots (p w : Nat) (f : Stream → Stream) : (s.onStream p w f).slots = s.slots := rfl
@[simp] theorem State.onStream_update (p w : Nat) (f : Stream → Stream) : (s.onStream p w f).update = s.update := rfl
@[simp] theorem State.onStream_log (p w : Nat) (f : Stream → Stream) : (s.onStream p w f).log = s.log := rfl
@[simp] theorem State.onStream_nextEvent (p w : Nat) (f : Stream → Stream) : (s.onStream p w f).nextEvent = s.nextEvent := rfl
@[simp] theorem State.onStream_counters (p w : Nat) (f : Stream → Stream) : (s.onStream p w f).counters = s.counters := rfl
@[simp] theorem State.onStream_msix (p w : Nat) (f : Stream → Stream) : (s.onStream p w f).msix = s.msix := rfl

@[simp] theorem State.onCmd_pending (p w q : Nat) (f : Cmd → Cmd) : (s.onCmd p w q f).pending = s.pending := rfl
@[simp] theorem State.onCmd_part (p w q : Nat) (f : Cmd → Cmd) : (s.onCmd p w q f).part = s.part := rfl
@[simp] theorem State.onCmd_phase (p w q : Nat) (f : Cmd → Cmd) : (s.onCmd p w q f).phase = s.phase := rfl
@[simp] theorem State.onCmd_now (p w q : Nat) (f : Cmd → Cmd) : (s.onCmd p w q f).now = s.now := rfl
@[simp] theorem State.onCmd_freeUsed (p w q : Nat) (f : Cmd → Cmd) : (s.onCmd p w q f).freeUsed = s.freeUsed := rfl
@[simp] theorem State.onCmd_cores (p w q : Nat) (f : Cmd → Cmd) : (s.onCmd p w q f).cores = s.cores := rfl
@[simp] theorem State.onCmd_movers (p w q : Nat) (f : Cmd → Cmd) : (s.onCmd p w q f).movers = s.movers := rfl
@[simp] theorem State.onCmd_lake (p w q : Nat) (f : Cmd → Cmd) : (s.onCmd p w q f).lake = s.lake := rfl
@[simp] theorem State.onCmd_host (p w q : Nat) (f : Cmd → Cmd) : (s.onCmd p w q f).host = s.host := rfl
@[simp] theorem State.onCmd_fabric (p w q : Nat) (f : Cmd → Cmd) : (s.onCmd p w q f).fabric = s.fabric := rfl
@[simp] theorem State.onCmd_mgmt (p w q : Nat) (f : Cmd → Cmd) : (s.onCmd p w q f).mgmt = s.mgmt := rfl
@[simp] theorem State.onCmd_sup (p w q : Nat) (f : Cmd → Cmd) : (s.onCmd p w q f).sup = s.sup := rfl
@[simp] theorem State.onCmd_power (p w q : Nat) (f : Cmd → Cmd) : (s.onCmd p w q f).power = s.power := rfl
@[simp] theorem State.onCmd_slots (p w q : Nat) (f : Cmd → Cmd) : (s.onCmd p w q f).slots = s.slots := rfl
@[simp] theorem State.onCmd_update (p w q : Nat) (f : Cmd → Cmd) : (s.onCmd p w q f).update = s.update := rfl
@[simp] theorem State.onCmd_log (p w q : Nat) (f : Cmd → Cmd) : (s.onCmd p w q f).log = s.log := rfl
@[simp] theorem State.onCmd_nextEvent (p w q : Nat) (f : Cmd → Cmd) : (s.onCmd p w q f).nextEvent = s.nextEvent := rfl
@[simp] theorem State.onCmd_counters (p w q : Nat) (f : Cmd → Cmd) : (s.onCmd p w q f).counters = s.counters := rfl
@[simp] theorem State.onCmd_msix (p w q : Nat) (f : Cmd → Cmd) : (s.onCmd p w q f).msix = s.msix := rfl

@[simp] theorem State.onLoads_pending (p : Nat) (f : List ShardLoad → List ShardLoad) : (s.onLoads p f).pending = s.pending := rfl
@[simp] theorem State.onLoads_part (p : Nat) (f : List ShardLoad → List ShardLoad) : (s.onLoads p f).part = s.part := rfl
@[simp] theorem State.onLoads_phase (p : Nat) (f : List ShardLoad → List ShardLoad) : (s.onLoads p f).phase = s.phase := rfl
@[simp] theorem State.onLoads_now (p : Nat) (f : List ShardLoad → List ShardLoad) : (s.onLoads p f).now = s.now := rfl
@[simp] theorem State.onLoads_freeUsed (p : Nat) (f : List ShardLoad → List ShardLoad) : (s.onLoads p f).freeUsed = s.freeUsed := rfl
@[simp] theorem State.onLoads_cores (p : Nat) (f : List ShardLoad → List ShardLoad) : (s.onLoads p f).cores = s.cores := rfl
@[simp] theorem State.onLoads_movers (p : Nat) (f : List ShardLoad → List ShardLoad) : (s.onLoads p f).movers = s.movers := rfl
@[simp] theorem State.onLoads_lake (p : Nat) (f : List ShardLoad → List ShardLoad) : (s.onLoads p f).lake = s.lake := rfl
@[simp] theorem State.onLoads_host (p : Nat) (f : List ShardLoad → List ShardLoad) : (s.onLoads p f).host = s.host := rfl
@[simp] theorem State.onLoads_fabric (p : Nat) (f : List ShardLoad → List ShardLoad) : (s.onLoads p f).fabric = s.fabric := rfl
@[simp] theorem State.onLoads_mgmt (p : Nat) (f : List ShardLoad → List ShardLoad) : (s.onLoads p f).mgmt = s.mgmt := rfl
@[simp] theorem State.onLoads_sup (p : Nat) (f : List ShardLoad → List ShardLoad) : (s.onLoads p f).sup = s.sup := rfl
@[simp] theorem State.onLoads_power (p : Nat) (f : List ShardLoad → List ShardLoad) : (s.onLoads p f).power = s.power := rfl
@[simp] theorem State.onLoads_slots (p : Nat) (f : List ShardLoad → List ShardLoad) : (s.onLoads p f).slots = s.slots := rfl
@[simp] theorem State.onLoads_update (p : Nat) (f : List ShardLoad → List ShardLoad) : (s.onLoads p f).update = s.update := rfl
@[simp] theorem State.onLoads_log (p : Nat) (f : List ShardLoad → List ShardLoad) : (s.onLoads p f).log = s.log := rfl
@[simp] theorem State.onLoads_nextEvent (p : Nat) (f : List ShardLoad → List ShardLoad) : (s.onLoads p f).nextEvent = s.nextEvent := rfl
@[simp] theorem State.onLoads_counters (p : Nat) (f : List ShardLoad → List ShardLoad) : (s.onLoads p f).counters = s.counters := rfl
@[simp] theorem State.onLoads_msix (p : Nat) (f : List ShardLoad → List ShardLoad) : (s.onLoads p f).msix = s.msix := rfl

@[simp] theorem State.onX_pending (p x : Nat) (f : XRun → XRun) : (s.onX p x f).pending = s.pending := rfl
@[simp] theorem State.onX_part (p x : Nat) (f : XRun → XRun) : (s.onX p x f).part = s.part := rfl
@[simp] theorem State.onX_phase (p x : Nat) (f : XRun → XRun) : (s.onX p x f).phase = s.phase := rfl
@[simp] theorem State.onX_now (p x : Nat) (f : XRun → XRun) : (s.onX p x f).now = s.now := rfl
@[simp] theorem State.onX_freeUsed (p x : Nat) (f : XRun → XRun) : (s.onX p x f).freeUsed = s.freeUsed := rfl
@[simp] theorem State.onX_cores (p x : Nat) (f : XRun → XRun) : (s.onX p x f).cores = s.cores := rfl
@[simp] theorem State.onX_movers (p x : Nat) (f : XRun → XRun) : (s.onX p x f).movers = s.movers := rfl
@[simp] theorem State.onX_lake (p x : Nat) (f : XRun → XRun) : (s.onX p x f).lake = s.lake := rfl
@[simp] theorem State.onX_host (p x : Nat) (f : XRun → XRun) : (s.onX p x f).host = s.host := rfl
@[simp] theorem State.onX_fabric (p x : Nat) (f : XRun → XRun) : (s.onX p x f).fabric = s.fabric := rfl
@[simp] theorem State.onX_mgmt (p x : Nat) (f : XRun → XRun) : (s.onX p x f).mgmt = s.mgmt := rfl
@[simp] theorem State.onX_sup (p x : Nat) (f : XRun → XRun) : (s.onX p x f).sup = s.sup := rfl
@[simp] theorem State.onX_power (p x : Nat) (f : XRun → XRun) : (s.onX p x f).power = s.power := rfl
@[simp] theorem State.onX_slots (p x : Nat) (f : XRun → XRun) : (s.onX p x f).slots = s.slots := rfl
@[simp] theorem State.onX_update (p x : Nat) (f : XRun → XRun) : (s.onX p x f).update = s.update := rfl
@[simp] theorem State.onX_log (p x : Nat) (f : XRun → XRun) : (s.onX p x f).log = s.log := rfl
@[simp] theorem State.onX_nextEvent (p x : Nat) (f : XRun → XRun) : (s.onX p x f).nextEvent = s.nextEvent := rfl
@[simp] theorem State.onX_counters (p x : Nat) (f : XRun → XRun) : (s.onX p x f).counters = s.counters := rfl
@[simp] theorem State.onX_msix (p x : Nat) (f : XRun → XRun) : (s.onX p x f).msix = s.msix := rfl

@[simp] theorem State.setObj_pending (p x : Nat) (o : TierObj) : (s.setObj p x o).pending = s.pending := rfl
@[simp] theorem State.setObj_part (p x : Nat) (o : TierObj) : (s.setObj p x o).part = s.part := rfl
@[simp] theorem State.setObj_phase (p x : Nat) (o : TierObj) : (s.setObj p x o).phase = s.phase := rfl
@[simp] theorem State.setObj_now (p x : Nat) (o : TierObj) : (s.setObj p x o).now = s.now := rfl
@[simp] theorem State.setObj_freeUsed (p x : Nat) (o : TierObj) : (s.setObj p x o).freeUsed = s.freeUsed := rfl
@[simp] theorem State.setObj_cores (p x : Nat) (o : TierObj) : (s.setObj p x o).cores = s.cores := rfl
@[simp] theorem State.setObj_movers (p x : Nat) (o : TierObj) : (s.setObj p x o).movers = s.movers := rfl
@[simp] theorem State.setObj_lake (p x : Nat) (o : TierObj) : (s.setObj p x o).lake = s.lake := rfl
@[simp] theorem State.setObj_host (p x : Nat) (o : TierObj) : (s.setObj p x o).host = s.host := rfl
@[simp] theorem State.setObj_fabric (p x : Nat) (o : TierObj) : (s.setObj p x o).fabric = s.fabric := rfl
@[simp] theorem State.setObj_mgmt (p x : Nat) (o : TierObj) : (s.setObj p x o).mgmt = s.mgmt := rfl
@[simp] theorem State.setObj_sup (p x : Nat) (o : TierObj) : (s.setObj p x o).sup = s.sup := rfl
@[simp] theorem State.setObj_power (p x : Nat) (o : TierObj) : (s.setObj p x o).power = s.power := rfl
@[simp] theorem State.setObj_slots (p x : Nat) (o : TierObj) : (s.setObj p x o).slots = s.slots := rfl
@[simp] theorem State.setObj_update (p x : Nat) (o : TierObj) : (s.setObj p x o).update = s.update := rfl
@[simp] theorem State.setObj_log (p x : Nat) (o : TierObj) : (s.setObj p x o).log = s.log := rfl
@[simp] theorem State.setObj_nextEvent (p x : Nat) (o : TierObj) : (s.setObj p x o).nextEvent = s.nextEvent := rfl
@[simp] theorem State.setObj_counters (p x : Nat) (o : TierObj) : (s.setObj p x o).counters = s.counters := rfl
@[simp] theorem State.setObj_msix (p x : Nat) (o : TierObj) : (s.setObj p x o).msix = s.msix := rfl

@[simp] theorem State.onObj_pending (p x : Nat) (f : TierObj → TierObj) : (s.onObj p x f).pending = s.pending := rfl
@[simp] theorem State.onObj_part (p x : Nat) (f : TierObj → TierObj) : (s.onObj p x f).part = s.part := rfl
@[simp] theorem State.onObj_phase (p x : Nat) (f : TierObj → TierObj) : (s.onObj p x f).phase = s.phase := rfl
@[simp] theorem State.onObj_now (p x : Nat) (f : TierObj → TierObj) : (s.onObj p x f).now = s.now := rfl
@[simp] theorem State.onObj_freeUsed (p x : Nat) (f : TierObj → TierObj) : (s.onObj p x f).freeUsed = s.freeUsed := rfl
@[simp] theorem State.onObj_cores (p x : Nat) (f : TierObj → TierObj) : (s.onObj p x f).cores = s.cores := rfl
@[simp] theorem State.onObj_movers (p x : Nat) (f : TierObj → TierObj) : (s.onObj p x f).movers = s.movers := rfl
@[simp] theorem State.onObj_lake (p x : Nat) (f : TierObj → TierObj) : (s.onObj p x f).lake = s.lake := rfl
@[simp] theorem State.onObj_host (p x : Nat) (f : TierObj → TierObj) : (s.onObj p x f).host = s.host := rfl
@[simp] theorem State.onObj_fabric (p x : Nat) (f : TierObj → TierObj) : (s.onObj p x f).fabric = s.fabric := rfl
@[simp] theorem State.onObj_mgmt (p x : Nat) (f : TierObj → TierObj) : (s.onObj p x f).mgmt = s.mgmt := rfl
@[simp] theorem State.onObj_sup (p x : Nat) (f : TierObj → TierObj) : (s.onObj p x f).sup = s.sup := rfl
@[simp] theorem State.onObj_power (p x : Nat) (f : TierObj → TierObj) : (s.onObj p x f).power = s.power := rfl
@[simp] theorem State.onObj_slots (p x : Nat) (f : TierObj → TierObj) : (s.onObj p x f).slots = s.slots := rfl
@[simp] theorem State.onObj_update (p x : Nat) (f : TierObj → TierObj) : (s.onObj p x f).update = s.update := rfl
@[simp] theorem State.onObj_log (p x : Nat) (f : TierObj → TierObj) : (s.onObj p x f).log = s.log := rfl
@[simp] theorem State.onObj_nextEvent (p x : Nat) (f : TierObj → TierObj) : (s.onObj p x f).nextEvent = s.nextEvent := rfl
@[simp] theorem State.onObj_counters (p x : Nat) (f : TierObj → TierObj) : (s.onObj p x f).counters = s.counters := rfl
@[simp] theorem State.onObj_msix (p x : Nat) (f : TierObj → TierObj) : (s.onObj p x f).msix = s.msix := rfl

@[simp] theorem State.bumpP_pending (p index sub n : Nat) : (s.bumpP p index sub n).pending = s.pending := rfl
@[simp] theorem State.bumpP_part (p index sub n : Nat) : (s.bumpP p index sub n).part = s.part := rfl
@[simp] theorem State.bumpP_phase (p index sub n : Nat) : (s.bumpP p index sub n).phase = s.phase := rfl
@[simp] theorem State.bumpP_now (p index sub n : Nat) : (s.bumpP p index sub n).now = s.now := rfl
@[simp] theorem State.bumpP_freeUsed (p index sub n : Nat) : (s.bumpP p index sub n).freeUsed = s.freeUsed := rfl
@[simp] theorem State.bumpP_cores (p index sub n : Nat) : (s.bumpP p index sub n).cores = s.cores := rfl
@[simp] theorem State.bumpP_movers (p index sub n : Nat) : (s.bumpP p index sub n).movers = s.movers := rfl
@[simp] theorem State.bumpP_lake (p index sub n : Nat) : (s.bumpP p index sub n).lake = s.lake := rfl
@[simp] theorem State.bumpP_host (p index sub n : Nat) : (s.bumpP p index sub n).host = s.host := rfl
@[simp] theorem State.bumpP_fabric (p index sub n : Nat) : (s.bumpP p index sub n).fabric = s.fabric := rfl
@[simp] theorem State.bumpP_mgmt (p index sub n : Nat) : (s.bumpP p index sub n).mgmt = s.mgmt := rfl
@[simp] theorem State.bumpP_sup (p index sub n : Nat) : (s.bumpP p index sub n).sup = s.sup := rfl
@[simp] theorem State.bumpP_power (p index sub n : Nat) : (s.bumpP p index sub n).power = s.power := rfl
@[simp] theorem State.bumpP_slots (p index sub n : Nat) : (s.bumpP p index sub n).slots = s.slots := rfl
@[simp] theorem State.bumpP_update (p index sub n : Nat) : (s.bumpP p index sub n).update = s.update := rfl
@[simp] theorem State.bumpP_log (p index sub n : Nat) : (s.bumpP p index sub n).log = s.log := rfl
@[simp] theorem State.bumpP_nextEvent (p index sub n : Nat) : (s.bumpP p index sub n).nextEvent = s.nextEvent := rfl
@[simp] theorem State.bumpP_counters (p index sub n : Nat) : (s.bumpP p index sub n).counters = s.counters := rfl
@[simp] theorem State.bumpP_msix (p index sub n : Nat) : (s.bumpP p index sub n).msix = s.msix := rfl

/-! ## Counters, messages and free values -/

@[simp] theorem State.bump_pending (index sub n : Nat) : (s.bump index sub n).pending = s.pending := rfl
@[simp] theorem State.bump_part (index sub n : Nat) : (s.bump index sub n).part = s.part := rfl
@[simp] theorem State.bump_phase (index sub n : Nat) : (s.bump index sub n).phase = s.phase := rfl
@[simp] theorem State.bump_now (index sub n : Nat) : (s.bump index sub n).now = s.now := rfl
@[simp] theorem State.bump_freeUsed (index sub n : Nat) : (s.bump index sub n).freeUsed = s.freeUsed := rfl
@[simp] theorem State.bump_cores (index sub n : Nat) : (s.bump index sub n).cores = s.cores := rfl
@[simp] theorem State.bump_parts (index sub n : Nat) : (s.bump index sub n).parts = s.parts := rfl
@[simp] theorem State.bump_movers (index sub n : Nat) : (s.bump index sub n).movers = s.movers := rfl
@[simp] theorem State.bump_lake (index sub n : Nat) : (s.bump index sub n).lake = s.lake := rfl
@[simp] theorem State.bump_host (index sub n : Nat) : (s.bump index sub n).host = s.host := rfl
@[simp] theorem State.bump_fabric (index sub n : Nat) : (s.bump index sub n).fabric = s.fabric := rfl
@[simp] theorem State.bump_mgmt (index sub n : Nat) : (s.bump index sub n).mgmt = s.mgmt := rfl
@[simp] theorem State.bump_sup (index sub n : Nat) : (s.bump index sub n).sup = s.sup := rfl
@[simp] theorem State.bump_power (index sub n : Nat) : (s.bump index sub n).power = s.power := rfl
@[simp] theorem State.bump_slots (index sub n : Nat) : (s.bump index sub n).slots = s.slots := rfl
@[simp] theorem State.bump_update (index sub n : Nat) : (s.bump index sub n).update = s.update := rfl
@[simp] theorem State.bump_log (index sub n : Nat) : (s.bump index sub n).log = s.log := rfl
@[simp] theorem State.bump_nextEvent (index sub n : Nat) : (s.bump index sub n).nextEvent = s.nextEvent := rfl
@[simp] theorem State.bump_counters (index sub n : Nat) :
    (s.bump index sub n).counters = s.counters.put (okey index sub) (s.counters.get (okey index sub) 0 + n) 0 := rfl
@[simp] theorem State.bump_msix (index sub n : Nat) : (s.bump index sub n).msix = s.msix := rfl

@[simp] theorem State.signal_pending (p vector : Nat) : (s.signal p vector).pending = s.pending := rfl
@[simp] theorem State.signal_part (p vector : Nat) : (s.signal p vector).part = s.part := rfl
@[simp] theorem State.signal_phase (p vector : Nat) : (s.signal p vector).phase = s.phase := rfl
@[simp] theorem State.signal_now (p vector : Nat) : (s.signal p vector).now = s.now := rfl
@[simp] theorem State.signal_freeUsed (p vector : Nat) : (s.signal p vector).freeUsed = s.freeUsed := rfl
@[simp] theorem State.signal_cores (p vector : Nat) : (s.signal p vector).cores = s.cores := rfl
@[simp] theorem State.signal_parts (p vector : Nat) :
    (s.signal p vector).parts =
      (s.onPartn p fun x => { x with regs := x.regs.pend vector }).parts := rfl
@[simp] theorem State.signal_movers (p vector : Nat) : (s.signal p vector).movers = s.movers := rfl
@[simp] theorem State.signal_lake (p vector : Nat) : (s.signal p vector).lake = s.lake := rfl
@[simp] theorem State.signal_host (p vector : Nat) : (s.signal p vector).host = s.host := rfl
@[simp] theorem State.signal_fabric (p vector : Nat) : (s.signal p vector).fabric = s.fabric := rfl
@[simp] theorem State.signal_mgmt (p vector : Nat) : (s.signal p vector).mgmt = s.mgmt := rfl
@[simp] theorem State.signal_sup (p vector : Nat) : (s.signal p vector).sup = s.sup := rfl
@[simp] theorem State.signal_power (p vector : Nat) : (s.signal p vector).power = s.power := rfl
@[simp] theorem State.signal_slots (p vector : Nat) : (s.signal p vector).slots = s.slots := rfl
@[simp] theorem State.signal_update (p vector : Nat) : (s.signal p vector).update = s.update := rfl
@[simp] theorem State.signal_log (p vector : Nat) : (s.signal p vector).log = s.log := rfl
@[simp] theorem State.signal_nextEvent (p vector : Nat) : (s.signal p vector).nextEvent = s.nextEvent := rfl
@[simp] theorem State.signal_counters (p vector : Nat) : (s.signal p vector).counters = s.counters := rfl
@[simp] theorem State.signal_msix (p vector : Nat) :
    (s.signal p vector).msix =
      if (s.partn p).regs.masked vector then s.msix else s.msix ++ [(p, vector)] := rfl

@[simp] theorem State.fresh_pending : (s.fresh).pending = s.pending := rfl
@[simp] theorem State.fresh_part : (s.fresh).part = s.part := rfl
@[simp] theorem State.fresh_phase : (s.fresh).phase = s.phase := rfl
@[simp] theorem State.fresh_now : (s.fresh).now = s.now := rfl
@[simp] theorem State.fresh_freeUsed :
    (s.fresh).freeUsed = s.freeUsed + 1 := rfl
@[simp] theorem State.fresh_cores : (s.fresh).cores = s.cores := rfl
@[simp] theorem State.fresh_parts : (s.fresh).parts = s.parts := rfl
@[simp] theorem State.fresh_movers : (s.fresh).movers = s.movers := rfl
@[simp] theorem State.fresh_lake : (s.fresh).lake = s.lake := rfl
@[simp] theorem State.fresh_host : (s.fresh).host = s.host := rfl
@[simp] theorem State.fresh_fabric : (s.fresh).fabric = s.fabric := rfl
@[simp] theorem State.fresh_mgmt : (s.fresh).mgmt = s.mgmt := rfl
@[simp] theorem State.fresh_sup : (s.fresh).sup = s.sup := rfl
@[simp] theorem State.fresh_power : (s.fresh).power = s.power := rfl
@[simp] theorem State.fresh_slots : (s.fresh).slots = s.slots := rfl
@[simp] theorem State.fresh_update : (s.fresh).update = s.update := rfl
@[simp] theorem State.fresh_log : (s.fresh).log = s.log := rfl
@[simp] theorem State.fresh_nextEvent : (s.fresh).nextEvent = s.nextEvent := rfl
@[simp] theorem State.fresh_counters : (s.fresh).counters = s.counters := rfl
@[simp] theorem State.fresh_msix : (s.fresh).msix = s.msix := rfl

/-! ## The lake and the sweep units -/

@[simp] theorem State.lakeWrite_pending (pa : Nat) (bs : List Byte) : (s.lakeWrite pa bs).pending = s.pending := rfl
@[simp] theorem State.lakeWrite_part (pa : Nat) (bs : List Byte) : (s.lakeWrite pa bs).part = s.part := rfl
@[simp] theorem State.lakeWrite_phase (pa : Nat) (bs : List Byte) : (s.lakeWrite pa bs).phase = s.phase := rfl
@[simp] theorem State.lakeWrite_now (pa : Nat) (bs : List Byte) : (s.lakeWrite pa bs).now = s.now := rfl
@[simp] theorem State.lakeWrite_freeUsed (pa : Nat) (bs : List Byte) : (s.lakeWrite pa bs).freeUsed = s.freeUsed := rfl
@[simp] theorem State.lakeWrite_cores (pa : Nat) (bs : List Byte) : (s.lakeWrite pa bs).cores = s.cores := rfl
@[simp] theorem State.lakeWrite_parts (pa : Nat) (bs : List Byte) : (s.lakeWrite pa bs).parts = s.parts := rfl
@[simp] theorem State.lakeWrite_movers (pa : Nat) (bs : List Byte) : (s.lakeWrite pa bs).movers = s.movers := rfl
@[simp] theorem State.lakeWrite_host (pa : Nat) (bs : List Byte) : (s.lakeWrite pa bs).host = s.host := rfl
@[simp] theorem State.lakeWrite_fabric (pa : Nat) (bs : List Byte) : (s.lakeWrite pa bs).fabric = s.fabric := rfl
@[simp] theorem State.lakeWrite_mgmt (pa : Nat) (bs : List Byte) : (s.lakeWrite pa bs).mgmt = s.mgmt := rfl
@[simp] theorem State.lakeWrite_sup (pa : Nat) (bs : List Byte) : (s.lakeWrite pa bs).sup = s.sup := rfl
@[simp] theorem State.lakeWrite_power (pa : Nat) (bs : List Byte) : (s.lakeWrite pa bs).power = s.power := rfl
@[simp] theorem State.lakeWrite_slots (pa : Nat) (bs : List Byte) : (s.lakeWrite pa bs).slots = s.slots := rfl
@[simp] theorem State.lakeWrite_update (pa : Nat) (bs : List Byte) : (s.lakeWrite pa bs).update = s.update := rfl
@[simp] theorem State.lakeWrite_log (pa : Nat) (bs : List Byte) : (s.lakeWrite pa bs).log = s.log := rfl
@[simp] theorem State.lakeWrite_nextEvent (pa : Nat) (bs : List Byte) : (s.lakeWrite pa bs).nextEvent = s.nextEvent := rfl
@[simp] theorem State.lakeWrite_counters (pa : Nat) (bs : List Byte) : (s.lakeWrite pa bs).counters = s.counters := rfl
@[simp] theorem State.lakeWrite_msix (pa : Nat) (bs : List Byte) : (s.lakeWrite pa bs).msix = s.msix := rfl

@[simp] theorem State.poisonGranules_pending (gs : List Nat) : (s.poisonGranules gs).pending = s.pending := rfl
@[simp] theorem State.poisonGranules_part (gs : List Nat) : (s.poisonGranules gs).part = s.part := rfl
@[simp] theorem State.poisonGranules_phase (gs : List Nat) : (s.poisonGranules gs).phase = s.phase := rfl
@[simp] theorem State.poisonGranules_now (gs : List Nat) : (s.poisonGranules gs).now = s.now := rfl
@[simp] theorem State.poisonGranules_freeUsed (gs : List Nat) : (s.poisonGranules gs).freeUsed = s.freeUsed := rfl
@[simp] theorem State.poisonGranules_cores (gs : List Nat) : (s.poisonGranules gs).cores = s.cores := rfl
@[simp] theorem State.poisonGranules_parts (gs : List Nat) : (s.poisonGranules gs).parts = s.parts := rfl
@[simp] theorem State.poisonGranules_movers (gs : List Nat) : (s.poisonGranules gs).movers = s.movers := rfl
@[simp] theorem State.poisonGranules_host (gs : List Nat) : (s.poisonGranules gs).host = s.host := rfl
@[simp] theorem State.poisonGranules_fabric (gs : List Nat) : (s.poisonGranules gs).fabric = s.fabric := rfl
@[simp] theorem State.poisonGranules_mgmt (gs : List Nat) : (s.poisonGranules gs).mgmt = s.mgmt := rfl
@[simp] theorem State.poisonGranules_sup (gs : List Nat) : (s.poisonGranules gs).sup = s.sup := rfl
@[simp] theorem State.poisonGranules_power (gs : List Nat) : (s.poisonGranules gs).power = s.power := rfl
@[simp] theorem State.poisonGranules_slots (gs : List Nat) : (s.poisonGranules gs).slots = s.slots := rfl
@[simp] theorem State.poisonGranules_update (gs : List Nat) : (s.poisonGranules gs).update = s.update := rfl
@[simp] theorem State.poisonGranules_log (gs : List Nat) : (s.poisonGranules gs).log = s.log := rfl
@[simp] theorem State.poisonGranules_nextEvent (gs : List Nat) : (s.poisonGranules gs).nextEvent = s.nextEvent := rfl
@[simp] theorem State.poisonGranules_counters (gs : List Nat) : (s.poisonGranules gs).counters = s.counters := rfl
@[simp] theorem State.poisonGranules_msix (gs : List Nat) : (s.poisonGranules gs).msix = s.msix := rfl

@[simp] theorem State.setCursor_pending (k : Nat) (u : Cursor) : (s.setCursor k u).pending = s.pending := rfl
@[simp] theorem State.setCursor_part (k : Nat) (u : Cursor) : (s.setCursor k u).part = s.part := rfl
@[simp] theorem State.setCursor_phase (k : Nat) (u : Cursor) : (s.setCursor k u).phase = s.phase := rfl
@[simp] theorem State.setCursor_now (k : Nat) (u : Cursor) : (s.setCursor k u).now = s.now := rfl
@[simp] theorem State.setCursor_freeUsed (k : Nat) (u : Cursor) : (s.setCursor k u).freeUsed = s.freeUsed := rfl
@[simp] theorem State.setCursor_cores (k : Nat) (u : Cursor) : (s.setCursor k u).cores = s.cores := rfl
@[simp] theorem State.setCursor_parts (k : Nat) (u : Cursor) : (s.setCursor k u).parts = s.parts := rfl
@[simp] theorem State.setCursor_movers (k : Nat) (u : Cursor) : (s.setCursor k u).movers = s.movers := rfl
@[simp] theorem State.setCursor_host (k : Nat) (u : Cursor) : (s.setCursor k u).host = s.host := rfl
@[simp] theorem State.setCursor_fabric (k : Nat) (u : Cursor) : (s.setCursor k u).fabric = s.fabric := rfl
@[simp] theorem State.setCursor_mgmt (k : Nat) (u : Cursor) : (s.setCursor k u).mgmt = s.mgmt := rfl
@[simp] theorem State.setCursor_sup (k : Nat) (u : Cursor) : (s.setCursor k u).sup = s.sup := rfl
@[simp] theorem State.setCursor_power (k : Nat) (u : Cursor) : (s.setCursor k u).power = s.power := rfl
@[simp] theorem State.setCursor_slots (k : Nat) (u : Cursor) : (s.setCursor k u).slots = s.slots := rfl
@[simp] theorem State.setCursor_update (k : Nat) (u : Cursor) : (s.setCursor k u).update = s.update := rfl
@[simp] theorem State.setCursor_log (k : Nat) (u : Cursor) : (s.setCursor k u).log = s.log := rfl
@[simp] theorem State.setCursor_nextEvent (k : Nat) (u : Cursor) : (s.setCursor k u).nextEvent = s.nextEvent := rfl
@[simp] theorem State.setCursor_counters (k : Nat) (u : Cursor) : (s.setCursor k u).counters = s.counters := rfl
@[simp] theorem State.setCursor_msix (k : Nat) (u : Cursor) : (s.setCursor k u).msix = s.msix := rfl

@[simp] theorem State.setStore_pending (k : Nat) (u : SweepStore) : (s.setStore k u).pending = s.pending := rfl
@[simp] theorem State.setStore_part (k : Nat) (u : SweepStore) : (s.setStore k u).part = s.part := rfl
@[simp] theorem State.setStore_phase (k : Nat) (u : SweepStore) : (s.setStore k u).phase = s.phase := rfl
@[simp] theorem State.setStore_now (k : Nat) (u : SweepStore) : (s.setStore k u).now = s.now := rfl
@[simp] theorem State.setStore_freeUsed (k : Nat) (u : SweepStore) : (s.setStore k u).freeUsed = s.freeUsed := rfl
@[simp] theorem State.setStore_cores (k : Nat) (u : SweepStore) : (s.setStore k u).cores = s.cores := rfl
@[simp] theorem State.setStore_parts (k : Nat) (u : SweepStore) : (s.setStore k u).parts = s.parts := rfl
@[simp] theorem State.setStore_movers (k : Nat) (u : SweepStore) : (s.setStore k u).movers = s.movers := rfl
@[simp] theorem State.setStore_lake (k : Nat) (u : SweepStore) :
    (s.setStore k u).lake = { s.lake with stores := s.lake.stores.put k u {} } := rfl
@[simp] theorem State.setStore_host (k : Nat) (u : SweepStore) : (s.setStore k u).host = s.host := rfl
@[simp] theorem State.setStore_fabric (k : Nat) (u : SweepStore) : (s.setStore k u).fabric = s.fabric := rfl
@[simp] theorem State.setStore_mgmt (k : Nat) (u : SweepStore) : (s.setStore k u).mgmt = s.mgmt := rfl
@[simp] theorem State.setStore_sup (k : Nat) (u : SweepStore) : (s.setStore k u).sup = s.sup := rfl
@[simp] theorem State.setStore_power (k : Nat) (u : SweepStore) : (s.setStore k u).power = s.power := rfl
@[simp] theorem State.setStore_slots (k : Nat) (u : SweepStore) : (s.setStore k u).slots = s.slots := rfl
@[simp] theorem State.setStore_update (k : Nat) (u : SweepStore) : (s.setStore k u).update = s.update := rfl
@[simp] theorem State.setStore_log (k : Nat) (u : SweepStore) : (s.setStore k u).log = s.log := rfl
@[simp] theorem State.setStore_nextEvent (k : Nat) (u : SweepStore) : (s.setStore k u).nextEvent = s.nextEvent := rfl
@[simp] theorem State.setStore_counters (k : Nat) (u : SweepStore) : (s.setStore k u).counters = s.counters := rfl
@[simp] theorem State.setStore_msix (k : Nat) (u : SweepStore) : (s.setStore k u).msix = s.msix := rfl

/-! ## The fabric -/

@[simp] theorem State.setPort_pending (q : Nat) (x : Port) : (s.setPort q x).pending = s.pending := rfl
@[simp] theorem State.setPort_part (q : Nat) (x : Port) : (s.setPort q x).part = s.part := rfl
@[simp] theorem State.setPort_phase (q : Nat) (x : Port) : (s.setPort q x).phase = s.phase := rfl
@[simp] theorem State.setPort_now (q : Nat) (x : Port) : (s.setPort q x).now = s.now := rfl
@[simp] theorem State.setPort_freeUsed (q : Nat) (x : Port) : (s.setPort q x).freeUsed = s.freeUsed := rfl
@[simp] theorem State.setPort_cores (q : Nat) (x : Port) : (s.setPort q x).cores = s.cores := rfl
@[simp] theorem State.setPort_parts (q : Nat) (x : Port) : (s.setPort q x).parts = s.parts := rfl
@[simp] theorem State.setPort_movers (q : Nat) (x : Port) : (s.setPort q x).movers = s.movers := rfl
@[simp] theorem State.setPort_lake (q : Nat) (x : Port) : (s.setPort q x).lake = s.lake := rfl
@[simp] theorem State.setPort_host (q : Nat) (x : Port) : (s.setPort q x).host = s.host := rfl
@[simp] theorem State.setPort_fabric (q : Nat) (x : Port) :
    (s.setPort q x).fabric = { s.fabric with ports := s.fabric.ports.put q x {} } := rfl
@[simp] theorem State.setPort_mgmt (q : Nat) (x : Port) : (s.setPort q x).mgmt = s.mgmt := rfl
@[simp] theorem State.setPort_sup (q : Nat) (x : Port) : (s.setPort q x).sup = s.sup := rfl
@[simp] theorem State.setPort_power (q : Nat) (x : Port) : (s.setPort q x).power = s.power := rfl
@[simp] theorem State.setPort_slots (q : Nat) (x : Port) : (s.setPort q x).slots = s.slots := rfl
@[simp] theorem State.setPort_update (q : Nat) (x : Port) : (s.setPort q x).update = s.update := rfl
@[simp] theorem State.setPort_log (q : Nat) (x : Port) : (s.setPort q x).log = s.log := rfl
@[simp] theorem State.setPort_nextEvent (q : Nat) (x : Port) : (s.setPort q x).nextEvent = s.nextEvent := rfl
@[simp] theorem State.setPort_counters (q : Nat) (x : Port) : (s.setPort q x).counters = s.counters := rfl
@[simp] theorem State.setPort_msix (q : Nat) (x : Port) : (s.setPort q x).msix = s.msix := rfl

@[simp] theorem State.setLanding_pending (d : Nat) (x : Landing) : (s.setLanding d x).pending = s.pending := rfl
@[simp] theorem State.setLanding_part (d : Nat) (x : Landing) : (s.setLanding d x).part = s.part := rfl
@[simp] theorem State.setLanding_phase (d : Nat) (x : Landing) : (s.setLanding d x).phase = s.phase := rfl
@[simp] theorem State.setLanding_now (d : Nat) (x : Landing) : (s.setLanding d x).now = s.now := rfl
@[simp] theorem State.setLanding_freeUsed (d : Nat) (x : Landing) : (s.setLanding d x).freeUsed = s.freeUsed := rfl
@[simp] theorem State.setLanding_cores (d : Nat) (x : Landing) : (s.setLanding d x).cores = s.cores := rfl
@[simp] theorem State.setLanding_parts (d : Nat) (x : Landing) : (s.setLanding d x).parts = s.parts := rfl
@[simp] theorem State.setLanding_movers (d : Nat) (x : Landing) : (s.setLanding d x).movers = s.movers := rfl
@[simp] theorem State.setLanding_lake (d : Nat) (x : Landing) : (s.setLanding d x).lake = s.lake := rfl
@[simp] theorem State.setLanding_host (d : Nat) (x : Landing) : (s.setLanding d x).host = s.host := rfl
@[simp] theorem State.setLanding_fabric (d : Nat) (x : Landing) :
    (s.setLanding d x).fabric = { s.fabric with landings := s.fabric.landings.put d x {} } := rfl
@[simp] theorem State.setLanding_mgmt (d : Nat) (x : Landing) : (s.setLanding d x).mgmt = s.mgmt := rfl
@[simp] theorem State.setLanding_sup (d : Nat) (x : Landing) : (s.setLanding d x).sup = s.sup := rfl
@[simp] theorem State.setLanding_power (d : Nat) (x : Landing) : (s.setLanding d x).power = s.power := rfl
@[simp] theorem State.setLanding_slots (d : Nat) (x : Landing) : (s.setLanding d x).slots = s.slots := rfl
@[simp] theorem State.setLanding_update (d : Nat) (x : Landing) : (s.setLanding d x).update = s.update := rfl
@[simp] theorem State.setLanding_log (d : Nat) (x : Landing) : (s.setLanding d x).log = s.log := rfl
@[simp] theorem State.setLanding_nextEvent (d : Nat) (x : Landing) : (s.setLanding d x).nextEvent = s.nextEvent := rfl
@[simp] theorem State.setLanding_counters (d : Nat) (x : Landing) : (s.setLanding d x).counters = s.counters := rfl
@[simp] theorem State.setLanding_msix (d : Nat) (x : Landing) : (s.setLanding d x).msix = s.msix := rfl

@[simp] theorem State.enterPsn_pending (k : Packet) : (s.enterPsn k).pending = s.pending := rfl
@[simp] theorem State.enterPsn_part (k : Packet) : (s.enterPsn k).part = s.part := rfl
@[simp] theorem State.enterPsn_phase (k : Packet) : (s.enterPsn k).phase = s.phase := rfl
@[simp] theorem State.enterPsn_now (k : Packet) : (s.enterPsn k).now = s.now := rfl
@[simp] theorem State.enterPsn_freeUsed (k : Packet) : (s.enterPsn k).freeUsed = s.freeUsed := rfl
@[simp] theorem State.enterPsn_cores (k : Packet) : (s.enterPsn k).cores = s.cores := rfl
@[simp] theorem State.enterPsn_parts (k : Packet) : (s.enterPsn k).parts = s.parts := rfl
@[simp] theorem State.enterPsn_movers (k : Packet) : (s.enterPsn k).movers = s.movers := rfl
@[simp] theorem State.enterPsn_lake (k : Packet) : (s.enterPsn k).lake = s.lake := rfl
@[simp] theorem State.enterPsn_host (k : Packet) : (s.enterPsn k).host = s.host := rfl
@[simp] theorem State.enterPsn_mgmt (k : Packet) : (s.enterPsn k).mgmt = s.mgmt := rfl
@[simp] theorem State.enterPsn_sup (k : Packet) : (s.enterPsn k).sup = s.sup := rfl
@[simp] theorem State.enterPsn_power (k : Packet) : (s.enterPsn k).power = s.power := rfl
@[simp] theorem State.enterPsn_slots (k : Packet) : (s.enterPsn k).slots = s.slots := rfl
@[simp] theorem State.enterPsn_update (k : Packet) : (s.enterPsn k).update = s.update := rfl
@[simp] theorem State.enterPsn_log (k : Packet) : (s.enterPsn k).log = s.log := rfl
@[simp] theorem State.enterPsn_nextEvent (k : Packet) : (s.enterPsn k).nextEvent = s.nextEvent := rfl
@[simp] theorem State.enterPsn_counters (k : Packet) : (s.enterPsn k).counters = s.counters := rfl
@[simp] theorem State.enterPsn_msix (k : Packet) : (s.enterPsn k).msix = s.msix := rfl

@[simp] theorem State.dropRemote_pending (r : Remote) : (s.dropRemote r).pending = s.pending := rfl
@[simp] theorem State.dropRemote_part (r : Remote) : (s.dropRemote r).part = s.part := rfl
@[simp] theorem State.dropRemote_phase (r : Remote) : (s.dropRemote r).phase = s.phase := rfl
@[simp] theorem State.dropRemote_now (r : Remote) : (s.dropRemote r).now = s.now := rfl
@[simp] theorem State.dropRemote_freeUsed (r : Remote) : (s.dropRemote r).freeUsed = s.freeUsed := rfl
@[simp] theorem State.dropRemote_cores (r : Remote) : (s.dropRemote r).cores = s.cores := rfl
@[simp] theorem State.dropRemote_parts (r : Remote) : (s.dropRemote r).parts = s.parts := rfl
@[simp] theorem State.dropRemote_movers (r : Remote) : (s.dropRemote r).movers = s.movers := rfl
@[simp] theorem State.dropRemote_lake (r : Remote) : (s.dropRemote r).lake = s.lake := rfl
@[simp] theorem State.dropRemote_host (r : Remote) : (s.dropRemote r).host = s.host := rfl
@[simp] theorem State.dropRemote_fabric (r : Remote) :
    (s.dropRemote r).fabric = { s.fabric with remotes := s.fabric.remotes.erase r } := rfl
@[simp] theorem State.dropRemote_mgmt (r : Remote) : (s.dropRemote r).mgmt = s.mgmt := rfl
@[simp] theorem State.dropRemote_sup (r : Remote) : (s.dropRemote r).sup = s.sup := rfl
@[simp] theorem State.dropRemote_power (r : Remote) : (s.dropRemote r).power = s.power := rfl
@[simp] theorem State.dropRemote_slots (r : Remote) : (s.dropRemote r).slots = s.slots := rfl
@[simp] theorem State.dropRemote_update (r : Remote) : (s.dropRemote r).update = s.update := rfl
@[simp] theorem State.dropRemote_log (r : Remote) : (s.dropRemote r).log = s.log := rfl
@[simp] theorem State.dropRemote_nextEvent (r : Remote) : (s.dropRemote r).nextEvent = s.nextEvent := rfl
@[simp] theorem State.dropRemote_counters (r : Remote) : (s.dropRemote r).counters = s.counters := rfl
@[simp] theorem State.dropRemote_msix (r : Remote) : (s.dropRemote r).msix = s.msix := rfl

@[simp] theorem State.setRemote_pending (r r' : Remote) : (s.setRemote r r').pending = s.pending := rfl
@[simp] theorem State.setRemote_part (r r' : Remote) : (s.setRemote r r').part = s.part := rfl
@[simp] theorem State.setRemote_phase (r r' : Remote) : (s.setRemote r r').phase = s.phase := rfl
@[simp] theorem State.setRemote_now (r r' : Remote) : (s.setRemote r r').now = s.now := rfl
@[simp] theorem State.setRemote_freeUsed (r r' : Remote) : (s.setRemote r r').freeUsed = s.freeUsed := rfl
@[simp] theorem State.setRemote_cores (r r' : Remote) : (s.setRemote r r').cores = s.cores := rfl
@[simp] theorem State.setRemote_parts (r r' : Remote) : (s.setRemote r r').parts = s.parts := rfl
@[simp] theorem State.setRemote_movers (r r' : Remote) : (s.setRemote r r').movers = s.movers := rfl
@[simp] theorem State.setRemote_lake (r r' : Remote) : (s.setRemote r r').lake = s.lake := rfl
@[simp] theorem State.setRemote_host (r r' : Remote) : (s.setRemote r r').host = s.host := rfl
@[simp] theorem State.setRemote_mgmt (r r' : Remote) : (s.setRemote r r').mgmt = s.mgmt := rfl
@[simp] theorem State.setRemote_sup (r r' : Remote) : (s.setRemote r r').sup = s.sup := rfl
@[simp] theorem State.setRemote_power (r r' : Remote) : (s.setRemote r r').power = s.power := rfl
@[simp] theorem State.setRemote_slots (r r' : Remote) : (s.setRemote r r').slots = s.slots := rfl
@[simp] theorem State.setRemote_update (r r' : Remote) : (s.setRemote r r').update = s.update := rfl
@[simp] theorem State.setRemote_log (r r' : Remote) : (s.setRemote r r').log = s.log := rfl
@[simp] theorem State.setRemote_nextEvent (r r' : Remote) : (s.setRemote r r').nextEvent = s.nextEvent := rfl
@[simp] theorem State.setRemote_counters (r r' : Remote) : (s.setRemote r r').counters = s.counters := rfl
@[simp] theorem State.setRemote_msix (r r' : Remote) : (s.setRemote r r').msix = s.msix := rfl

/-! ## Management -/

@[simp] theorem State.setValue_pending (key : Nat) (v : List Byte) : (s.setValue key v).pending = s.pending := rfl
@[simp] theorem State.setValue_part (key : Nat) (v : List Byte) : (s.setValue key v).part = s.part := rfl
@[simp] theorem State.setValue_phase (key : Nat) (v : List Byte) : (s.setValue key v).phase = s.phase := rfl
@[simp] theorem State.setValue_now (key : Nat) (v : List Byte) : (s.setValue key v).now = s.now := rfl
@[simp] theorem State.setValue_freeUsed (key : Nat) (v : List Byte) : (s.setValue key v).freeUsed = s.freeUsed := rfl
@[simp] theorem State.setValue_cores (key : Nat) (v : List Byte) : (s.setValue key v).cores = s.cores := rfl
@[simp] theorem State.setValue_parts (key : Nat) (v : List Byte) : (s.setValue key v).parts = s.parts := rfl
@[simp] theorem State.setValue_movers (key : Nat) (v : List Byte) : (s.setValue key v).movers = s.movers := rfl
@[simp] theorem State.setValue_lake (key : Nat) (v : List Byte) : (s.setValue key v).lake = s.lake := rfl
@[simp] theorem State.setValue_host (key : Nat) (v : List Byte) : (s.setValue key v).host = s.host := rfl
@[simp] theorem State.setValue_fabric (key : Nat) (v : List Byte) : (s.setValue key v).fabric = s.fabric := rfl
@[simp] theorem State.setValue_mgmt (key : Nat) (v : List Byte) :
    (s.setValue key v).mgmt = { s.mgmt with values := s.mgmt.values.put key v (objDefault s.part key) } := rfl
@[simp] theorem State.setValue_sup (key : Nat) (v : List Byte) : (s.setValue key v).sup = s.sup := rfl
@[simp] theorem State.setValue_power (key : Nat) (v : List Byte) : (s.setValue key v).power = s.power := rfl
@[simp] theorem State.setValue_slots (key : Nat) (v : List Byte) : (s.setValue key v).slots = s.slots := rfl
@[simp] theorem State.setValue_update (key : Nat) (v : List Byte) : (s.setValue key v).update = s.update := rfl
@[simp] theorem State.setValue_log (key : Nat) (v : List Byte) : (s.setValue key v).log = s.log := rfl
@[simp] theorem State.setValue_nextEvent (key : Nat) (v : List Byte) : (s.setValue key v).nextEvent = s.nextEvent := rfl
@[simp] theorem State.setValue_counters (key : Nat) (v : List Byte) : (s.setValue key v).counters = s.counters := rfl
@[simp] theorem State.setValue_msix (key : Nat) (v : List Byte) : (s.setValue key v).msix = s.msix := rfl

@[simp] theorem State.onSession_pending (n : Nat) (f : Session → Session) : (s.onSession n f).pending = s.pending := rfl
@[simp] theorem State.onSession_part (n : Nat) (f : Session → Session) : (s.onSession n f).part = s.part := rfl
@[simp] theorem State.onSession_phase (n : Nat) (f : Session → Session) : (s.onSession n f).phase = s.phase := rfl
@[simp] theorem State.onSession_now (n : Nat) (f : Session → Session) : (s.onSession n f).now = s.now := rfl
@[simp] theorem State.onSession_freeUsed (n : Nat) (f : Session → Session) : (s.onSession n f).freeUsed = s.freeUsed := rfl
@[simp] theorem State.onSession_cores (n : Nat) (f : Session → Session) : (s.onSession n f).cores = s.cores := rfl
@[simp] theorem State.onSession_parts (n : Nat) (f : Session → Session) : (s.onSession n f).parts = s.parts := rfl
@[simp] theorem State.onSession_movers (n : Nat) (f : Session → Session) : (s.onSession n f).movers = s.movers := rfl
@[simp] theorem State.onSession_lake (n : Nat) (f : Session → Session) : (s.onSession n f).lake = s.lake := rfl
@[simp] theorem State.onSession_host (n : Nat) (f : Session → Session) : (s.onSession n f).host = s.host := rfl
@[simp] theorem State.onSession_fabric (n : Nat) (f : Session → Session) : (s.onSession n f).fabric = s.fabric := rfl
@[simp] theorem State.onSession_mgmt (n : Nat) (f : Session → Session) :
    (s.onSession n f).mgmt = { s.mgmt with sessions := s.mgmt.sessions.put n (f (s.mgmt.sessions.get n {})) {} } := rfl
@[simp] theorem State.onSession_sup (n : Nat) (f : Session → Session) : (s.onSession n f).sup = s.sup := rfl
@[simp] theorem State.onSession_power (n : Nat) (f : Session → Session) : (s.onSession n f).power = s.power := rfl
@[simp] theorem State.onSession_slots (n : Nat) (f : Session → Session) : (s.onSession n f).slots = s.slots := rfl
@[simp] theorem State.onSession_update (n : Nat) (f : Session → Session) : (s.onSession n f).update = s.update := rfl
@[simp] theorem State.onSession_log (n : Nat) (f : Session → Session) : (s.onSession n f).log = s.log := rfl
@[simp] theorem State.onSession_nextEvent (n : Nat) (f : Session → Session) : (s.onSession n f).nextEvent = s.nextEvent := rfl
@[simp] theorem State.onSession_counters (n : Nat) (f : Session → Session) : (s.onSession n f).counters = s.counters := rfl
@[simp] theorem State.onSession_msix (n : Nat) (f : Session → Session) : (s.onSession n f).msix = s.msix := rfl

@[simp] theorem State.onSet_pending (csid : Nat) (f : ChangeSet → ChangeSet) : (s.onSet csid f).pending = s.pending := rfl
@[simp] theorem State.onSet_part (csid : Nat) (f : ChangeSet → ChangeSet) : (s.onSet csid f).part = s.part := rfl
@[simp] theorem State.onSet_phase (csid : Nat) (f : ChangeSet → ChangeSet) : (s.onSet csid f).phase = s.phase := rfl
@[simp] theorem State.onSet_now (csid : Nat) (f : ChangeSet → ChangeSet) : (s.onSet csid f).now = s.now := rfl
@[simp] theorem State.onSet_freeUsed (csid : Nat) (f : ChangeSet → ChangeSet) : (s.onSet csid f).freeUsed = s.freeUsed := rfl
@[simp] theorem State.onSet_cores (csid : Nat) (f : ChangeSet → ChangeSet) : (s.onSet csid f).cores = s.cores := rfl
@[simp] theorem State.onSet_parts (csid : Nat) (f : ChangeSet → ChangeSet) : (s.onSet csid f).parts = s.parts := rfl
@[simp] theorem State.onSet_movers (csid : Nat) (f : ChangeSet → ChangeSet) : (s.onSet csid f).movers = s.movers := rfl
@[simp] theorem State.onSet_lake (csid : Nat) (f : ChangeSet → ChangeSet) : (s.onSet csid f).lake = s.lake := rfl
@[simp] theorem State.onSet_host (csid : Nat) (f : ChangeSet → ChangeSet) : (s.onSet csid f).host = s.host := rfl
@[simp] theorem State.onSet_fabric (csid : Nat) (f : ChangeSet → ChangeSet) : (s.onSet csid f).fabric = s.fabric := rfl
@[simp] theorem State.onSet_sup (csid : Nat) (f : ChangeSet → ChangeSet) : (s.onSet csid f).sup = s.sup := rfl
@[simp] theorem State.onSet_power (csid : Nat) (f : ChangeSet → ChangeSet) : (s.onSet csid f).power = s.power := rfl
@[simp] theorem State.onSet_slots (csid : Nat) (f : ChangeSet → ChangeSet) : (s.onSet csid f).slots = s.slots := rfl
@[simp] theorem State.onSet_update (csid : Nat) (f : ChangeSet → ChangeSet) : (s.onSet csid f).update = s.update := rfl
@[simp] theorem State.onSet_log (csid : Nat) (f : ChangeSet → ChangeSet) : (s.onSet csid f).log = s.log := rfl
@[simp] theorem State.onSet_nextEvent (csid : Nat) (f : ChangeSet → ChangeSet) : (s.onSet csid f).nextEvent = s.nextEvent := rfl
@[simp] theorem State.onSet_counters (csid : Nat) (f : ChangeSet → ChangeSet) : (s.onSet csid f).counters = s.counters := rfl
@[simp] theorem State.onSet_msix (csid : Nat) (f : ChangeSet → ChangeSet) : (s.onSet csid f).msix = s.msix := rfl

/-! ## Power, lake tests and supervision -/

@[simp] theorem State.setClock_pending (h g mhz : Nat) : (s.setClock h g mhz).pending = s.pending := rfl
@[simp] theorem State.setClock_part (h g mhz : Nat) : (s.setClock h g mhz).part = s.part := rfl
@[simp] theorem State.setClock_phase (h g mhz : Nat) : (s.setClock h g mhz).phase = s.phase := rfl
@[simp] theorem State.setClock_now (h g mhz : Nat) : (s.setClock h g mhz).now = s.now := rfl
@[simp] theorem State.setClock_freeUsed (h g mhz : Nat) : (s.setClock h g mhz).freeUsed = s.freeUsed := rfl
@[simp] theorem State.setClock_cores (h g mhz : Nat) : (s.setClock h g mhz).cores = s.cores := rfl
@[simp] theorem State.setClock_parts (h g mhz : Nat) : (s.setClock h g mhz).parts = s.parts := rfl
@[simp] theorem State.setClock_movers (h g mhz : Nat) : (s.setClock h g mhz).movers = s.movers := rfl
@[simp] theorem State.setClock_lake (h g mhz : Nat) : (s.setClock h g mhz).lake = s.lake := rfl
@[simp] theorem State.setClock_host (h g mhz : Nat) : (s.setClock h g mhz).host = s.host := rfl
@[simp] theorem State.setClock_fabric (h g mhz : Nat) : (s.setClock h g mhz).fabric = s.fabric := rfl
@[simp] theorem State.setClock_mgmt (h g mhz : Nat) : (s.setClock h g mhz).mgmt = s.mgmt := rfl
@[simp] theorem State.setClock_sup (h g mhz : Nat) : (s.setClock h g mhz).sup = s.sup := rfl
@[simp] theorem State.setClock_power (h g mhz : Nat) :
    (s.setClock h g mhz).power = { s.power with
      cycles := s.power.cycles.put (96 * h + g) (s.galleryCycles h g, s.now) (0, 0)
      clocks := s.power.clocks.put (96 * h + g) mhz 2000 } := rfl
@[simp] theorem State.setClock_slots (h g mhz : Nat) : (s.setClock h g mhz).slots = s.slots := rfl
@[simp] theorem State.setClock_update (h g mhz : Nat) : (s.setClock h g mhz).update = s.update := rfl
@[simp] theorem State.setClock_log (h g mhz : Nat) : (s.setClock h g mhz).log = s.log := rfl
@[simp] theorem State.setClock_nextEvent (h g mhz : Nat) : (s.setClock h g mhz).nextEvent = s.nextEvent := rfl
@[simp] theorem State.setClock_counters (h g mhz : Nat) : (s.setClock h g mhz).counters = s.counters := rfl
@[simp] theorem State.setClock_msix (h g mhz : Nat) : (s.setClock h g mhz).msix = s.msix := rfl

@[simp] theorem State.setDomain_pending (d : Nat) (x : Domain) : (s.setDomain d x).pending = s.pending := rfl
@[simp] theorem State.setDomain_part (d : Nat) (x : Domain) : (s.setDomain d x).part = s.part := rfl
@[simp] theorem State.setDomain_phase (d : Nat) (x : Domain) : (s.setDomain d x).phase = s.phase := rfl
@[simp] theorem State.setDomain_now (d : Nat) (x : Domain) : (s.setDomain d x).now = s.now := rfl
@[simp] theorem State.setDomain_freeUsed (d : Nat) (x : Domain) : (s.setDomain d x).freeUsed = s.freeUsed := rfl
@[simp] theorem State.setDomain_cores (d : Nat) (x : Domain) : (s.setDomain d x).cores = s.cores := rfl
@[simp] theorem State.setDomain_parts (d : Nat) (x : Domain) : (s.setDomain d x).parts = s.parts := rfl
@[simp] theorem State.setDomain_movers (d : Nat) (x : Domain) : (s.setDomain d x).movers = s.movers := rfl
@[simp] theorem State.setDomain_lake (d : Nat) (x : Domain) : (s.setDomain d x).lake = s.lake := rfl
@[simp] theorem State.setDomain_host (d : Nat) (x : Domain) : (s.setDomain d x).host = s.host := rfl
@[simp] theorem State.setDomain_fabric (d : Nat) (x : Domain) : (s.setDomain d x).fabric = s.fabric := rfl
@[simp] theorem State.setDomain_mgmt (d : Nat) (x : Domain) : (s.setDomain d x).mgmt = s.mgmt := rfl
@[simp] theorem State.setDomain_sup (d : Nat) (x : Domain) : (s.setDomain d x).sup = s.sup := rfl
@[simp] theorem State.setDomain_power (d : Nat) (x : Domain) :
    (s.setDomain d x).power = { s.power with domains := s.power.domains.put d x {} } := rfl
@[simp] theorem State.setDomain_slots (d : Nat) (x : Domain) : (s.setDomain d x).slots = s.slots := rfl
@[simp] theorem State.setDomain_update (d : Nat) (x : Domain) : (s.setDomain d x).update = s.update := rfl
@[simp] theorem State.setDomain_log (d : Nat) (x : Domain) : (s.setDomain d x).log = s.log := rfl
@[simp] theorem State.setDomain_nextEvent (d : Nat) (x : Domain) : (s.setDomain d x).nextEvent = s.nextEvent := rfl
@[simp] theorem State.setDomain_counters (d : Nat) (x : Domain) : (s.setDomain d x).counters = s.counters := rfl
@[simp] theorem State.setDomain_msix (d : Nat) (x : Domain) : (s.setDomain d x).msix = s.msix := rfl

@[simp] theorem State.onSensors_pending (f : Sensors → Sensors) : (s.onSensors f).pending = s.pending := rfl
@[simp] theorem State.onSensors_part (f : Sensors → Sensors) : (s.onSensors f).part = s.part := rfl
@[simp] theorem State.onSensors_phase (f : Sensors → Sensors) : (s.onSensors f).phase = s.phase := rfl
@[simp] theorem State.onSensors_now (f : Sensors → Sensors) : (s.onSensors f).now = s.now := rfl
@[simp] theorem State.onSensors_freeUsed (f : Sensors → Sensors) : (s.onSensors f).freeUsed = s.freeUsed := rfl
@[simp] theorem State.onSensors_cores (f : Sensors → Sensors) : (s.onSensors f).cores = s.cores := rfl
@[simp] theorem State.onSensors_parts (f : Sensors → Sensors) : (s.onSensors f).parts = s.parts := rfl
@[simp] theorem State.onSensors_movers (f : Sensors → Sensors) : (s.onSensors f).movers = s.movers := rfl
@[simp] theorem State.onSensors_lake (f : Sensors → Sensors) : (s.onSensors f).lake = s.lake := rfl
@[simp] theorem State.onSensors_host (f : Sensors → Sensors) : (s.onSensors f).host = s.host := rfl
@[simp] theorem State.onSensors_fabric (f : Sensors → Sensors) : (s.onSensors f).fabric = s.fabric := rfl
@[simp] theorem State.onSensors_mgmt (f : Sensors → Sensors) : (s.onSensors f).mgmt = s.mgmt := rfl
@[simp] theorem State.onSensors_sup (f : Sensors → Sensors) : (s.onSensors f).sup = s.sup := rfl
@[simp] theorem State.onSensors_power (f : Sensors → Sensors) :
    (s.onSensors f).power = { s.power with sensors := f s.power.sensors } := rfl
@[simp] theorem State.onSensors_slots (f : Sensors → Sensors) : (s.onSensors f).slots = s.slots := rfl
@[simp] theorem State.onSensors_update (f : Sensors → Sensors) : (s.onSensors f).update = s.update := rfl
@[simp] theorem State.onSensors_log (f : Sensors → Sensors) : (s.onSensors f).log = s.log := rfl
@[simp] theorem State.onSensors_nextEvent (f : Sensors → Sensors) : (s.onSensors f).nextEvent = s.nextEvent := rfl
@[simp] theorem State.onSensors_counters (f : Sensors → Sensors) : (s.onSensors f).counters = s.counters := rfl
@[simp] theorem State.onSensors_msix (f : Sensors → Sensors) : (s.onSensors f).msix = s.msix := rfl

@[simp] theorem State.onLakeTest_pending (f : LakeTest → LakeTest) : (s.onLakeTest f).pending = s.pending := rfl
@[simp] theorem State.onLakeTest_part (f : LakeTest → LakeTest) : (s.onLakeTest f).part = s.part := rfl
@[simp] theorem State.onLakeTest_phase (f : LakeTest → LakeTest) : (s.onLakeTest f).phase = s.phase := rfl
@[simp] theorem State.onLakeTest_now (f : LakeTest → LakeTest) : (s.onLakeTest f).now = s.now := rfl
@[simp] theorem State.onLakeTest_freeUsed (f : LakeTest → LakeTest) : (s.onLakeTest f).freeUsed = s.freeUsed := rfl
@[simp] theorem State.onLakeTest_cores (f : LakeTest → LakeTest) : (s.onLakeTest f).cores = s.cores := rfl
@[simp] theorem State.onLakeTest_parts (f : LakeTest → LakeTest) : (s.onLakeTest f).parts = s.parts := rfl
@[simp] theorem State.onLakeTest_movers (f : LakeTest → LakeTest) : (s.onLakeTest f).movers = s.movers := rfl
@[simp] theorem State.onLakeTest_lake (f : LakeTest → LakeTest) : (s.onLakeTest f).lake = s.lake := rfl
@[simp] theorem State.onLakeTest_host (f : LakeTest → LakeTest) : (s.onLakeTest f).host = s.host := rfl
@[simp] theorem State.onLakeTest_fabric (f : LakeTest → LakeTest) : (s.onLakeTest f).fabric = s.fabric := rfl
@[simp] theorem State.onLakeTest_mgmt (f : LakeTest → LakeTest) : (s.onLakeTest f).mgmt = s.mgmt := rfl
@[simp] theorem State.onLakeTest_sup (f : LakeTest → LakeTest) : (s.onLakeTest f).sup = s.sup := rfl
@[simp] theorem State.onLakeTest_power (f : LakeTest → LakeTest) :
    (s.onLakeTest f).power = { s.power with lakeTest := f s.power.lakeTest } := rfl
@[simp] theorem State.onLakeTest_slots (f : LakeTest → LakeTest) : (s.onLakeTest f).slots = s.slots := rfl
@[simp] theorem State.onLakeTest_update (f : LakeTest → LakeTest) : (s.onLakeTest f).update = s.update := rfl
@[simp] theorem State.onLakeTest_log (f : LakeTest → LakeTest) : (s.onLakeTest f).log = s.log := rfl
@[simp] theorem State.onLakeTest_nextEvent (f : LakeTest → LakeTest) : (s.onLakeTest f).nextEvent = s.nextEvent := rfl
@[simp] theorem State.onLakeTest_counters (f : LakeTest → LakeTest) : (s.onLakeTest f).counters = s.counters := rfl
@[simp] theorem State.onLakeTest_msix (f : LakeTest → LakeTest) : (s.onLakeTest f).msix = s.msix := rfl

@[simp] theorem State.setProc_pending (n : Nat) (x : Proc) : (s.setProc n x).pending = s.pending := rfl
@[simp] theorem State.setProc_part (n : Nat) (x : Proc) : (s.setProc n x).part = s.part := rfl
@[simp] theorem State.setProc_phase (n : Nat) (x : Proc) : (s.setProc n x).phase = s.phase := rfl
@[simp] theorem State.setProc_now (n : Nat) (x : Proc) : (s.setProc n x).now = s.now := rfl
@[simp] theorem State.setProc_freeUsed (n : Nat) (x : Proc) : (s.setProc n x).freeUsed = s.freeUsed := rfl
@[simp] theorem State.setProc_cores (n : Nat) (x : Proc) : (s.setProc n x).cores = s.cores := rfl
@[simp] theorem State.setProc_parts (n : Nat) (x : Proc) : (s.setProc n x).parts = s.parts := rfl
@[simp] theorem State.setProc_movers (n : Nat) (x : Proc) : (s.setProc n x).movers = s.movers := rfl
@[simp] theorem State.setProc_lake (n : Nat) (x : Proc) : (s.setProc n x).lake = s.lake := rfl
@[simp] theorem State.setProc_host (n : Nat) (x : Proc) : (s.setProc n x).host = s.host := rfl
@[simp] theorem State.setProc_fabric (n : Nat) (x : Proc) : (s.setProc n x).fabric = s.fabric := rfl
@[simp] theorem State.setProc_mgmt (n : Nat) (x : Proc) : (s.setProc n x).mgmt = s.mgmt := rfl
@[simp] theorem State.setProc_sup (n : Nat) (x : Proc) :
    (s.setProc n x).sup = { s.sup with procs := s.sup.procs.put n x {} } := rfl
@[simp] theorem State.setProc_power (n : Nat) (x : Proc) : (s.setProc n x).power = s.power := rfl
@[simp] theorem State.setProc_slots (n : Nat) (x : Proc) : (s.setProc n x).slots = s.slots := rfl
@[simp] theorem State.setProc_update (n : Nat) (x : Proc) : (s.setProc n x).update = s.update := rfl
@[simp] theorem State.setProc_log (n : Nat) (x : Proc) : (s.setProc n x).log = s.log := rfl
@[simp] theorem State.setProc_nextEvent (n : Nat) (x : Proc) : (s.setProc n x).nextEvent = s.nextEvent := rfl
@[simp] theorem State.setProc_counters (n : Nat) (x : Proc) : (s.setProc n x).counters = s.counters := rfl
@[simp] theorem State.setProc_msix (n : Nat) (x : Proc) : (s.setProc n x).msix = s.msix := rfl

/-! ## Firmware -/

@[simp] theorem State.setSlot_pending (i : Nat) (x : FwSlot) : (s.setSlot i x).pending = s.pending := rfl
@[simp] theorem State.setSlot_part (i : Nat) (x : FwSlot) : (s.setSlot i x).part = s.part := rfl
@[simp] theorem State.setSlot_phase (i : Nat) (x : FwSlot) : (s.setSlot i x).phase = s.phase := rfl
@[simp] theorem State.setSlot_now (i : Nat) (x : FwSlot) : (s.setSlot i x).now = s.now := rfl
@[simp] theorem State.setSlot_freeUsed (i : Nat) (x : FwSlot) : (s.setSlot i x).freeUsed = s.freeUsed := rfl
@[simp] theorem State.setSlot_cores (i : Nat) (x : FwSlot) : (s.setSlot i x).cores = s.cores := rfl
@[simp] theorem State.setSlot_parts (i : Nat) (x : FwSlot) : (s.setSlot i x).parts = s.parts := rfl
@[simp] theorem State.setSlot_movers (i : Nat) (x : FwSlot) : (s.setSlot i x).movers = s.movers := rfl
@[simp] theorem State.setSlot_lake (i : Nat) (x : FwSlot) : (s.setSlot i x).lake = s.lake := rfl
@[simp] theorem State.setSlot_host (i : Nat) (x : FwSlot) : (s.setSlot i x).host = s.host := rfl
@[simp] theorem State.setSlot_fabric (i : Nat) (x : FwSlot) : (s.setSlot i x).fabric = s.fabric := rfl
@[simp] theorem State.setSlot_mgmt (i : Nat) (x : FwSlot) : (s.setSlot i x).mgmt = s.mgmt := rfl
@[simp] theorem State.setSlot_sup (i : Nat) (x : FwSlot) : (s.setSlot i x).sup = s.sup := rfl
@[simp] theorem State.setSlot_power (i : Nat) (x : FwSlot) : (s.setSlot i x).power = s.power := rfl
@[simp] theorem State.setSlot_slots (i : Nat) (x : FwSlot) :
    (s.setSlot i x).slots = s.slots.put i x {} := rfl
@[simp] theorem State.setSlot_update (i : Nat) (x : FwSlot) : (s.setSlot i x).update = s.update := rfl
@[simp] theorem State.setSlot_log (i : Nat) (x : FwSlot) : (s.setSlot i x).log = s.log := rfl
@[simp] theorem State.setSlot_nextEvent (i : Nat) (x : FwSlot) : (s.setSlot i x).nextEvent = s.nextEvent := rfl
@[simp] theorem State.setSlot_counters (i : Nat) (x : FwSlot) : (s.setSlot i x).counters = s.counters := rfl
@[simp] theorem State.setSlot_msix (i : Nat) (x : FwSlot) : (s.setSlot i x).msix = s.msix := rfl

@[simp] theorem State.onUpdate_pending (f : Update → Update) : (s.onUpdate f).pending = s.pending := rfl
@[simp] theorem State.onUpdate_part (f : Update → Update) : (s.onUpdate f).part = s.part := rfl
@[simp] theorem State.onUpdate_phase (f : Update → Update) : (s.onUpdate f).phase = s.phase := rfl
@[simp] theorem State.onUpdate_now (f : Update → Update) : (s.onUpdate f).now = s.now := rfl
@[simp] theorem State.onUpdate_freeUsed (f : Update → Update) : (s.onUpdate f).freeUsed = s.freeUsed := rfl
@[simp] theorem State.onUpdate_cores (f : Update → Update) : (s.onUpdate f).cores = s.cores := rfl
@[simp] theorem State.onUpdate_parts (f : Update → Update) : (s.onUpdate f).parts = s.parts := rfl
@[simp] theorem State.onUpdate_movers (f : Update → Update) : (s.onUpdate f).movers = s.movers := rfl
@[simp] theorem State.onUpdate_lake (f : Update → Update) : (s.onUpdate f).lake = s.lake := rfl
@[simp] theorem State.onUpdate_host (f : Update → Update) : (s.onUpdate f).host = s.host := rfl
@[simp] theorem State.onUpdate_fabric (f : Update → Update) : (s.onUpdate f).fabric = s.fabric := rfl
@[simp] theorem State.onUpdate_mgmt (f : Update → Update) : (s.onUpdate f).mgmt = s.mgmt := rfl
@[simp] theorem State.onUpdate_sup (f : Update → Update) : (s.onUpdate f).sup = s.sup := rfl
@[simp] theorem State.onUpdate_power (f : Update → Update) : (s.onUpdate f).power = s.power := rfl
@[simp] theorem State.onUpdate_slots (f : Update → Update) : (s.onUpdate f).slots = s.slots := rfl
@[simp] theorem State.onUpdate_update (f : Update → Update) :
    (s.onUpdate f).update = f s.update := rfl
@[simp] theorem State.onUpdate_log (f : Update → Update) : (s.onUpdate f).log = s.log := rfl
@[simp] theorem State.onUpdate_nextEvent (f : Update → Update) : (s.onUpdate f).nextEvent = s.nextEvent := rfl
@[simp] theorem State.onUpdate_counters (f : Update → Update) : (s.onUpdate f).counters = s.counters := rfl
@[simp] theorem State.onUpdate_msix (f : Update → Update) : (s.onUpdate f).msix = s.msix := rfl

@[simp] theorem State.writeBoot_pending (prov : Option Nat) (active : Nat) : (s.writeBoot prov active).pending = s.pending := rfl
@[simp] theorem State.writeBoot_part (prov : Option Nat) (active : Nat) : (s.writeBoot prov active).part = s.part := rfl
@[simp] theorem State.writeBoot_phase (prov : Option Nat) (active : Nat) : (s.writeBoot prov active).phase = s.phase := rfl
@[simp] theorem State.writeBoot_now (prov : Option Nat) (active : Nat) : (s.writeBoot prov active).now = s.now := rfl
@[simp] theorem State.writeBoot_freeUsed (prov : Option Nat) (active : Nat) : (s.writeBoot prov active).freeUsed = s.freeUsed := rfl
@[simp] theorem State.writeBoot_cores (prov : Option Nat) (active : Nat) : (s.writeBoot prov active).cores = s.cores := rfl
@[simp] theorem State.writeBoot_parts (prov : Option Nat) (active : Nat) : (s.writeBoot prov active).parts = s.parts := rfl
@[simp] theorem State.writeBoot_movers (prov : Option Nat) (active : Nat) : (s.writeBoot prov active).movers = s.movers := rfl
@[simp] theorem State.writeBoot_lake (prov : Option Nat) (active : Nat) : (s.writeBoot prov active).lake = s.lake := rfl
@[simp] theorem State.writeBoot_host (prov : Option Nat) (active : Nat) : (s.writeBoot prov active).host = s.host := rfl
@[simp] theorem State.writeBoot_fabric (prov : Option Nat) (active : Nat) : (s.writeBoot prov active).fabric = s.fabric := rfl
@[simp] theorem State.writeBoot_mgmt (prov : Option Nat) (active : Nat) : (s.writeBoot prov active).mgmt = s.mgmt := rfl
@[simp] theorem State.writeBoot_sup (prov : Option Nat) (active : Nat) : (s.writeBoot prov active).sup = s.sup := rfl
@[simp] theorem State.writeBoot_power (prov : Option Nat) (active : Nat) : (s.writeBoot prov active).power = s.power := rfl
@[simp] theorem State.writeBoot_slots (prov : Option Nat) (active : Nat) : (s.writeBoot prov active).slots = s.slots := rfl
@[simp] theorem State.writeBoot_log (prov : Option Nat) (active : Nat) : (s.writeBoot prov active).log = s.log := rfl
@[simp] theorem State.writeBoot_nextEvent (prov : Option Nat) (active : Nat) : (s.writeBoot prov active).nextEvent = s.nextEvent := rfl
@[simp] theorem State.writeBoot_counters (prov : Option Nat) (active : Nat) : (s.writeBoot prov active).counters = s.counters := rfl
@[simp] theorem State.writeBoot_msix (prov : Option Nat) (active : Nat) : (s.writeBoot prov active).msix = s.msix := rfl

/-! ## Reads after updates of the same kind -/

@[simp] theorem State.core_setCore (c : Nat) (k : Core) : (s.setCore c k).core c = k := Table.get_put_same ..
theorem State.core_setCore_ne (c d : Nat) (k : Core) (h : c ≠ d) : (s.setCore c k).core d = s.core d := Table.get_put_ne _ _ _ h
@[simp] theorem State.core_onCore (c : Nat) (f : Core → Core) : (s.onCore c f).core c = f (s.core c) := Table.get_put_same ..
theorem State.core_onCore_ne (c d : Nat) (f : Core → Core) (h : c ≠ d) : (s.onCore c f).core d = s.core d :=
  Table.get_put_ne _ _ _ h
@[simp] theorem State.partn_setPartn (p : Nat) (x : Partition) : (s.setPartn p x).partn p = x := Table.get_put_same ..
theorem State.partn_setPartn_ne (p r : Nat) (x : Partition) (h : p ≠ r) : (s.setPartn p x).partn r = s.partn r :=
  Table.get_put_ne _ _ _ h
@[simp] theorem State.partn_onPartn (p : Nat) (f : Partition → Partition) : (s.onPartn p f).partn p = f (s.partn p) :=
  Table.get_put_same ..
theorem State.partn_onPartn_ne (p r : Nat) (f : Partition → Partition) (h : p ≠ r) : (s.onPartn p f).partn r = s.partn r :=
  Table.get_put_ne _ _ _ h
@[simp] theorem State.port_setPort (q : Nat) (x : Port) : (s.setPort q x).port q = x := Table.get_put_same ..
theorem State.port_setPort_ne (q r : Nat) (x : Port) (h : q ≠ r) : (s.setPort q x).port r = s.port r :=
  Table.get_put_ne _ _ _ h
@[simp] theorem State.slot_setSlot (i : Nat) (x : FwSlot) : (s.setSlot i x).slot i = x := Table.get_put_same ..
theorem State.slot_setSlot_ne (i j : Nat) (x : FwSlot) (h : i ≠ j) : (s.setSlot i x).slot j = s.slot j :=
  Table.get_put_ne _ _ _ h
@[simp] theorem State.obj_setObj (p x : Nat) (o : TierObj) : (s.setObj p x o).obj p x = o := by
  unfold State.obj State.setObj
  rw [State.partn_onPartn]
  exact Table.get_put_same ..
@[simp] theorem Core.thread_setThread (k : Core) (t : Nat) (h : Thread) : (k.setThread t h).thread t = h := Table.get_put_same ..
theorem Core.thread_setThread_ne (k : Core) (t u : Nat) (h : Thread) (n : t ≠ u) : (k.setThread t h).thread u = k.thread u :=
  Table.get_put_ne _ _ _ n

end Sys2Proof.Machine
end

