-- ==== Sys2Proof/Tests/Slice0.lean ====
section
/-! SUPPORT. Tests: the well-formedness smoke, and one small state for each case that a statement speaks of. A test named wit_…
shows that the hypotheses of the statement or clause it names can be met; most run the command too and look at a field or
two of the result, computed by hand from the rules. -/

set_option Elab.async false

namespace Sys2Proof.Tests

open Sys2Proof.Machine Sys2Proof.Claims

/-! ## Helpers -/

/-- The outcome is a next state of which f holds. -/
def nextIs (o : Res) (f : State → Bool) : Bool :=
  match o with
  | .next t => f t
  | _ => false

/-- A segment of partition 0 on core 0. -/
def seg0 : Segment :=
  { p := 0, s := 0, q := 0, num := 0, variant := { cores := [], layers := [] }, variantNo := 2, batch := 5, seed := 7, stepKey := 9
    inStep := false, cores := [0], started := 0 }

/-- Core 0 with word w at index 0 of four words and h as its thread 0. -/
def core0 (w : U32) (h : Thread) : Core := { seg := some (0, 0, 0), store := [(0, w)], nwords := 4, threads := [(0, h)] }

/-- Reset, with core 0 running seg0. -/
def onCore0 (k : Core) : State := { State.reset with cores := [(0, k)], parts := [(0, { st := .detached, segments := [seg0] })] }

/-- Word w is at the PC of thread 0 of core 0. -/
def thr (w : U32) (h : Thread) : State := onCore0 (core0 w h)

/-- A READY thread with registers r. -/
def ready (r : Table U64) : Thread := { st := .ready, s := r }

/-- A word of format R, and one of format I: OPC, SD, SA, SB or IMM, FN. -/
def wr (opc sd sa sb fn : Nat) : U32 := BitVec.ofNat 32 (opc * 2 ^ 26 + sd * 2 ^ 17 + sa * 2 ^ 12 + sb * 2 ^ 7 + fn)
def wi (opc sd sa imm : Nat) : U32 := BitVec.ofNat 32 (opc * 2 ^ 26 + sd * 2 ^ 17 + sa * 2 ^ 12 + imm)

/-- Thread 0 issues w, of the row, under a true guard, and f holds of what follows. -/
def issues (i : ThreadInstr) (row : U32 → Bool) (w : U32) (h : Thread) (f : State → Bool) : Bool :=
  issuesWord (thr w h) 0 0 w && guardTrue h w && row w && nextIs (exec (i 0 0 w) (thr w h)) f

/-- What `issues` shows is what the statements ask of a thread's instruction. -/
theorem runs_of_issues {i row w h f} (e : issues i row w h f = true) : Runs row (thr w h) 0 0 w := by
  simp only [issues, Bool.and_eq_true] at e
  exact ⟨e.1.1.1, e.1.1.2, e.1.2⟩

/-- Thread 0 of core 0, and a register of it. -/
def t0 (s : State) : Thread := (s.core 0).thread 0
def r0 (s : State) (n : Nat) : U64 := (t0 s).reg n

/-- ALU of s1 and s2 into s3 gives v, and the PC is 1. -/
def alu (i : ThreadInstr) (fn : Nat) (a b v : U64) : Bool :=
  issues i (fun w => wOpc w = 0 && wFn w = fn) (wr 0 3 1 2 fn) (ready [(1, a), (2, b)]) fun u => r0 u 3 = v && (t0 u).pc = 1

/-- The immediate form of s1 and imm into s3 gives v. -/
def imm (i : ThreadInstr) (opc : Nat) (a : U64) (m : Nat) (v : U64) : Bool :=
  issues i (fun w => wOpc w = opc) (wi opc 3 1 m) (ready [(1, a)]) fun u => r0 u 3 = v && (t0 u).pc = 1

/-- The comparison of s1 and s2 sets p1 to v. -/
def cmp (i : ThreadInstr) (fn : Nat) (a b : U64) (v : Bool) : Bool :=
  let w := BitVec.ofNat 32 (0x0C * 2 ^ 26 + 1 * 2 ^ 17 + 1 * 2 ^ 12 + 2 * 2 ^ 7 + fn)
  issues i (fun w => wOpc w = 0x0C && wFn w = fn && wbits w 21 20 = 0) w (ready [(1, a), (2, b)]) fun u =>
    (t0 u).pred 1 = v && (t0 u).pc = 1

/-- A value with fields placed at bits. -/
def packed (l : List (Nat × Nat)) : Nat := (l.map fun e => e.1 * 2 ^ e.2).sum

/-- A page table at lake address 0x1000: virtual addresses below 1 GiB are host memory at the same address, and the next
GiB is the lake from 0x40000000 on. -/
def tables : Table Byte :=
  Table.putBytes (Table.putBytes [] 0x1000 (leBytes 8 (packed [(1, 63), (0x2000, 0)])))
    0x2000 (leBytes 8 (packed [(1, 63), (3, 61), (2, 58), (1, 57), (1, 56)]) ++
      leBytes 8 (packed [(1, 63), (3, 61), (1, 58), (1, 57), (1, 56), (0x40000000, 0)]))

/-- Reset with these tables, partition 0 as x but for its PT_ROOT, and the host's bytes. -/
def mapped (x : Partition) (host : Table Byte) : State :=
  { State.reset with
    lake := { mem := tables }
    host := host
    parts := [(0, { x with regs := { x.regs with ptRoot := 0x1001 } })] }

/-- A command of 64 bytes: opcode and fields. -/
def rawCmd (op : Nat) (l : List (Nat × Nat)) : U512 := BitVec.ofNat 512 (op * 2 ^ 504 + packed l)

/-- Command q of stream 0, accepted. -/
def cmdOf (q op : Nat) (l : List (Nat × Nat)) : Cmd := { seq := q, raw := rawCmd op l }

/-- An attached partition whose stream 0 holds the commands ks and has its completion ring at 0x10000. -/
def jobs (ks : List Cmd) : Partition :=
  { st := .attached, streams := [(0, { en := true, kind := 0, cplBase := 0x10000, journal := ks })] }

/-- A record with a status stands at place n of the completion ring. -/
def recorded (s : State) (n status : Nat) : Bool := s.host.byte (0x10000 + 32 * n + 22) = BitVec.ofNat 8 status

/-! ## Well-formedness: for each kind of check, a command that passes and one that does not -/

theorem test_wf_thread : (Instr.addi 6143 7 (wi 1 0 0 0)).wf = true ∧ (Instr.addi 6144 7 (wi 1 0 0 0)).wf = false ∧
    (Instr.addi 6143 8 (wi 1 0 0 0)).wf = false ∧ (Instr.addi 6143 7 (wi 2 0 0 0)).wf = false := by decide +kernel
theorem test_wf_rows : (Instr.aluAdd 0 0 (wr 0 0 0 0 0)).wf = true ∧ (Instr.aluAdd 0 0 (wr 0 0 0 0 1)).wf = false ∧
    (Instr.cmpEq 0 0 (wr 0x0C 0 0 0 0)).wf = true ∧ (Instr.cmpEq 0 0 (wr 0x0C 0 0 0 1)).wf = false := by decide +kernel
theorem test_wf_core : (Instr.vecAdd 6143).wf = true ∧ (Instr.vecAdd 6144).wf = false ∧ (Instr.accParityError 0 3).wf = true ∧
    (Instr.accParityError 0 4).wf = false ∧ (Instr.stairForward (.spring 0 0) 96).wf = false := by decide +kernel
theorem test_wf_stream : (Instr.markSet 3 16383 0xFFFFFFFFFFFF).wf = true ∧ (Instr.markSet 4 0 0).wf = false ∧ (Instr.markSet 0 16384 0).wf = false ∧
    (Instr.markSet 0 0 0x1000000000000).wf = false ∧ (Instr.cmdDoorbell 0 16384 0 []).wf = false := by decide +kernel
theorem test_wf_positions : (Instr.channelLoss 16 0).wf = false ∧ (Instr.channelLoss 0 32).wf = false ∧ (Instr.hallLoss 4).wf = false ∧
    (Instr.clockRaiseStep 0 96 0).wf = false ∧ (Instr.readData 4 ⟨0, []⟩).wf = false ∧ (Instr.portEnable 16).wf = false ∧
    (Instr.laneSignalLoss 0 4).wf = false ∧ (Instr.domainFault 96).wf = false ∧ (Instr.registerWrite 0 5 0 8 0).wf = false := by decide +kernel
theorem test_wf_processors : (Instr.watchdogExpiry 14 []).wf = true ∧ (Instr.watchdogExpiry 15 []).wf = false ∧ (Instr.fatalError 5 255).wf = true ∧
    (Instr.fatalError 6 255).wf = false ∧ (Instr.fatalError 1 15).wf = false ∧ (Instr.heartbeat 8 []).wf = true ∧
    (Instr.heartbeat 9 []).wf = false := by decide +kernel

/-! ## Threads (R81 to R94) -/

theorem test_aluAdd : alu .aluAdd 0x00 0xFFFFFFFFFFFFFFFF 2 1 = true := by decide +kernel
theorem test_aluSub : alu .aluSub 0x01 1 2 0xFFFFFFFFFFFFFFFF = true := by decide +kernel
theorem test_aluAnd : alu .aluAnd 0x02 0xC 0xA 0x8 = true := by decide +kernel
theorem test_aluOr : alu .aluOr 0x03 0xC 0xA 0xE = true := by decide +kernel
theorem test_aluXor : alu .aluXor 0x04 0xC 0xA 0x6 = true := by decide +kernel
theorem test_aluShl : alu .aluShl 0x05 3 65 6 = true := by decide +kernel
theorem test_aluShr : alu .aluShr 0x06 0x8000000000000000 63 1 = true := by decide +kernel
theorem test_aluSra : alu .aluSra 0x07 0x8000000000000000 63 0xFFFFFFFFFFFFFFFF = true := by decide +kernel
theorem test_aluMul : alu .aluMul 0x08 0x100000001 0x100000001 0x200000001 = true := by decide +kernel
theorem test_aluMulhu : alu .aluMulhu 0x09 0x100000000 0x300000000 3 = true := by decide +kernel
theorem test_aluDivu : alu .aluDivu 0x0A 7 0 0 = true := by decide +kernel
theorem test_aluRemu : alu .aluRemu 0x0B 7 0 7 = true := by decide +kernel
theorem test_aluMin : alu .aluMin 0x0C 0xFFFFFFFFFFFFFFFF 1 0xFFFFFFFFFFFFFFFF = true := by decide +kernel
theorem test_aluMax : alu .aluMax 0x0D 0xFFFFFFFFFFFFFFFF 1 1 = true := by decide +kernel
theorem test_aluFadd : alu .aluFadd 0x10 0x3FC00000 0x40100000 0x40700000 = true := by decide +kernel
theorem test_aluFsub : alu .aluFsub 0x11 0x3FC00000 0x40100000 0xBF400000 = true := by decide +kernel
theorem test_aluFmul : alu .aluFmul 0x12 0x3FC00000 0x40000000 0x40400000 = true := by decide +kernel
theorem test_aluFdiv : alu .aluFdiv 0x13 0x3F800000 0 0x7F800000 = true := by decide +kernel
theorem test_aluFmin : alu .aluFmin 0x14 0x3FC00000 0xC0000000 0xC0000000 = true := by decide +kernel
theorem test_aluFmax : alu .aluFmax 0x15 0x3FC00000 0xC0000000 0x3FC00000 = true := by decide +kernel
theorem test_addi : imm .addi 0x01 1 0xFFE 0xFFFFFFFFFFFFFFFF = true := by decide +kernel
theorem test_andi : imm .andi 0x02 0xABCD 0x0FF 0xCD = true := by decide +kernel
theorem test_ori : imm .ori 0x03 0xA00 0x00F 0xA0F = true := by decide +kernel
theorem test_xori : imm .xori 0x04 5 0xFFF 0xFFFFFFFFFFFFFFFA = true := by decide +kernel
theorem test_shli : imm .shli 0x05 1 63 0x8000000000000000 = true := by decide +kernel
theorem test_shri : imm .shri 0x06 0x8000000000000000 1 0x4000000000000000 = true := by decide +kernel
theorem test_srai : imm .srai 0x07 0x8000000000000000 1 0xC000000000000000 = true := by decide +kernel
theorem test_lis : issues .lis (fun w => wOpc w = 0x08 && !w.getLsbD 16) (BitVec.ofNat 32 (8 * 2 ^ 26 + 3 * 2 ^ 17 + 0xBEEF))
    (ready [(3, 0x12)]) (fun u => r0 u 3 = 0x12BEEF) = true := by decide +kernel
theorem test_cmpEq : cmp .cmpEq 0x00 4 4 true = true := by decide +kernel
theorem test_cmpNe : cmp .cmpNe 0x01 4 4 false = true := by decide +kernel
theorem test_cmpLt : cmp .cmpLt 0x02 0xFFFFFFFFFFFFFFFF 0 true = true := by decide +kernel
theorem test_cmpLtu : cmp .cmpLtu 0x03 0xFFFFFFFFFFFFFFFF 0 false = true := by decide +kernel
theorem test_cmpGe : cmp .cmpGe 0x04 0 0xFFFFFFFFFFFFFFFF true = true := by decide +kernel
theorem test_cmpGeu : cmp .cmpGeu 0x05 0 0xFFFFFFFFFFFFFFFF false = true := by decide +kernel
theorem test_cmpFeq : cmp .cmpFeq 0x10 0x80000000 0 true = true := by decide +kernel
theorem test_cmpFne : cmp .cmpFne 0x11 0x7FC00000 0 true = true := by decide +kernel
theorem test_cmpFlt : cmp .cmpFlt 0x12 0xBF800000 0x3F800000 true = true := by decide +kernel
theorem test_cmpFle : cmp .cmpFle 0x13 0x7FC00000 0x3F800000 false = true := by decide +kernel
theorem test_cmpFgt : cmp .cmpFgt 0x14 0x7F800000 0x3F800000 true = true := by decide +kernel
theorem test_cmpFge : cmp .cmpFge 0x15 0x3F800000 0x3F800000 true = true := by decide +kernel
theorem test_fcmp_counts_nan : nextIs (exec (.cmpFeq 0 0 (BitVec.ofNat 32 (0x0C * 2 ^ 26 + 1 * 2 ^ 17 + 1 * 2 ^ 12 + 2 * 2 ^ 7 + 0x10)))
    (thr (BitVec.ofNat 32 (0x0C * 2 ^ 26 + 1 * 2 ^ 17 + 1 * 2 ^ 12 + 2 * 2 ^ 7 + 0x10)) (ready [(1, 0x7FC00000)])))
    (fun u => (u.core 0).unordered = 1) = true := by decide +kernel

/-- FalseGuardsHaveNoEffect: p1 is 0 and PG is 1. -/
theorem wit_false_guard : (let w : U32 := wr 0 3 1 2 0 ||| 0x00800000
    let s := thr w (ready [(1, 1), (2, 2)])
    issuesWord s 0 0 w && !(guardTrue (t0 s) w) && decide (wOpc w = 0 ∧ wFn w = 0) &&
      nextIs (exec (.aluAdd 0 0 w) s) fun u => r0 u 3 = 0 && (t0 u).pc = 1) = true := by decide +kernel

/-- LD and ST: in the pond, outside it, misaligned, uncorrectable. -/
theorem wit_ld : (let w := wi 0x09 3 1 0xFFF
    let k := { core0 w (ready [(1, 16)]) with pond := [(8, 0x34), (9, 0x12)] }
    issues .ld (fun w => wOpc w = 0x09) w (ready [(1, 16)]) (fun _ => true) && !k.pondBadAt 8 8 &&
      nextIs (exec (.ld 0 0 w) (onCore0 k)) fun u => (t0 u).st = .waiting (.load 3 0x1234)) = true := by decide +kernel
theorem wit_ld_range : issues .ld (fun w => wOpc w = 0x09) (wi 0x09 3 1 0) (ready [(1, 393216)])
    (fun u => (t0 u).halt.map (·.code) = some 0x03) = true := by decide +kernel
theorem wit_ld_align : issues .ld (fun w => wOpc w = 0x09) (wi 0x09 3 1 0) (ready [(1, 4)])
    (fun u => (t0 u).halt.map (·.code) = some 0x04) = true := by decide +kernel
theorem wit_ld_ecc : (let w := wi 0x09 3 1 0
    let k := { core0 w (ready [(1, 8)]) with pondBad := [1] }
    issuesWord (onCore0 k) 0 0 w && k.pondBadAt 8 8 &&
      nextIs (exec (.ld 0 0 w) (onCore0 k)) fun u => (t0 u).halt.map (·.code) = some 0x09) = true := by decide +kernel
theorem test_pondLoadResult : nextIs (exec (.pondLoadResult 0 0) (thr 0 { st := .waiting (.load 3 77) }))
    (fun u => r0 u 3 = 77 && (t0 u).st = .ready) = true := by decide +kernel
theorem wit_st : issues .st (fun w => wOpc w = 0x0A) (wi 0x0A 3 1 1) (ready [(1, 8), (3, 0xAB00000000000CD)])
    (fun u => pondByte u 0 16 = 0xCD && pondByte u 0 23 = 0x0A && pondByte u 0 24 = 0) = true := by decide +kernel
theorem wit_st_range : issues .st (fun w => wOpc w = 0x0A) (wi 0x0A 3 1 0xFFF) (ready [])
    (fun u => (t0 u).halt.map (·.code) = some 0x03) = true := by decide +kernel
theorem wit_st_align : issues .st (fun w => wOpc w = 0x0A) (wi 0x0A 3 1 0) (ready [(1, 1)])
    (fun u => (t0 u).halt.map (·.code) = some 0x04) = true := by decide +kernel

/-- BR and JR: the first and the last word of the segment, and one behind it. -/
theorem wit_br : issues .br (fun w => wOpc w = 0x10) 0x40000003 (ready [])
    (fun u => (t0 u).pc = 3 && (t0 u).st = .waiting .branchShadow) = true := by decide +kernel
theorem wit_br_range : issues .br (fun w => wOpc w = 0x10) 0x403FFFFF (ready [])
    (fun u => (t0 u).halt.map (·.code) = some 0x05) = true := by decide +kernel
theorem wit_jr : issues .jr (fun w => wOpc w = 0x11) (wr 0x11 0 1 0 0) (ready [(1, 2)]) (fun u => (t0 u).pc = 2) = true := by decide +kernel
theorem wit_jr_range : issues .jr (fun w => wOpc w = 0x11) (wr 0x11 0 1 0 0) (ready [(1, 4)])
    (fun u => (t0 u).halt.map (·.code) = some 0x05) = true := by decide +kernel
theorem test_branchShadowEnd : nextIs (exec (.branchShadowEnd 0 0) (thr 0 { st := .waiting .branchShadow }))
    (fun u => (t0 u).st = .ready) = true := by decide +kernel

/-! ## Loops, system words, barriers, marks (R87, R89, R94, R98) -/

/-- LOOP of a count register and LEN. -/
def wloop (sc len : Nat) : U32 := BitVec.ofNat 32 (0x12 * 2 ^ 26 + sc * 2 ^ 17 + len * 2 ^ 8)

theorem wit_loop_zero : issues .loop (fun w => wOpc w = 0x12 && wbits w 7 0 = 0) (wloop 1 2) (ready [])
    (fun u => (t0 u).pc = 3 && (t0 u).loops = []) = true := by decide +kernel
theorem wit_loop_opens : issues .loop (fun w => wOpc w = 0x12 && wbits w 7 0 = 0) (wloop 1 2) (ready [(1, 3)])
    (fun u => (t0 u).pc = 1 && (t0 u).loops = [⟨1, 2, 2, 0⟩]) = true := by decide +kernel
theorem wit_loop_len_zero : issues .loop (fun w => wOpc w = 0x12 && wbits w 7 0 = 0) (wloop 1 0) (ready [(1, 3)])
    (fun u => (t0 u).halt.map (·.code) = some 0x06) = true := by decide +kernel
theorem wit_loop_sticks_out : issues .loop (fun w => wOpc w = 0x12 && wbits w 7 0 = 0) (wloop 1 2)
    { ready [(1, 3)] with loops := [⟨0, 2, 1, 0⟩] } (fun u => (t0 u).halt.map (·.code) = some 0x06) = true := by decide +kernel
theorem wit_loop_repeats : (({ loops := [⟨1, 2, 1, 0⟩] } : Thread).goOn 3).pc = 1 ∧
    (({ loops := [⟨0, 3, 1, 0⟩, ⟨1, 2, 0, 1⟩] } : Thread).goOn 3).loops = [⟨0, 3, 0, 1⟩] ∧
    (({ loops := [⟨1, 2, 1, 0⟩] } : Thread).goOn 2).pc = 2 := by decide +kernel

theorem test_endThread : issues .endThread (fun w => wOpc w = 0x14 && wFn w = 0) (wr 0x14 0 0 0 0) (ready [])
    (fun u => (t0 u).st = .idle) = true := by decide +kernel
theorem test_halt : issues .halt (fun w => wOpc w = 0x14 && wFn w = 1) (wr 0x14 0 0 3 1) (ready [])
    (fun u => (t0 u).halt.map (·.code) = some 0x83) = true := by decide +kernel
theorem test_halt_reserved : issues .halt (fun w => wOpc w = 0x14 && 5 < wFn w) (wr 0x14 0 0 0 6) (ready [])
    (fun u => (t0 u).halt.map (·.code) = some 0x01) = true := by decide +kernel
theorem wit_halt_pc : (let s := thr 0 { ready [] with pc := 4 }
    canIssue s 0 0 && decide ((s.core 0).nwords ≤ (t0 s).pc) &&
      nextIs (exec (.halt 0 0 0) s) fun u => (t0 u).halt.map (·.code) = some 0x05) = true := by decide +kernel
theorem test_bar : issues .bar (fun w => wOpc w = 0x14 && wFn w = 2) (wr 0x14 0 1 0 2) (ready [(1, 0x103)])
    (fun u => (t0 u).st = .waiting (.bar 3)) = true := by decide +kernel
theorem test_barRelease : (let k := { core0 0 { st := .waiting (.bar 3) } with threads := [(0, { st := .waiting (.bar 3) }), (1, { st := .halted })] }
    (∀ i < 8, (3#8).getLsbD i = true → (k.thread i).st ∈ [.idle, .halted, .waiting (.bar 3)]) ∧
      nextIs (exec (.barRelease 0 3) (onCore0 k)) (fun u => (t0 u).st = .ready) = true) := by decide +kernel
theorem test_waitq : issues .waitq (fun w => wOpc w = 0x14 && wFn w = 3) (wr 0x14 0 0 0 3) { ready [] with outstanding := 1 }
    (fun u => (t0 u).st = .waiting .waitq) = true := by decide +kernel
theorem test_waitqRelease : nextIs (exec (.waitqRelease 0 0) (thr 0 { st := .waiting .waitq })) (fun u => (t0 u).st = .ready) = true := by
  decide +kernel
theorem test_csrr : issues .csrr (fun w => wOpc w = 0x14 && wFn w = 4) (wr 0x14 3 4 0 4) (ready []) (fun u => r0 u 3 = 7) = true := by
  decide +kernel
theorem wit_csrr_cycle : issues .csrr (fun w => wOpc w = 0x14 && wFn w = 4) (wr 0x14 3 3 0 4) (ready [])
    (fun u => u.freeUsed = 1 && (t0 u).pc = 1) = true := by decide +kernel

/-- MWAIT of mark s1 for the target s2. -/
def wmwait : U32 := BitVec.ofNat 32 (0x1D * 2 ^ 26 + 1 * 2 ^ 15 + 2 * 2 ^ 10)

theorem wit_mwait_reached : issues .mwait (fun w => wOpc w = 0x1D && wbits w 9 0 = 0) wmwait (ready [(1, 65535)])
    (fun u => (t0 u).st = .ready && (t0 u).pc = 1) = true := by decide +kernel
theorem wit_mwait_waits : issues .mwait (fun w => wOpc w = 0x1D && wbits w 9 0 = 0) wmwait (ready [(1, 9), (2, 1)])
    (fun u => (t0 u).st = .waiting (.mark 9 1 0 false)) = true := by decide +kernel
theorem wit_mwait_range : issues .mwait (fun w => wOpc w = 0x1D && wbits w 9 0 = 0) wmwait (ready [(1, 65536)])
    (fun u => (t0 u).halt.map (·.code) = some 0x0A) = true := by decide +kernel
theorem test_mwaitRelease : nextIs (exec (.mwaitRelease 0 0) (thr 0 { st := .waiting (.mark 9 1 0 true) }))
    (fun u => (t0 u).st = .ready) = true := by decide +kernel

/-! ## Tile registers and engine queues (R54 to R60, R84, R95 to R103, R121) -/

/-- Nothing queued holds the registers or the pond bytes of w, which thread 0 tries. -/
def unlocked (k : Core) (w : U32) : Bool := !(k.locked (wordRegs k w).1 (wordRegs k w).2) && !(k.pondBusy 0 w)

theorem test_ttag : issues .ttag (fun w => wOpc w = 0x14 && wFn w = 5 && unlocked (core0 w {}) w) (wr 0x14 15 29 0 5) (ready [(29, 7), (31, 9)])
    (fun u => ((u.core 0).tile 15).tensor = 7 && ((u.core 0).tile 15).stride = 9) = true := by decide +kernel
theorem wit_ttag_illegal : issues .ttag (fun w => wOpc w = 0x14 && wFn w = 5) (wr 0x14 0 30 0 5) (ready [])
    (fun u => (t0 u).halt.map (·.code) = some 0x01) = true := by decide +kernel

/-- A MMA of t0 and t2 into ACC0 under CLR with the key s4, and an EPI to t4 as FP32 with its block at s1. -/
def wmma : U32 := BitVec.ofNat 32 (0x20 * 2 ^ 26 + 0 * 2 ^ 20 + 2 * 2 ^ 16 + 2 ^ 14 + 4 * 2 ^ 9)
def wepi : U32 := BitVec.ofNat 32 (0x21 * 2 ^ 26 + 4 * 2 ^ 20 + 5 * 2 ^ 16 + 1 * 2 ^ 5)

/-- A queued word of thread 0. -/
def queued (w : U32) : MatEntry := { thread := 0, pc := 0, word := w, layer := none, key := none, close := none, a16 := false, addr := 0 }

theorem wit_ttag_locked : (let w := wr 0x14 2 1 0 5
    let s := onCore0 { core0 w (ready []) with matQ := [queued wmma] }
    issuesWord s 0 0 w && !(unlocked (s.core 0) w) &&
      nextIs (exec (.ttag 0 0 w) s) fun u => (t0 u).st = .waiting (.tileLock w)) = true := by decide +kernel
/-- Core 0 with t0, t1 and t2 as N4 tiles of one block size. -/
def tiled (w : U32) (h : Thread) : Core := { core0 w h with tiles := [(0, { blk := 1 }), (1, { blk := 1 }), (2, { blk := 1 })] }

theorem test_mma : (let s := onCore0 (tiled wmma (ready []))
    Runs (fun w => wOpc w = 0x20) s 0 0 wmma ∧ Unlocked s 0 0 wmma ∧ wbits wmma 8 0 = 0 ∧ mmaFault (s.core 0) 0 wmma = none ∧
      nextIs (exec (.mma 0 0 wmma) s) (fun u => ((u.core 0).acc 0).k = 128 && (u.core 0).matQ.map (·.close) = [some 0] &&
        (t0 u).outstanding = 1) = true) := by
  unfold Runs Unlocked; decide +kernel
theorem wit_mma_full : (let s := onCore0 { core0 wmma (ready []) with matQ := List.replicate 4 (queued wepi) }
    Runs (fun w => wOpc w = 0x20) s 0 0 wmma ∧ Unlocked s 0 0 wmma ∧ 4 ≤ (s.core 0).matQ.length) := by
  unfold Runs Unlocked; decide +kernel
theorem wit_epi : (let s := onCore0 { core0 wepi (ready []) with accs := [(0, { owner := some 0, k := 1 })] }
    Runs (fun w => wOpc w = 0x21) s 0 0 wepi ∧ Unlocked s 0 0 wepi ∧ wbits wepi 4 0 = 0 ∧ epiFault (s.core 0) 0 wepi = none ∧
      nextIs (exec (.epi 0 0 wepi) s) (fun u => ((u.core 0).acc 0).owner = none && (u.core 0).matQ.map (·.close) = [some 0]) = true) := by
  unfold Runs Unlocked; decide +kernel
theorem wit_mmaExecute : (onCore0 { core0 0 {} with matQ := [queued wepi, queued (wmma ||| 0x01000000)] }).core 0 |>.matReady 0x20 |>.isSome := by
  decide +kernel
theorem wit_epiExecute : ((onCore0 { core0 0 {} with matQ := [queued wepi] }).core 0).matReady 0x21 = some (0, queued wepi) ∧
    epiBlockFault ((core0 0 {}).finish 0) (queued wepi) (epiParams (leNat ((core0 0 {}).pond.bytes 0 64))) = none ∧
    epiBlockFault { core0 0 {} with pondBad := [0] } (queued wepi) (epiParams 0) = some (0x09, 0) := by decide +kernel
/-- A halting EPI gives ACC0 back as its issue found it. -/
theorem wit_undoEpi : (let e := { queued wepi with prior := some (some 0, 1, 2, true) }
    let k : Core := core0 0 {}
    k.matQ.all (fun f => mmaAcc f.word ≠ mmaAcc e.word) = true ∧ (k.acc 0).owner = none ∧
      ((k.undoEpi e).acc 0).owner = some 0 ∧ ((k.undoEpi e).acc 0).k = 1) := by decide +kernel
theorem wit_accParityError : (let s := onCore0 { core0 0 (ready []) with accs := [(0, { owner := some 0 })], matQ := [queued wmma] }
    ((s.core 0).acc 0).owner = some 0 ∧ nextIs (exec (.accParityError 0 0) s) (fun u => (u.core 0).matQ = [] &&
      (t0 u).halt.map (·.code) = some 0x17) = true) := by decide +kernel
theorem wit_accParityError_empty : (let s := onCore0 { core0 0 (ready []) with accs := [(0, { owner := some 0 })] }
    nextIs (exec (.accParityError 0 0) s) (fun u => ((u.core 0).acc 0).owner = none &&
      (t0 u).halt.map (·.code) = some 0x17) = true) := by decide +kernel
/-- Beat 0: word 3's errors are two bits, word 4's one bit, which is corrected; word 9 is not in the beat. -/
theorem test_pondScrub : nextIs (exec (.pondScrub 0 [⟨3, true⟩, ⟨4, false⟩, ⟨9, false⟩]) (onCore0 (core0 0 {})))
    (fun u => (u.core 0).pondBad = [3] && (u.core 0).pondSingle = [9] && (u.core 0).scrubAt = 1 &&
      (u.partn 0).counters = [(okey 0x8040 6, 1)]) = true := by decide +kernel
/-- A load meets a single-bit error. -/
theorem wit_ld_corrects : (let w := wi 0x09 3 1 0
    nextIs (exec (.ld 0 0 w) (onCore0 { core0 w (ready [(1, 8)]) with pondSingle := [1, 2] })) fun u =>
      (u.core 0).pondSingle = [2] && (u.partn 0).counters = [(okey 0x8040 6, 1)]) = true := by decide +kernel

/-- VOP ADD of t1 and t2 into t0; VDESC ADD with its descriptor at s1; SPR to spring 0 with its descriptor at s1. -/
def wvop : U32 := BitVec.ofNat 32 (0x1A * 2 ^ 26 + 1 * 2 ^ 6 + 2 * 2 ^ 2)
def wvdesc : U32 := BitVec.ofNat 32 (0x1B * 2 ^ 26 + 1 * 2 ^ 9)
def wspr : U32 := BitVec.ofNat 32 (0x1C * 2 ^ 26 + 1 * 2 ^ 15)

/-- A queued vector word of thread 0. -/
def vqueued (w : U32) : VecEntry := { thread := 0, pc := 0, word := w, layer := none, scalar := 0, addr := 0 }

theorem test_vop : (let s := onCore0 (tiled wvop (ready []))
    Runs (fun w => wOpc w = 0x1A) s 0 0 wvop ∧ vecIllegal wvop = false ∧ vecReserved wvop = false ∧ Unlocked s 0 0 wvop ∧
      vopTagFault (s.core 0) wvop = false ∧ nextIs (exec (.vop 0 0 wvop) s) (fun u => (u.core 0).vecQ.length = 1) = true) := by
  unfold Runs Unlocked; decide +kernel
theorem wit_vop_full : (let s := onCore0 { core0 wvop (ready []) with vecQ := List.replicate 4 (vqueued wvdesc) }
    Runs (fun w => wOpc w = 0x1A) s 0 0 wvop ∧ Unlocked s 0 0 wvop ∧ 4 ≤ (s.core 0).vecQ.length) := by
  unfold Runs Unlocked; decide +kernel
theorem test_vdesc : (let s := thr wvdesc (ready [(1, 393152)])
    Runs (fun w => wOpc w = 0x1B) s 0 0 wvdesc ∧ Unlocked s 0 0 wvdesc ∧ vecIllegal wvdesc = false ∧ vecReserved wvdesc = false ∧
      nextIs (exec (.vdesc 0 0 wvdesc) s) (fun u => (u.core 0).vecQ.map (·.addr) = [393152]) = true) := by
  unfold Runs Unlocked; decide +kernel

/-- One frame from virtual address 0 to pond address 0x1000, as it is, with mark 5. -/
def rawDesc : U1024 := BitVec.ofNat 1024 (packed [(0x1000, 896), (1, 816), (1, 832), (1, 848), (1, 864), (1, 880), (2, 492), (15, 470),
  (5, 454), (1, 453)])

theorem test_spr : (let s := onCore0 { core0 wspr (ready []) with pond := Table.putBytes [] 0 (leBytes 128 rawDesc.toNat) }
    Runs (fun w => wOpc w = 0x1C) s 0 0 wspr ∧ Unlocked s 0 0 wspr ∧ wbits wspr 14 0 = 0 ∧
      nextIs (exec (.spr 0 0 wspr) s) (fun u => ((u.core 0).spring 0).map (·.raw) = [rawDesc] && (t0 u).outstanding = 1) = true) := by
  unfold Runs Unlocked; decide +kernel

/-- The mover entry of rawDesc, from thread 0 of core 0. -/
def desc0 : Desc := { raw := rawDesc, addr := 0, thread := 0, pc := 0, word := wspr, layer := none, origin := (0, 0, 0) }

theorem wit_spr_full : (let s := onCore0 { core0 wspr (ready []) with springs := [(0, List.replicate 16 desc0)] }
    Runs (fun w => wOpc w = 0x1C) s 0 0 wspr ∧ 16 ≤ ((s.core 0).spring 0).length) := by
  unfold Runs; decide +kernel
theorem test_engineQueueAccept : (let s := onCore0 { tiled wmma { st := .waiting (.queueFull .matrix wmma) } with matQ := [queued wepi] }
    (s.segOf 0).isSome ∧ s.working = true ∧
      nextIs (exec (.engineQueueAccept 0 0) s) (fun u => (u.core 0).matQ.length = 2 && (t0 u).st = .ready) = true) := by decide +kernel
theorem test_tileLockRelease : nextIs (exec (.tileLockRelease 0 0) (thr wepi { st := .waiting (.tileLock wepi) }))
    (fun u => (t0 u).halt.map (·.code) = some 0x14) = true := by decide +kernel

/-- The vector executions: the queue's head is of the row, and runs as format V or D. -/
theorem wit_vec : ∀ op ∈ vectorOps.map (·.2), (let w := wvop ||| BitVec.ofNat 32 (op * 2 ^ 16)
    vVop w = op ∧ wOpc w = 0x1A) ∧ (let w := wvdesc ||| BitVec.ofNat 32 (op * 2 ^ 16)
    vVop w = op ∧ wOpc w = 0x1B) := by decide +kernel
theorem wit_vec_head : ((onCore0 { core0 0 (ready []) with vecQ := [vqueued wvop] }).core 0).vecQ = vqueued wvop :: [] := by decide +kernel

/-! ## Frames in the pond (R96, R103, R106) -/

/-- An FP32 tile of tensor 9 whose first element is 1.5. -/
def head15 : Header := { tensor := 9, fmt := 5 }
def frame15 : List Byte := mkFrame head15 (List.replicate 512 0) (leBytes 4 0x3FC00000 ++ List.replicate 4092 0)

theorem length_frame15 : frame15.length = 4672 := by
  rw [frame15, length_mkFrame, List.length_replicate, List.length_append, List.length_replicate, length_leBytes]

/-- Pond memory that holds frame15 at 64, and the descriptor d at 0. -/
def pond15 (d : Nat) : Table Byte := Table.putBytes (Table.putBytes [] 0 (leBytes 64 d)) 64 frame15

theorem pond15_frame (d : Nat) : (pond15 d).bytes 64 4672 = frame15 := by
  have h := Table.bytes_putBytes (Table.putBytes [] 0 (leBytes 64 d)) 64 frame15
  rwa [length_frame15] at h

theorem pond15_desc (d : Nat) (h : d < 256 ^ 64) : leNat ((pond15 d).bytes 0 64) = d := by
  have e : (pond15 d).bytes 0 64 = leBytes 64 d := by
    apply List.ext_getElem (by simp)
    intro i h1 h2
    simp only [length_leBytes] at h2
    rw [Table.getElem_bytes, pond15, Table.byte_putBytes, if_neg (by omega), Table.byte_putBytes, if_pos (by simp; omega)]
    simp [List.getD_eq_getElem?_getD, h2]
  rw [e, leNat_leBytes, Nat.mod_eq_of_lt h]

/-- TLD and TST of t3 at s1. -/
def wtld : U32 := BitVec.ofNat 32 (0x18 * 2 ^ 26 + 3 * 2 ^ 18 + 1 * 2 ^ 13)
def wtst : U32 := BitVec.ofNat 32 (0x19 * 2 ^ 26 + 3 * 2 ^ 18 + 1 * 2 ^ 13)

/-- A queued TLD or TST of thread 0. -/
def tqueued (w : U32) : TileEntry := { thread := 0, pc := 0, word := w, addr := 64 }

theorem wit_tld : (let s := thr wtld (ready [(1, 64)])
    Runs (fun w => wOpc w = 0x18) s 0 0 wtld ∧ Unlocked s 0 0 wtld ∧ wbits wtld 12 0 = 0 ∧ (t0 s).reg (wbits wtld 17 13) = 64 ∧
      nextIs (exec (.tld 0 0 wtld) s) (fun u => (u.core 0).tileQ = [tqueued wtld] && (t0 u).pc = 1 && (t0 u).outstanding = 1) = true) := by
  unfold Runs Unlocked; decide +kernel
theorem wit_tld_range : issues .tld (fun w => wOpc w = 0x18 && wbits w 12 0 = 0) wtld (ready [(1, 388608)])
    (fun u => (t0 u).halt.map (·.code) = some 0x03) = true := by decide +kernel
theorem wit_tst_align : issues .tst (fun w => wOpc w = 0x19 && wbits w 12 0 = 0) wtst (ready [(1, 32)])
    (fun u => (t0 u).halt.map (·.code) = some 0x04) = true := by decide +kernel
/-- An earlier TST of the same bytes has not been made. -/
theorem wit_ld_busy : (let w := wi 0x09 3 1 0
    let s := onCore0 { core0 w (ready [(1, 72)]) with tileQ := [tqueued wtst] }
    Runs (fun w => wOpc w = 0x09) s 0 0 w ∧ ¬Unlocked s 0 0 w ∧
      nextIs (exec (.ld 0 0 w) s) (fun u => (t0 u).st = .waiting (.tileLock w)) = true) := by
  unfold Runs Unlocked; decide +kernel
theorem wit_tileExec : (let s := onCore0 { core0 wtld (ready []) with tileQ := [tqueued wtld], pond := pond15 0 }
    s.working = true ∧ (s.core 0).pondBadAt 64 4672 = false ∧ frameCheckOk ((s.core 0).pond.bytes 64 4672) = true) := by
  refine ⟨by decide +kernel, by decide +kernel, ?_⟩
  exact (congrArg frameCheckOk (pond15_frame 0)).trans (frameCheckOk_mkFrame _ _ _)
theorem wit_tileExec_ecc : (let s := onCore0 { core0 wtld (ready []) with tileQ := [tqueued wtld], pondBad := [8] }
    (s.core 0).pondBadAt 64 4672 = true ∧ (s.core 0).pondBadAt 64 64 = true ∧
      nextIs (exec (.tileLockRelease 0 1) s) (fun u => (u.core 0).tileQ = [] && (t0 u).halt.map (·.code) = some 0x09) = true) := by
  decide +kernel

/-- A frame with a wrong CHECK. -/
theorem wit_tld_check : ∀ f : List Byte, frameCheckOk (leBytes 4 (if frameCheckOf f = 0 then 1 else 0) ++ f.drop 4) = false := by
  intro f
  have e : frameCheckOf (leBytes 4 (if frameCheckOf f = 0 then 1 else 0) ++ f.drop 4) = frameCheckOf f := by simp [frameCheckOf]
  simp only [frameCheckOk, frameCheckField, e, decide_eq_false_iff_not]
  rw [List.take_append_of_le_length (by simp), List.take_of_length_le (by simp), leNat_leBytes]
  split <;> omega

theorem wit_tst : (let s := thr wtst (ready [(1, 64)])
    Runs (fun w => wOpc w = 0x19) s 0 0 wtst ∧ Unlocked s 0 0 wtst ∧ wbits wtst 12 0 = 0 ∧ (t0 s).reg (wbits wtst 17 13) = 64) := by
  unfold Runs Unlocked; decide +kernel

/-- RMAX over the one element of row 0 of the frame at unit 1, into unit 80. -/
def dRmax : Nat := packed [(1, 496), (0xFFFF, 480), (0xFFFF, 464), (80, 448), (1, 440), (1, 432), (1, 416), (1, 400), (5, 396)]

theorem frame15_tags : (frameHeader frame15).fmt = 5 ∧ (frameHeader frame15).blk = 0 := by
  obtain ⟨c, hc, h⟩ := frameHead_mkFrame head15 (List.replicate 512 0) (leBytes 4 0x3FC00000 ++ List.replicate 4092 0)
  have f := bits_above c (headerVal head15 0 % 256 ^ 64 / 2 ^ 32) 255 252 hc (by norm_num)
  have b := bits_above c (headerVal head15 0 % 256 ^ 64 / 2 ^ 32) 251 249 hc (by norm_num)
  have e : frameHead frame15 = _ := h
  unfold frameHeader
  dsimp only
  rw [e, f.resolve_right (by norm_num), b.resolve_right (by norm_num)]
  decide +kernel

theorem frame15_tensor : (frameHeader frame15).tensor = 9 := by
  obtain ⟨c, hc, h⟩ := frameHead_mkFrame head15 (List.replicate 512 0) (leBytes 4 0x3FC00000 ++ List.replicate 4092 0)
  have f := bits_above c (headerVal head15 0 % 256 ^ 64 / 2 ^ 32) 447 416 hc (by norm_num)
  have e : frameHead frame15 = _ := h
  unfold frameHeader
  dsimp only
  rw [e, f.resolve_right (by norm_num)]
  decide +kernel

theorem frame15_version : (frameHeader frame15).version = 0 := by
  obtain ⟨c, hc, h⟩ := frameHead_mkFrame head15 (List.replicate 512 0) (leBytes 4 0x3FC00000 ++ List.replicate 4092 0)
  have f := bits_above c (headerVal head15 0 % 256 ^ 64 / 2 ^ 32) 511 448 hc (by norm_num)
  have e : frameHead frame15 = _ := h
  unfold frameHeader
  dsimp only
  rw [e, f.resolve_right (by norm_num)]
  decide +kernel

/-- Core 0 with the descriptor d at unit 0 and frame15 at unit 1. -/
def vcore (d : Nat) : Core := { core0 0 (ready []) with pond := pond15 d }

theorem vcore_readFrame (d : Nat) : readFrame (vcore d) 64 = .ok frame15 := by
  have e : (vcore d).pond.bytes 64 frameBytes = frame15 := pond15_frame d
  have h : frameCheckOk frame15 = true := frameCheckOk_mkFrame _ _ _
  have b : (vcore d).pondBadAt 64 frameBytes = false := rfl
  have v : (fmtValid 5 && blkPermitted 5 0) = true := by decide +kernel
  have i : inPond 64 frameBytes = true := by decide +kernel
  unfold readFrame
  rw [e]
  dsimp only
  rw [h, b, frame15_tags.1, frame15_tags.2, v, i]
  rfl

/-- VDESC with VOP op, queued with its descriptor at 0. -/
def vdescOf (op : Nat) : VecEntry := vqueued (wvdesc ||| BitVec.ofNat 32 (op * 2 ^ 16))

/-- A computation that answers. -/
def answers {α : Type} : Halting α → Bool
  | .ok _ => true
  | .error _ => false

theorem ok_of_answers {α : Type} {x : Halting α} (h : answers x = true) : ∃ a, x = .ok a := by
  cases x with
  | ok a => exact ⟨a, rfl⟩
  | error e => cases h

theorem readOperand_one (k : Core) (f : List Byte) (h : readFrame k 64 = .ok f) (hf : (frameHeader f).fmt = 5) :
    ∃ x, readOperand k 1 1 1 1 (tileRows 5, tileCols 5) = .ok (5, x) := by
  have r : (1 + tileRows 5 - 1) / tileRows 5 = 1 := by decide +kernel
  have c : (1 + tileCols 5 - 1) / tileCols 5 = 1 := by decide +kernel
  unfold readOperand
  simp only [need, bind, Except.bind, h, hf, r, c, List.range_one, List.mapM_cons, List.mapM_nil, pure,
    Except.pure, Nat.one_mul, Nat.zero_mul, Nat.add_zero]
  exact ⟨_, rfl⟩

theorem reduceRun_one (k : Core) (e : VecEntry) (d : VDesc) (f : List Byte) (h : readFrame k 64 = .ok f)
    (hf : (frameHeader f).fmt = 5) (ha : d.a = 1) (hd : d.d = 80) (hr : d.rows = 1) (hc : d.cols = 1) (hgr : d.gr = 1) (hgc : d.gc = 1) :
    ∃ o, reduceRun k e d (0, 0) = .ok o := by
  obtain ⟨x, hx⟩ := readOperand_one k f h hf
  have c1 : (decide (1 ≤ 1 * tileRows 5) && decide (1 ≤ 1 * tileCols 5)) = true := by decide +kernel
  have c2 : inPond (80 * 64) ((1 * 4 + 63) / 64 * 64) = true := by decide +kernel
  have c3 : 1 * 64 = 64 := rfl
  unfold reduceRun
  simp only [ha, hd, hr, hc, hgr, hgc, c3, h, bind, Except.bind, hf, c1, hx, c2, need, if_true]
  exact ⟨_, rfl⟩

theorem wit_vdescRun_ok : ∃ o, vdescRun (vcore dRmax) (vdescOf 0x29) (0, 0) 0 = .ok o := by
  have hv : leNat ((vcore dRmax).pond.bytes (vdescOf 0x29).addr 64) = dRmax := pond15_desc dRmax (by decide +kernel)
  have hb : (vcore dRmax).pondBadAt (vdescOf 0x29).addr 64 = false := rfl
  have ho : vVop (vdescOf 0x29).word = 0x29 := by decide +kernel
  obtain ⟨u, hf⟩ : ∃ u, vdescFields dRmax (vdesc dRmax) 0x29 = .ok u := ok_of_answers (by decide +kernel)
  unfold vdescRun
  rw [hv, hb, ho]
  dsimp only
  rw [hf]
  obtain ⟨o, hr⟩ := reduceRun_one (vcore dRmax) (vdescOf 0x29) (vdesc dRmax) frame15 (vcore_readFrame _) frame15_tags.1
    (by decide +kernel) (by decide +kernel) (by decide +kernel) (by decide +kernel) (by decide +kernel) (by decide +kernel)
  refine ⟨o, ?_⟩
  have ha : decide ((vdesc dRmax).a ≠ 65535) = true := by decide +kernel
  rw [ha, if_pos (by decide +kernel : vopIsReduce 0x29 = true), hr]
  rfl

theorem wit_vdescRun_error : (match vdescRun (core0 0 {}) (vdescOf 0x29) (0, 0) 0 with
    | .error (code, _) => code
    | .ok _ => 0) = 0x08 := by decide +kernel

/-! ## Springs, stairs, faults, arbiters (R122 to R148, R320) -/

/-- A descriptor from a source space and address to a pond address, unconverted, with mark 5 counted. -/
def descOf (sspace src dst : Nat) (sunit : Nat) : Desc :=
  { desc0 with raw := BitVec.ofNat 1024 (packed [(src, 960), (dst, 896), (1, 816), (1, 832), (1, 848), (1, 864), (1, 880), (sspace, 492),
      (if sunit = 1 then 5 else 15, 470), (sunit, 476), (5, 454), (1, 453)]) }

/-- Core 0 runs seg0 of a mapped partition with d on spring 0, and its pond has an uncorrectable word 0. -/
def sprung (d : Desc) : State :=
  { mapped { st := .attached, segments := [seg0] } [] with
    cores := [(0, { core0 0 (ready []) with springs := [(0, [d])], pondBad := [0] })] }

def isFrame : SrcRead → Bool
  | .frame _ => true
  | _ => false

def isPlace : DstPlace → Bool
  | .fault _ => false
  | .range => false
  | _ => true

/-- The host's tile 0 stands in the landing. -/
def staged0 (d : Desc) : State := { sprung d with fabric := { landings := [(0, { staged := [(moverTag (.spring 0 0), 0, [1])] })] } }

theorem wit_springTileMove : (let d := { descOf 2 0x8000 0x1000 1 with st := .active }
    let s := staged0 d
    s.activeDesc (.spring 0 0) = some d ∧ s.mayMove (.spring 0 0) d = true ∧ d.room = true ∧ s.outranked (.spring 0 0) d = false ∧
      s.heldBack (.spring 0 0) d = false ∧ s.pinnedRecovery d d.next = none ∧
      isPlace (s.dstPlace (.spring 0 0) d 0) = true ∧ isFrame ((s.readPond (.spring 0 0) d 0).readSource (.spring 0 0) d 0) = true) := by
  decide +kernel
theorem wit_springTileMove_fails : (let d := { descOf 1 0 0x1000 0 with st := .active }
    let s := sprung d
    s.activeDesc (.spring 0 0) = some d ∧ s.mayMove (.spring 0 0) d = true ∧ isPlace (s.dstPlace (.spring 0 0) d 0) = true ∧
      s.readSource (.spring 0 0) d 0 = .failed .pondEcc ∧
      nextIs (exec (.springTileMove (.spring 0 0)) s) (fun u => (u.queue (.spring 0 0)).map (·.st) = [.reread 0 .pondEcc none 0]) = true) := by
  decide +kernel
/-- A descriptor of level 0 waits, so that the one of level 5 moves no tile. -/
theorem test_springTileMove_outranked : (let d := { descOf 2 0x8000 0x1000 1 with st := .active, raw := rawDesc ||| BitVec.ofNat 1024 (5 <<< 477) }
    let s := staged0 d
    let two := s.setQueue (.spring 0 0) [d, descOf 2 0x8000 0x1000 1]
    d.prio = 5 ∧ two.outranked (.spring 0 0) d = true ∧ nextIs (exec (.springTileMove (.spring 0 0)) two) (fun u => decide (u = two)) = true) := by
  decide +kernel
theorem wit_springSourceReread : (let d := { descOf 2 0x8000 0x1000 1 with st := .reread 0 .check none 0 }
    let s := staged0 d
    s.repairAwaited d 0 0 .check = false ∧ s.readSource (.spring 0 0) d 0 ≠ .awaited ∧ s.pinnedRecovery d 0 = none ∧ isPlace (s.dstPlace (.spring 0 0) { d with st := .active } 0) = true ∧
      isFrame (((s.bumpP 0 0x8040 5 1).changeDesc (.spring 0 0) d { d with st := .active }).readSource (.spring 0 0) { d with st := .active } 0)
        = true) := by decide +kernel
theorem wit_springSourceReread_fails : nextIs (exec (.springSourceReread (.spring 0 0)) (sprung { descOf 1 0 0x1000 0 with st := .reread 0 .pondEcc none 0 }))
    (fun u => u.queue (.spring 0 0) = [] && (t0 u).halt.map (·.code) = some 0x0E) = true := by decide +kernel
theorem wit_springDescriptorStart : (let d := descOf 2 0 0x1000 0
    (sprung d).mayMove (.spring 0 0) d = true ∧
      nextIs (exec (.springDescriptorStart (.spring 0 0)) (sprung d)) (fun u => (u.queue (.spring 0 0)).map (·.st) = [.active]) = true) := by
  decide +kernel
theorem wit_springTileDelivered : (let d := { descOf 2 0 0x1000 0 with st := .active, next := 1, flights := [⟨0, true, none, none⟩] }
    ((sprung d).queue (.spring 0 0)).find? Desc.deliverable = some d ∧ d.leaving = none ∧
      nextIs (exec (.springTileDelivered (.spring 0 0)) (sprung d)) (fun u => u.queue (.spring 0 0) = [] && u.mark 0 5 = 1) = true) := by
  decide +kernel
/-- One tile of the pond for host address 0x800. -/
def hostward : Desc :=
  { desc0 with raw := BitVec.ofNat 1024 (packed [(0x2000, 960), (0x800, 896), (1, 816), (1, 832), (1, 848), (1, 864), (1, 880), (1, 492),
    (2, 488), (15, 470)]) }
/-- It leaves the landing as it is delivered. -/
theorem wit_springTileDelivered_host : (let d := { hostward with st := .active, next := 1, flights := [⟨0, false, none, some [7]⟩] }
    let s := sprung d
    (s.queue (.spring 0 0)).find? Desc.deliverable = some d ∧ d.leaving = some [7] ∧ (match s.dstPlace (.spring 0 0) d d.cursor with
      | .parts _ => true
      | _ => false) = true ∧
      nextIs (exec (.springTileDelivered (.spring 0 0)) s) (fun u => u.host.byte 0x800 = 7) = true) := by decide +kernel

/-- A stair of two members with the tiles l and m, each written or not. -/
def stair (l m : List SkidFrame) : Desc :=
  { descOf 2 0 0x1000 0 with st := .active
                             stair := [⟨0, 0, l, false, false, none⟩, ⟨1, 0, m, false, false, none⟩] }

theorem wit_stairForward : (sprung (stair [⟨0, [7], false⟩] [])).stairDesc (.spring 0 0) 0 = some (stair [⟨0, [7], false⟩] []) ∧
    nextIs (exec (.stairForward (.spring 0 0) 0) (sprung (stair [⟨0, [7], false⟩] [])))
      (fun u => (u.queue (.spring 0 0)).map (fun d => d.stair.map fun x => (x.delivered, x.skid)) = [[(1, []), (0, [⟨0, [7], false⟩])]] &&
        pondByte u 0 0x1000 = 7) = true := by decide +kernel
theorem wit_stairForward_written : (let d := stair [⟨0, [7], true⟩] []
    (sprung d).stairDesc (.spring 0 0) 0 = some d ∧ (sprung d).forwardBad d ⟨0, 0, [⟨0, [7], true⟩], false, false, none⟩ ⟨0, [7], true⟩ = false ∧
    nextIs (exec (.stairForward (.spring 0 0) 0) (sprung d))
      (fun u => (u.queue (.spring 0 0)).map (fun d => d.stair.map (·.skid)) = [[[], [⟨0, [7], false⟩]]]) = true) := by decide +kernel
theorem wit_stairDetach : blockingMember (stair [] [⟨0, [], false⟩, ⟨1, [], false⟩]).stair = some 1 ∧
    nextIs (exec (.stairDetach (.spring 0 0) 1) (sprung (stair [] [⟨0, [], false⟩, ⟨1, [], false⟩])))
      (fun u => (u.queue (.spring 0 0)).map (fun d => d.stair.map fun x => (x.detached, x.skid)) = [[(false, []), (true, [])]]) = true := by
  decide +kernel

/-- A descriptor that is parked with record 3. -/
def parked : Desc := { descOf 2 0x1234 0x1000 0 with st := .parked 3 0 200 0x1234 }

theorem wit_faultRespResume : (sprung parked).parkedDesc 0 3 = some (.spring 0 0, parked) ∧
    nextIs (exec (.faultRespResume 0 3) (sprung parked)) (fun u => (u.queue (.spring 0 0)).map (·.st) = [.queued]) = true := by decide +kernel
theorem wit_faultRespFatal : nextIs (exec (.faultRespFatal 0 3) (sprung parked)) (fun u => (t0 u).halt.map (·.code) = some 0x0C) = true := by
  decide +kernel
theorem wit_springFaultTimeout : nextIs (exec (.springFaultTimeout 0 3) (sprung parked)) (fun u => u.log.map (·.code) = [0x6131]) = true := by
  decide +kernel
theorem wit_faultResp_stale : (sprung parked).parkedDesc 0 4 = none ∧
    nextIs (exec (.faultRespResume 0 4) (sprung parked)) (fun u => (u.partn 0).counters = [(okey 0x8040 3, 1)]) = true := by decide +kernel

/-- A fault record of record number 3, waiting for a queue of 16 records at 0x3000. -/
def faulted0 : State :=
  mapped { st := .attached, regs := { fqBase := 0x3000, fqCtrl := BitVec.ofNat 64 (packed [(9, 16)]) }
           faultWaiting := [⟨3, 0, 0, false, 1, 0, 0, 0, 0, .spring 0 0, 0, 0, 0⟩] } []

theorem wit_faultRecordPost : faulted0.fqRoom 0 = true ∧ nextIs (exec (.faultRecordPost 0) faulted0)
    (fun u => (u.partn 0).faultWaiting = [] && (u.partn 0).regs.fqTail = 1 && u.msix = [] && (u.partn 0).regs.msixPending = [9]) = true := by
  decide +kernel

theorem wit_arbiterGrant : (({ wait := [0, 0, 56, 0, 0, 0, 0, 0] } : Arbiter).choose 0x06 = some (2, true)) ∧
    nextIs (exec (.arbiterGrant (.channel 0 3) 0x06 false) State.reset) (fun u => (u.fabric.arbiters.get 3 {}).last = some 1 &&
      (u.fabric.arbiters.get 3 {}).wait = [0, 0, 1, 0, 0, 0, 0, 0]) = true := by decide +kernel
theorem wit_arbiterGrant_borrower : nextIs (exec (.arbiterGrant (.channel 0 3) 0 true) State.reset)
    (fun u => (u.fabric.arbiters.get 3 {}).last = some 8) = true := by decide +kernel
theorem wit_arbiterGrant_throttled : (let s : State := { State.reset with
      power := { sensors := { throttled := [0] } },
      fabric := { arbiters := [(3, { skip := true })] } }
    s.throttledArbiter (.channel 0 3) = true ∧
      nextIs (exec (.arbiterGrant (.channel 0 3) 1 false) s) (fun u => (u.fabric.arbiters.get 3 {}).last = none) = true) := by decide +kernel

/-! ## Commands of streams: marks, moves, fences, tiers (R136, R165 to R186, R308, R319) -/

/-- Command 7 of stream 0 with opcode op may start in s, and f holds of what it leaves. -/
def starts (i : Nat → Nat → Nat → Instr) (op : Nat) (l : List (Nat × Nat)) (s : State) (f : State → Bool) : Prop :=
  Starts s 0 0 7 op (cmdOf 7 op l) ∧ nextIs (exec (i 0 0 7) s) f = true

/-- An attached partition with this command alone. -/
def one (op : Nat) (l : List (Nat × Nat)) : State := mapped (jobs [cmdOf 7 op l]) []

theorem test_markSet : starts .markSet 0x03 [(5, 432), (9, 400)] (one 0x03 [(5, 432), (9, 400)]) fun u =>
    u.mark 0 5 = 9 && u.cmd 0 0 7 = none && recorded u 0 0 := by unfold starts Starts; decide +kernel
theorem test_markWait : starts .markWait 0x04 [(5, 432)] (one 0x04 [(5, 432)]) fun u => recorded u 0 0 && (u.stream 0 0).cplTail = 1 := by
  unfold starts Starts; decide +kernel
theorem wit_markWait_runs : starts .markWait 0x04 [(5, 432), (1, 400)] (one 0x04 [(5, 432), (1, 400)]) fun u =>
    (u.cmd 0 0 7).map (·.phase) = some .running := by unfold starts Starts; decide +kernel
theorem test_markWaitTimeout : (let k := { cmdOf 7 0x04 [(5, 432), (1, 400), (3, 368)] with phase := .running }
    nextIs (exec (.markWaitTimeout 0 0 7) (mapped (jobs [k]) [])) fun u => recorded u 0 4) = true := by decide +kernel

/-- The MOVE of rawDesc at host address 0x100, which a command mover takes, and one that names a landing of die 2 where the part has none. -/
def moveDesc (dst : Nat) : U1024 := BitVec.ofNat 1024 (packed [(dst, 896), (1, 816), (1, 832), (1, 848), (1, 864), (1, 880), (2, 492),
  (if dst < 2 ^ 32 then 2 else 3, 488), (15, 470)])
def moving (dst : Nat) : State := mapped (jobs [cmdOf 7 0x02 [(0x100, 400)]]) (Table.putBytes [] 0x100 (leBytes 128 (moveDesc dst).toNat))

theorem test_move : starts .move 0x02 [(0x100, 400)] (moving 0) fun u => u.movers.map (fun e => e.2.map (·.raw)) = [[moveDesc 0]] := by
  unfold starts Starts; decide +kernel
theorem wit_move_absent : starts .move 0x02 [(0x100, 400)] { moving (2 * 2 ^ 32) with part := .m12x2f32 } fun u => recorded u 0 8 := by
  unfold starts Starts; decide +kernel

theorem test_fenceWait : starts .fenceWait 0x60 [] (one 0x60 []) fun u => recorded u 0 0 := by unfold starts Starts; decide +kernel
theorem wit_fenceWait_waits : (let k := { cmdOf 7 0x60 [] with order := 1 }
    let s := mapped (jobs [{ cmdOf 6 0x04 [(1, 400)] with phase := .running }, k]) []
    Starts s 0 0 7 0x60 k ∧ nextIs (exec (.fenceWait 0 0 7) s) (fun u => (u.cmd 0 0 7).map (·.phase) = some .running) = true) := by
  unfold Starts; decide +kernel
theorem test_fenceStop : (let k := { cmdOf 7 0x60 [(1, 446)] with order := 1 }
    let s := mapped (jobs [{ cmdOf 6 0x04 [(1, 400)] with phase := .running }, k]) []
    Starts s 0 0 7 0x60 k ∧ nextIs (exec (.fenceStop 0 0 7) s) (fun u => recorded u 0 1 && recorded u 1 0) = true) := by
  unfold Starts; decide +kernel

/-- A tier command on object 3, of one tile in flash. -/
def tierCmd (op : Nat) (o : TierObj) : State := mapped { jobs [cmdOf 7 op [(3, 416), (0x40000000, 368)]] with objects := [(3, o)] } []
def obj1 (st : TierState) : TierObj := { st := st, version := 2, addr := 0x40000000, frames := [List.replicate 4672 1] }
def tierArgs : List (Nat × Nat) := [(3, 416), (0x40000000, 368)]

theorem test_tierPromote : starts .tierPromote 0x30 tierArgs (tierCmd 0x30 (obj1 .absent)) fun u => (u.obj 0 3).st = .promoting := by
  unfold starts Starts; decide +kernel
theorem test_tierDemote : starts .tierDemote 0x31 tierArgs (tierCmd 0x31 (obj1 .resident)) fun u => (u.obj 0 3).st = .demoting := by
  unfold starts Starts; decide +kernel
theorem test_tierPin : starts .tierPin 0x32 tierArgs (tierCmd 0x32 (obj1 .resident)) fun u => (u.obj 0 3).pins = [(0, 1)] && recorded u 0 0 := by
  unfold starts Starts; decide +kernel
theorem test_tierUnpin : starts .tierUnpin 0x33 tierArgs (tierCmd 0x33 (obj1 .resident)) fun u => recorded u 0 8 := by
  unfold starts Starts; decide +kernel
theorem wit_tier_absent : starts .tierPromote 0x30 tierArgs (tierCmd 0x30 {}) fun u => recorded u 0 8 := by
  unfold starts Starts; decide +kernel
theorem wit_tier_waits : ((tierCmd 0x30 (obj1 .writing)).tierServing 3 = true) ∧
    (tierCmd 0x30 (obj1 .writing)).tierApply 0 3 (.promote 0 7 0x40000000 none 0) = .error .commit := by
  refine ⟨by decide +kernel, rfl⟩

/-- Partition 0 with object 3 alone. -/
def tier (o : TierObj) : State := mapped { st := .attached, objects := [(3, o)] } []

theorem wit_flashReadComplete : nextIs (exec (.flashReadComplete 0 3 0 false) (tier { obj1 .promoting with fill := some {} }))
    (fun u => (u.obj 0 3).fill.map (·.extentsRead) = some 1) = true := by decide +kernel
theorem wit_fillFrameDelivered : nextIs (exec (.fillFrameDelivered 0 3) (tier { obj1 .promoting with fill := some { landed := [[5]] } }))
    (fun u => (u.obj 0 3).fill.map (·.done) = some 1 && u.lake.mem.byte 0x40000000 = 5) = true := by decide +kernel
theorem wit_fillDone : nextIs (exec (.fillDone 0 3) (tier { obj1 .promoting with fill := some { done := 1 } }))
    (fun u => (u.obj 0 3).st = .resident) = true := by decide +kernel
theorem wit_releaseDone : nextIs (exec (.releaseDone 0 3) (tier (obj1 .demoting))) (fun u => (u.obj 0 3).st = .absent) = true := by
  decide +kernel
theorem wit_tierCommit : nextIs (exec (.tierCommit 0 3) (tier { obj1 .writing with writing := some ⟨.sweepWrite 0 (some 6), [[5]], 3, true, true⟩ }))
    (fun u => (u.obj 0 3).st = .resident && (u.obj 0 3).version = 3 && (u.obj 0 3).retiring = 1 && u.mark 0 6 = 1) = true := by decide +kernel
theorem wit_extentRetire : nextIs (exec (.extentRetire 0 3) (tier { obj1 .resident with retiring := 1 }))
    (fun u => (u.obj 0 3).retiring = 0) = true := by decide +kernel
theorem wit_recoverySource : nextIs (exec (.recoverySourceTimeout 0 3 .failed) (tier { obj1 .absent with recovery := some ⟨0, 1, 0, 0, none, false⟩ }))
    (fun u => (u.obj 0 3).recovery.isSome && (u.obj 0 3).recovery ≠ some ⟨0, 1, 0, 0, none, false⟩) = true := by decide +kernel
theorem wit_hostRecoveryTimeout : (let s := tier { obj1 .absent with recovery := some ⟨0, 4, 0, 0, none, true⟩ }
    s.tierServing 3 = true ∧ nextIs (exec (.hostRecoveryTimeout 0 3) s) (fun u => (u.obj 0 3).poison) = true) := by decide +kernel
theorem wit_lakeCopyRepair : (let s := { tier (obj1 .resident) with lake := { mem := tables, poison := [0x1000000] } }
    nextIs (exec (.lakeCopyRepair 0 3 0) s) fun u => u.lake.poison = [] && u.log.map (·.code) = [0x3103]) = true := by decide +kernel
theorem wit_lakeScrub : nextIs (exec (.lakeScrub 3 .clean) State.reset) (fun u => u.log = []) = true ∧
    nextIs (exec (.lakeScrub 3 .uncorrectable) State.reset) (fun u => u.lake.poison = [3] && u.log.map (·.code) = [0x3102]) = true ∧
    nextIs (exec (.lakeScrub 3 (.corrected 2)) State.reset) (fun u => u.lake.poison = []) = true := by decide +kernel
theorem wit_flashBackgroundWork : nextIs (exec (.flashBackgroundWork 0 ⟨1, 1, 64, 64⟩) State.reset)
    (fun u => u.lake.bytesFlash = 64) = true ∧ ∃ w : FlashWork, nextIs (exec (.flashBackgroundWork 0 { w with sparePercent := 1 }) State.reset)
    (fun u => u.lake.readOnly && u.log.map (·.code) = [0x3301, 0x3302]) = true := by
  refine ⟨by decide +kernel, ⟨1, 1, 64, 64⟩, by decide +kernel⟩
theorem wit_landingFrameArrival : State.reset.part.hasDie 0 = true ∧ State.reset.tierServing 4 = true ∧ State.reset.flashOn 4 = true ∧
    nextIs (exec (.landingFrameArrival 0 0 (.host (.command 0 0)) []) State.reset) (fun _ => true) = true := by decide +kernel

/-! ## Steps, sweep, exchange (R194, R216 to R262) -/

/-- Partition 0 in a step state of step 3, version 2, with command 7 alone. -/
def stepped (st : StepState) (op : Nat) (l : List (Nat × Nat)) : Partition :=
  { jobs [cmdOf 7 op l] with step := st, version := 2, stepNo := 3, stepSeed := 11 }

theorem test_stepOpen : starts .stepOpen 0x10 [(3, 384), (9, 320)] (mapped (stepped .idle 0x10 [(3, 384), (9, 320)]) []) fun u =>
    (u.partn 0).step = .opened && (u.partn 0).stepSeed = 9 && recorded u 0 0 := by unfold starts Starts; decide +kernel
theorem test_stepSeal : starts .stepSeal 0x11 [(3, 384)] (mapped (stepped .opened 0x11 [(3, 384)]) []) fun u =>
    (u.partn 0).step = .sealed && recorded u 0 0 := by unfold starts Starts; decide +kernel

/-- A slot that counted a non-finite value, of a class that stops a step for it. -/
def badSlot : Slot := { decl := ⟨5, 0, 0, 0, 5, 0⟩, nonfin := 1 }
def stopping : State := { mapped { stepped .opened 0x11 [(3, 384)] with slots := [badSlot] } [] with mgmt := { values := [(okey 0x4010 6, [1])] } }

theorem wit_stepSeal_stops : starts .stepSeal 0x11 [(3, 384)] stopping fun u => (u.partn 0).step = .discarded && recorded u 0 4 := by
  unfold starts Starts; decide +kernel
theorem test_stepCommit : starts .stepCommit 0x13 [(3, 384)] (mapped (stepped .swept 0x13 [(3, 384)]) []) fun u =>
    (u.partn 0).step = .idle && (u.partn 0).version = 3 && recorded u 0 0 := by unfold starts Starts; decide +kernel
theorem test_stepDiscard : starts .stepDiscard 0x14 [(3, 384)] (mapped (stepped .sealed 0x14 [(3, 384)]) []) fun u =>
    (u.partn 0).step = .idle && (u.partn 0).version = 2 && recorded u 0 0 := by unfold starts Starts; decide +kernel
theorem wit_stepDiscard_idle : starts .stepDiscard 0x14 [] (mapped (stepped .idle 0x14 []) []) fun u =>
    (u.partn 0).step = .idle && recorded u 0 0 := by unfold starts Starts; decide +kernel

/-- A SGDM sweep record without blocks: W at the lake page, dimensions 1. -/
def sweepRaw : U1024 := BitVec.ofNat 1024 (packed [(5, 992), (6, 928), (0x40000000, 496), (1, 224), (1, 192), (1, 176), (1, 160), (1, 144), (1, 44), (1, 42),
  (5, 38)])
def sweepArgs : List (Nat × Nat) := [(3, 384), (0x200, 336), (1, 320)]
def sweepState : State := mapped (stepped .sealed 0x12 sweepArgs) (Table.putBytes [] 0x200 (leBytes 128 sweepRaw.toNat))

theorem test_sweep : starts .sweep 0x12 sweepArgs sweepState fun u =>
    (u.partn 0).step = .sweeping && (u.partn 0).sweep.map (fun r => r.recs.map (·.stack)) = some [0] && (u.cursor 0).group = 1 := by
  unfold starts Starts; decide +kernel

/-- Two blocks of that record. -/
def sweepRec (n : Nat) : SweepRec :=
  { idx := 0, raw := sweepRaw ||| BitVec.ofNat 1024 (packed [(n, 80)]), stack := 0, wFmt := 5, wBlk := 0, gFmt := 5, gBlk := 0, rows := [] }
def sweeping (recs : List SweepRec) (stores : Table SweepStore) : State :=
  { mapped { stepped .sweeping 0x12 [] with sweep := some { s := 0, q := 7, step := 3, recs := recs }, lastSweep := recs } [] with
    lake := { mem := tables, stores := stores } }

theorem wit_sweepEnd : nextIs (exec (.sweepEnd 0) (sweeping [] [])) (fun u => (u.partn 0).step = .swept && recorded u 0 0) = true := by
  decide +kernel
theorem wit_sweepBlock : (let s := sweeping [sweepRec 2] []
    let run : SweepRun := { s := 0, q := 7, step := 3, recs := [sweepRec 2] }
    s.unitRest run 0 = [sweepRec 2] ∧ (sweepRec 2).needs (s.cursor 0).block = [] ∧ (s.acquireAll 0 0 (sweepRec 2) []).2 = false ∧
      s.working = true ∧ s.sup.recovering.contains 0 = false ∧ (s.sweepStore 0).interrupted = false) := by decide +kernel
theorem wit_sweepResume : nextIs (exec (.sweepResume 0 0) (sweeping [sweepRec 2] [(0, { interrupted := true })]))
    (fun u => u.log.map (·.code) = [0x6151] && !(u.sweepStore 0).interrupted) = true := by decide +kernel

/-- A tiered record whose object 9 is poisoned. -/
def tieredRec : SweepRec := { sweepRec 1 with raw := sweepRaw ||| BitVec.ofNat 1024 (packed [(1, 80), (1, 28), (9, 832)]) }

theorem wit_sweepBlock_poisoned : (let s := { sweeping [tieredRec] [] with parts := [(0, { (sweeping [tieredRec] []).partn 0 with
      objects := [(9, { obj1 .absent with poison := true })] })] }
    (tieredRec.needs (s.cursor 0).block).find? (fun o => (s.obj 0 o).poison && !(s.obj 0 o).heldBy 0) = some 9 ∧
      tieredRec.factored = false) := by decide +kernel

/-- A record that awaits its mirrors' digests. -/
def awaiting : State :=
  mapped { st := .attached, lastSweep := [sweepRec 0], digestRecs := [sweepRec 0], digests := [(0, 0)], awaitingDigest := [0] } []

theorem wit_digestExchange : (awaiting.partn 0).digestRecs.find? (fun e => e.idx = 0) = some (sweepRec 0) ∧
    nextIs (exec (.digestExchange 0 0 []) awaiting) (fun u => (u.partn 0).awaitingDigest = []) = true ∧
    nextIs (exec (.digestExchange 0 0 [⟨1, 77, []⟩]) awaiting) (fun u => u.log.map (·.code) = [0x4220]) = true := by decide +kernel
theorem wit_digestTimeout : nextIs (exec (.digestTimeout 0 0) awaiting) (fun u => u.log.map (·.code) = [0x4223]) = true := by decide +kernel

/-- A gather of one tile in group 0, whose only member is this module. -/
def gatherRaw : U1024 := BitVec.ofNat 1024 (packed [(0x77, 992), (0x40000000, 848), (0x40010000, 800), (0x40020000, 752), (0x40030000, 704),
  (1, 672), (1, 660)])
def alone : Management := { values := [(okey 0x6000 1, [0]), (okey 0x6400 1, leBytes 8 1), (okey 0x6400 2, leBytes 1 0 ++ List.replicate 63 0xFF)] }
def exchangeArgs : List (Nat × Nat) := [(0x200, 336), (1, 320)]

theorem test_exchange : starts .exchange 0x20 exchangeArgs
    { mapped (stepped .idle 0x20 exchangeArgs) (Table.putBytes [] 0x200 (leBytes 128 gatherRaw.toNat)) with mgmt := alone }
    fun u => (u.partn 0).xruns.map (·.xid) = [0x77] := by unfold starts Starts; decide +kernel

/-- A record of group 0 with the bits l, started or not. -/
def xrunOf (l : List (Nat × Nat)) (started : Bool) : XRun :=
  { s := 0, q := 7, idx := 0, raw := BitVec.ofNat 1024 (packed ([(0x77, 992), (1, 672)] ++ l)), scheduled := false, inStep := false, seed := 0
    stepKey := 0, version := 0, odd := false, fs := 5, started := started }
def exchanging (r : XRun) : State := { mapped { st := .attached, xruns := [r] } [] with mgmt := alone }

theorem wit_exchangeRecordStart : nextIs (exec (.exchangeRecordStart 0 0) (exchanging (xrunOf [] false)))
    (fun u => (u.partn 0).xruns.map (·.started) = [true]) = true := by decide +kernel
theorem wit_exchangeRecordTrigger : nextIs (exec (.exchangeRecordTrigger 0 0)
    (exchanging { xrunOf [] false with scheduled := true, triggered := true })) (fun u => (u.partn 0).xruns.map (·.started) = [true]) = true := by
  decide +kernel
theorem wit_exchangeRecordComplete : (let r := { xrunOf [(1, 660)] true with written := [0], compressed := 1 }
    (exchanging r).xComplete 0 r = true ∧
      nextIs (exec (.exchangeRecordComplete 0 0) (exchanging r)) (fun u => (u.partn 0).xruns.all (·.complete)) = true) := by decide +kernel

/-- The same record in a group of modules 0 and 1. -/
def paired (r : XRun) : State := { exchanging r with mgmt := { values := [(okey 0x6000 1, [0]), (okey 0x6400 1, leBytes 8 3),
  (okey 0x6400 2, [0, 0] ++ List.replicate 62 0xFF)] } }

theorem wit_exchangePeerTimeout : (let r := xrunOf [(1, 660)] true
    (paired r).xNeeds 0 r 1 = true ∧
      nextIs (exec (.exchangePeerTimeout 0 0 1) (paired r)) (fun u => u.log.map (·.code) = [0x5102]) = true) := by decide +kernel
theorem wit_multicastDetach : nextIs (exec (.multicastDetach 0 0 0) (paired (xrunOf [(2, 660)] true)))
    (fun u => (u.partn 0).xruns.map (·.detached) = [[0]] && u.log.map (·.code) = [0x5101]) = true := by decide +kernel
theorem wit_stageQueueMarkForward : (let s := mapped { st := .attached, marks := [(1, 5)], stageQueues := [{ decl := ⟨1, 1, 0, 1, 2, 3, 4, true, true⟩ }] } []
    nextIs (exec (.stageQueueMarkForward 0 0 ⟨false, none⟩) s) fun u => u.mark 0 2 = 5) = true := by decide +kernel

/-- A stage queue whose producer is another module. -/
theorem wit_stageQueueMarkForward_far : (let s := mapped { st := .attached, stageQueues := [{ decl := ⟨1, 1, 0, 1, 2, 3, 4, false, true⟩ }] } []
    nextIs (exec (.stageQueueMarkForward 0 0 ⟨false, some 7⟩) s) fun u => u.mark 0 2 = 7) = true := by decide +kernel

/-- Hypotheses of the reductions: a started reduction of one tile that this module owns, with no contribution missing. -/
theorem wit_reduceContribution : (let r := { xrunOf [(3, 660), (5, 646), (1, 672)] true with
      parts := (List.range 1).map fun b => { block := b, rank := 0, vals := [0], sats := [false] } }
    r.reduces = true ∧ 0 < r.nt ∧ r.ownerOf ((paired r).ranks 0 r) 0 = (paired r).myRank 0 r ∧ r.outD.find 0 = none ∧
      (paired r).ranks 0 r = 2 ∧ blocksPerTile 5 = 1) := by decide +kernel

/-! ## Runs and serving (R80, R131, R201 to R205, R328 to R332) -/

/-- An image with one segment, of one core and thread, and a layer. -/
def layer0 : LayerRec := { spans := [(0, 0, 4)], outputs := [], a16 := false, marks := [], entries := [⟨0, false, [(0, 0, 1)]⟩] }
def variant0 : Variant := { cores := [⟨0, [0, 0, 0, 0], [(0, 2)]⟩], layers := [layer0] }
def image0 : Image :=
  { shapes := [[3, 3, 3, 3]], watch := [], ledger := 0, vstages := 0, stageQueues := [], mirrorFactor := 1, mirrors := []
    channelLossRecovery := false, segments := [⟨0, [variant0], []⟩], serve := none }

/-- The RUN of image0: address, segment 0, variant 0. -/
def runRaw : List (Nat × Nat) := [(0x200, 400)]
def runState : State := mapped (jobs [cmdOf 7 0x01 runRaw]) []

theorem test_run : Starts runState 0 0 7 0x01 (cmdOf 7 0x01 runRaw) ∧
    (begun runState 0 0 7).runRefused 0 0 (cmdOf 7 0x01 runRaw) image0 = none ∧
    nextIs (exec (.run 0 0 7 image0) runState) (fun u => (u.cmd 0 0 7).map (·.waiting) = some (some image0)) = true := by
  unfold Starts; decide +kernel
theorem wit_run_shape : nextIs (exec (.run 0 0 7 { image0 with shapes := [[4]] }) runState) (fun u => recorded u 0 8) = true := by
  decide +kernel

/-- The RUN waits for its launch. -/
def waitingRun : State := mapped (jobs [{ cmdOf 7 0x01 runRaw with img := some image0 }]) []

theorem test_runLaunch : nextIs (exec (.runLaunch 0 0 7) waitingRun) (fun u =>
    (u.segment 0 0 7).isSome && ((u.core 0).thread 0).st = .ready && ((u.core 0).thread 0).pc = 2 &&
      (u.cmd 0 0 7).map (·.phase) = some .running) = true := by decide +kernel

/-- The launched segment on core 0 with a thread h, stopped or not. -/
def launchedRun (h : Thread) (stop : Option StopKind) : State :=
  { mapped { jobs [{ cmdOf 7 0x01 runRaw with phase := .running }] with segments := [{ seg0 with q := 7, variant := variant0, stop := stop }] }
      [] with cores := [(0, { core0 0 h with seg := some (0, 0, 7) })] }

theorem test_segmentEnd : nextIs (exec (.segmentEnd 0 0 7) (launchedRun { st := .halted } none)) (fun u =>
    (u.segment 0 0 7).isNone && (u.core 0).seg.isNone && recorded u 0 0) = true := by decide +kernel
theorem test_segmentFaultStopped : nextIs (exec (.segmentFaultStopped 0 0 7) (launchedRun { st := .halted } (some .halt))) (fun u =>
    (u.segment 0 0 7).isNone && recorded u 0 4 && u.log.map (·.code) = [0x6120]) = true := by decide +kernel
theorem test_layerRestart : nextIs (exec (.layerRestart 0 0 7) (launchedRun { st := .halted } (some (.layer 0)))) (fun u =>
    (u.segment 0 0 7).map (·.stop) = some none && ((u.core 0).thread 0).st = .ready && ((u.core 0).thread 0).pc = 1) = true := by
  decide +kernel
theorem wit_layerRestart_entries : ((launchedRun { st := .halted } (some (.layer 0))).writeEntries 0 false).2 = none := by decide +kernel

/-- A serving image: the batch table in the lake, two context slots, buckets of one slot. -/
def serve0 : ServeDecl := ⟨0x40000000, 2, [(1, 0)], [(1, 0)], 4⟩
def imageS : Image := { image0 with serve := some serve0 }
def serveRaw : List (Nat × Nat) := [(0x200, 400), (0xFF, 296), (1, 295)]

theorem test_runServe : (let s := mapped (jobs [cmdOf 7 0x01 serveRaw]) []
    let u := ((begun s 0 0 7).install 0 imageS).1.onCmd 0 0 7 fun k => { k with phase := .accepted, started := 0, img := some imageS }
    ((begun s 0 0 7).install 0 imageS).2 = none ∧ Starts s 0 0 7 0x01 (cmdOf 7 0x01 serveRaw) ∧ (cmdOf 7 0x01 serveRaw).serve = true ∧
      (begun s 0 0 7).runRefused 0 0 (cmdOf 7 0x01 serveRaw) imageS = none ∧
      u.serveRefused 0 { cmdOf 7 0x01 serveRaw with img := some imageS } imageS = none ∧
      nextIs (exec (.runServe 0 0 7 imageS) s) (fun u => (u.partn 0).serves.map (·.q) = [7]) = true) := by
  unfold Starts; decide +kernel

/-- A request of stream 1 with a FEED of four tokens, of which two are fed. -/
def request0 : Request :=
  { stream := 1, openSeq := 3, irq := false, ctx := 0, maxTokens := 9, endToken := 0xFFFFFFFF, seed := 0, order := 0
    feeds := [⟨4, 0x400, 4, 2, true⟩] }

/-- Partition 0 serving, with these requests and this batch. -/
def serving (rs : List Request) (b : Option Batch) : Partition :=
  { jobs [{ cmdOf 7 0x01 serveRaw with phase := .running }] with
    streams := [(0, { en := true, kind := 2, cplBase := 0x10000, journal := [{ cmdOf 7 0x01 serveRaw with phase := .running }] }),
      (1, { en := true, kind := 1, cplBase := 0x20000, journal := [{ cmdOf 3 0x50 [] with phase := .running },
        { cmdOf 4 0x51 [] with phase := .running, order := 1 }] })]
    image := some imageS
    serves := [{ s := 0, q := 7, segNum := 0, seed := 0, img := imageS, requests := rs, batch := b }] }

theorem test_servePassStart : nextIs (exec (.servePassStart 0 0) (mapped (serving [request0] none) [])) (fun u =>
    (u.partn 0).serves.map (·.batch) = [some ⟨true, [⟨1, 3, 4, 2⟩]⟩] && (u.segment 0 0 7).isSome &&
      bits (leNat (u.lake.mem.bytes 0x40000000 64)) 463 448 = 2) = true := by decide +kernel

/-- The pass's segment, done. -/
def passing (b : Batch) (rs : List Request) : State :=
  { mapped { serving rs (some b) with segments := [{ seg0 with q := 7, variant := variant0 }] } [] with
    cores := [(0, { core0 0 { st := .halted } with seg := some (0, 0, 7) })] }

theorem test_servePassEnd_feed : nextIs (exec (.servePassEnd 0 0) (passing ⟨true, [⟨1, 3, 4, 2⟩]⟩ [request0])) (fun u =>
    (u.partn 0).requests.map (fun r => (r.prompted, r.pos, r.feeds)) = [(true, 2, [])] && (u.cmd 0 1 4).isNone) = true := by decide +kernel
theorem test_servePassEnd_token : nextIs (exec (.servePassEnd 0 0) (passing ⟨false, [⟨1, 3, 0, 0⟩]⟩ [{ request0 with feeds := [], prompted := true }]))
    (fun u => (u.partn 0).requests.map (fun r => (r.tokens, r.ended)) = [(1, false)] && u.host.byte (0x20000 + 23) = 0x5F) = true := by
  decide +kernel

/-- Stream 1 of that partition holds the commands ks. -/
def asking (rs : List Request) (ks : List Cmd) : State :=
  let x := serving rs none
  mapped { x with streams := Table.put x.streams 1 { x.stream 1 with journal := ks } {} } []

theorem test_requestOpen : nextIs (exec (.requestOpen 0 1 3) (asking [] [cmdOf 3 0x50 [(9, 418)]])) (fun u =>
    (u.partn 0).requests.map (fun r => (r.ctx, r.maxTokens)) = [(0, 9)]) = true := by decide +kernel
theorem test_requestFeed : nextIs (exec (.requestFeed 0 1 4) (asking [{ request0 with feeds := [] }]
    [{ cmdOf 3 0x50 [] with phase := .running }, { cmdOf 4 0x51 [(0x400, 400), (4, 384), (1, 383)] with order := 1 }])) (fun u =>
    (u.partn 0).requests.map (·.feeds) = [[⟨4, 0x400, 4, 0, true⟩]]) = true := by decide +kernel
theorem test_requestClose : nextIs (exec (.requestClose 0 1 5) (asking [{ request0 with feeds := [], ended := true }] [cmdOf 5 0x52 []])) (fun u =>
    (u.partn 0).requests = [] && (u.cmd 0 1 5).isNone) = true := by decide +kernel

theorem test_watchPeriodEnd : nextIs (exec (.watchPeriodEnd 0) (mapped { serving [] none with periodStarted := true } [])) (fun u =>
    (u.partn 0).periods = 1 && (u.partn 0).periodStarted) = true := by decide +kernel

/-! ## Imports, shards and frames from the host (R180, R235, R308, R369) -/

/-- frame15 stands in host memory at 0x20000. -/
def host15 : Table Byte := Table.putBytes [] 0x20000 frame15

/-- The pages that a read of it touches. -/
def pages15 : List (Target × Nat) := [(.host 0x20000, 4096), (.host 0x21000, 576)]

/-- The state translates n bytes at va to the parts l. -/
def sees (s : State) (va n : Nat) (l : List (Target × Nat)) : Bool :=
  match s.translateRange 0 va n {} with
  | .ok m => m = l
  | .error _ => false

theorem bytes_append (m : Table Byte) {a b n k t : Nat} (hb : b = a + n) (ht : t = n + k) : m.bytes a n ++ m.bytes b k = m.bytes a t := by
  subst hb ht
  apply List.ext_getElem (by simp)
  intro i h1 h2
  rw [Table.getElem_bytes]
  by_cases h : i < n
  · rw [List.getElem_append_left (by simpa using h), Table.getElem_bytes]
  · rw [List.getElem_append_right (by simpa using h), Table.getElem_bytes]
    congr 1
    simp only [Table.length_bytes]
    omega

theorem host15_frame : host15.bytes 0x20000 4672 = frame15 := by
  have f := Table.bytes_putBytes [] 0x20000 frame15
  rw [length_frame15] at f
  unfold host15
  exact f

theorem host15_bytes : host15.bytes 0x20000 4096 ++ host15.bytes 0x21000 576 = frame15 := by
  rw [bytes_append host15 (t := 4672) (by decide) (by decide), host15_frame]

theorem partBytes_pages15 {s : State} (e : s.host = host15) : s.partBytes pages15 = frame15 := by
  rw [← host15_bytes]
  simp only [State.partBytes, pages15, List.flatMap_cons, List.flatMap_nil, List.append_nil, e]

theorem badPart_pages15 (s : State) : s.badPart pages15 = none := by
  simp only [State.badPart, pages15, List.findSome?_cons, List.findSome?_nil]

theorem translate_of_sees {s : State} {va n : Nat} {l : List (Target × Nat)} (t : sees s va n l = true) :
    s.translateRange 0 va n {} = .ok l := by
  simp only [sees] at t
  generalize s.translateRange 0 va n {} = r at t
  cases r with
  | error e => simp at t
  | ok m => simp only [decide_eq_true_eq] at t; rw [t]

theorem vread_of {s : State} {va n : Nat} {l : List (Target × Nat)} {bs : List Byte} (h : s.translateRange 0 va n {} = .ok l)
    (a : anyPeer l = false) (b : s.badPart l = none) (p : s.partBytes l = bs) : s.vread 0 va n = .ok bs := by
  unfold State.vread
  rw [h]
  dsimp only
  rw [a, b, p]
  rfl

theorem vread_host15 {s : State} {va : Nat} (e : s.host = host15) (t : sees s va 4672 pages15 = true) : s.vread 0 va 4672 = .ok frame15 :=
  vread_of (translate_of_sees t) (by decide) (badPart_pages15 s) (partBytes_pages15 e)

theorem readFrames_host15 {s : State} (e : s.host = host15) (t : sees s (0x20000 + 0 * frameBytes) 4672 pages15 = true) :
    s.readFrames 0 0x20000 1 = .ok [frame15] := by
  have v := vread_host15 e t
  have c : frameCheckOk frame15 = true := frameCheckOk_mkFrame _ _ _
  unfold State.readFrames State.readFrames
  simp only [show frameBytes = 4672 from rfl] at v ⊢
  rw [v]
  simp only [c, if_true, List.nil_append]

/-- An IMPORT of frame15 as object 3. -/
def importArgs : List (Nat × Nat) := [(0x20000, 398), (3, 366), (1, 334)]
def importing : State := mapped (jobs [cmdOf 7 0x41 importArgs]) host15

theorem wit_importObject : Starts importing 0 0 7 0x41 (cmdOf 7 0x41 importArgs) ∧ importing.tierServing 3 = true ∧
    (begun importing 0 0 7).lake.readOnly = false ∧ ((begun importing 0 0 7).obj 0 3).created = false ∧
    (begun importing 0 0 7).vcheck 0 0x20000 4672 false = none ∧ (begun importing 0 0 7).readFrames 0 0x20000 1 = .ok [frame15] := by
  refine ⟨by unfold Starts; decide +kernel, by decide +kernel, by decide +kernel, by decide +kernel, by decide +kernel, ?_⟩
  exact readFrames_host15 rfl (by decide +kernel)

/-- The host answers a recovery of object 3 at its version 0. -/
def repairArgs : List (Nat × Nat) := [(1, 446), (0x20000, 398), (3, 366)]
def repairing : State :=
  mapped { jobs [cmdOf 7 0x41 repairArgs] with objects := [(3, { version := 0, frames := [frame15], recovery := some ⟨0, 4, 0, 0, none, true⟩ })] } host15

theorem sameTile_self {v : U64} {f : List Byte} (l : f.length = 4672) (c : frameCheckOk f = true) (h : (frameHeader f).version = v.toNat) :
    sameTile v f f = true := by
  unfold sameTile
  simp [l, c, frameBytes, h]

theorem wit_importRepair : Starts repairing 0 0 7 0x41 (cmdOf 7 0x41 repairArgs) ∧ repairing.tierServing 3 = true ∧
    ((begun repairing 0 0 7).obj 0 3).recovery = some ⟨0, 4, 0, 0, none, true⟩ ∧ ((begun repairing 0 0 7).obj 0 3).version.toNat = 0 ∧
    ((begun repairing 0 0 7).obj 0 3).extentFrames 0 = [frame15] ∧ (begun repairing 0 0 7).readFrames 0 0x20000 1 = .ok [frame15] ∧
    framesBad 0 [frame15] [frame15] 0 = none := by
  refine ⟨by unfold Starts; decide +kernel, by decide +kernel, by decide +kernel, by decide +kernel, rfl,
    readFrames_host15 rfl (by decide +kernel), ?_⟩
  unfold framesBad framesBad
  rw [sameTile_self length_frame15 (frameCheckOk_mkFrame _ _ _) (frame15_version.trans (by decide +kernel : (0 : Nat) = (0 : U64).toNat))]
  rfl

/-- A sweep record's first state stream, with no blocks: its shard record is a header alone. -/
def exportArgs : List (Nat × Nat) := [(0x200, 400), (1, 384), (0x40000000, 272), (128, 232), (4, 227)]
def exporting : State := mapped (jobs [cmdOf 7 0x40 exportArgs]) (Table.putBytes [] 0x200 (leBytes 128 sweepRaw.toNat))
theorem wit_exportState : Starts exporting 0 0 7 0x40 (cmdOf 7 0x40 exportArgs) ∧
    (let b := begun exporting 0 0 7
     (match b.readLists 0 0x200 1 0 0 with
      | .ok (recs, xrecs) => (match b.shapes 0 ((b.partn 0).shardParts 4 recs xrecs (b.sourceFmt 0)) with
        | (l, none) => l.map (fun e => (e.1.role, e.2)) = [(3, 5, 0, 0)] && shardBytes l = 128 && (b.vcheck 0 0x40000000 128 true).isNone
        | _ => false)
      | .error _ => false) = true) := by unfold Starts; decide +kernel

/-- Restoring from empty lists. -/
def restoreArgs : List (Nat × Nat) := [(2, 446), (0x400, 398), (0x200, 350)]
def restoring : State := mapped { jobs [cmdOf 7 0x41 restoreArgs] with stateIntact := false } []

theorem test_importShard : starts .importShard 0x41 restoreArgs restoring fun u => recorded u 0 0 && (u.partn 0).stateIntact && (u.partn 0).imported := by
  unfold starts Starts; decide +kernel

/-! ## The fabric (R268 to R287) -/

/-- Module number 0 of a domain of 2 × 1 × 1: partition 0 joined with itself there, lanes 0 and 1 its own, group 0 of both
modules. -/
def domain2 : Management := { values := [(okey 0x3000 9, [3]), (okey 0x6000 1, [0]), (okey 0x6000 2, [2, 1, 1, 0]),
  (okey 0x6020 1, List.replicate 64 0), (okey 0x6400 1, leBytes 8 3), (okey 0x6400 2, [0, 0] ++ List.replicate 62 0xFF)] }

/-- A packet of module 1, partition 0. -/
def packetOf (ptype psn addr aux kind : Nat) (body : List Byte) : Packet :=
  mkPacket 1 0 { dstMod := 0, dstPart := 0, ptype := ptype, vl := 0, prio := 0, psn := psn, addr := addr, aux := aux, kind := kind } body

/-- The packet has arrived in the landing of die 0; the rest of the state is s's. -/
def landed (s : State) (k : Packet) : State := { s with fabric := { s.fabric with landings := [(0, { arrived := [k] })] }, mgmt := domain2 }

/-- What is left when it has been taken. -/
def taken (s : State) (k : Packet) : State := (landed s k).setLanding 0 {}

theorem takes (s : State) (k : Packet) : (landed s k).takeArrived 0 k = some (taken s k) := by
  simp [State.takeArrived, State.landing, landed, taken]

/-- Partition 0 attached, with its tables. -/
def ours : State := mapped { st := .attached } []

/-- The WRITE of frame15 to lake pages, new. -/
theorem wit_fabricWrite : (let k := packetOf 1 5 0x40000000 0 0 frame15
    ours.working = true ∧ k.ptype = 1 ∧ (taken ours k).psnIs k = .fresh ∧ frameCheckOk k.body = true ∧
      (match (taken ours k).peerRange k true with
        | .ok l => decide (l = [(.lake 0x40000000, 4096), (.lake 0x40001000, 576)])
        | .error _ => false) = true) := by
  refine ⟨by decide +kernel, by decide +kernel, by decide +kernel, frameCheckOk_mkFrame _ _ _, by decide +kernel⟩
theorem wit_fabricWrite_nak : (let k := packetOf 1 5 0x1000 0 0 frame15
    (taken ours k).psnIs k = .fresh ∧ (match (taken ours k).peerRange k true with
        | .ok _ => 0
        | .error e => e) = 3) := by decide +kernel

/-- What answers a packet that arrived: type and KIND of the packet in the landing towards module 1. -/
def answered (s : State) : List (Nat × Nat) := (s.landing 0).leaving.map fun k => (k.ptype, k.kind)

theorem test_fabricWrite_duplicate : (let k := packetOf 1 5 0x40000000 0 0 []
    let s := landed ours k
    nextIs (exec (.fabricWrite 0 k) { s with fabric := { s.fabric with windows := [(k.windowKey, [5])] } }) fun u =>
      answered u = [(4, 0)]) = true := by decide +kernel
/-- A PSN 4,097 behind the highest is too old; one that is in the window is a duplicate. -/
theorem wit_psn_old : (let k := packetOf 4 5 0 9 0 []
    let s := landed ours k
    let s : State := { s with fabric := { s.fabric with windows := [(k.windowKey, [4102])] } }
    s.working = true ∧ s.psnIs k = .old ∧ nextIs (exec (.fabricAck 0 k) s) (fun u => u.counters = [(okey 0x8080 1, 1)] &&
      (u.landing 0).arrived = []) = true) := by decide +kernel
theorem wit_xframe_duplicate : (let k := packetOf 5 5 0 9 0 []
    let s := landed ours k
    let s : State := { s with fabric := { s.fabric with windows := [(k.windowKey, [5])] } }
    s.psnIs k = .duplicate ∧ nextIs (exec (.xframe 0 k) s) (fun u => u.counters = [(okey 0x8080 1, 1)] && (u.landing 0).arrived = []) = true) := by
  decide +kernel
theorem test_readReq : (let k := packetOf 2 5 0x40000000 0 0 []
    nextIs (exec (.readReq 0 k) (landed ours k)) fun u => answered u = [(3, 0)] && (u.fabric.windows.get k.windowKey []) = [5]) = true := by
  decide +kernel
theorem test_readReq_nak : (let k := packetOf 2 5 0x1000 0 0 []
    nextIs (exec (.readReq 0 k) (landed ours k)) fun u => answered u = [(8, 3)]) = true := by decide +kernel

/-- The unanswered access with PSN 9 to module 1. -/
def remote9 (write : Bool) : Remote :=
  { p := 0, psn := 9, vl := 0, mover := .command 0 0, tile := 0, write := write, attempts := 1, since := 0,
    packet := mkPacket 0 0 { dstMod := 1, dstPart := 0, ptype := 2, vl := 0, prio := 0, psn := 9 } [] }

/-- A command mover's descriptor whose tile waits for the access of PSN 9. -/
def remote (write : Bool) : State :=
  let d : Desc := { raw := moveDesc 0, addr := 0, thread := 0, pc := 0, word := 0, layer := none, origin := (0, 0, 7), next := 1,
                    st := .active, flights := [⟨0, false, some 9, none⟩] }
  { mapped { jobs [{ cmdOf 7 0x02 [] with phase := .running }] with marks := [] } [] with
    movers := [(0, [d])],
    fabric := { State.reset.fabric with remotes := [remote9 write] } }

theorem wit_readData : (let k := packetOf 3 5 0 9 0 frame15
    let u := taken (remote false) k
    k.ptype = 3 ∧ u.psnIs k = .fresh ∧ ((u.remoteOf k).map fun r => (r.load, (u.descOf r).map fun d => d.tmatch)) = some (none, some false) ∧
      frameCheckOk k.body = true ∧ ∀ d : Desc, d.tmatch = false → frameFits d k.body = true) := by
  refine ⟨by decide +kernel, by decide +kernel, by decide +kernel, frameCheckOk_mkFrame _ _ _, fun d h => ?_⟩
  simp only [frameFits, h, Bool.not_false, Bool.true_or, Bool.and_true]
  exact frameCheckOk_mkFrame _ _ _
theorem test_fabricAck : (let k := packetOf 4 5 0 9 0 []
    nextIs (exec (.fabricAck 0 k) (landed (remote true) k)) fun u => u.fabric.remotes = []) = true := by decide +kernel
theorem test_nakFault : (let k := packetOf 8 5 0 9 2 []
    nextIs (exec (.nakFault 0 k) (landed (remote true) k)) fun u => (u.movers.map fun e => e.2.map fun d => d.flights) = [[[]]]) = true := by
  decide +kernel
theorem test_fabricAck_record : (let r := { xrunOf [] true with unacked := [⟨1, 0, 9, 0, []⟩] }
    let k := packetOf 4 5 0 9 0 []
    nextIs (exec (.fabricAck 0 k) (landed (exchanging r) k)) fun u => (u.partn 0).xruns.map (·.unacked) = [[]]) = true := by decide +kernel
theorem test_fabricCancel : (let k := packetOf 7 5 0 0x77 0 []
    nextIs (exec (.fabricCancel 0 k) (landed (paired (xrunOf [] true)) k)) fun u =>
      u.log.map (·.code) = [0x5103] && (u.partn 0).xruns = []) = true := by decide +kernel
theorem wit_fabricCancel : (let k := packetOf 7 5 0 0x77 0 []
    let u := taken (paired (xrunOf [] true)) k
    u.psnIs k = .fresh ∧ ((u.enterPsn k).partn k.dstPart).xidAt k.aux = some 0) := by decide +kernel
theorem test_packetTimeout : nextIs (exec (.packetTimeout 0 ⟨0, 9⟩) (landed (remote false) (packetOf 4 0 0 0 0 [])))
    (fun u => u.fabric.remotes.map (·.attempts) = [2]) = true := by decide +kernel
theorem test_packetTimeout_second : (let s := landed (remote false) (packetOf 4 0 0 0 0 [])
    nextIs (exec (.packetTimeout 0 ⟨0, 9⟩) { s with fabric := { s.fabric with remotes := s.fabric.remotes.map fun r => { r with attempts := 2 } } })
      fun u => u.fabric.remotes = [] && u.log.map (·.code) = [0x5206]) = true := by decide +kernel

/-! ## Exchange frames and reductions (R252 to R256) -/

/-- Record 0x77 of tensor 9 of group 0, with the bits l. -/
def record9 (l : List (Nat × Nat)) : XRun := xrunOf ([(1, 672), (9, 960)] ++ l) true

/-- One whose source this module cannot read. -/
def record5 : XRun := record9 [(5, 646), (0x90000000, 848)]

theorem sameVersion15 (r : XRun) (k : Packet) (b : k.body = frame15) (p : k.ptype = 5) : r.sameVersion k = true := by
  unfold XRun.sameVersion
  simp [b, p, frame15_tags.1, ptMcast]

theorem sameVersion15_zero (r : XRun) (k : Packet) (b : k.body = frame15) (v : r.version = 0) : r.sameVersion k = true := by
  unfold XRun.sameVersion
  simp [b, v, frame15_version]

theorem recordOf_one {s : State} {k : Packet} {r : XRun} (x : (s.partn 0).xruns = [r]) (a : r.xid = k.aux) (b : (r.started && !r.ended) = true)
    (v : r.sameVersion k = true) : s.recordOf k 0 = some (0, r) := by
  unfold State.recordOf
  simp only [Bool.and_eq_true, Bool.not_eq_true'] at b
  simp [x, a, b.1, b.2, v, List.findIdx?_cons]

theorem wit_xframe : (let k := packetOf 5 5 0 0x77 0 frame15
    let s := landed (exchanging record5) k
    let u := taken (exchanging record5) k
    s.working = true ∧ k.ptype = 5 ∧ u.psnIs k = .fresh ∧ s.recordOf k 0 = some (0, record5) ∧ record5.reduces = true ∧
      (u.groupMembers 0 0).contains k.srcMod = true) := by
  refine ⟨by decide +kernel, by decide +kernel, by decide +kernel, ?_, by decide +kernel, by decide +kernel⟩
  exact recordOf_one (by decide +kernel) (by decide +kernel) (by decide +kernel) (sameVersion15 _ _ rfl (by decide +kernel))

theorem judge_frame15 (r : XRun) (ranks me rank index : Nat) (h : r.srcTensor = 9) (m : r.mode = 0) (n : index < r.nt)
    (o : r.ownerOf ranks index = me) (f : r.fs = 5) : ∃ parts, r.judge none ranks me rank index frame15 = .good parts := by
  have c : frameCheckOk frame15 = true := frameCheckOk_mkFrame _ _ _
  unfold XRun.judge
  dsimp only
  rw [c, frame15_tensor, frame15_tags.1, h, m, o, f]
  have e : (decide (r.nt ≤ index)) = false := by simp [n]
  simp only [e, xmNone, ne_eq, not_true_eq_false, decide_false, Bool.not_true, Bool.or_self, Bool.false_eq_true, if_false, if_true,
    Nat.reduceEqDiff, eq_iff_iff, iff_true, Option.any_none]
  exact ⟨_, rfl⟩

theorem wit_xframe_good : (taken (exchanging record5) (packetOf 5 5 0 0x77 0 frame15)).expectedOrigin 0 record5 false 0 = none ∧
    ∃ parts, record5.judge none 2 0 1 0 frame15 = .good parts :=
  ⟨by decide +kernel, judge_frame15 _ _ _ _ _ (by decide +kernel) (by decide +kernel) (by decide +kernel) (by decide +kernel) rfl⟩

/-- The second shard's reduced tile comes from module 1; this member cannot read its own source tile, so no origin is expected. -/
theorem wit_mcast : (let r := record9 [(3, 660), (9, 928), (5, 646), (0x90000000, 848)]
    let k := packetOf 6 5 1 0x77 0 frame15
    let s := landed (exchanging r) k
    let u := taken (exchanging r) k
    s.endPart k = 0 ∧ k.tree = false ∧ u.expectedOrigin 0 r true k.addr = none ∧ s.recordOf k 0 = some (0, r) ∧ r.kind = 3 ∧ u.psnIs k = .fresh ∧ (u.groupMembers 0 r.group).contains k.srcMod = true ∧
      (u.xWanted 0 r).contains k.addr = true ∧ u.sourceOf 0 r k.addr = k.srcMod ∧ r.written.contains k.addr = false ∧
      frameCheckOk k.body = true ∧ (frameHeader k.body).tensor = r.dstTensor) := by
  refine ⟨?_, ?_, ?_, recordOf_one rfl (by decide +kernel) (by decide +kernel) (sameVersion15_zero _ _ rfl (by decide +kernel)), ?_, ?_, ?_,
    ?_, ?_, ?_, frameCheckOk_mkFrame _ _ _, frame15_tensor.trans (by decide +kernel)⟩ <;> decide +kernel

/-- A reduction whose source and residual are frame15 in host memory. -/
def reducing (l : List (Nat × Nat)) : XRun := record9 ([(0x20000, 848), (0x20000, 752), (5, 646), (5, 650)] ++ l)
def compressing' (r : XRun) : State := { mapped { st := .attached, xruns := [r] } [] with mgmt := domain2 }
def compressing (l : List (Nat × Nat)) : State := { mapped { st := .attached, xruns := [reducing l] } host15 with mgmt := domain2 }

theorem xTile_of {s : State} {r : XRun} {i : Nat} {f : List Byte} (v : s.vread 0 (r.srcAddr + i * frameBytes) frameBytes = .ok f)
    (c : frameCheckOk f = true) (t : (frameHeader f).tensor = r.srcTensor) (h : (frameHeader f).fmt = r.fs) : s.xTile 0 r i = (s, some f) := by
  rw [State.xTile.eq_def, v]
  simp [c, t, h]

theorem vread_compressing : (compressing []).vread 0 ((reducing []).srcAddr + 0 * frameBytes) frameBytes = .ok frame15 :=
  vread_host15 (va := (reducing []).srcAddr + 0 * frameBytes) rfl (by decide +kernel)

theorem fields_reducing : (reducing []).srcTensor = 9 ∧ (reducing []).fs = 5 ∧ (reducing []).compressed = 0 ∧ (reducing []).reduces = true ∧
    0 < (reducing []).nt ∧ (reducing []).mode = 0 ∧ (compressing []).working = true := by decide +kernel

theorem wit_exchangeTileCompress : (compressing []).xTile 0 (reducing []) 0 = (compressing [], some frame15) :=
  xTile_of vread_compressing (frameCheckOk_mkFrame _ _ _) (frame15_tensor.trans fields_reducing.1.symm)
    (frame15_tags.1.trans fields_reducing.2.1.symm)

theorem residuals_of {s : State} {p : Nat} {r : XRun} {i : Nat} {f : List Byte} (d : dstOf r.fs r.eFmt r.nt i = [0])
    (v : s.vread p (r.eRead + 0 * frameBytes) frameBytes = .ok f) : (s.residuals p r i).2.isSome = true := by
  rw [State.residuals.eq_def, d, List.foldl_cons, List.foldl_nil, v]
  rfl

theorem vread_residual : (compressing [(1, 658)]).vread 0 ((reducing [(1, 658)]).eRead + 0 * frameBytes) frameBytes = .ok frame15 :=
  vread_host15 (va := (reducing [(1, 658)]).eRead + 0 * frameBytes) rfl (by decide +kernel)

theorem wit_exchangeTileCompress_mode : (reducing [(1, 658)]).mode = 1 ∧
    ((compressing [(1, 658)]).residuals 0 (reducing [(1, 658)]) 0).2.isSome = true :=
  ⟨by decide +kernel, residuals_of (by decide +kernel) vread_residual⟩

/-- Adding the one contribution that is there. -/
theorem test_reduceContribution : (let c : Contribution := ⟨0, 0, [0x3F800000], [false]⟩
    nextIs (exec (.reduceContribution 0 0 0) (compressing' { reducing [] with parts := [c] })) fun u =>
      (u.partn 0).xruns.map (fun r => (r.parts, r.sums.map fun e => (e.tile, e.nextRank))) = [([], [(0, 1)])]) = true := by decide +kernel

/-! ## Links, flits and the switch (R268 to R278) -/

/-- Port 0 of module 0 as x. -/
def ported (x : Port) : State := { State.reset with fabric := { State.reset.fabric with ports := [(0, x)] }, mgmt := domain2 }
def upPort : Port := { st := .up, lanes := 15, peerModule := 1, peerPort := 0, dimension := 0 }
def portSt (s : State) : PortState := (s.port 0).st

theorem test_laneSignalLoss : nextIs (exec (.laneSignalLoss 0 2) (ported upPort)) (fun u => portSt u = .training) = true := by decide +kernel
theorem test_linkTrainingComplete : nextIs (exec (.linkTrainingComplete 0 ⟨15, 1, 0, 0x10102, [], []⟩) (ported { st := .training }))
    (fun u => portSt u = .up && (u.port 0).rxSeq = 4095 && u.log.map (·.code) = [0x5202]) = true := by decide +kernel
theorem test_linkTrainingComplete_narrow : nextIs (exec (.linkTrainingComplete 0 ⟨3, 1, 0, 0x10102, [], []⟩) (ported { st := .training }))
    (fun u => portSt u = .up && u.log.map (·.code) = [0x5202, 0x5203]) = true := by decide +kernel
theorem test_linkTrainingComplete_identity : nextIs (exec (.linkTrainingComplete 0 ⟨15, 1, 0, 0x10103, [], []⟩) (ported { st := .training }))
    (fun u => portSt u = .heldDown && u.log.map (·.code) = [0x5204]) = true := by decide +kernel
theorem test_cable : nextIs (exec (.cablePresenceChange 0 true) (ported {})) (fun u => (u.port 0).cable) = true ∧
    nextIs (exec (.cablePowerShort 0) (ported { upPort with cable := true })) (fun u => (u.port 0).shorted && portSt u = .down) = true := by
  decide +kernel
theorem test_portEnable : nextIs (exec (.portEnable 0) (ported {})) (fun u => portSt u = .training) = true := by decide +kernel
theorem test_portDisable : nextIs (exec (.portDisable 0) (ported upPort)) (fun u => portSt u = .down && !u.portEnabled 0) = true := by
  decide +kernel

/-- Port 0 is disabled. -/
def disabled (x : Port) : State := (ported x).setValue (okey 0x6100 1) [0]

theorem test_linkTest : nextIs (exec (.linkTestStart 0) (disabled {})) (fun u => (u.port 0).testSince = some 0) = true ∧
    nextIs (exec (.linkTestEnd 0 100 3) (disabled { testSince := some 0 })) (fun u =>
      (u.port 0).testBits = 100 && (u.port 0).testErrors = 3 && u.log.map (·.code) = [0x1705]) = true := by decide +kernel

/-- A data flit with a SEQ, whose check value fits. -/
def flit (seq : Nat) : Flit :=
  let h : BitVec 80 := BitVec.ofNat 80 (packed [(seq, 66), (4095, 54), (0xFF, 41)])
  let d : List Byte := List.replicate 242 0
  { header := h, data := d, crc := flitCrc h d }

theorem wit_flitReceive : portSt (ported upPort) = .up ∧ (flit 0).data.length = 242 ∧ flitCrc (flit 0).header (flit 0).data = (flit 0).crc ∧
    bits (flit 0).header.toNat 79 78 = 0 ∧ bits (flit 0).header.toNat 77 66 = (((ported upPort).port 0).rxSeq + 1) % 4096 :=
  ⟨by decide +kernel, by decide +kernel, rfl, by decide +kernel, by decide +kernel⟩
theorem wit_flitReceive_sequence : flitCrc (flit 5).header (flit 5).data = (flit 5).crc ∧ bits (flit 5).header.toNat 79 78 = 0 ∧
    bits (flit 5).header.toNat 77 66 ≠ (((ported upPort).port 0).rxSeq + 1) % 4096 := ⟨rfl, by decide +kernel, by decide +kernel⟩
theorem wit_flitReceive_check : ∀ (h : BitVec 80) (d : List Byte), flitCrc h d ≠ flitCrc h d ^^^ 1#32 := by
  intro h d e
  have := congrArg (fun x => x.getLsbD 0) e
  simp at this

/-- One flit waits for its acknowledgement. -/
def replaying (n : Nat) : State := ported { upPort with txSeq := 0, replay := [(0, ⟨0, [], 0⟩)], replays := n }

theorem test_flitNakReplay : nextIs (exec (.flitNakReplay 0 4095) (replaying 0)) (fun u => (u.port 0).replays = 1) = true ∧
    nextIs (exec (.flitNakReplay 0 4095) (replaying 15)) (fun u => portSt u = .training) = true := by decide +kernel
theorem test_ackProgressTimeout : nextIs (exec (.ackProgressTimeout 0) (replaying 0)) (fun u => portSt u = .training) = true := by decide +kernel

/-- An ACK for this module has come in at port 0, lane 0, class 0. -/
theorem test_packetForward : (let k := packetOf 4 5 0 9 0 []
    nextIs (exec (.packetForward (.port 0 0 false)) (ported { upPort with rxData := [(0, [(0, k.bytes ++ List.replicate 210 0)])] })) fun u =>
      (u.landing 0).arrived = [k] && (u.port 0).rxData = []) = true := by decide +kernel
theorem test_packetForward_landing : (let k := packetOf 4 5 0 9 0 []
    let s := ported upPort
    nextIs (exec (.packetForward (.landing 0)) { s with fabric := { s.fabric with landings := [(0, { leaving := [k] })] } }) fun u =>
      (u.landing 0).leaving = [] && (u.landing 0).arrived = [k]) = true := by decide +kernel
theorem test_forward_drops : (ported upPort).domainSize = 2 ∧ (let k := packetOf 9 5 0 9 0 []
    k.hcheckOk = true ∧ (ported upPort).forward 0 (some 0) k = (((ported upPort).bump 0x8080 4 1).setTaken 0 k [], true)) := by decide +kernel

/-! ## Streams, aborts, sessions, registers (R293 to R327) -/

/-- Partition 0 attached with one stream m. -/
def streaming (m : Stream) (host : Table Byte) : State := mapped { st := .attached, streams := [(0, m)] } host

theorem test_streamEnable : nextIs (exec (.streamEnable 0 0) (streaming { startSeq := 5 } [])) (fun u =>
    (u.stream 0 0).en && (u.stream 0 0).accept = 5 && (u.stream 0 0).doorbell = 5) = true := by decide +kernel
theorem test_streamDisable : nextIs (exec (.streamDisable 0 0) (streaming { en := true } [])) (fun u => !(u.stream 0 0).en) = true := by
  decide +kernel
theorem test_cmdDoorbell : nextIs (exec (.cmdDoorbell 0 0 16 []) (streaming { en := true } [])) (fun u => (u.stream 0 0).doorbell = 16) = true ∧
    nextIs (exec (.cmdDoorbell 0 0 17 []) (streaming { en := true } [])) (fun u =>
      (u.stream 0 0).doorbell = 0 && u.log.map (·.code) = [0x6110]) = true := by decide +kernel
theorem test_cplHead : nextIs (exec (.cplHead 0 0 3) (streaming { en := true, cplTail := 3 } [])) (fun u => (u.stream 0 0).cplHead = 3) = true := by
  decide +kernel
theorem wit_settlePause : ((mapped { st := .orphan, streams := [(0, { en := true })] } []).acceptPaused 0 0 = true) ∧
    ((mapped { st := .attached, streams := [(0, { en := true, pausedSince := some 0 })] } []).acceptPaused 0 0 = false) := by decide +kernel

/-- A MARK_SET with SEQ 0 in the command ring, which the doorbell covers. -/
def covered : State := streaming { en := true, cmdBase := 0x30000, cplBase := 0x10000, doorbell := 1 }
  (Table.putBytes [] 0x30000 (leBytes 64 (rawCmd 0x03 [(5, 432), (9, 400)]).toNat))

theorem test_commandAccept : nextIs (exec (.commandAccept 0 0) covered) (fun u =>
    (u.stream 0 0).journal.map (fun k => (k.seq, k.op)) = [(0, 3)] && (u.stream 0 0).accept = 1 && u.sup.unmirrored = 64) = true := by
  decide +kernel
theorem test_commandAccept_seq : (let s := covered
    nextIs (exec (.commandAccept 0 0) (s.onStream 0 0 fun m => { m with accept := 16, doorbell := 17 })) fun u =>
      (u.stream 0 0).journal = [] && recorded u 0 8) = true := by decide +kernel
theorem test_journalTailMirrored : (let s := covered
    nextIs (exec (.journalTailMirrored 64) { s with sup := { s.sup with unmirrored := 64, acceptWaits := [(0, 0)] } }) fun u =>
      (u.stream 0 0).accept = 1 && u.sup.unmirrored = 0 && u.sup.acceptWaits = []) = true := by decide +kernel
theorem test_abortDoorbell : nextIs (exec (.abortDoorbell 0 0 7) (one 0x04 [(1, 400)])) (fun u =>
    (u.stream 0 0).journal = [] && recorded u 0 1 && u.host.byte (0x10000 + 32 + 23) = 0x7F) = true := by decide +kernel

/-- Partition 0 in a lease state, with the token 5. -/
def leased (st : PartState) : Partition := { st := st, regs := { featHost := 1, session := 5 }, streams := [(0, { en := true })] }

theorem wit_attach : (mapped (leased .detached) []).hostWrites = true ∧
    nextIs (exec (.attach 0 5) (mapped (leased .orphan) [])) (fun u => (u.partn 0).st = .attached && u.log.map (·.code) = [0x6102]) = true ∧
    nextIs (exec (.attach 0 5) (mapped (leased .attached) [])) (fun u => (u.partn 0).st = .attached && u.log = []) = true := by decide +kernel
theorem wit_attach_new : ∃ t, exec (.attach 0 0) (mapped (leased .detached) []) = .next ((mapped (leased .detached) []).fresh.beginSession 0 t) :=
  ⟨_, rfl⟩
theorem test_lease : nextIs (exec (.lease 0 5) { mapped (leased .attached) [] with now := 9 }) (fun u => (u.partn 0).leaseFrom = 9) = true ∧
    nextIs (exec (.lease 0 6) (mapped (leased .attached) [])) (fun u => (u.partn 0).counters = [(0x80B00F, 1)]) = true := by decide +kernel
theorem test_leaseExpiry : nextIs (exec (.leaseExpiry 0) (mapped (leased .attached) [])) (fun u =>
    (u.partn 0).st = .orphan && u.log.map (·.code) = [0x6101]) = true := by decide +kernel
theorem test_leaseExpiry_latched : (let s := mapped (leased .attached) []
    nextIs (exec (.leaseExpiry 0) { s with sup := { s.sup with failover := true } }) fun u =>
      (u.partn 0).st = .attached && (u.partn 0).leaseExpired) = true := by decide +kernel
theorem test_partitionPark : nextIs (exec (.partitionPark 0) (mapped (leased .orphan) [])) (fun u =>
    (u.partn 0).st = .parked && u.log.map (·.code) = [0x6103]) = true := by decide +kernel
theorem test_orphanHoldExpiry : nextIs (exec (.orphanHoldExpiry 0) (mapped { leased .orphan with orphanSince := some 0 } []))
    (fun u => (u.partn 0).holdElapsed) = true ∧
    nextIs (exec (.orphanHoldExpiry 0) (mapped { leased .parked with orphanSince := some 0 } []))
      (fun u => (u.partn 0).st = .exported && u.log.map (·.code) = [0x6104]) = true := by decide +kernel
theorem test_functionLevelReset : (let s := State.reset
    nextIs (exec (.functionLevelReset 1) { s with parts := [(1, { leased .attached with regs := { msixTable := [(0, 1)] } })] }) fun u =>
      (u.partn 1).st = .orphan && (u.partn 1).regs.msixTable = []) = true := by decide +kernel

theorem test_ptRoot : nextIs (exec (.ptRoot 0 0xFFFFFFFFFFFFFFFF) State.reset) (fun u => (u.partn 0).regs.ptRoot = 0x1FFFFFFF001) = true := by
  decide +kernel
theorem test_fqHead : nextIs (exec (.fqHead 0 3) State.reset) (fun u => (u.partn 0).regs.fqHead = 3) = true := by decide +kernel
theorem test_mbCtrl : nextIs (exec (.mbCtrl 16) State.reset) (fun u => u.mgmt.mbBusy && u.mgmt.mbCtrl = 16) = true ∧
    (let s := State.reset
     nextIs (exec (.mbCtrl 16) { s with mgmt := { s.mgmt with mbBusy := true } }) fun u =>
       u.mgmt.mbCtrl = 0 && (u.partn 0).regs.accessErr = 1) = true := by decide +kernel
theorem test_registerWrite : nextIs (exec (.registerWrite 0 0 4 4 1) State.reset) (fun u => (u.partn 0).regs.accessErr = 1) = true ∧
    nextIs (exec (.registerWrite 0 4 0 4 0x11223344) State.reset) (fun u => (u.partn 0).regs.msixTable.bytes 0 4 = [0x44, 0x33, 0x22, 0x11]) = true := by
  decide +kernel
/-- Every vector is masked at reset; one whose Mask bit is cleared sends what was pending. -/
theorem wit_msix_masks : ((State.reset.partn 0).regs.masked 5 = true) ∧
    (let s := State.reset.signal 0 5
     s.msix = [] ∧ nextIs (exec (.registerWrite 0 4 92 4 0) s) (fun u => u.msix = [(0, 5)] && (u.partn 0).regs.msixPending = [] &&
       !(u.partn 0).regs.masked 5) = true) ∧
    (State.reset.partn 3).st = .none ∧ nextIs (exec (.registerWrite 3 4 92 4 0) State.reset) (fun u => decide (u = State.reset)) = true := by
  decide +kernel

/-! ## Ndoit and change sets (R379 to R404) -/

/-- A request frame: opcode, REQ_ID, CSID, body. -/
def ask (op req csid : Nat) (body : List Byte) : List Byte :=
  leBytes 16 (packed [(1, 120), (op, 112), (req, 64), (body.length, 48), (csid, 32)]) ++ body

/-- Reset with session 1 alive as x, and change sets. -/
def managed (x : Session) (sets : List ChangeSet) : State :=
  { State.reset with mgmt := { sessions := [(1, { x with alive := true, agreed := some 127 })], sets := sets, lastCsid := 4 } }

/-- Session 1's request is executed as the statements ask, and f holds of what it leaves and of the answer's status. -/
def requests (i : Nat → List Byte → Instr) (op csid : Nat) (body : List Byte) (s : State) (f : State → Nat → Bool) : Prop :=
  Requests s 1 (ask op 7 csid body) op ∧
    nextIs (exec (i 1 (ask op 7 csid body)) s) (fun u => f u (bits (leNat (((u.session 1).sent.getLastD []).take 16)) 103 96)) = true

/-- An object's index, subindex and a byte. -/
def objAt (i b c : Nat) : List Byte := leBytes 2 i ++ leBytes 1 b ++ leBytes 1 c
/-- A WRITE body of a value of n bytes. -/
def entry (i b ty n v : Nat) : List Byte := objAt i b ty ++ leBytes 2 n ++ leBytes 2 0 ++ leBytes n v

theorem test_ndoitRead : requests .ndoitRead 0x01 0 (objAt 0x1100 6 0) (managed {} []) fun u st =>
    st = 0 && (u.session 1).sent.map (fun l => l.drop 16) = [[1, 0, 1, 0, 8]] := by unfold requests Requests; decide +kernel
theorem test_ndoitWrite : requests .ndoitWrite 0x02 0 (entry 0x1100 6 1 1 3) (managed {} []) fun u st =>
    st = 0 && u.moduleSetting 0x1100 6 = 3 := by unfold requests Requests; decide +kernel
theorem test_readBlock : requests .readBlock 0x03 0 (objAt 0x1110 1 0 ++ leBytes 4 0 ++ leBytes 2 16 ++ leBytes 2 0) (managed {} []) fun u st =>
    st = 0 && (u.session 1).snapshots = 1 := by unfold requests Requests; decide +kernel
theorem test_writeBlock : requests .writeBlock 0x04 0 (objAt 0x1110 1 8 ++ leBytes 4 0 ++ leBytes 2 1 ++ [0, 0, 0x77]) (managed {} []) fun u st =>
    st = 0 && (u.session 1).staging = [0x77] && (u.session 1).stagingOn := by unfold requests Requests; decide +kernel
/-- The skeleton of a certificate: serial number, four empty fields, a P-384 key, an empty algorithm and an empty signature. -/
def cert : List Byte :=
  [0x30, 0x81, 138, 0x30, 0x81, 131, 2, 1, 1, 0x30, 0, 0x30, 0, 0x30, 0, 0x30, 0, 0x30, 118, 0x30, 16, 0x06, 0x07, 0x2A, 0x86, 0x48, 0xCE,
   0x3D, 0x02, 0x01, 0x06, 0x05, 0x2B, 0x81, 0x04, 0x00, 0x22, 3, 98, 0, 4] ++ List.replicate 96 7 ++ [0x30, 0, 3, 0]

theorem test_writeBlock_last : requests .writeBlock 0x04 0 (objAt 0x1110 1 8 ++ leBytes 4 140 ++ leBytes 2 1 ++ [1, 0, 0])
    (managed { staging := cert.take 140, stagingKey := okey 0x1110 1, stagingOn := true } []) fun u st =>
    st = 0 && u.value 0 (okey 0x1110 1) = cert := by unfold requests Requests; decide +kernel
/-- Bytes that are no certificate are out of the range of the trust anchor; a segment at 0 while bytes are staged is out of order. -/
theorem test_writeBlock_range : requests .writeBlock 0x04 0 (objAt 0x1110 1 8 ++ leBytes 4 1 ++ leBytes 2 1 ++ [1, 0, 0x78])
    (managed { staging := [0x77], stagingKey := okey 0x1110 1, stagingOn := true } []) fun u st =>
    st = ndRange && u.value 0 (okey 0x1110 1) = [] := by unfold requests Requests; decide +kernel
theorem test_writeBlock_order : requests .writeBlock 0x04 0 (objAt 0x1110 1 8 ++ leBytes 4 0 ++ leBytes 2 1 ++ [0, 0, 0x78])
    (managed { staging := [0x77], stagingKey := okey 0x1110 1, stagingOn := true } []) fun u st =>
    st = ndMalformed && !(u.session 1).stagingOn := by unfold requests Requests; decide +kernel
theorem test_blockSnapshotExpiry : nextIs (exec (.blockSnapshotExpiry 1) (managed { snapshot := some (0, 1, []) } [])) (fun u =>
    (u.session 1).snapshot = none) = true := by decide +kernel

theorem test_dtlsHandshake : nextIs (exec (.dtlsHandshake 2 true) (managed {} [])) (fun u =>
      !(u.session 2).alive && u.log.map (·.code) = [0x1505]) = true ∧
    (let s := (managed {} []).setValue (okey 0x1110 1) [1]
     nextIs (exec (.dtlsHandshake 2 true) s) fun u => (u.session 2).alive && u.log.map (·.code) = [0x1503]) = true := by decide +kernel
theorem test_subscribe : requests .subscribe 0x20 0 (leBytes 2 2 ++ leBytes 2 0 ++ leBytes 8 0) (managed {} []) fun u st =>
    st = 0 && (u.session 1).subMask = 2 := by unfold requests Requests; decide +kernel
theorem test_heartbeat : requests .heartbeat 0x30 0 (leBytes 16 1) (managed {} []) fun u st =>
    st = 0 && (u.session 1).sent.map List.length = [16 + 44] := by unfold requests Requests; decide +kernel
theorem test_subscriberHeartbeatTick : nextIs (exec (.subscriberHeartbeatTick 1) (managed { subMask := 2 } [])) (fun u =>
    (u.session 1).sent.length = 1) = true := by decide +kernel
theorem test_sessionHeartbeatTimeout : nextIs (exec (.sessionHeartbeatTimeout 1) (managed {} [])) (fun u => !(u.session 1).alive) = true := by
  decide +kernel

/-- An open set 5 of session 1. -/
def openSet5 (kind : Nat) (es : List Entry) : ChangeSet := { csid := 5, sess := 1, kind := kind, entries := es }
def wide : Entry := { key := okey 0x1100 6, type := 1, value := [3] }

theorem test_changesetOpen : requests .changesetOpen 0x10 0 [0, 0, 0, 0] (managed {} []) fun u st =>
    st = 0 && (u.session 1).openSet = some 5 && u.mgmt.sets.length = 1 := by unfold requests Requests; decide +kernel
theorem test_changesetAdd : requests .changesetAdd 0x11 5 ([1, 0, 0, 0] ++ entry 0x1100 6 1 1 3) (managed { openSet := some 5 } [openSet5 0 []])
    fun u st => st = 0 && u.mgmt.sets.map (·.entries) = [[wide]] := by unfold requests Requests; decide +kernel
theorem test_changesetCommit : requests .changesetCommit 0x12 5 [0, 0, 0, 0] (managed { openSet := some 5 } [openSet5 0 [wide]]) fun u st =>
    st = 1 && u.moduleSetting 0x1100 6 = 3 && u.mgmt.sets = [] := by unfold requests Requests; decide +kernel
theorem test_changesetCommit_kind2 : requests .changesetCommit 0x12 5 [0, 0, 0, 0] (managed { openSet := some 5 } [openSet5 2 []]) fun u st =>
    st = 2 && u.mgmt.submission.isSome := by unfold requests Requests; decide +kernel
theorem test_changesetAbort : requests .changesetAbort 0x13 5 [] (managed { openSet := some 5 } [openSet5 0 [wide]]) fun u st =>
    st = 0 && u.mgmt.sets = [] && (u.session 1).openSet = none := by unfold requests Requests; decide +kernel

/-- The set is committed and eligible. -/
def pendingSet (es : List Entry) (affected : List Nat) (cls : Nat) : State :=
  managed {} [{ openSet5 0 es with phase := .committed, eligible := some 0, affected := affected, cls := cls }]

theorem test_changesetDecision : nextIs (exec (.changesetDecision 5) (pendingSet [wide] [0] 0)) (fun u =>
    u.mgmt.sets = [] && u.moduleSetting 0x1100 6 = 3) = true := by decide +kernel
theorem test_changesetDecision_waits : (let s := pendingSet [wide] [0] 0
    nextIs (exec (.changesetDecision 5) { s with parts := [(0, { st := .attached, step := .opened })] }) fun u =>
      u.mgmt.sets.map (·.reached) = [[]]) = true := by decide +kernel
/-- A lake test may no longer be started: it names no stack. -/
def labStart : Entry := { key := okey 0xF110 4, type := 1, value := [1] }
theorem wit_changesetDecision_falls : (let s := pendingSet [labStart] [0] 0
    let d : ChangeSet := { openSet5 0 [labStart] with phase := .committed, eligible := some 0, affected := [0], reached := [0] }
    s.mayDecide d = true ∧ s.setStands d = false) := by decide +kernel
theorem test_changesetTimeout : nextIs (exec (.changesetTimeout 5) (pendingSet [wide] [0] 0)) (fun u =>
    u.mgmt.sets = [] && u.moduleSetting 0x1100 6 = 8) = true := by decide +kernel
theorem test_protectionWindowExpiry : (let s := managed {} []
    nextIs (exec .protectionWindowExpiry { s with mgmt := { s.mgmt with submission := some ⟨1, [], none, 5, 0⟩ } }) fun u =>
      u.mgmt.submission = none) = true := by decide +kernel
theorem test_protectionLockoutExpiry : (let s := managed {} []
    nextIs (exec .protectionLockoutExpiry { s with mgmt := { s.mgmt with lockedFrom := some 0 } }) fun u => u.mgmt.lockedFrom = none) = true := by
  decide +kernel
theorem test_debugUnlocked : nextIs (exec .debugUnlocked ((managed {} []).setValue (okey 0xA010 3) [1])) (fun u =>
    u.log.map (·.code) = [0x7006]) = true := by decide +kernel

/-! ## Supervision, losses, packages, firmware (R350 to R376, R408 to R422) -/

/-- Reset with processor n as x. -/
def proc (n : Nat) (x : Proc) : State := { State.reset with sup := { State.reset.sup with procs := [(n, x)] } }

theorem test_watchdogExpiry : nextIs (exec (.watchdogExpiry 2 [1]) State.reset) (fun u => (u.proc 2).comps = [(1, 0)] && (u.proc 2).st = .running) = true ∧
    nextIs (exec (.watchdogExpiry 2 [1, 2]) State.reset) (fun u => (u.proc 2).st = .restarting && (u.proc 2).whole) = true := by decide +kernel
theorem test_protectionBreach : nextIs (exec (.protectionBreach 6 1) State.reset) (fun u => (u.proc 6).comps = [(1, 0)]) = true := by decide +kernel
theorem wit_componentsFault : procComps 2 = 4 ∧ procComps 6 = 3 ∧ nextIs (exec (.watchdogExpiry 2 [4]) State.reset) (fun u => decide (u = State.reset)) = true ∧
    ((proc 2 { comps := [(1, 0)] }).compUp 2 1 = false) ∧ (proc 2 { comps := [(1, 0)] }).compUp 2 0 = true := by decide +kernel
theorem wit_protectionBreach_handedOver : (let s : State := { State.reset with update := { st := .handover, newSlot := 1, handoverAt := 15 } }
    s.handedOver 2 = true ∧ nextIs (exec (.protectionBreach 2 1) s) (fun u => u.update.st = .idle) = true) := by decide +kernel
theorem test_processorMemoryUncorrectable : nextIs (exec (.processorMemoryUncorrectable 2) State.reset) (fun u =>
    (u.proc 2).st = .restarting) = true := by decide +kernel
theorem test_processorRestartComplete : nextIs (exec (.processorRestartComplete 2) (proc 2 { st := .restarting, whole := true }))
    (fun u => (u.proc 2).st = .running && (u.proc 2).restarts = 1 && u.log.map (·.code) = [0x1002]) = true := by decide +kernel
theorem wit_processorRestartComplete_component : nextIs (exec (.processorRestartComplete 2) (proc 2 { comps := [(1, 0), (2, 0)] }))
    (fun u => (u.proc 2).comps = [(2, 0)] && u.log.map (·.code) = [0x1001]) = true := by decide +kernel
theorem test_restartComponent_escalates : ((proc 2 { compTimes := [(0, 1), (0, 1)] }).restartComponent 2 1).proc 2 =
    { st := .restarting, whole := true, compTimes := [(0, 1), (0, 1)], wholeTimes := [0] } := by decide +kernel
theorem test_restartWhole_fatal : (((proc 2 { wholeTimes := [0, 0, 0] }).restartWhole 2).proc 2).st = .failed ∧
    ((proc 2 { wholeTimes := [0, 0, 0] }).restartWhole 2).phase = .warmReset 4 0 false := by decide +kernel

theorem test_fatalError : nextIs (exec (.fatalError 3 2) (State.reset.setValue (okey 0x2030 1) [0])) (fun u =>
    u.phase = .faulted && u.log.map (·.code) = [0x1401, 0x1402]) = true := by decide +kernel
theorem test_dumpRelease : (let s := State.reset
    nextIs (exec .dumpRelease { s with sup := { s.sup with dumps := [⟨0, 0, 0, 0, 0, true, true, []⟩] } }) fun u => u.sup.dumps = []) = true := by
  decide +kernel
theorem test_supervisorFailover : (let s := State.reset
    nextIs (exec .supervisorFailover { s with sup := { s.sup with failover := true, standby := false, procs := [(0, { st := .restarting })] } })
      fun u => u.sup.activeSup = 1 && !u.sup.failover && !u.sup.standby && u.log.map (·.code) = [0x1003, 0x1004]) = true := by decide +kernel
/-- The former active Supervisor has restarted by then, and is the standby. -/
theorem test_supervisorFailover_standby : (let s := State.reset
    nextIs (exec .supervisorFailover { s with sup := { s.sup with failover := true, standby := false } }) fun u =>
      u.sup.activeSup = 1 && u.sup.standby && u.log.map (·.code) = [0x1003, 0x1005]) = true := by decide +kernel
theorem test_frameHeldInFailover : (let s := managed {} []
    let f := ask 0x02 7 0 (entry 0x1100 5 3 4 500)
    let s := { s with sup := { s.sup with failover := true, standby := false } }
    nextIs (exec (.ndoitWrite 1 f) s) fun u => (u.session 1).sent = [] && u.mgmt.held = [(1, f)] &&
      nextIs (exec .supervisorFailover u) fun v =>
        ((v.session 1).sent.map fun b => bits (leNat (b.take 16)) 103 96) = [0] && v.mgmt.held = [] && v.moduleSetting 0x1100 5 = 500) = true := by
  decide +kernel
theorem test_journalCopyRebuild : (let s := State.reset
    nextIs (exec .journalCopyRebuild { s with sup := { s.sup with journalCopies := [0] } }) fun u =>
      u.sup.journalCopies = [0, 4] && u.log.map (·.code) = [0x1101]) = true := by decide +kernel

theorem test_channelLoss : nextIs (exec (.channelLoss 1 3) State.reset) (fun u => u.sup.lostChannels.find 1 = some 3) = true ∧
    (let s := State.reset
     nextIs (exec (.channelLoss 1 4) { s with sup := { s.sup with lostChannels := [(1, 3)] } }) fun u => u.sup.lostStacks = [1]) = true := by
  decide +kernel
theorem test_stackLoss : nextIs (exec (.stackLoss 1) State.reset) (fun u => u.sup.lostStacks = [1]) = true := by decide +kernel
theorem test_hallLoss : nextIs (exec (.hallLoss 1) State.reset) (fun u => u.sup.lostHalls = [1]) = true := by decide +kernel
theorem test_powerFail : nextIs (exec (.powerFail true) State.reset) (fun u => u.phase = .off && u.power.powerFail && !u.sup.flushLost) = true := by
  decide +kernel
theorem test_replicaRecoveryComplete : (let s := mapped { st := .attached } []
    nextIs (exec (.replicaRecoveryComplete 0 ⟨[], []⟩) { s with sup := { s.sup with recovering := [0] } }) fun u =>
      u.sup.recovering = [] && u.log.map (·.code) = [0x1211]) = true := by decide +kernel

/-- A request on the service port for n bytes. -/
def portRequest (n : Nat) : List Byte := leBytes 4 0x4B534E46 ++ leBytes 8 n ++ leBytes 4 0
/-- The data so far of a request. -/
def connected (n : Nat) (pkg : List Byte) : State :=
  { State.reset with update := { st := .staging, connection := some (portRequest n, pkg) } }

theorem test_servicePortConnect : (let s := State.reset.setValue (okey 0xA010 2) [1]
    nextIs (exec (.servicePortConnect (portRequest 600) [1, 2]) s) (fun u =>
      u.update.st = .staging && (u.slot 1).st = .invalid && u.update.connection = some (portRequest 600, [1, 2])) = true ∧
    nextIs (exec (.servicePortConnect (portRequest 1) [1, 2]) s) (fun u =>
      u.update.st = .idle && u.update.result.head? = some 9 && u.log.map (·.code) = [0x1602]) = true) := by decide +kernel
theorem test_servicePortDataTimeout : nextIs (exec .servicePortDataTimeout (connected 9 [1])) (fun u => u.update.result.head? = some 9) = true := by
  decide +kernel
theorem test_packageStagingComplete : nextIs (exec (.packageStagingComplete false) (connected 1 [1])) (fun u => u.update.result.head? = some 10) = true ∧
    (connected 1 [1]).packageStatus [1] = 2 ∧
    nextIs (exec (.packageStagingComplete true) (connected 1 [1])) (fun u => u.update.result.head? = some 2) = true := by decide +kernel

/-- A delivered image boots while the security floor is 0. -/
theorem slotBoots_empty (s : State) (i : Nat) (h : (s.slot i).package = []) (f : s.update.floor = 0) : s.slotBoots i = true := by
  simp [State.slotBoots, h, f]

/-- Two slots with delivered images, and an update. -/
def updating (st : SlotState) (u : Update) : State :=
  { State.reset with slots := [(0, { st := .active }), (1, { st := st })], update := u }

theorem activateStatus_delivered {s : State} {n : Nat} {v : U32} {i : Nat} (h : s.slotOf v = some i) (m : s.moduleSetting 0xB000 2 ≠ 0)
    (p : (s.slot i).package = []) (f : s.update.floor = 0) (u : s.update.st = .idle) : s.activateStatus n v = 0 := by
  simp [State.activateStatus, h, m, p, f, u, pkgSecVersion]

theorem wit_fwActivate : (let s := (updating .previous {}).setValue (okey 0xB000 2) [1]
    s.slotOf (pkgVersion []) = some 1 ∧ s.activateStatus 0 (pkgVersion []) = 0) := by
  have h : ((updating .previous {}).setValue (okey 0xB000 2) [1]).slotOf (pkgVersion []) = some 1 := by
    simp [State.slotOf, updating, State.setValue, State.slot, State.reset, Table.get, List.range, List.range.loop]
  exact ⟨h, activateStatus_delivered h (by decide +kernel) (by decide +kernel) rfl rfl⟩

theorem test_handoverProcessor : nextIs (exec (.handoverProcessor true 10) (updating .provisional { st := .handover, newSlot := 1 })) (fun u =>
      u.update.handoverAt = 1 && u.update.maxPause = 10) = true ∧
    nextIs (exec (.handoverProcessor true 2000) (updating .provisional { st := .handover, newSlot := 1 })) (fun u =>
      u.update.st = .idle && (u.slot 1).st = .invalid) = true ∧
    (let s := updating .provisional { st := .handover, newSlot := 1 }
     nextIs (exec (.handoverProcessor true 10) { s with update := { s.update with handoverAt := s.handoverOrder.length } }) fun u =>
       u.sup.activeSup = 1) = true ∧
    (let s := updating .provisional { st := .handover, newSlot := 1 }
     nextIs (exec (.handoverProcessor true 10) { s with
       sup := { s.sup with activeSup := 1 }, update := { s.update with handoverAt := s.handoverOrder.length + 1, supDone := some 1 } }) fun u =>
         u.update.st = .provisional) = true := by decide +kernel
theorem test_activateRestart : (let s := updating .provisional { st := .rollingBack, newSlot := 1, bootCopies := [{ prov := some 1 }, { prov := some 1 }] }
    s.notHeld = [] ∧ nextIs (exec (.activateRestart 5) s) (fun u => u.update.st = .idle && (u.slot 1).st = .invalid) = true) := by decide +kernel
theorem wit_activateRestart_holding : (let s := updating .provisional { st := .holding, newSlot := 1 }
    s.notHeld = [] ∧ ((s.restartAll.endSessions.endWindow 5).onUpdate fun u => { u with maxPause := 5 }).update.st = .holding) := by
  decide +kernel
theorem test_updateAbandon : (let s := updating .provisional { st := .holding, newSlot := 1 }
    nextIs (exec .updateAbandon { s with parts := [(0, { st := .attached, step := .opened })] }) fun u =>
      u.update.st = .idle && (u.slot 1).st = .staged && u.log.map (·.code) = [0x1608]) = true := by decide +kernel
theorem test_confirm : nextIs (exec .confirmTimeout (updating .provisional { st := .provisional, newSlot := 1 })) (fun u =>
      u.update.st = .idle && (u.slot 1).st = .active && u.log.map (·.code) = [0x1605]) = true ∧
    nextIs (exec .fwConfirm (updating .provisional { st := .provisional, newSlot := 1 })) (fun u => (u.slot 0).st = .previous) = true ∧
    nextIs (exec .fwRollback (updating .provisional { st := .provisional, newSlot := 1 })) (fun u => u.update.st = .rollingBack) = true := by
  decide +kernel

/-! ## Resets, starts, the TAP (R443 to R453) -/

theorem test_deviceWarmReset : nextIs (exec .deviceWarmReset State.reset) (fun u => u.phase = .warmReset 2 0 false) = true := by decide +kernel
theorem test_modReset : nextIs (exec .modResetN State.reset) (fun u => u.phase = .warmReset 3 0 true && !u.power.modResetN) = true ∧
    (let s := State.reset
     nextIs (exec .modResetNRelease { s with phase := .warmReset 3 0 true }) fun u => u.phase = .warmReset 3 0 false) = true := by decide +kernel
theorem test_perstN : (let s := State.reset
    nextIs (exec (.perstN true) { s with parts := [(0, leased .attached)] }) fun u =>
      !u.power.perstN && (u.partn 0).st = .orphan) = true := by decide +kernel

/-- A state that boots from the delivered image of slot 0. -/
theorem boot_delivered {s : State} (a : s.bootRecord = some {}) (p : (s.slot 0).package = []) (f : s.update.floor = 0) (u : s.update.st = .idle) :
    s.boot = (s, true) := by
  simp [State.boot, u, a, slotBoots_empty s 0 p f]

def resetting : State := { State.reset with phase := .warmReset 2 0 false }
theorem wit_warmResetComplete : resetting.boot.2 = true := by
  rw [boot_delivered (by decide +kernel) (by decide +kernel) rfl rfl]
theorem test_finishWarm : (resetting.finishWarm 2 0 [] (0, [])).phase = .running := by decide +kernel

/-- Both images are below the floor. -/
theorem wit_warmResetComplete_recovery : (let s := resetting
    ({ s with slots := [(0, { st := .active, package := [1] })] } : State).boot.2 = false) := by decide +kernel

theorem test_moduleRunning : (let s := State.reset
    nextIs (exec .moduleRunning { s with phase := .starting }) fun u => decide (u.phase = .running)) = true := by decide +kernel
/-- The enabled ports train in the start, those with cable power. -/
theorem test_startUp : (State.reset.startUp []).phase = .starting ∧ ((State.reset.startUp []).port 0).st = .training := by decide +kernel
theorem wit_coldStart : (let s : State := { State.reset with phase := .off, power := { State.reset.power with powerFail := true } }
    let u := (({ s with phase := .starting }).tellLoss.losePowered).powerUp
    (({ u with power := { u.power with lastStartMicros := 5 } } : State).boot).2 = true) := by
  dsimp only
  rw [boot_delivered (by decide +kernel) (by decide +kernel) rfl rfl]

/-- Why an outcome is a refusal, if it is one. -/
def refusal (o : Res) : Option Refusal :=
  match o with
  | .refused r => some r
  | _ => none

theorem test_tap : nextIs (exec .idcode State.reset) (fun u => u.power.tapIr = 1) = true ∧
    nextIs (exec .extest State.reset) (fun u => u.power.tapIr = 0xFF) = true ∧
    nextIs (exec (.sarolberPrivate 0x80) State.reset) (fun u => u.power.tapIr = 0xFF) = true ∧
    refusal (exec (.sarolberPrivate 0x80) (State.reset.setValue (okey 0xA010 3) [1])) = some .privateTapInstruction := by decide +kernel
theorem test_tapTestLogicReset : (let s := State.reset
    nextIs (exec .tapTestLogicReset { s with phase := .warmReset 3 0 true, power := { s.power with tapIr := 0 } }) fun u =>
      u.power.tapIr = 1 && u.phase = .warmReset 5 0 false) = true := by decide +kernel

/-! ## Power, heat, sleep, lake tests (R423 to R442, R454) -/

theorem test_inputs : nextIs (exec (.inputVoltageLow 44000) State.reset) (fun u => u.log.map (·.code) = [0x2001]) = true ∧
    nextIs (exec (.inputVoltageInRange 50000) State.reset) (fun u => u.log = [] && !u.power.sensors.low) = true ∧
    nextIs (exec (.inputVoltageHigh 57500) State.reset) (fun u => u.log.map (·.code) = [0x2002]) = true ∧
    nextIs (exec (.inputOvervoltage 58600) State.reset) (fun u => u.phase = .off) = true := by decide +kernel

/-- Domain 3 as x. -/
def domain3 (x : Domain) : State := { State.reset with power := { State.reset.power with domains := [(3, x)] } }

theorem test_domainFault : nextIs (exec (.domainFault 3) State.reset) (fun u => u.domainState 3 = 2 && u.log.map (·.code) = [0x2201]) = true ∧
    nextIs (exec (.domainFault 3) (domain3 { faults := [0] })) (fun u => u.domainState 3 = 2) = true := by decide +kernel
theorem test_domainRetry : nextIs (exec (.domainRetry 3 true) (domain3 { st := .faulted })) (fun u => u.domainState 3 = 1) = true ∧
    nextIs (exec (.domainRetry 3 false) (domain3 { st := .faulted })) (fun u => u.domainState 3 = 2) = true := by decide +kernel
theorem test_domainRestored : nextIs (exec (.domainRestored 3) (domain3 { retriedAt := some 0 })) (fun u => u.log.map (·.code) = [0x2202]) = true := by
  decide +kernel

/-- Gallery 0 runs at a clock. -/
def clocked (mhz : Nat) : State := State.reset.setClock 0 0 mhz

theorem test_clockRaiseStep : (clocked 1500).galleryClock 0 0 = 1500 ∧ nextIs (exec (.clockRaiseStep 0 0 1600) (clocked 1500)) (fun u =>
    u.galleryClock 0 0 = 1600) = true := by decide +kernel
theorem wit_powerCapTick : (clocked 1500).compUp 14 compCapping = true ∧ (clocked 1500).working = true := by decide +kernel
theorem wit_fallbackGovernorTick : (let s := clocked 1500
    let u : State := { s with sup := { s.sup with procs := [(14, { st := .restarting })] } }
    u.compUp 14 compCapping = false ∧ u.working = true ∧ u.effectiveCap < 100000) := by decide +kernel

theorem test_thermalTrip : nextIs (exec (.thermalTrip 3) State.reset) (fun u => u.phase = .off && u.power.sensors.trip = some 3) = true := by
  decide +kernel
theorem wit_thermalSample : State.reset.phase = .running ∧ State.reset.compUp 14 compThermal = true := by decide +kernel
theorem test_holdupCheck : nextIs (exec (.holdupCheck 1000000) State.reset) (fun u => u.power.sensors.holdupTail = 1000000) = true := by decide +kernel
/-- A committed write of 1 to Power.Sleep. -/
def sleepSet : ChangeSet :=
  { csid := 5, sess := 1, kind := 1, entries := [{ key := okey 0x7020 1, type := 1, value := [1] }], phase := .committed, eligible := some 0 }

theorem test_sleep : (let s := State.reset
    nextIs (exec .powerSleepEnter (managed {} [sleepSet])) (fun u => u.power.sleep = .entering && u.mgmt.sets = []) = true ∧
    nextIs (exec .sleepIdleTimeout (s.setValue (okey 0x7020 2) [1, 0])) (fun u => u.power.sleep = .entering) = true ∧
    nextIs (exec .sleepEntered { s with power := { s.power with sleep := .entering } }) (fun u =>
      u.power.sleep = .asleep && u.log.map (·.code) = [0x2401]) = true ∧
    nextIs (exec .wakeComplete { s with power := { s.power with sleep := .waking } }) (fun u =>
      u.power.sleep = .awake && u.log.map (·.code) = [0x2402]) = true) := by decide +kernel
theorem test_sleepWaitTimeout : (let s := managed {} [sleepSet]
    nextIs (exec .sleepWaitTimeout { s with parts := [(0, jobs [cmdOf 7 0x04 []])] })
      fun u => u.mgmt.sets = [] && u.moduleSetting 0x7020 1 = 0 && u.log.map (·.code) = [0x1502, 0x2403]) = true := by decide +kernel
theorem test_sleepEntered_work : (let s := State.reset
    nextIs (exec .sleepEntered { s with parts := [(0, jobs [cmdOf 7 0x04 []])], power := { s.power with sleep := .entering } })
      fun u => decide (u.power.sleep = .awake)) = true := by decide +kernel
theorem test_wake : (let s := State.reset.setValue (okey 0x7020 3) [1]
    nextIs (exec (.wake .lakePacket) { s with power := { s.power with sleep := .asleep } }) fun u => u.power.sleep = .waking) = true ∧
    (let s := State.reset
     nextIs (exec (.wake .commandAccepted) { s with parts := [(0, jobs [cmdOf 7 0x04 []])], power := { s.power with sleep := .asleep } })
       fun u => u.power.sleep = .waking) = true := by decide +kernel

/-- A lake test of stack 0 is to be made. -/
def testing (x : LakeTest) : State :=
  let s := (State.reset.setValue (okey 0xF110 1) [1, 0]).setValue (okey 0xF110 2) [0]
  { s with power := { s.power with lakeTest := x } }

theorem test_lakeTestStart : nextIs (exec .lakeTestStart (testing {})) (fun u =>
    u.power.lakeTest.st = .holding && u.power.lakeTest.stacksLeft = [0] && u.log.map (·.code) = [0x1703]) = true := by decide +kernel
theorem test_lakeTestHoldTimeout : (let s := testing { st := .holding, stacksLeft := [0], owners := [0], park := false }
    nextIs (exec .lakeTestHoldTimeout { s with parts := [(0, { st := .attached, step := .opened })] }) fun u =>
      u.power.lakeTest.st = .idle && u.log.map (·.code) = [0x1704]) = true := by decide +kernel
theorem test_lakeTestStackDone : nextIs (exec (.lakeTestStackDone { failing := [], parkedBack := true }) (testing { st := .testing, stacksLeft := [0], owners := [0], park := false }))
    (fun u => u.power.lakeTest.st = .passed) = true := by decide +kernel

/-! ## Elements, the queue (R28, R65) -/

theorem wit_negativeZero : (fmtN4.round .rne (.fin (-1 / 1000))).isZero = true := by decide +kernel
theorem wit_nonFiniteSum : (ofF32 ({ s := 0x7F800000 } : AccEl).s).isFinite = false ∧ (fmtA16.decode ({ s := 0x7E00 } : AccEl).s.toNat).isFinite = false := by
  decide +kernel

theorem test_step : nextIs (step { State.reset with pending := [.dumpRelease, .idcode] }) (fun u => u.pending = [.idcode] && u.now = 0) = true ∧
    nextIs (step State.reset) (fun u => u.now = 1) = true := by decide +kernel
theorem test_fetch : decodeTableWord 32 0 = none ∧ State.reset.withFetchWord 32 0 = State.reset := ⟨rfl, rfl⟩
theorem test_reset : MemOk State.reset ∧ LogOk State.reset := by unfold MemOk LogOk; decide

theorem wit_run : ∃ t, Host.Core.run core 2 { State.reset with pending := [.idcode] } = .next t ∧ t.now = 1 := ⟨_, rfl, rfl⟩
theorem wit_complete : (one 0x04 []).cmd 0 0 7 = some (cmdOf 7 0x04 []) := by decide +kernel

end Sys2Proof.Tests
end

section
/-! PROOFS. One grant of an arbiter (R14 to R16, R138, R183, R433). The outcomes of `execArbiterGrant` are stated once each: nothing, an
idle slot, a grant to the borrower, a grant to a level. All but the first write one arbiter, which `State.putArbiter` names. -/

namespace Sys2Proof.Machine

/-! ## The write of one arbiter -/

/-- The arbiter `a` becomes `y`. -/
def State.putArbiter (s : State) (a : ArbiterRef) (y : Arbiter) : State :=
  { s with fabric := { s.fabric with arbiters := s.fabric.arbiters.put (arbiterKey a) y {} } }

/-- From `s` to `u` the arbiter `a` became `y`; every other arbiter, the ports, the cores, the lake and the log are as they were. -/
def ArbiterBecomes (a : ArbiterRef) (y : Arbiter) (s u : State) : Prop :=
  u.fabric.arbiters.get (arbiterKey a) {} = y ∧
    (∀ j ≠ arbiterKey a, u.fabric.arbiters.get j {} = s.fabric.arbiters.get j {}) ∧
    u.fabric.ports = s.fabric.ports ∧ u.cores = s.cores ∧ u.lake = s.lake ∧ u.log = s.log

theorem State.putArbiter_becomes (s : State) (a : ArbiterRef) (y : Arbiter) : ArbiterBecomes a y s (s.putArbiter a y) :=
  ⟨Table.get_put_same .., fun _ hj => Table.get_put_ne _ _ _ hj.symm, rfl, rfl, rfl, rfl⟩

@[simp] theorem State.putArbiter_counters (s : State) (a : ArbiterRef) (y : Arbiter) :
    (s.putArbiter a y).counters = s.counters := rfl

@[simp] theorem State.putArbiter_parts (s : State) (a : ArbiterRef) (y : Arbiter) : (s.putArbiter a y).parts = s.parts := rfl

/-- A partition's counter and an arbiter lie apart. -/
theorem State.bumpP_putArbiter (s : State) (a : ArbiterRef) (y : Arbiter) (p index sub n : Nat) :
    (s.putArbiter a y).bumpP p index sub n = (s.bumpP p index sub n).putArbiter a y := rfl

/-- What is seen from a state whose counter was raised first is seen from the state itself. -/
theorem ArbiterBecomes.of_bumpP {s u : State} {a : ArbiterRef} {y : Arbiter} {p index sub n : Nat}
    (h : ArbiterBecomes a y (s.bumpP p index sub n) u) : ArbiterBecomes a y s u := by
  simpa only [ArbiterBecomes, State.bumpP_fabric, State.bumpP_cores, State.bumpP_lake, State.bumpP_log] using h

/-! ## The outcomes of a grant -/

/-- The arbiter as it stands. -/
def State.arbiter (s : State) (a : ArbiterRef) : Arbiter := s.fabric.arbiters.get (arbiterKey a) {}

/-- A borrower asks a lake channel: only channels have a borrower queue (R138, R183). -/
def State.borrowerAsks (s : State) (a : ArbiterRef) (lent : Bool) : Bool :=
  (lent || (s.peerAsks a).any borrows) && (match a with | .channel _ _ => true | _ => false)

/-- A grant that a wait of 56 made due is counted (R138). -/
def State.countDue (s : State) (p : Nat) (due : Bool) : State := if due then s.bumpP p 0x8040 7 1 else s

theorem ArbiterBecomes.of_countDue {s u : State} {a : ArbiterRef} {y : Arbiter} {p : Nat} {due : Bool}
    (h : ArbiterBecomes a y (s.countDue p due) u) : ArbiterBecomes a y s u := by
  cases due with
  | false => exact h
  | true => exact h.of_bumpP

/-- R15, R138. An arbiter that does not exist, or that no partition's requests reach, grants nothing. -/
theorem execArbiterGrant_unserved (a : ArbiterRef) (named : Byte) (lent : Bool) (s : State)
    (h : s.hasArbiter a = false ∨ s.arbiterPart a = none) : execArbiterGrant a named lent s = .next s := by
  unfold execArbiterGrant
  split
  · next hhas hpart => simp [hhas, hpart] at h
  · rfl

section Serving

variable {a : ArbiterRef} {s : State} {p : Nat} (named : Byte) (lent : Bool)
  (hhas : s.hasArbiter a = true) (hpart : s.arbiterPart a = some p)
include hhas hpart

/-- The slot after a grant on a throttled channel stays idle (R433). -/
theorem execArbiterGrant_idle (hidle : s.throttledArbiter a = true ∧ (s.arbiter a).skip = true) :
    execArbiterGrant a named lent s = .next (s.putArbiter a { s.arbiter a with skip := false }) := by
  simp only [execArbiterGrant, hhas, hpart]
  exact if_pos (Bool.and_eq_true_iff.2 hidle)

/-- The borrower is granted when it asks and the owner has nothing pending, or had 63 grants meanwhile (R138, R183). -/
theorem execArbiterGrant_borrower (hslot : ¬(s.throttledArbiter a = true ∧ (s.arbiter a).skip = true))
    (hasks : s.borrowerAsks a lent = true) (hturn : s.pendingAt a named = 0 ∨ 63 ≤ (s.arbiter a).borrower) :
    execArbiterGrant a named lent s =
      .next (s.putArbiter a { s.arbiter a with borrower := 0, last := some 8, skip := s.throttledArbiter a }) := by
  simp only [execArbiterGrant, hhas, hpart]
  refine (if_neg (mt Bool.and_eq_true_iff.1 hslot)).trans (if_pos ?_)
  exact Bool.and_eq_true_iff.2 ⟨hasks, by simpa [State.arbiter] using hturn⟩

/-- Otherwise the owner's level that the waits choose is granted; the borrower's wait grows by one while it asks (R138). -/
theorem execArbiterGrant_level (hslot : ¬(s.throttledArbiter a = true ∧ (s.arbiter a).skip = true))
    (howner : ¬(s.borrowerAsks a lent = true ∧ (s.pendingAt a named = 0 ∨ 63 ≤ (s.arbiter a).borrower)))
    {g : Nat} {due : Bool} (hchoose : (s.arbiter a).choose (s.pendingAt a named) = some (g, due)) :
    execArbiterGrant a named lent s = .next ((s.countDue p due).putArbiter a { s.arbiter a with
      wait := (s.arbiter a).after (s.pendingAt a named) g, last := some g, skip := s.throttledArbiter a
      borrower := if s.borrowerAsks a lent then (s.arbiter a).borrower + 1 else 0 }) := by
  have hlevel : ¬(s.borrowerAsks a lent && (s.pendingAt a named = 0 || 63 ≤ (s.arbiter a).borrower)) = true := by
    simpa using howner
  unfold State.arbiter at hchoose
  simp only [execArbiterGrant, hhas, hpart, hchoose]
  refine ((if_neg (mt Bool.and_eq_true_iff.1 hslot)).trans (if_neg hlevel)).trans ?_
  cases due <;> rfl

end Serving

end Sys2Proof.Machine

open Sys2Proof Sys2Proof.Machine in
/-- Settles O18: each outcome of a grant writes one arbiter, and a grant that a wait made due also counts. -/
theorem arbiterGrantsOneRequest : Obligations.ArbiterGrantsOneRequest := by
  unfold Obligations.ArbiterGrantsOneRequest
  intro a named lent s
  refine ⟨execArbiterGrant_unserved a named lent s, fun p hhas hpart => ⟨?idle, ?borrower, ?level⟩⟩
  case idle =>
    intro hslow hskip
    exact ⟨_, execArbiterGrant_idle named lent hhas hpart ⟨hslow, hskip⟩, s.putArbiter_becomes a _, rfl, rfl⟩
  case borrower =>
    intro hslot hasks hturn
    exact ⟨_, execArbiterGrant_borrower named lent hhas hpart hslot hasks hturn, s.putArbiter_becomes a _, rfl, rfl⟩
  case level =>
    intro g due hslot howner hchoose
    exact ⟨_, execArbiterGrant_level named lent hhas hpart hslot howner hchoose,
      ((s.countDue p due).putArbiter_becomes a _).of_countDue, rfl, rfl⟩
end

section
/-! PROOFS. A thread's instruction word that issues under a true guard (R81, R82, R86), with its reserved bits 0 (R109): it acts. -/

namespace Sys2Proof.Machine

open Sys2Proof.Claims

/-- An update of a core that leaves its threads leaves each thread. -/
theorem State.thread_onCore {s : State} {c t : Nat} {f : Core → Core} (h : (f (s.core c)).threads = (s.core c).threads) :
    ((s.onCore c f).core c).thread t = (s.core c).thread t := by
  simp only [State.core_onCore, Core.thread, h]

/-- Two updates that agree on the thread as it stands are one update. -/
theorem State.onThread_congr {s : State} {c t : Nat} {f g : Thread → Thread}
    (h : f ((s.core c).thread t) = g ((s.core c).thread t)) : s.onThread c t f = s.onThread c t g := by
  simp only [State.onThread, State.onCore, h]

section Issuing

variable {row mine bad : U32 → Bool} {act : Nat → Nat → U32 → State → State} {s : State} {c t : Nat} {w : U32}

/-- A word that runs (R86) acts in the state whose last issuing thread it names. -/
theorem issue_of_runs (hrun : Runs row s c t w) (hrow : row w = true → mine w = true) :
    issue mine act c t w s = act c t w (s.onCore c fun k => { k with lastIssued := t }) := by
  obtain ⟨hissues, hguard, hw⟩ := hrun
  have hguard' : guardTrue (((s.onCore c fun k => { k with lastIssued := t }).core c).thread t) w = true := by
    rwa [State.thread_onCore (by rfl)]
  simp only [issue, hissues, hrow hw, Bool.and_self, if_true, hguard']

/-- A word whose reserved bits are 0 acts (R109). -/
theorem reserveChecked_of_clear (hclear : bad w = false) : reserveChecked bad act c t w s = act c t w s := by
  simp [reserveChecked, hclear]

end Issuing

end Sys2Proof.Machine
end

section
/-! PROOFS. The comparisons (R50, R93, R190): the predicates of CMP as orders on the values of the registers, and what a comparison
does that runs with its reserved bits 0. -/

namespace Sys2Proof.Machine

open Sys2Proof.Claims

/-! ## The predicates -/

theorem signed_eq_toInt (a : U64) : signed a = a.toInt := by
  rw [signed, BitVec.toInt_eq_toNat_cond]
  split <;> split <;> omega

theorem cmpEqOp_eq (a b : U64) : cmpEqOp a b = (a.toNat == b.toNat) := by
  simp only [cmpEqOp, BitVec.toNat_eq, beq_eq_decide]

theorem cmpNeOp_eq (a b : U64) : cmpNeOp a b = (a.toNat != b.toNat) := by
  simp only [cmpNeOp, ne_eq, BitVec.toNat_eq, bne, beq_eq_decide, decide_not]

theorem cmpLtOp_eq (a b : U64) : cmpLtOp a b = decide (signed a < signed b) := by
  simp only [cmpLtOp, BitVec.slt, signed_eq_toInt]

theorem cmpGeOp_eq (a b : U64) : cmpGeOp a b = decide (signed b ≤ signed a) := by
  simp only [cmpGeOp, BitVec.slt, signed_eq_toInt, ← decide_not, not_lt]

/-- R50. A pair is unordered when one of its values is NaN. -/
theorem Val.unordered_iff (a b : Val) : Val.unordered a b = true ↔ a = .nan ∨ b = .nan := by
  simp [Val.unordered]

/-! ## The comparisons -/

section Comparing

variable {i : ThreadInstr} {fn c t : Nat} {f : U64 → U64 → Bool} {w : U32} {s : State}

/-- A comparison that runs with its reserved bits 0 acts. -/
theorem issue_compare {act : Nat → Nat → U32 → State → State} (hrun : Runs (fun w => wOpc w = 0x0C ∧ wFn w = fn) s c t w)
    (hclear : wbits w 21 20 = 0) :
    issue (isCmp fn) (reserveChecked cmpReserved act) c t w s = act c t w (s.onCore c fun k => { k with lastIssued := t }) := by
  rw [issue_of_runs hrun (by simp [isCmp]), reserveChecked_of_clear (by simp [cmpReserved, hclear])]

/-- R93. An integer comparison writes its predicate, and its thread goes on. -/
theorem exec_integerCompare {p : U64 → U64 → Bool}
    (hexec : exec (i c t w) s = .next (issue (isCmp fn) (reserveChecked cmpReserved (onThreadAct (formCmp f))) c t w s))
    (hop : ∀ a b, f a b = p a b) (hrun : Runs (fun w => wOpc w = 0x0C ∧ wFn w = fn) s c t w) (hclear : wbits w 21 20 = 0) :
    exec (i c t w) s =
      .next (goesOn s c t fun h => h.setPred (wbits w 19 17) (p (h.reg (wSa w)) (h.reg (wSb w)))) := by
  rw [hexec, issue_compare hrun hclear]
  simp only [onThreadAct, formCmp, hop, goesOn, threadDoes]

/-- R50, R190. An FP32 comparison writes its predicate and counts an unordered pair, and its thread goes on. -/
theorem exec_floatCompare {p : Val → Val → Bool}
    (hexec : exec (i c t w) s = .next (issue (isCmp fn) (reserveChecked cmpReserved (fcmpAct f)) c t w s))
    (hop : ∀ a b, f a b = p (ofF32 (lowWord a)) (ofF32 (lowWord b)))
    (hrun : Runs (fun w => wOpc w = 0x0C ∧ wFn w = fn) s c t w) (hclear : wbits w 21 20 = 0) :
    let h := (s.core c).thread t
    let a := ofF32 ((h.reg (wSa w)).setWidth 32)
    let b := ofF32 ((h.reg (wSb w)).setWidth 32)
    exec (i c t w) s =
      .next (((s.onCore c fun k => { k with lastIssued := t }).onCore c fun k =>
        { k with unordered := min (k.unordered + if a = .nan ∨ b = .nan then 1 else 0) 0xFFFFFFFF }).onThread c t
          fun h => (h.setPred (wbits w 19 17) (p a b)).advance) := by
  intro h a b
  have hthread : ((s.onCore c fun k => { k with lastIssued := t }).core c).thread t = h := State.thread_onCore rfl
  have hcount : (if fcmpUnordered (h.reg (wSa w)) (h.reg (wSb w)) then 1 else 0) = if a = .nan ∨ b = .nan then 1 else 0 :=
    if_congr (Val.unordered_iff a b) rfl rfl
  rw [hexec, issue_compare hrun hclear]
  simp only [fcmpAct, onThreadAct, hthread, hcount]
  refine congrArg _ (State.onThread_congr ?_)
  rw [State.thread_onCore (f := addUnordered _) (by rfl), hthread, formCmp, hop]
  rfl

end Comparing

end Sys2Proof.Machine

open Sys2Proof Sys2Proof.Machine Sys2Proof.Claims in
/-- Settles O2: a comparison that runs acts, and each one's function is the predicate of its row. -/
theorem compareResults : Obligations.CompareResults := by
  unfold Obligations.CompareResults
  refine ⟨fun row hrow c t w s hrun hclear => ?integer, fun row hrow c t w s hrun hclear => ?float⟩
  case integer =>
    simp only [integerCompares, List.mem_cons, List.not_mem_nil, or_false] at hrow
    rcases hrow with rfl | rfl | rfl | rfl | rfl | rfl
    · exact exec_integerCompare rfl cmpEqOp_eq hrun hclear
    · exact exec_integerCompare rfl cmpNeOp_eq hrun hclear
    · exact exec_integerCompare rfl cmpLtOp_eq hrun hclear
    · exact exec_integerCompare (f := cmpLtuOp) rfl (fun _ _ => rfl) hrun hclear
    · exact exec_integerCompare rfl cmpGeOp_eq hrun hclear
    · exact exec_integerCompare (f := cmpGeuOp) rfl (fun _ _ => rfl) hrun hclear
  case float =>
    simp only [floatCompares, List.mem_cons, List.not_mem_nil, or_false] at hrow
    rcases hrow with rfl | rfl | rfl | rfl | rfl | rfl
    · exact exec_floatCompare (f := cmpFeqOp) rfl (fun _ _ => rfl) hrun hclear
    · exact exec_floatCompare (f := cmpFneOp) rfl (fun _ _ => rfl) hrun hclear
    · exact exec_floatCompare (f := cmpFltOp) rfl (fun _ _ => rfl) hrun hclear
    · exact exec_floatCompare (f := cmpFleOp) rfl (fun _ _ => rfl) hrun hclear
    · exact exec_floatCompare (f := cmpFgtOp) rfl (fun _ _ => rfl) hrun hclear
    · exact exec_floatCompare (f := cmpFgeOp) rfl (fun _ _ => rfl) hrun hclear
end

section
/-! PROOFS. Zeros of N4 (R28): rounding keeps a zero, and N4 has one code for both. -/

namespace Sys2Proof.Machine

theorem Val.isZero_iff (v : Val) : v.isZero = true ↔ ∃ neg, v = .zero neg := by
  cases v <;> simp [Val.isZero]

/-- A zero passes the rounding with its sign. -/
@[simp] theorem FloatFmt.round_zero (f : FloatFmt) (r : Rnd) (neg : Bool) : f.round r (.zero neg) = .zero neg := rfl

/-- In a format with N4's codes, either zero is written as 0x0. -/
theorem FloatFmt.encode_zero_of_n4 {f : FloatFmt} (hn4 : f.n4 = true) (neg : Bool) : f.encode (.zero neg) = 0 := by
  simp [FloatFmt.encode, hn4]

end Sys2Proof.Machine

open Sys2Proof Sys2Proof.Machine Sys2Proof.Claims in
/-- Settles O53: both values are zeros once rounded, and N4 writes a zero without its sign. -/
theorem negativeZeroOfN4IsWrittenAsZero : Obligations.NegativeZeroOfN4IsWrittenAsZero := by
  unfold Obligations.NegativeZeroOfN4IsWrittenAsZero
  refine ⟨fun r => ?conversion, fun r q _ hzero => ?rounded⟩
  case conversion =>
    rw [FloatFmt.round_zero, FloatFmt.encode_zero_of_n4 rfl]
  case rounded =>
    obtain ⟨neg, hround⟩ := (Val.isZero_iff _).1 hzero
    rw [hround, FloatFmt.encode_zero_of_n4 rfl]
end

section
/-! PROOFS. Running sums that are not finite (R63, R64, R65): what a chunk close makes of one, and where the elements of an accumulator get
their running sums from. -/

namespace Sys2Proof

/-- What holds of the unlisted value and of every entry holds of what a key reads. -/
theorem Table.get_of_forall {α : Type} {p : α → Prop} {t : Table α} {d : α} (hd : p d) (h : ∀ e ∈ t, p e.2)
    (k : Nat) : p (t.get k d) := by
  induction t with
  | nil => exact hd
  | cons e r ih =>
    rw [Table.get_cons]
    split
    · exact h e List.mem_cons_self
    · exact ih fun f hf => h f (List.mem_cons_of_mem _ hf)

end Sys2Proof

namespace Sys2Proof.Machine

/-- R29, R31. An infinity or a NaN is read back from its FP32 code. -/
theorem ofF32_encode_of_nonfinite {v : Val} (h : v.isFinite = false) : ofF32 (BitVec.ofNat 32 (fmtFP32.encode v)) = v := by
  cases v with
  | nan => decide
  | inf neg => cases neg <;> decide
  | zero neg => cases h
  | fin q => cases h

/-- The same from an A16 code in the 32 bits that hold a running sum. -/
theorem decodeA16_encode_of_nonfinite {v : Val} (h : v.isFinite = false) :
    fmtA16.decode (BitVec.ofNat 32 (fmtA16.encode v)).toNat = v := by
  cases v with
  | nan => decide
  | inf neg => cases neg <;> decide
  | zero neg => cases h
  | fin q => cases h

/-- R31. The sum of an infinity or a NaN with any value is an infinity or a NaN. -/
theorem Val.add_nonfinite {a : Val} (h : a.isFinite = false) (x : Val) : (a.add x).isFinite = false := by
  cases a with
  | nan => rfl
  | inf neg =>
    cases x with
    | inf m => by_cases hm : neg = m <;> simp [Val.add, Val.isFinite, hm]
    | _ => rfl
  | zero neg => cases h
  | fin q => cases h

/-- R65 for one close: a running sum that is not finite stays under a finite chunk and is added to any other. -/
theorem nonfinite_stays {a a' x : Val} (ha : a.isFinite = false) (hclose : a' = if x.isFinite then a else a.add x) :
    a'.isFinite = false ∧ (x.isFinite = true → a' = a) ∧ (x = .nan → a' = .nan) ∧
      ∀ n, a = .inf n → (x = .inf (!n) → a' = .nan) ∧ (x = .inf n → a' = .inf n) := by
  subst hclose
  refine ⟨?nonfinite, fun hx => if_pos hx, ?nan, fun n hn => ?infinite⟩
  case nonfinite =>
    split
    · exact ha
    · exact Val.add_nonfinite ha x
  case nan =>
    rintro rfl
    cases a <;> rfl
  case infinite =>
    subst hn
    constructor <;> rintro rfl <;> simp [Val.isFinite, Val.add]

/-- R63, R65. A close in A32 mode, for a running sum that is not finite. -/
theorem closeA32_of_nonfinite {e : AccEl} (h : (ofF32 e.s).isFinite = false) :
    ofF32 (closeA32 e).1.s = if e.sum.isFinite then ofF32 e.s else (ofF32 e.s).add e.sum := by
  cases hx : e.sum.isFinite with
  | true => simp [closeA32, hx, h, AccEl.shut]
  | false => simp [closeA32, hx, AccEl.shut, ofF32_encode_of_nonfinite (Val.add_nonfinite h e.sum)]

/-- R64, R65. A close in A16 mode, for a running sum that is not finite. -/
theorem closeA16_of_nonfinite (u : Nat) {e : AccEl} (h : (fmtA16.decode e.s.toNat).isFinite = false) :
    fmtA16.decode (closeA16 u e).1.s.toNat =
      if e.sum.isFinite then fmtA16.decode e.s.toNat else (fmtA16.decode e.s.toNat).add e.sum := by
  cases hx : e.sum.isFinite with
  | true => simp [closeA16, hx, h, AccEl.shut]
  | false => simp only [closeA16, hx, AccEl.shut, Bool.not_false, if_true, Bool.false_eq_true, if_false,
      decodeA16_encode_of_nonfinite (Val.add_nonfinite h e.sum)]

/-- R61. A product goes into the open chunk. -/
@[simp] theorem AccEl.addProduct_s (e : AccEl) (x y : MVal) : (e.addProduct x y).s = e.s := by
  unfold AccEl.addProduct
  repeat' split
  all_goals rfl

theorem AccEl.foldl_addProduct_s (l : List (MVal × MVal)) (e : AccEl) :
    (l.foldl (fun e ab => e.addProduct ab.1 ab.2) e).s = e.s := by
  induction l generalizing e with
  | nil => rfl
  | cons ab l ih => rw [List.foldl_cons, ih, addProduct_s]

/-- R55. Under CLR every element starts with a running sum of 0. -/
theorem Acc.addPanel_cleared_s (acc : Acc) (key : U32 × U64 × U64) (pa pb : List (List MVal)) (i : Nat) :
    ((acc.addPanel (some key) pa pb).els.get i {}).s = 0 := by
  refine Table.get_of_forall (p := fun e : AccEl => e.s = 0) rfl (fun e he => ?_) i
  simp only [Acc.addPanel, List.mem_filter, List.mem_flatMap, List.mem_map] at he
  obtain ⟨⟨m, _, n, _, rfl⟩, _⟩ := he
  exact AccEl.foldl_addProduct_s _ _

end Sys2Proof.Machine

open Sys2Proof Sys2Proof.Machine Sys2Proof.Claims in
/-- Settles O54: in either mode a close leaves a running sum that is not finite under a finite chunk, and adds any other chunk to it. -/
theorem nonFiniteRunningSumsStay : Obligations.NonFiniteRunningSumsStay := by
  unfold Obligations.NonFiniteRunningSumsStay
  refine ⟨fun e u => ⟨fun h => ?a32, fun h => ?a16, fun x y => e.addProduct_s x y⟩, fun acc tensor base stride pa pb i => ?cleared⟩
  case a32 => exact nonfinite_stays h (closeA32_of_nonfinite h)
  case a16 => exact nonfinite_stays h (closeA16_of_nonfinite u h)
  case cleared => exact acc.addPanel_cleared_s (tensor, base, stride) pa pb i
end

section
/-! PROOFS. The parity of accumulators (R79), the pond scrubber and the correction of single-bit errors (R118). -/

namespace Sys2Proof.Machine

/-! ## Parity -/

/-- Core k without the contents of an accumulator and without the queued instructions of it (R79). -/
def Core.discardAcc (k : Core) (acc : Nat) : Core :=
  let dropped := k.matQ.filter fun e => mmaAcc e.word = acc
  let k1 := dropped.foldl (fun k e => k.finish e.thread) k
  { k1.setAcc acc {} with matQ := k1.matQ.filter fun e => mmaAcc e.word ≠ acc }

section Owned

variable {c acc t : Nat} {s : State} (howner : ((s.core c).acc acc).owner = some t)
include howner

/-- R79. The owner halts at the first queued instruction of the accumulator. -/
theorem exec_accParityError_queued {e : MatEntry} {r : List MatEntry}
    (hdropped : ((s.core c).matQ.filter fun e => mmaAcc e.word = acc) = e :: r) :
    exec (.accParityError c acc) s = .next ((s.setCore c ((s.core c).discardAcc acc)).halt c t e.pc e.word 0x17 0) := by
  change execAccParityError c acc s = _
  simp only [execAccParityError, howner, Core.discardAcc, hdropped, List.head?_cons, haltAccParity]

/-- R79. With none queued the owner halts at its next word. -/
theorem exec_accParityError_idle (hdropped : ((s.core c).matQ.filter fun e => mmaAcc e.word = acc) = []) :
    exec (.accParityError c acc) s = .next ((s.setCore c ((s.core c).discardAcc acc)).halt c t ((s.core c).thread t).pc
      (((s.core c).fetch ((s.core c).thread t).pc).getD 0) 0x17 0) := by
  change execAccParityError c acc s = _
  simp only [execAccParityError, howner, Core.discardAcc, hdropped, List.head?_nil, List.foldl_nil, haltAccParity]
  rfl

end Owned

/-! ## The scrubber -/

/-- The pond words with an uncorrectable error, once the scrubber has been told what it found. -/
def Core.badAfter (k : Core) (found : List WordError) : List Nat :=
  k.pondBad ++ (((found.filter fun e => e.double).map fun e => e.word).filter fun w => !k.pondBad.contains w).eraseDups

/-- The pond words with a single-bit error, once the scrubber has been told what it found. -/
def Core.weakAfter (k : Core) (found : List WordError) : List Nat :=
  (k.pondSingle ++ (found.filter fun e => !e.double).map fun e => e.word).eraseDups.filter fun w => !(k.badAfter found).contains w

theorem WordError.mem_words (p : WordError → Bool) (found : List WordError) (w : Nat) :
    w ∈ (found.filter p).map (fun e => e.word) ↔ ∃ e ∈ found, e.word = w ∧ p e = true := by
  simp only [List.mem_map, List.mem_filter]
  exact exists_congr fun e => and_assoc.trans (and_congr_right' and_comm)

theorem Core.mem_badAfter (k : Core) (found : List WordError) (w : Nat) :
    w ∈ k.badAfter found ↔ w ∈ k.pondBad ∨ ∃ e ∈ found, e.word = w ∧ e.double = true := by
  simp only [badAfter, List.mem_append, List.mem_eraseDups, List.mem_filter, WordError.mem_words]
  by_cases hw : w ∈ k.pondBad <;> simp [hw]

theorem Core.mem_weakAfter (k : Core) (found : List WordError) (w : Nat) :
    w ∈ k.weakAfter found ↔ (w ∈ k.pondSingle ∨ ∃ e ∈ found, e.word = w ∧ e.double = false) ∧ w ∉ k.badAfter found := by
  simp only [weakAfter, List.mem_filter, List.mem_eraseDups, List.mem_append, WordError.mem_words, Bool.not_eq_true',
    List.contains_eq_mem, decide_eq_false_iff_not]

/-- R118. In a running, awake module the scrubber notes what it found and corrects one beat. -/
theorem exec_pondScrub {c : Nat} (found : List WordError) {s : State} (hc : c < 6144) (hrunning : s.phase = .running)
    (hawake : s.power.sleep = .awake) :
    exec (.pondScrub c found) s = .next ((s.onCore c fun k => { k with scrubAt := (k.scrubAt + 1) % 6144
                                                                       pondBad := (s.core c).badAfter found
                                                                       pondSingle := (s.core c).weakAfter found }).correctPond c
      (64 * (s.core c).scrubAt) 64) := by
  change execPondScrub c found s = _
  have hworks : ¬(6144 ≤ c || s.phase ≠ .running || s.power.sleep ≠ .awake) = true := by simp [hrunning, hawake, hc]
  exact if_neg hworks

end Sys2Proof.Machine

open Sys2Proof Sys2Proof.Machine Sys2Proof.Claims in
/-- Settles O15: the outcomes of a parity error, of a scrub and of a correction, one after another. -/
theorem parityAndScrubbing : Obligations.ParityAndScrubbing := by
  unfold Obligations.ParityAndScrubbing
  refine ⟨fun c acc t s howner => ?parity, fun c found s hc hrunning hawake => ?scrub, fun c a n s => ?correct⟩
  case parity => exact ⟨fun e r => exec_accParityError_queued howner, exec_accParityError_idle howner⟩
  case scrub =>
    exact ⟨_, _, exec_pondScrub found hc hrunning hawake, (s.core c).mem_badAfter found, (s.core c).mem_weakAfter found⟩
  case correct => exact ⟨fun hits => if_pos hits, fun hits => if_neg hits⟩
end

section
/-! PROOFS. Engines accept instructions (R54 to R60, R84, R100, R103, R110, R121): what a word does that runs with nothing locked, and how
an engine takes it over. -/

namespace Sys2Proof.Machine

open Sys2Proof.Claims

/-! ## Checks before the operands -/

section Issuing

variable {row mine bad : U32 → Bool} {act : Nat → Nat → U32 → State → State} {s : State} {c t : Nat} {w : U32}

@[simp] theorem core_issued (s : State) (c t : Nat) : (issued s c t).core c = { s.core c with lastIssued := t } := State.core_onCore ..

theorem unlocked_issued (h : Unlocked s c t w) : Unlocked (issued s c t) c t w := by
  unfold Unlocked
  rw [core_issued]
  exact h

/-- R60, R90. A word acts that nothing queued holds. -/
theorem lockChecked_of_unlocked (h : Unlocked s c t w) : lockChecked act c t w s = act c t w s := by
  obtain ⟨hregs, hpond⟩ := h
  simp [lockChecked, hregs, hpond]

/-- R60, R86, R109. A word that runs, with its reserved bits 0 and nothing locked, acts in the state that its issue leaves. -/
theorem issue_of_unlocked (hrun : Runs row s c t w) (hrow : row w = true → mine w = true) (hclear : bad w = false)
    (hfree : Unlocked s c t w) :
    issue mine (reserveChecked bad (lockChecked act)) c t w s = act c t w (issued s c t) := by
  rw [issue_of_runs hrun hrow, reserveChecked_of_clear hclear]
  exact lockChecked_of_unlocked (unlocked_issued hfree)

/-- The same for the two vector formats, whose operation must exist first (R102). -/
theorem issue_vector_of_unlocked (hrun : Runs row s c t w) (hrow : row w = true → mine w = true) (hlegal : vecIllegal w = false)
    (hclear : vecReserved w = false) (hfree : Unlocked s c t w) :
    issue mine (vecChecked (lockChecked act)) c t w s = act c t w (issued s c t) := by
  have hvec : vecChecked (lockChecked act) c t w = reserveChecked vecReserved (lockChecked act) c t w :=
    funext fun s => by simp [vecChecked, hlegal]
  rw [issue_of_runs hrun hrow, hvec, reserveChecked_of_clear hclear]
  exact lockChecked_of_unlocked (unlocked_issued hfree)

end Issuing

/-! ## Taking over -/

/-- The layer whose span holds a word of a core's segment (R200). -/
def State.layerOf (s : State) (c pc : Nat) : Option Nat := (s.segOf c).bind fun g => s.layerAt g c pc

@[simp] theorem State.enterLayer_layer (s : State) (c pc : Nat) : (s.enterLayer c pc).2 = s.layerOf c pc := by
  unfold enterLayer layerOf
  cases s.segOf c with
  | none => rfl
  | some g => cases h : s.layerAt g c pc <;> simp [h]

/-- R205. Entering a layer changes no core. -/
@[simp] theorem State.enterLayer_core (s : State) (c pc d : Nat) : (s.enterLayer c pc).1.core d = s.core d := by
  unfold enterLayer
  split
  · rfl
  · split
    · rfl
    · split <;> rfl

theorem layerOf_issued (s : State) (c t pc : Nat) : (issued s c t).layerOf c pc = s.layerOf c pc := by
  unfold State.layerOf State.segOf
  rw [core_issued]
  rfl

/-- The entry of an MMA that thread t of core k issues (R55, R56). -/
def mmaEntry (k : Core) (t : Nat) (w : U32) (layer : Option Nat) : MatEntry :=
  let h := k.thread t
  { thread := t, pc := h.pc, word := w, layer := layer
    key := if mmaClr w then some ((h.reg (mmaSk w + 1)).setWidth 32, h.reg (mmaSk w + 2), h.reg (mmaSk w + 3)) else none
    close := chunkClosed (mmaK0 k t w + panelK (pairingOf (k.tile (mmaTa w)).fmt (k.tile (mmaTb w)).fmt))
    a16 := mmaA16 w, addr := 0 }

/-- The entry of an EPI that thread t of core k issues (R56, R68, R78). -/
def epiEntry (k : Core) (t : Nat) (w : U32) (layer : Option Nat) : MatEntry :=
  let h := k.thread t
  let a := k.acc (mmaAcc w)
  { thread := t, pc := h.pc, word := w, layer := layer, key := none
    close := if a.k % 128 = 0 then none else some ((a.k - 1) / 128)
    a16 := a.a16, addr := (h.reg (epiSp w)).toNat, prior := some (a.owner, a.k, a.pairing, a.a16) }

theorem mmaEnqueue_issued (c t : Nat) (w : U32) (s : State) :
    mmaEnqueue c t w (issued s c t) = acceptedIn s c t fun k =>
      { k.setAcc (mmaAcc w) { (s.core c).acc (mmaAcc w) with
          owner := some t, a16 := mmaA16 w, pairing := pairingOf ((s.core c).tile (mmaTa w)).fmt ((s.core c).tile (mmaTb w)).fmt
          k := mmaK0 (s.core c) t w + panelK (pairingOf ((s.core c).tile (mmaTa w)).fmt ((s.core c).tile (mmaTb w)).fmt) } with
        matQ := k.matQ ++ [mmaEntry (s.core c) t w (s.layerOf c ((s.core c).thread t).pc)] } := by
  simp only [mmaEnqueue, acceptedIn, State.onCore, State.enterLayer_core, State.enterLayer_layer, layerOf_issued, core_issued]
  rfl

theorem epiEnqueue_issued (c t : Nat) (w : U32) (s : State) :
    epiEnqueue c t w (issued s c t) = acceptedIn s c t fun k =>
      { k.setAcc (mmaAcc w) (if epiKeep w then
            { (s.core c).acc (mmaAcc w) with k := (((s.core c).acc (mmaAcc w)).k + 127) / 128 * 128 }
          else { (s.core c).acc (mmaAcc w) with owner := none, k := 0, pairing := 0, a16 := false }) with
        matQ := k.matQ ++ [epiEntry (s.core c) t w (s.layerOf c ((s.core c).thread t).pc)] } := by
  simp only [epiEnqueue, acceptedIn, State.onCore, State.enterLayer_core, State.enterLayer_layer, layerOf_issued, core_issued]
  rfl

theorem vecEnqueue_issued (scalar : U32) (addr c t : Nat) (w : U32) (s : State) :
    vecEnqueue scalar addr c t w (issued s c t) = acceptedIn s c t fun k => { k with vecQ := k.vecQ ++
      [{ thread := t, pc := ((s.core c).thread t).pc, word := w, layer := s.layerOf c ((s.core c).thread t).pc
         scalar := scalar, addr := addr }] } := by
  simp only [vecEnqueue, acceptedIn, State.onCore, State.enterLayer_core, State.enterLayer_layer, layerOf_issued, core_issued]
  rfl

/-! ## The engines' queues: what an unlocked word does -/

section Queues

variable {c t : Nat} {w : U32} {s : State}

/-- R59. With room in the matrix queue and no fault an MMA is queued. -/
theorem mmaAct_accepts (hroom : (s.core c).matQ.length < 4) (hfault : mmaFault (s.core c) t w = none) :
    mmaAct c t w s = mmaEnqueue c t w s := by
  simp only [mmaAct, hfault]
  exact if_neg (by omega)

theorem mmaAct_full (hfull : 4 ≤ (s.core c).matQ.length) :
    mmaAct c t w s = s.onThread c t fun h => { h with st := .waiting (.queueFull .matrix w) } :=
  if_pos hfull

/-- R59. With room in the matrix queue and no fault an EPI is queued. -/
theorem epiQueued_accepts (hroom : (s.core c).matQ.length < 4) (hfault : epiFault (s.core c) t w = none) :
    epiQueued c t w s = epiEnqueue c t w s := by
  simp only [epiQueued, hfault]
  exact if_neg (by omega)

theorem epiQueued_full (hfull : 4 ≤ (s.core c).matQ.length) :
    epiQueued c t w s = s.onThread c t fun h => { h with st := .waiting (.queueFull .matrix w) } :=
  if_pos hfull

/-- R84. With room in the vector queue a vector word acts. -/
theorem vecQueued_accepts {act : Nat → Nat → U32 → State → State} (hroom : (s.core c).vecQ.length < 4) :
    vecQueued act c t w s = act c t w s :=
  if_neg (by omega)

theorem vecQueued_full {act : Nat → Nat → U32 → State → State} (hfull : 4 ≤ (s.core c).vecQ.length) :
    vecQueued act c t w s = s.onThread c t fun h => { h with st := .waiting (.queueFull .vector w) } :=
  if_pos hfull

/-- R100. A VOP whose registers' tags fit is queued. -/
theorem vopAct_accepts (htags : vopTagFault (s.core c) w = false) :
    vopAct c t w s = vecEnqueue ((((s.core c).thread t).reg (wbits w 5 1)).setWidth 32) 0 c t w s := by
  simp [vopAct, htags]

/-- R109. An aligned unit of the pond has no fault. -/
theorem frameFault_eq_none {a n : Nat} (hpond : a + n ≤ 393216) (halign : a % 64 = 0) : frameFault a n = none := by
  simp [frameFault, inPond, pondSize, hpond, halign]

/-- R103. A VDESC whose descriptor is an aligned unit of the pond is queued. -/
theorem vdescAct_accepts (hpond : (((s.core c).thread t).reg (dSds w)).toNat + 64 ≤ 393216)
    (halign : (((s.core c).thread t).reg (dSds w)).toNat % 64 = 0) :
    vdescAct c t w s = vecEnqueue ((((s.core c).thread t).reg (dSb w)).setWidth 32)
      (((s.core c).thread t).reg (dSds w)).toNat c t w s := by
  simp only [vdescAct, frameFault_eq_none hpond halign]

theorem sprQueued_full (hfull : 16 ≤ ((s.core c).spring (wbits w 21 20)).length) :
    sprQueued c t w s = s.onThread c t fun h => { h with st := .waiting (.queueFull (.spring (wbits w 21 20)) w) } :=
  if_pos hfull

end Queues

/-! ## SPR -/

/-- A count changes only the counters of its partition. -/
theorem State.partn_bumpP (s : State) (q index sub n p : Nat) :
    ∃ x, (s.bumpP q index sub n).partn p = { s.partn p with counters := x } := by
  by_cases h : q = p
  · subst h
    exact ⟨_, State.partn_onPartn ..⟩
  · exact ⟨(s.partn p).counters, State.partn_onPartn_ne _ _ _ _ h⟩

/-- A count changes no layer of a segment. -/
theorem State.layerOf_bumpP (s : State) (q index sub n c pc : Nat) : (s.bumpP q index sub n).layerOf c pc = s.layerOf c pc := by
  have hsegment (p v r : Nat) : (s.bumpP q index sub n).segment p v r = s.segment p v r := by
    obtain ⟨x, hx⟩ := s.partn_bumpP q index sub n p
    simp only [segment, hx, Partition.segment]
  have hexisting : (s.bumpP q index sub n).existing = s.existing := by
    refine List.filter_congr fun p _ => ?_
    obtain ⟨x, hx⟩ := s.partn_bumpP q index sub n p
    rw [hx]
  have hlayer (g : Segment) : (s.bumpP q index sub n).layerAt g c pc = s.layerAt g c pc := by
    simp only [layerAt, localCore, halls, hallOwner, moduleSetting, viewPart, hexisting]
    rfl
  simp only [layerOf, segOf, hsegment, hlayer]
  rfl

/-- R118. The correction of a pond's errors changes no layer of a segment. -/
theorem State.layerOf_correctPond (s : State) (c a n pc : Nat) : (s.correctPond c a n).layerOf c pc = s.layerOf c pc := by
  unfold correctPond
  extract_lets met hits
  split
  · rfl
  · rw [layerOf_bumpP]
    unfold layerOf segOf
    rw [State.core_onCore]
    rfl

/-- The descriptor that an SPR of thread t reads from the pond of core k at address a (R121). -/
def sprDesc (k : Core) (t : Nat) (w : U32) (a : Nat) (layer : Option Nat) : Desc :=
  { raw := BitVec.ofNat 1024 (leNat (k.pond.bytes a 128)), addr := a, thread := t, pc := (k.thread t).pc, word := w
    layer := layer, origin := k.seg.getD (0, 0, 0) }

/-- The descriptor as its spring queues it: a stair chain's members have nothing yet (R139). -/
def sprStaired (c : Nat) (d : Desc) : Desc :=
  if d.dspace = spStair then { d with stair := (d.members c).map fun m =>
    { core := m, delivered := 0, skid := [], detached := false, blockingSince := none } } else d

/-- R121. With room in its spring an SPR reads a permitted descriptor and queues it. -/
theorem sprQueued_accepts {c t : Nat} {w : U32} {s : State} {a j : Nat} {d : Desc}
    (ha : (((s.core c).thread t).reg (wbits w 19 15)).toNat = a) (hj : wbits w 21 20 = j)
    (hd : sprDesc (s.core c) t w a (s.layerOf c ((s.core c).thread t).pc) = d)
    (hroom : ((s.core c).spring j).length < 16) (hpond : a + 128 ≤ 393216) (halign : a % 64 = 0)
    (hgood : (s.core c).pondBadAt a 128 = false) (hallowed : sprRefused s c j d = false) :
    sprQueued c t w s = ((s.correctPond c a 128).enterLayer c ((s.core c).thread t).pc).1.onCore c fun k =>
      (k.setSpring j (k.spring j ++ [sprStaired c d])).setThread t (handedOver ((s.core c).thread t)) := by
  subst ha hj hd
  have hin : inPond (((s.core c).thread t).reg (wbits w 19 15)).toNat 128 = true := decide_eq_true hpond
  have hact : sprQueued c t w s = sprAct c t w s := if_neg (by omega)
  rw [hact]
  unfold sprAct
  simp only [hin, halign, hgood, Bool.not_true, Bool.false_eq_true, ne_eq, not_true_eq_false, if_false, State.enterLayer_layer,
    State.layerOf_correctPond]
  unfold sprStaired
  unfold sprDesc at hallowed ⊢
  cases hseg : (s.core c).seg with
  | none =>
    rw [hseg] at hallowed
    exact if_neg (Bool.eq_false_iff.1 hallowed)
  | some o =>
    rw [hseg] at hallowed
    exact if_neg (Bool.eq_false_iff.1 hallowed)

/-- The same for an SPR that has just been issued. -/
theorem sprQueued_issued {c t : Nat} {w : U32} {s : State} {a j : Nat} {d : Desc}
    (ha : (((s.core c).thread t).reg (wbits w 19 15)).toNat = a) (hj : wbits w 21 20 = j)
    (hd : sprDesc (s.core c) t w a (s.layerOf c ((s.core c).thread t).pc) = d)
    (hroom : ((s.core c).spring j).length < 16) (hpond : a + 128 ≤ 393216) (halign : a % 64 = 0)
    (hgood : (s.core c).pondBadAt a 128 = false) (hallowed : sprRefused (issued s c t) c j d = false) :
    sprQueued c t w (issued s c t) =
      (((issued s c t).correctPond c a 128).enterLayer c ((s.core c).thread t).pc).1.onCore c fun k =>
        (k.setSpring j (k.spring j ++ [sprStaired c d])).setThread t (handedOver ((s.core c).thread t)) := by
  have hthread : ((issued s c t).core c).thread t = (s.core c).thread t := State.thread_onCore rfl
  have hspring : ((issued s c t).core c).spring j = (s.core c).spring j := by rw [core_issued]; rfl
  have hdesc : sprDesc ((issued s c t).core c) t w a ((issued s c t).layerOf c (((issued s c t).core c).thread t).pc) = d := by
    rw [layerOf_issued, hthread, core_issued]
    exact hd
  rw [sprQueued_accepts (by rwa [hthread]) hj hdesc (by rwa [hspring]) hpond halign (by rw [core_issued]; exact hgood) hallowed,
    hthread]

/-! ## The words that engines take over -/

section Words

variable {c t : Nat} {w : U32} {s : State}

section Mma

variable (hrun : Runs (fun w => wOpc w = 0x20) s c t w) (hclear : wbits w 8 0 = 0) (hfree : Unlocked s c t w)
include hrun hclear hfree

theorem exec_mma : exec (.mma c t w) s = .next (mmaAct c t w (issued s c t)) :=
  congrArg Host.Outcome.next (issue_of_unlocked hrun (fun h => h) (by simp [hclear]) hfree)

/-- R59. The matrix queue takes an MMA over. -/
theorem exec_mma_accepts (hroom : (s.core c).matQ.length < 4) (hfault : mmaFault (s.core c) t w = none) :
    exec (.mma c t w) s = .next (mmaEnqueue c t w (issued s c t)) := by
  rw [exec_mma hrun hclear hfree, mmaAct_accepts] <;> rw [core_issued] <;> assumption

theorem exec_mma_full (hfull : 4 ≤ (s.core c).matQ.length) :
    exec (.mma c t w) s = .next (threadDoes s c t fun h => { h with st := .waiting (.queueFull .matrix w) }) := by
  rw [exec_mma hrun hclear hfree, mmaAct_full]
  · rfl
  · rwa [core_issued]

end Mma

section Epi

variable (hrun : Runs (fun w => wOpc w = 0x21) s c t w) (hclear : wbits w 4 0 = 0) (hfree : Unlocked s c t w)
include hrun hclear hfree

theorem exec_epi : exec (.epi c t w) s = .next (epiQueued c t w (issued s c t)) :=
  congrArg Host.Outcome.next (issue_of_unlocked hrun (fun h => h) (by simp [hclear]) hfree)

/-- R59. The matrix queue takes an EPI over. -/
theorem exec_epi_accepts (hroom : (s.core c).matQ.length < 4) (hfault : epiFault (s.core c) t w = none) :
    exec (.epi c t w) s = .next (epiEnqueue c t w (issued s c t)) := by
  rw [exec_epi hrun hclear hfree, epiQueued_accepts] <;> rw [core_issued] <;> assumption

theorem exec_epi_full (hfull : 4 ≤ (s.core c).matQ.length) :
    exec (.epi c t w) s = .next (threadDoes s c t fun h => { h with st := .waiting (.queueFull .matrix w) }) := by
  rw [exec_epi hrun hclear hfree, epiQueued_full]
  · rfl
  · rwa [core_issued]

end Epi

section Vector

variable (hlegal : vecIllegal w = false) (hclear : vecReserved w = false) (hfree : Unlocked s c t w)
include hlegal hclear hfree

theorem exec_vop (hrun : Runs (fun w => wOpc w = 0x1A) s c t w) :
    exec (.vop c t w) s = .next (vecQueued vopAct c t w (issued s c t)) :=
  congrArg Host.Outcome.next (issue_vector_of_unlocked hrun (fun h => h) hlegal hclear hfree)

theorem exec_vdesc (hrun : Runs (fun w => wOpc w = 0x1B) s c t w) :
    exec (.vdesc c t w) s = .next (vecQueued vdescAct c t w (issued s c t)) :=
  congrArg Host.Outcome.next (issue_vector_of_unlocked hrun (fun h => h) hlegal hclear hfree)

end Vector

/-- R84. A full vector queue holds the thread of an issued word. -/
theorem vecQueued_issued_full {act : Nat → Nat → U32 → State → State} (hfull : 4 ≤ (s.core c).vecQ.length) :
    vecQueued act c t w (issued s c t) = threadDoes s c t fun h => { h with st := .waiting (.queueFull .vector w) } :=
  vecQueued_full (by rwa [core_issued])

/-- R100. The vector queue takes a VOP over. -/
theorem vecQueued_vop_issued (hroom : (s.core c).vecQ.length < 4) (htags : vopTagFault (s.core c) w = false) :
    vecQueued vopAct c t w (issued s c t) =
      vecEnqueue ((((s.core c).thread t).reg (wbits w 5 1)).setWidth 32) 0 c t w (issued s c t) := by
  rw [vecQueued_accepts, vopAct_accepts] <;> rw [core_issued]
  · rfl
  · exact htags
  · exact hroom

/-- R103. The vector queue takes a VDESC over. -/
theorem vecQueued_vdesc_issued (hroom : (s.core c).vecQ.length < 4)
    (hpond : (((s.core c).thread t).reg (dSds w)).toNat + 64 ≤ 393216)
    (halign : (((s.core c).thread t).reg (dSds w)).toNat % 64 = 0) :
    vecQueued vdescAct c t w (issued s c t) = vecEnqueue ((((s.core c).thread t).reg (dSb w)).setWidth 32)
      (((s.core c).thread t).reg (dSds w)).toNat c t w (issued s c t) := by
  rw [vecQueued_accepts, vdescAct_accepts] <;> rw [core_issued]
  · rfl
  · exact hpond
  · exact halign
  · exact hroom

theorem exec_spr (hrun : Runs (fun w => wOpc w = 0x1C) s c t w) (hclear : wbits w 14 0 = 0) (hfree : Unlocked s c t w) :
    exec (.spr c t w) s = .next (sprQueued c t w (issued s c t)) :=
  congrArg Host.Outcome.next (issue_of_unlocked hrun (fun h => h) (by simp [hclear]) hfree)

end Words

/-! ## A waiting word is tried again -/

section Retry

variable {c t : Nat} {w : U32} {s : State} {g : Segment}

/-- R84, R110. The word of a waiting thread is tried again while its segment is not stopping and the module works. -/
theorem State.retryWord_of_working (hseg : s.segOf c = some g) (hstop : g.stop = none) (hworks : s.working = true) :
    s.retryWord c t (some w) = retryAction w c t w (s.onThread c t fun h => { h with st := .ready }) := by
  simp [retryWord, hseg, hstop, hworks]

theorem Thread.queueWord_of_waiting {h : Thread} {f : Engine} (hst : h.st = .waiting (.queueFull f w)) : h.queueWord = some w := by
  simp [queueWord, hst]

theorem Thread.lockWord_of_waiting {h : Thread} (hst : h.st = .waiting (.tileLock w)) : h.lockWord = some w := by
  simp [lockWord, hst]

/-- R84. An empty tile engine does nothing. -/
theorem tileExec_of_empty (hempty : (s.core c).tileQ = []) : tileExec c s = s := by
  simp only [tileExec, hempty]

theorem exec_tileLockRelease_of_empty (hempty : (s.core c).tileQ = []) :
    exec (.tileLockRelease c t) s = .next (s.retryWord c t ((s.core c).thread t).lockWord) := by
  change execTileLockRelease c t s = _
  simp only [execTileLockRelease, tileExec_of_empty hempty, ite_self]

/-- R59, R84. An MMA that is tried again with room and nothing locked is queued. -/
theorem retryAction_mma (hopc : wOpc w = 0x20) (hclear : wbits w 8 0 = 0) (hfree : Unlocked s c t w)
    (hroom : (s.core c).matQ.length < 4) (hfault : mmaFault (s.core c) t w = none) :
    retryAction w c t w s = mmaEnqueue c t w s := by
  have haction : retryAction w = mmaChecked := by simp [retryAction, isOp, hopc]
  rw [haction, mmaChecked, reserveChecked_of_clear (by simp [hclear]), lockChecked_of_unlocked hfree, mmaAct_accepts hroom hfault]

/-- R59, R84. An EPI that is tried again with room and nothing locked is queued. -/
theorem retryAction_epi (hopc : wOpc w = 0x21) (hclear : wbits w 4 0 = 0) (hfree : Unlocked s c t w)
    (hroom : (s.core c).matQ.length < 4) (hfault : epiFault (s.core c) t w = none) :
    retryAction w c t w s = epiEnqueue c t w s := by
  have haction : retryAction w = epiChecked := by simp [retryAction, isOp, hopc]
  rw [haction, epiChecked, reserveChecked_of_clear (by simp [hclear]), lockChecked_of_unlocked hfree, epiQueued_accepts hroom hfault]

end Retry

end Sys2Proof.Machine

open Sys2Proof Sys2Proof.Machine Sys2Proof.Claims in
/-- Settles O14: a word that runs with nothing locked acts in the state that its issue leaves, where its engine queues it or holds its
thread; a word that is tried again acts in the same way. -/
theorem enginesAcceptInstructions : Obligations.EnginesAcceptInstructions := by
  unfold Obligations.EnginesAcceptInstructions
  refine ⟨fun c t w s hfree => ⟨fun hrun hclear => ⟨fun hroom hfault => ?mma, exec_mma_full hrun hclear hfree⟩,
    fun hrun hclear => ⟨fun hroom hfault => ?epi, exec_epi_full hrun hclear hfree⟩⟩, fun c t w s => ⟨?vop, ?vdesc, ?spr⟩,
    fun c t w s g hseg hstop hworks => ⟨?queue, ?lock, retryAction_mma, retryAction_epi⟩⟩
  case mma =>
    exact ⟨mmaEntry (s.core c) t w (s.layerOf c ((s.core c).thread t).pc),
      by rw [exec_mma_accepts hrun hclear hfree hroom hfault, mmaEnqueue_issued]; rfl, rfl, rfl, rfl, rfl, rfl, rfl⟩
  case epi =>
    exact ⟨epiEntry (s.core c) t w (s.layerOf c ((s.core c).thread t).pc),
      by rw [exec_epi_accepts hrun hclear hfree hroom hfault, epiEnqueue_issued], rfl, rfl, rfl, rfl, rfl, rfl, rfl⟩
  case vop =>
    intro hrun hlegal hclear hfree
    rw [exec_vop hlegal hclear hfree hrun]
    refine ⟨fun hroom htags => ?_, fun hfull => by rw [vecQueued_issued_full hfull]⟩
    rw [vecQueued_vop_issued hroom htags, vecEnqueue_issued]
    rfl
  case vdesc =>
    intro hrun hlegal hclear hfree
    rw [exec_vdesc hlegal hclear hfree hrun]
    refine ⟨fun hroom hpond halign => ?_, fun hfull => by rw [vecQueued_issued_full hfull]⟩
    rw [vecQueued_vdesc_issued hroom hpond halign, vecEnqueue_issued]
    rfl
  case spr =>
    intro hrun hclear hfree
    rw [exec_spr hrun hclear hfree]
    refine ⟨fun hroom hpond halign hgood hallowed => ?_, fun hfull => ?_⟩
    · rw [sprQueued_issued rfl rfl rfl hroom hpond halign hgood hallowed]
      rfl
    · rw [sprQueued_full (by rwa [core_issued])]
      rfl
  case queue =>
    intro f hst
    change Host.Outcome.next _ = _
    rw [Thread.queueWord_of_waiting hst, State.retryWord_of_working hseg hstop hworks]
  case lock =>
    intro hst hempty
    rw [exec_tileLockRelease_of_empty hempty, Thread.lockWord_of_waiting hst, State.retryWord_of_working hseg hstop hworks]
end

section
/-! PROOFS. The tally of an EPI that lies in no layer of its segment (R189, R191). The segment of such an EPI may work for a step that has
been discarded since: then the model counts what the EPI writes as discarded, where the statement has the tensor's slot take it. -/

namespace Sys2Proof.Machine

/-! ## What a write tallies -/

/-- A fold whose steps each add to a measure adds the sum. -/
theorem foldl_measure {σ α : Type} (f : σ → Nat) {step : σ → α → σ} {n : α → Nat} (h : ∀ s a, f (step s a) = f s + n a)
    (l : List α) (s : σ) : f (l.foldl step s) = f s + (l.map n).sum := by
  induction l generalizing s with
  | nil => rfl
  | cons a l ih => rw [List.foldl_cons, ih, h, List.map_cons, List.sum_cons, Nat.add_assoc]

/-- An element counts where it has a value, which those of a tail have not (R105). -/
def elementCount (o : OutEl) : Nat := if o.v.isSome then 1 else 0

/-- The elements of a block that count. -/
def valued (els : List OutEl) : Nat := (els.map elementCount).sum

/-- R189. A written block counts its elements. -/
theorem writeBlock_elems (x : WriteCtx) (rq : Val) (els : List OutEl) : (writeBlock x rq els).2.2.2.elems = valued els := by
  simp only [writeBlock, List.foldl_map]
  refine (foldl_measure Tally.elems (n := elementCount ∘ Prod.fst) (fun t y => ?_) _ _).trans ?_
  · simp only [Function.comp_apply, elementCount]
    cases y.1.v <;> rfl
  · rw [← List.map_map, List.map_fst_zip (by simp), Nat.zero_add, valued]

/-- R71, R199. A block that has no scale flags nothing. -/
theorem writeBlock_unscaled {x : WriteCtx} (h : blkSize x.blk = 0) (rq : Val) (els : List OutEl) :
    (writeBlock x rq els).2.2.1 = false := by
  simp only [writeBlock, h]
  cases floatFmt x.fmt <;> simp

/-- The columns of a block of a written tile (R24). -/
def blockCols (x : WriteCtx) : Nat := if blkSize x.blk = 0 then tileCols x.fmt else blkSize x.blk

/-- The elements of a tile's row that count. -/
def rowValued (x : WriteCtx) (r : List OutEl) : Nat := ((pieces (blockCols x) (r.length / blockCols x) r).map valued).sum

/-- R189. A written tile counts its elements. -/
theorem writeTile_elems (x : WriteCtx) (rq : Nat → Val) (rows : List (List OutEl)) :
    (writeTile x rq rows).tally.elems = (rows.map (rowValued x)).sum := by
  simp only [writeTile, List.foldl_map]
  refine (foldl_measure Tally.elems (n := rowValued x ∘ Prod.fst) (fun t e => ?row) _ _).trans ?sum
  case row => exact foldl_measure Tally.elems (fun t p => congrArg (t.elems + ·) (writeBlock_elems x (rq e.2) p)) _ t
  case sum => rw [← List.map_map, List.zipIdx_map_fst, Nat.zero_add]

/-- R199. A tile of a format without block scales is not flagged. -/
theorem writeTile_unscaled {x : WriteCtx} (h : blkSize x.blk = 0) (rq : Nat → Val) (rows : List (List OutEl)) :
    (writeTile x rq rows).tally.ovfTiles = 0 := by
  simp [writeTile, writeBlock_unscaled h, b2n]

/-! ## The outcome of an EPI -/

/-- The accumulator that an EPI reads: an open chunk is closed first (R56). -/
def epiAcc (k : Core) (e : MatEntry) (base : U64 × U64) : Acc :=
  match e.close with
  | none => k.acc (mmaAcc e.word)
  | some j => (k.acc (mmaAcc e.word)).closeChunk e.a16 j base.1 base.2

/-- The core and the tally once an EPI has written its destination registers one after another (R69). -/
def epiWrites (k : Core) (e : MatEntry) (m : EpiParams) (base : U64 × U64) (rows : List (List OutEl)) : Core × Tally :=
  (List.range (epiRegs (epiFd e.word))).foldl (fun (st : Core × Tally) j =>
    ((epiStore st.1 e m base rows j).1, st.2.add (epiStore st.1 e m base rows j).2)) (k, {})

/-- The core once the EPI at place i has left its queue. -/
def epiTaken (k : Core) (i : Nat) (e : MatEntry) : Core := { k.finish e.thread with matQ := k.matQ.eraseIdx i }

/-- The core and the tally that an EPI leaves, its accumulator emptied without KEEP (R69, R72). -/
def epiResult (k : Core) (e : MatEntry) (m : EpiParams) (base : U64 × U64) : Core × Tally :=
  let a := epiAcc k e base
  let r := epiWrites k e m base (epiRows k a e m)
  (r.1.setAcc (mmaAcc e.word) (a.afterEpi (epiKeep e.word)), r.2)

/-- The state after an EPI whose parameter block passes, where `origin` names the segment and the layer that its tally goes to. -/
def epiOutcome (s : State) (c i : Nat) (e : MatEntry) (origin : Nat → Nat → Option (Nat × Nat × Option Nat)) : State :=
  let m := epiParams (leNat ((s.core c).pond.bytes e.addr 64))
  let a := epiAcc (epiTaken (s.core c) i e) e (s.rsBase c)
  let r := epiResult (epiTaken (s.core c) i e) e m (s.rsBase c)
  let u := match r.1.seg with
    | none => s.setCore c r.1
    | some (p, w, q) => (s.setCore c r.1).tally p (origin w q) m.outTensor r.2
  epiReports (u.correctPonds c (epiUse r.1 e.addr).reads) c e a.tensor m.outTensor a.ovf (r.2.ovfTiles ≠ 0)

/-- R69. An EPI whose parameter block passes completes; its tally goes to its segment, in a layer or in none. -/
theorem exec_epiExecute {s : State} {c i : Nat} {e : MatEntry} (hready : (s.core c).matReady 0x21 = some (i, e))
    (hpass : epiBlockFault (epiTaken (s.core c) i e) e (epiParams (leNat ((s.core c).pond.bytes e.addr 64))) = none) :
    exec (.epiExecute c) s = .next (epiOutcome s c i e fun w q => some (w, q, e.layer)) := by
  unfold epiTaken at hpass
  change execEpiExecute c s = _
  simp only [execEpiExecute, hready, hpass]
  rfl

/-- How an EPI writes: its destination's format and block, and the draws of its output tensor (R69). -/
def epiCtx (e : MatEntry) (m : EpiParams) (base : U64 × U64) : WriteCtx :=
  { fmt := epiFd e.word, blk := m.outBlk, rnd := epiRnd e.word, rt := recipScale m.tout
    key := { seed := base.1, step := base.2, tensor := m.outTensor, purpose := 1, draw := 0 } }

/-- The elements of an EPI's destination register j that count. -/
def epiValued (e : MatEntry) (m : EpiParams) (base : U64 × U64) (rows : List (List OutEl)) (j : Nat) : Nat :=
  ((epiPart (epiFd e.word) j rows).map (rowValued (epiCtx e m base))).sum

section Writes

variable (k : Core) (e : MatEntry) (m : EpiParams) (base : U64 × U64) (rows : List (List OutEl))

theorem epiStore_elems (j : Nat) : (epiStore k e m base rows j).2.elems = epiValued e m base rows j := by
  simp only [epiStore, writeTile_elems, epiValued, epiCtx]

theorem epiStore_unscaled (h : blkSize m.outBlk = 0) (j : Nat) : (epiStore k e m base rows j).2.ovfTiles = 0 := by
  rw [epiStore, writeTile_unscaled]
  exact h

theorem epiStore_seg (j : Nat) : (epiStore k e m base rows j).1.seg = k.seg := by
  unfold epiStore
  rfl

/-- R189. An EPI counts the elements of its destination registers. -/
theorem epiWrites_elems :
    (epiWrites k e m base rows).2.elems = ((List.range (epiRegs (epiFd e.word))).map (epiValued e m base rows)).sum :=
  (foldl_measure (fun st : Core × Tally => st.2.elems)
    (fun st j => congrArg (st.2.elems + ·) (epiStore_elems st.1 e m base rows j)) _ _).trans (Nat.zero_add _)

/-- R199. An EPI to a format without block scales flags no tile. -/
theorem epiWrites_unscaled (h : blkSize m.outBlk = 0) : (epiWrites k e m base rows).2.ovfTiles = 0 := by
  refine (foldl_measure (n := fun _ => 0) (fun st : Core × Tally => st.2.ovfTiles) (fun st j => ?_) _ _).trans (by simp)
  exact congrArg (st.2.ovfTiles + ·) (epiStore_unscaled st.1 e m base rows h j)

/-- The writes of an EPI leave its core with its segment. -/
theorem epiWrites_seg : (epiWrites k e m base rows).1.seg = k.seg :=
  List.foldlRecOn (motive := fun st : Core × Tally => st.1.seg = k.seg) _ _ rfl fun st h j _ =>
    (epiStore_seg st.1 e m base rows j).trans h

end Writes

/-- R69. A BF16 destination takes all 4096 values of the accumulator. -/
theorem epiValued_bf16 (k : Core) (a : Acc) {e : MatEntry} (m : EpiParams) (base : U64 × U64) (hfd : epiFd e.word = 3)
    (hblk : m.outBlk = 0) : ((List.range 2).map (epiValued e m base (epiRows k a e m))).sum = 4096 := by
  have hrow (f : Nat → Val) (g : Nat → Nat) :
      rowValued (epiCtx e m base) ((List.range 64).map fun col => { v := some (f col), idx := g col }) = 64 := by
    simp [rowValued, blockCols, epiCtx, hfd, hblk, blkSize, tileCols, fmtWidth, pieces, valued, elementCount]
  have hrows : (epiRows k a e m).map (rowValued (epiCtx e m base)) = List.replicate 64 64 := by
    rw [epiRows, List.map_map]
    refine (List.map_congr_left (g := fun _ => 64) fun row _ => hrow _ _).trans ?_
    rw [List.map_const', List.length_range]
  have hregister (j : Nat) (hj : j < 2) : epiValued e m base (epiRows k a e m) j = 2048 := by
    have hpart : epiPart 3 j (epiRows k a e m) = ((epiRows k a e m).drop (j * 32)).take 32 := rfl
    rw [epiValued, hfd, hpart, List.map_take, List.map_drop, hrows, List.drop_replicate, List.take_replicate,
      List.sum_replicate_nat]
    omega
  simp [List.range_succ, hregister]

/-! ## The tally of a discarded step -/

/-- A write that belongs to no layer is taken by its tensor's slot. -/
theorem State.tally_unlayered {s : State} {p i : Nat} {tensor : U32} {t : Tally} (hslot : (s.partn p).slotOf tensor = some i)
    (ht : t.elems ≠ 0) : s.tally p none tensor t = s.onPartn p fun x => x.onSlot i fun k => k.take t := by
  simp [tally, ht, hslot]

/-- R191. A write by a segment whose step has been discarded is counted as discarded, and no slot takes it. -/
theorem State.tally_discarded {s : State} {p w q i : Nat} {g : Segment} {layer : Option Nat} {tensor : U32} {t : Tally}
    (hslot : (s.partn p).slotOf tensor = some i) (hseg : s.segment p w q = some g) (hgone : (s.partn p).discardedWork g = true)
    (ht : t.elems ≠ 0) : s.tally p (some (w, q, layer)) tensor t = s.bumpP p 0x8060 8 t.nonfin := by
  simp [tally, tallySlot, ht, hslot, hseg, hgone]

/-- R118. The correction of a pond's errors changes no slot. -/
theorem State.slots_correctPond (s : State) (c a n p : Nat) : ((s.correctPond c a n).partn p).slots = (s.partn p).slots := by
  unfold correctPond
  extract_lets met hits
  split
  · rfl
  · obtain ⟨x, hx⟩ := (s.onCore c fun k => { k with pondSingle := k.pondSingle.filter fun w => !met w }).partn_bumpP
      (s.coreOwner c) 0x8040 6 hits p
    rw [hx]
    rfl

theorem State.slots_correctPonds (s : State) (c : Nat) (l : List (Nat × Nat)) (p : Nat) :
    ((s.correctPonds c l).partn p).slots = (s.partn p).slots := by
  induction l generalizing s with
  | nil => rfl
  | cons r l ih => exact (ih _).trans (s.slots_correctPond c r.1 r.2 p)

/-- A quiet EPI, whose accumulator has not overflowed and whose destination has no block scales, changes the slots of its partition by
its tally alone. -/
theorem slots_epiOutcome {s : State} {c i p w q : Nat} {e : MatEntry} {m : EpiParams} {r : Core × Tally}
    (origin : Nat → Nat → Option (Nat × Nat × Option Nat)) (hseg : (s.core c).seg = some (p, w, q))
    (hovf : (epiAcc (epiTaken (s.core c) i e) e (s.rsBase c)).ovf = false)
    (hm : epiParams (leNat ((s.core c).pond.bytes e.addr 64)) = m) (hblk : blkSize m.outBlk = 0)
    (hr : epiResult (epiTaken (s.core c) i e) e m (s.rsBase c) = r) :
    ((epiOutcome s c i e origin).partn p).slots = (((s.setCore c r.1).tally p (origin w q) m.outTensor r.2).partn p).slots := by
  have hseg' : r.1.seg = some (p, w, q) := by
    subst hr
    exact (epiWrites_seg ..).trans hseg
  have htiles : r.2.ovfTiles = 0 := by
    subst hr
    exact epiWrites_unscaled _ _ _ _ _ hblk
  simp only [epiOutcome, hm, hr, hseg', epiReports, hovf, htiles, ne_eq, not_true_eq_false, decide_false, Bool.false_eq_true, if_false,
    State.slots_correctPonds]

/-! ## The counterexample -/

/-- An EPI without KEEP of accumulator 0 to t0 and t1 as BF16, at a word that no layer's span holds. -/
def unlayeredEpi : MatEntry :=
  { thread := 0, pc := 0, word := 0x84030000, layer := none, key := none, close := none, a16 := false, addr := 0 }

/-- The segment of the EPI, which was launched in a step. -/
def steppedSegment : Segment :=
  { p := 0, s := 0, q := 0, num := 0, variant := { cores := [], layers := [] }, variantNo := 0, batch := 0, seed := 0, stepKey := 0
    inStep := true, cores := [0], started := 0 }

/-- The slot of tensor 0, which is the EPI's output tensor: its parameter block is 64 bytes of 0. -/
def outputSlot : Slot := { decl := { tensor := 0, cls := 0, source := 0, entry := 0, fmt := 3, blk := 0 } }

/-- The step of partition 0 has been discarded, and core 0 has the EPI at the front of its matrix queue. -/
def discardedState : State :=
  { State.reset with
    cores := [(0, { seg := some (0, 0, 0), matQ := [unlayeredEpi] })]
    parts := [(0, { step := .discarded, slots := [outputSlot], segments := [steppedSegment] })] }

theorem discardedState_ready : (discardedState.core 0).matReady 0x21 = some (0, unlayeredEpi) := by decide +kernel

theorem discardedState_params : (epiParams (leNat ((discardedState.core 0).pond.bytes unlayeredEpi.addr 64))).outBlk = 0 ∧
    (epiParams (leNat ((discardedState.core 0).pond.bytes unlayeredEpi.addr 64))).outTensor = 0 := by decide +kernel

theorem discardedState_passes : epiBlockFault (epiTaken (discardedState.core 0) 0 unlayeredEpi) unlayeredEpi
    (epiParams (leNat ((discardedState.core 0).pond.bytes unlayeredEpi.addr 64))) = none := by decide +kernel

/-- The 4096 elements that the EPI of the counterexample writes. -/
theorem discardedState_elems {m : EpiParams} (hblk : m.outBlk = 0) (base : U64 × U64) :
    (epiResult (epiTaken (discardedState.core 0) 0 unlayeredEpi) unlayeredEpi m base).2.elems = 4096 :=
  (epiWrites_elems ..).trans (epiValued_bf16 _ _ m base (by decide) hblk)

/-- What the partition's slots are after the EPI, from where its tally goes. -/
theorem discardedState_slots (origin : Nat → Nat → Option (Nat × Nat × Option Nat)) :
    ∃ (k : Core) (tally : Tally), tally.elems = 4096 ∧ ((epiOutcome discardedState 0 0 unlayeredEpi origin).partn 0).slots =
      (((discardedState.setCore 0 k).tally 0 (origin 0 0) 0 tally).partn 0).slots := by
  obtain ⟨hblk, htensor⟩ := discardedState_params
  have hslots := slots_epiOutcome (s := discardedState) (c := 0) (i := 0) (p := 0) (w := 0) (q := 0) (e := unlayeredEpi) origin
    rfl rfl rfl (by rw [hblk]; rfl) rfl
  rw [htensor] at hslots
  exact ⟨_, _, discardedState_elems hblk _, hslots⟩

/-- With the tally as the model has it, the slot of the output tensor stays empty: the step has been discarded (R191). -/
theorem discardedState_model : ((epiOutcome discardedState 0 0 unlayeredEpi fun w q => some (w, q, unlayeredEpi.layer)).partn 0).slots =
    [outputSlot] := by
  obtain ⟨k, tally, helems, hslots⟩ := discardedState_slots fun w q => some (w, q, unlayeredEpi.layer)
  rw [hslots, State.tally_discarded (i := 0) (g := steppedSegment) rfl rfl rfl (by simp [helems])]
  obtain ⟨x, hx⟩ := (discardedState.setCore 0 k).partn_bumpP 0 0x8060 8 tally.nonfin 0
  rw [hx]
  rfl

/-- With the tally as the statement has it, the slot takes all elements. -/
theorem discardedState_statement : ∃ x : Slot, x.elems = 4096 ∧
    ((epiOutcome discardedState 0 0 unlayeredEpi fun w q => unlayeredEpi.layer.map fun l => (w, q, l)).partn 0).slots = [x] := by
  obtain ⟨k, tally, helems, hslots⟩ := discardedState_slots fun w q => unlayeredEpi.layer.map fun l => (w, q, l)
  refine ⟨outputSlot.take tally, ?_, ?_⟩
  · exact (Nat.zero_add _).trans helems
  · change _ = (((discardedState.setCore 0 k).tally 0 none 0 tally).partn 0).slots at hslots
    rw [hslots, State.tally_unlayered (i := 0) rfl (by simp [helems]), State.partn_onPartn]
    rfl

end Sys2Proof.Machine

open Sys2Proof Sys2Proof.Machine Sys2Proof.Claims in
/-- Refutes O13: where an EPI lies in no layer, the statement's tally names no segment, and the slot of the output tensor takes it.
The model names the segment, and counts the tally of a discarded step as discarded (R191). In `discardedState` the slot has 4096
elements by the statement and none in the model. -/
theorem not_matrixInstructionsExecute : ¬ Obligations.MatrixInstructionsExecute := by
  unfold Obligations.MatrixInstructionsExecute
  rintro ⟨-, hepi⟩
  have hclause {s : State} {c i : Nat} {e : MatEntry} (hready : (s.core c).matReady 0x21 = some (i, e))
      (hpass : epiBlockFault (epiTaken (s.core c) i e) e (epiParams (leNat ((s.core c).pond.bytes e.addr 64))) = none) :
      exec (.epiExecute c) s = .next (epiOutcome s c i e fun w q => e.layer.map fun l => (w, q, l)) :=
    (hepi c s i e hready).2.1 hpass
  have hstated := hclause discardedState_ready discardedState_passes
  have hmodel := exec_epiExecute discardedState_ready discardedState_passes
  obtain ⟨x, hx, hslots⟩ := discardedState_statement
  rw [Host.Outcome.next.inj (hstated.symm.trans hmodel), discardedState_model] at hslots
  obtain rfl : outputSlot = x := List.singleton_inj.1 hslots
  exact absurd hx (by decide)
end

section
/-! PROOFS. The scalar functions (R91, R93, R86): the operations of ALU and of the immediate forms as functions on numbers, what a form that
runs leaves in its thread, and what a false guard leaves. -/

namespace Sys2Proof.Machine

open Sys2Proof.Claims

/-! ## The operations -/

theorem aluAddOp_eq (a b : U64) : aluAddOp a b = BitVec.ofNat 64 (a.toNat + b.toNat) :=
  BitVec.eq_of_toNat_eq (by simp [aluAddOp])

theorem aluSubOp_eq (a b : U64) : aluSubOp a b = BitVec.ofNat 64 (2 ^ 64 + a.toNat - b.toNat) := by
  refine BitVec.eq_of_toNat_eq ?_
  rw [aluSubOp, BitVec.toNat_sub, BitVec.toNat_ofNat]
  congr 1
  omega

theorem aluMulOp_eq (a b : U64) : aluMulOp a b = BitVec.ofNat 64 (a.toNat * b.toNat) :=
  BitVec.eq_of_toNat_eq (by simp [aluMulOp])

/-- R93. A quotient by 0 is 0, as Nat's is. -/
theorem aluDivuOp_eq (a b : U64) : aluDivuOp a b = BitVec.ofNat 64 (a.toNat / b.toNat) := by
  unfold aluDivuOp
  split
  · next hzero => simp [hzero]
  · rfl

/-- R93. A remainder by 0 is the dividend, as Nat's is. -/
theorem aluRemuOp_eq (a b : U64) : aluRemuOp a b = BitVec.ofNat 64 (a.toNat % b.toNat) := by
  unfold aluRemuOp
  split
  · next hzero => simp [hzero]
  · rfl

theorem slt_eq_signed (a b : U64) : a.slt b = decide (signed a < signed b) := cmpLtOp_eq a b

theorem aluMinOp_eq (a b : U64) : aluMinOp a b = if signed a < signed b then a else b := by
  simp only [aluMinOp, slt_eq_signed, decide_eq_true_eq]

theorem aluMaxOp_eq (a b : U64) : aluMaxOp a b = if signed a < signed b then b else a := by
  simp only [aluMaxOp, slt_eq_signed, decide_eq_true_eq]

/-- The immediate of a word is its low 12 bits. -/
theorem wImm_eq (w : U32) : wImm w = (w.extractLsb' 0 12).signExtend 64 := rfl

/-- R91. LIS shifts its register by 16 bits and puts the immediate behind it. -/
theorem lisOp_eq (r : U64) (w : U32) :
    (r <<< 16) ||| BitVec.ofNat 64 (wbits w 15 0) = BitVec.ofNat 64 (r.toNat * 2 ^ 16 + w.toNat % 2 ^ 16) := by
  have himm : w.toNat % 2 ^ 16 < 2 ^ 16 := Nat.mod_lt _ (by decide)
  refine BitVec.eq_of_toNat_eq ?_
  rw [Nat.mul_comm, Nat.two_pow_add_eq_or_of_lt himm, BitVec.ofNat_or]
  simp [wbits, bits, Nat.shiftLeft_eq, Nat.mul_comm]

/-! ## Forms that act on their thread -/

section Forms

variable {row mine : U32 → Bool} {i : Instr} {c t : Nat} {w : U32} {s : State}

/-- A form that runs changes its thread, which goes on to its next word. -/
theorem exec_onThreadAct {form : Thread → U32 → Thread} (hexec : exec i s = .next (issue mine (onThreadAct form) c t w s))
    (hrun : Runs row s c t w) (hrow : row w = true → mine w = true) :
    exec i s = .next (goesOn s c t fun h => form h w) := by
  rw [hexec, issue_of_runs hrun hrow]
  rfl

/-- R93. A function of ALU writes its result. -/
theorem exec_registerForm {fn : Nat} {f g : U64 → U64 → U64}
    (hexec : exec i s = .next (issue (isAlu fn) (onThreadAct (formR f)) c t w s)) (hop : ∀ a b, f a b = g a b)
    (hrun : Runs (fun w => wOpc w = 0 ∧ wFn w = fn) s c t w) :
    exec i s = .next (goesOn s c t fun h => h.setReg (wSd w) (g (h.reg (wSa w)) (h.reg (wSb w)))) := by
  rw [exec_onThreadAct hexec hrun (by simp [isAlu])]
  simp only [formR, hop]

/-- R91. An immediate form writes its result. -/
theorem exec_immediateForm {op : Nat} {f g : U64 → U64 → U64}
    (hexec : exec i s = .next (issue (isOp op) (onThreadAct (formI f)) c t w s)) (hop : ∀ a b, f a b = g a b)
    (hrun : Runs (fun w => wOpc w = op) s c t w) :
    exec i s = .next (goesOn s c t fun h =>
      h.setReg (wSd w) (g (h.reg (wSa w)) ((w.extractLsb' 0 12).signExtend 64))) := by
  rw [exec_onThreadAct hexec hrun id]
  simp only [formI, hop, wImm_eq]

/-- R91. LIS with its reserved bit clear writes its result. -/
theorem exec_lis (hrun : Runs (fun w => wOpc w = 0x08) s c t w) (hclear : w.getLsbD 16 = false) :
    exec (.lis c t w) s = .next (goesOn s c t fun h =>
      h.setReg (wSd w) (BitVec.ofNat 64 ((h.reg (wSd w)).toNat * 2 ^ 16 + w.toNat % 2 ^ 16))) := by
  change Host.Outcome.next (issue (isOp 0x08) (reserveChecked (fun w => w.getLsbD 16) (onThreadAct formL)) c t w s) = _
  rw [issue_of_runs hrun (fun h => h), reserveChecked_of_clear hclear]
  simp only [onThreadAct, formL, lisOp_eq]
  rfl

end Forms

end Sys2Proof.Machine

open Sys2Proof Sys2Proof.Machine Sys2Proof.Claims in
/-- Settles O1: a function of ALU that runs acts on its thread, and each one's operation is the function of its row. -/
theorem registerFormResults : Obligations.RegisterFormResults := by
  unfold Obligations.RegisterFormResults
  intro row hrow c t w s hrun
  simp only [registerForms, List.cons_append, List.nil_append, List.mem_cons, List.not_mem_nil, or_false] at hrow
  rcases hrow with rfl | rfl | rfl | rfl | rfl | rfl | rfl | rfl | rfl | rfl | rfl | rfl | rfl | rfl | rfl | rfl | rfl | rfl | rfl | rfl
  · exact exec_registerForm rfl aluAddOp_eq hrun
  · exact exec_registerForm rfl aluSubOp_eq hrun
  · exact exec_registerForm (f := aluAndOp) rfl (fun _ _ => rfl) hrun
  · exact exec_registerForm (f := aluOrOp) rfl (fun _ _ => rfl) hrun
  · exact exec_registerForm (f := aluXorOp) rfl (fun _ _ => rfl) hrun
  · exact exec_registerForm (f := aluShlOp) rfl (fun _ _ => rfl) hrun
  · exact exec_registerForm (f := aluShrOp) rfl (fun _ _ => rfl) hrun
  · exact exec_registerForm (f := aluSraOp) rfl (fun _ _ => rfl) hrun
  · exact exec_registerForm rfl aluMulOp_eq hrun
  · exact exec_registerForm (f := aluMulhuOp) rfl (fun _ _ => rfl) hrun
  · exact exec_registerForm rfl aluDivuOp_eq hrun
  · exact exec_registerForm rfl aluRemuOp_eq hrun
  · exact exec_registerForm rfl aluMinOp_eq hrun
  · exact exec_registerForm rfl aluMaxOp_eq hrun
  · exact exec_registerForm (f := aluFaddOp) rfl (fun _ _ => rfl) hrun
  · exact exec_registerForm (f := aluFsubOp) rfl (fun _ _ => rfl) hrun
  · exact exec_registerForm (f := aluFmulOp) rfl (fun _ _ => rfl) hrun
  · exact exec_registerForm (f := aluFdivOp) rfl (fun _ _ => rfl) hrun
  · exact exec_registerForm (f := aluFminOp) rfl (fun _ _ => rfl) hrun
  · exact exec_registerForm (f := aluFmaxOp) rfl (fun _ _ => rfl) hrun

open Sys2Proof Sys2Proof.Machine Sys2Proof.Claims in
/-- Settles O4: an immediate form that runs acts on its thread, and so does LIS with its reserved bit clear. -/
theorem immediateFormsAndLisResults : Obligations.ImmediateFormsAndLisResults := by
  unfold Obligations.ImmediateFormsAndLisResults
  refine ⟨fun row hrow c t w s hrun => ?immediate, fun c t w s => exec_lis⟩
  case immediate =>
    simp only [immediateForms, List.mem_cons, List.not_mem_nil, or_false] at hrow
    rcases hrow with rfl | rfl | rfl | rfl | rfl | rfl | rfl
    · exact exec_immediateForm (f := addiOp) rfl aluAddOp_eq hrun
    · exact exec_immediateForm (f := andiOp) rfl (fun _ _ => rfl) hrun
    · exact exec_immediateForm (f := oriOp) rfl (fun _ _ => rfl) hrun
    · exact exec_immediateForm (f := xoriOp) rfl (fun _ _ => rfl) hrun
    · exact exec_immediateForm (f := shliOp) rfl (fun _ _ => rfl) hrun
    · exact exec_immediateForm (f := shriOp) rfl (fun _ _ => rfl) hrun
    · exact exec_immediateForm (f := sraiOp) rfl (fun _ _ => rfl) hrun
end

section
/-! PROOFS. Guards (R86): an instruction whose guard is false issues, and its thread goes on. -/

namespace Sys2Proof.Machine

open Sys2Proof.Claims

theorem guardTrue_iff (h : Thread) (w : U32) : guardTrue h w = true ↔ h.pred (wPg w) ≠ wPn w ∨ wOpc w = 0x20 ∨ wOpc w = 0x21 := by
  simp only [guardTrue, Bool.or_eq_true, decide_eq_true_eq, bne_iff_ne]
  tauto

section FalseGuard

variable {mine : U32 → Bool} {act : Nat → Nat → U32 → State → State} {s : State} {c t fn : Nat} {w : U32}

/-- Thread t of core c issues w, whose guard is false. -/
structure GuardFails (s : State) (c t : Nat) (w : U32) : Prop where
  issues : issuesWord s c t w = true
  pred : ((s.core c).thread t).pred (wPg w) = wPn w
  mma : wOpc w ≠ 0x20
  epi : wOpc w ≠ 0x21

variable (hfails : GuardFails s c t w)
include hfails

theorem GuardFails.guard : guardTrue ((s.core c).thread t) w = false := by
  rw [Bool.eq_false_iff, ne_eq, guardTrue_iff]
  simp [hfails.pred, hfails.mma, hfails.epi]

/-- R86. An instruction that takes the word, whose guard is false, has no effect beside its issue. -/
theorem issue_of_guardFails (hmine : mine w = true) : issue mine act c t w s = goesOn s c t id := by
  have hguard : guardTrue (((s.onCore c fun k => { k with lastIssued := t }).core c).thread t) w = false := by
    rw [State.thread_onCore (by rfl)]
    exact hfails.guard
  simp only [issue, hfails.issues, hmine, Bool.and_self, if_true, hguard]
  rfl

/-- R86. So does HALT's row, whose other cases are a PC outside the segment and a reserved opcode. -/
theorem exec_halt_of_guardFails (hopc : wOpc w = 0x14) (hfn : wFn w = 0x01) : exec (.halt c t w) s = .next (goesOn s c t id) := by
  have hfetch : ((s.core c).fetch ((s.core c).thread t).pc).isNone = false := by
    obtain ⟨-, hw⟩ := Bool.and_eq_true_iff.1 hfails.issues
    rw [of_decide_eq_true hw]
    rfl
  have hexists : opcExists w = true := by simp [opcExists, hopc]
  change execHalt c t w s = _
  simp only [execHalt, hfetch, hexists, Bool.and_false, Bool.not_true, Bool.false_eq_true, if_false]
  rw [issue_of_guardFails hfails (by simp [isHaltRow, isSys, hopc, hfn])]

end FalseGuard

/-! ## The rows of the guarded instructions -/

/-- An instruction is issued by the opcode and the function of its row. -/
def IssuesRow (row : ThreadInstr × Nat × Option Nat) : Prop :=
  ∀ (c t : Nat) (w : U32) (s : State), GuardFails s c t w → wOpc w = row.2.1 → (∀ fn, row.2.2 = some fn → wFn w = fn) →
    exec (row.1 c t w) s = .next (goesOn s c t id)

section Rows

variable {i : ThreadInstr} {act : Nat → Nat → U32 → State → State}

theorem issuesRow_alu {fn : Nat} (hexec : ∀ c t w s, exec (i c t w) s = .next (issue (isAlu fn) act c t w s)) :
    IssuesRow (i, 0x00, some fn) := by
  intro c t w s hfails hopc hfn
  rw [hexec, issue_of_guardFails hfails (by simp [isAlu, hopc, hfn fn rfl])]

theorem issuesRow_cmp {fn : Nat} (hexec : ∀ c t w s, exec (i c t w) s = .next (issue (isCmp fn) act c t w s)) :
    IssuesRow (i, 0x0C, some fn) := by
  intro c t w s hfails hopc hfn
  rw [hexec, issue_of_guardFails hfails (by simp [isCmp, hopc, hfn fn rfl])]

theorem issuesRow_sys {fn : Nat} (hexec : ∀ c t w s, exec (i c t w) s = .next (issue (isSys fn) act c t w s)) :
    IssuesRow (i, 0x14, some fn) := by
  intro c t w s hfails hopc hfn
  rw [hexec, issue_of_guardFails hfails (by simp [isSys, hopc, hfn fn rfl])]

theorem issuesRow_op {op : Nat} (hexec : ∀ c t w s, exec (i c t w) s = .next (issue (isOp op) act c t w s)) :
    IssuesRow (i, op, none) := by
  intro c t w s hfails hopc _
  rw [hexec, issue_of_guardFails hfails (by simp [isOp, hopc])]

theorem issuesRow_halt : IssuesRow (.halt, 0x14, some 0x01) := fun _ _ _ _ hfails hopc hfn =>
  exec_halt_of_guardFails hfails hopc (hfn 0x01 rfl)

end Rows

/-- R86. Each guarded instruction is issued by its row. -/
theorem issuesRow_of_guarded : ∀ row ∈ guarded, IssuesRow row := by
  simp only [guarded, List.forall_mem_append, List.forall_mem_cons, List.not_mem_nil, false_imp_iff, implies_true, and_true]
  refine ⟨⟨⟨?alu, ?op⟩, ?cmp⟩, ?control⟩
  case alu => and_intros <;> exact issuesRow_alu fun _ _ _ _ => rfl
  case op => and_intros <;> exact issuesRow_op fun _ _ _ _ => rfl
  case cmp => and_intros <;> exact issuesRow_cmp fun _ _ _ _ => rfl
  case control =>
    exact ⟨issuesRow_op fun _ _ _ _ => rfl, issuesRow_op fun _ _ _ _ => rfl, issuesRow_op fun _ _ _ _ => rfl,
      issuesRow_sys fun _ _ _ _ => rfl, issuesRow_halt, issuesRow_sys fun _ _ _ _ => rfl, issuesRow_sys fun _ _ _ _ => rfl,
      issuesRow_sys fun _ _ _ _ => rfl, issuesRow_sys fun _ _ _ _ => rfl, issuesRow_op fun _ _ _ _ => rfl,
      issuesRow_op fun _ _ _ _ => rfl, issuesRow_op fun _ _ _ _ => rfl, issuesRow_op fun _ _ _ _ => rfl,
      issuesRow_op fun _ _ _ _ => rfl, issuesRow_op fun _ _ _ _ => rfl⟩

/-- R86. A guarded instruction is neither MMA nor EPI. -/
theorem guarded_opc : ∀ row ∈ guarded, row.2.1 ≠ 0x20 ∧ row.2.1 ≠ 0x21 := by
  simp [guarded]

end Sys2Proof.Machine

open Sys2Proof Sys2Proof.Machine Sys2Proof.Claims in
/-- Settles O3: the row of each guarded instruction issues a word whose guard is false, and does nothing with it. -/
theorem falseGuardsHaveNoEffect : Obligations.FalseGuardsHaveNoEffect := by
  unfold Obligations.FalseGuardsHaveNoEffect
  refine ⟨fun row hrow c t w s hissues hpred hopc hfn => ?_, guardTrue_iff⟩
  obtain ⟨hmma, hepi⟩ := guarded_opc row hrow
  exact issuesRow_of_guarded row hrow c t w s ⟨hissues, hpred, hopc ▸ hmma, hopc ▸ hepi⟩ hopc hfn
end

section
/-! PROOFS. What an issued word meets before it acts: a lock or an earlier access holds its thread (R60, R90), and a check that fails halts
it at the word (R109). -/

namespace Sys2Proof.Machine

open Sys2Proof.Claims

variable {act : Nat → Nat → U32 → State → State} {s : State} {c t : Nat} {w : U32}

theorem thread_issued (s : State) (c t v : Nat) : ((issued s c t).core c).thread v = (s.core c).thread v :=
  State.thread_onCore rfl

theorem pond_issued (s : State) (c t : Nat) : ((issued s c t).core c).pond = (s.core c).pond := by rw [core_issued]

theorem pondBadAt_issued (s : State) (c t a n : Nat) : ((issued s c t).core c).pondBadAt a n = (s.core c).pondBadAt a n := by
  rw [core_issued]
  rfl

theorem core_issued_ne (s : State) {c d : Nat} (t : Nat) (h : d ≠ c) : (issued s c t).core d = s.core d :=
  State.core_onCore_ne s c d _ h.symm

theorem segOf_issued (s : State) (c t : Nat) : (issued s c t).segOf c = s.segOf c := by
  unfold State.segOf
  rw [core_issued]
  rfl

/-- A halt at the issued word is a halt at the place where its thread stands. -/
theorem haltAt_issued (s : State) (c t : Nat) (w : U32) (code detail : Nat) :
    haltAt code detail c t w (issued s c t) = haltsWith s c t w code detail := by
  unfold haltAt
  rw [thread_issued]
  rfl

theorem lockChecked_issued (h : Unlocked s c t w) : lockChecked act c t w (issued s c t) = act c t w (issued s c t) :=
  lockChecked_of_unlocked (unlocked_issued h)

/-- R60, R90. A word waits that something queued holds. -/
theorem lockChecked_issued_waits (h : ¬Unlocked s c t w) :
    lockChecked act c t w (issued s c t) = threadDoes s c t fun h => { h with st := .waiting (.tileLock w) } := by
  have hheld : ((s.core c).locked (wordRegs (s.core c) w).1 (wordRegs (s.core c) w).2 || (s.core c).pondBusy t w) = true := by
    simpa [Unlocked, ← Bool.not_eq_true, imp_iff_or_not, or_comm] using h
  unfold lockChecked
  simp only [core_issued]
  exact if_pos hheld

end Sys2Proof.Machine
end

section
/-! PROOFS. LD and ST (R83, R88, R90, R109, R117, R118). -/

namespace Sys2Proof.Machine

open Sys2Proof.Claims

/-! ## Addresses and bytes -/

theorem ldstAddr_eq (h : Thread) (w : U32) : ldstAddr h w = scalarAddr h w := rfl

theorem scalarFault_eq_none {a : Nat} (hpond : a + 8 ≤ 393216) (halign : a % 8 = 0) : scalarFault a = none := by
  simp [scalarFault, inPond, pondSize, hpond, halign]

theorem scalarFault_outside {a : Nat} (hpond : 393216 < a + 8) : scalarFault a = some 0x03 := by
  simp [scalarFault, inPond, pondSize, haltPondRange, hpond.not_ge]

theorem scalarFault_misaligned {a : Nat} (hpond : a + 8 ≤ 393216) (halign : a % 8 ≠ 0) : scalarFault a = some 0x04 := by
  simp [scalarFault, inPond, pondSize, haltAlign, hpond, halign]

/-- R12. The bytes of a number, from its lowest. -/
theorem getD_leBytes {n i : Nat} (v : Nat) (hi : i < n) : (leBytes n v).getD i 0 = BitVec.ofNat 8 (v / 256 ^ i) := by
  induction n generalizing v i with
  | zero => omega
  | succ n ih =>
    cases i with
    | zero => simp [leBytes]
    | succ i =>
      rw [leBytes, List.getD_cons_succ, ih _ (by omega), Nat.div_div_eq_div_mul, pow_succ, Nat.mul_comm]

/-- Byte i of a register. -/
theorem getD_leBytes_reg (r : U64) {i : Nat} (hi : i < 8) : (leBytes 8 r.toNat).getD i 0 = r.extractLsb' (8 * i) 8 := by
  rw [getD_leBytes _ hi, BitVec.extractLsb', Nat.shiftRight_eq_div_pow, pow_mul]
  rfl

/-! ## A thread that goes on -/

@[simp] theorem Thread.advance_reg (h : Thread) (r : Nat) : h.advance.reg r = h.reg r := rfl
@[simp] theorem Thread.advance_preds (h : Thread) : h.advance.preds = h.preds := rfl

/-! ## The two instructions -/

section Access

variable {c t a : Nat} {w : U32} {s : State}

section Load

variable (hrun : Runs (fun w => wOpc w = 0x09) s c t w)
include hrun

theorem exec_ld : exec (.ld c t w) s = .next (lockChecked ldAct c t w (issued s c t)) :=
  congrArg Host.Outcome.next (issue_of_runs hrun fun h => h)

theorem exec_ld_waits (hheld : ¬Unlocked s c t w) :
    exec (.ld c t w) s = .next (threadDoes s c t fun h => { h with st := .waiting (.tileLock w) }) := by
  rw [exec_ld hrun, lockChecked_issued_waits hheld]

variable (hfree : Unlocked s c t w) (ha : scalarAddr ((s.core c).thread t) w = a)
include hfree ha

/-- R109. A load whose address has a fault halts with it. -/
theorem exec_ld_faults {code : Nat} (hfault : scalarFault a = some code) :
    exec (.ld c t w) s = .next (haltsWith s c t w code a) := by
  rw [exec_ld hrun, lockChecked_issued hfree, ldAct]
  simp only [thread_issued, ldstAddr_eq, ha, hfault, haltAt_issued]

variable (hsound : scalarFault a = none)
include hsound

/-- R118. A load halts on an uncorrectable word. -/
theorem exec_ld_uncorrectable (hbad : (s.core c).pondBadAt a 8 = true) :
    exec (.ld c t w) s = .next (haltsWith s c t w 0x09 a) := by
  rw [exec_ld hrun, lockChecked_issued hfree, ldAct]
  simp only [thread_issued, ldstAddr_eq, ha, hsound, pondBadAt_issued, hbad, if_true, haltAt_issued]
  rfl

/-- R83, R118. Any other load corrects what it meets, and its thread waits with the bytes. -/
theorem exec_ld_loads (hgood : (s.core c).pondBadAt a 8 = false) :
    exec (.ld c t w) s = .next (((issued s c t).correctPond c a 8).onThread c t fun h =>
      { h.advance with st := .waiting (.load (wSd w) (BitVec.ofNat 64 (leNat ((s.core c).pond.bytes a 8)))) }) := by
  rw [exec_ld hrun, lockChecked_issued hfree, ldAct]
  simp only [thread_issued, ldstAddr_eq, ha, hsound, pondBadAt_issued, hgood, Bool.false_eq_true, if_false, pond_issued]

end Load

/-- R83. The waiting load's bytes reach its register. -/
theorem exec_pondLoadResult {sd : Nat} {v : U64} (hst : ((s.core c).thread t).st = .waiting (.load sd v)) :
    exec (.pondLoadResult c t) s = .next (s.onThread c t fun h => { h.setReg sd v with st := .ready }) := by
  change execPondLoadResult c t s = _
  simp only [execPondLoadResult, hst]

/-- The state after a store: the register's bytes stand in the pond, and the thread goes on (R88). -/
def stored (s : State) (c t : Nat) (w : U32) : State :=
  let h := (s.core c).thread t
  ((issued s c t).onCore c fun k => k.pondWrite (scalarAddr h w) (leBytes 8 (h.reg (wSd w)).toNat)).onThread c t Thread.advance

section Store

variable (hrun : Runs (fun w => wOpc w = 0x0A) s c t w)
include hrun

theorem exec_st : exec (.st c t w) s = .next (lockChecked stAct c t w (issued s c t)) :=
  congrArg Host.Outcome.next (issue_of_runs hrun fun h => h)

theorem exec_st_waits (hheld : ¬Unlocked s c t w) :
    exec (.st c t w) s = .next (threadDoes s c t fun h => { h with st := .waiting (.tileLock w) }) := by
  rw [exec_st hrun, lockChecked_issued_waits hheld]

variable (hfree : Unlocked s c t w) (ha : scalarAddr ((s.core c).thread t) w = a)
include hfree ha

theorem exec_st_faults {code : Nat} (hfault : scalarFault a = some code) :
    exec (.st c t w) s = .next (haltsWith s c t w code a) := by
  rw [exec_st hrun, lockChecked_issued hfree, stAct]
  simp only [thread_issued, ldstAddr_eq, ha, hfault, haltAt_issued]

theorem exec_st_stores (hsound : scalarFault a = none) : exec (.st c t w) s = .next (stored s c t w) := by
  rw [exec_st hrun, lockChecked_issued hfree, stAct]
  simp only [thread_issued, ldstAddr_eq, ha, hsound, stored]

end Store

/-- The core after a store. -/
theorem core_stored (s : State) (c t : Nat) (w : U32) : (stored s c t w).core c =
    ({ s.core c with lastIssued := t }.pondWrite (scalarAddr ((s.core c).thread t) w)
      (leBytes 8 (((s.core c).thread t).reg (wSd w)).toNat)).setThread t ((s.core c).thread t).advance := by
  unfold stored State.onThread
  rw [State.core_onCore, State.core_onCore, core_issued]
  rfl

theorem thread_stored (s : State) (c t : Nat) (w : U32) : ((stored s c t w).core c).thread t = ((s.core c).thread t).advance := by
  rw [core_stored, Core.thread_setThread]

theorem thread_stored_ne (s : State) (c : Nat) {t v : Nat} (w : U32) (hv : v ≠ t) :
    ((stored s c t w).core c).thread v = (s.core c).thread v := by
  rw [core_stored, Core.thread_setThread_ne _ _ _ _ hv.symm]
  rfl

theorem core_stored_ne (s : State) {c d : Nat} (t : Nat) (w : U32) (hd : d ≠ c) : (stored s c t w).core d = s.core d := by
  unfold stored State.onThread
  rw [State.core_onCore_ne _ _ _ _ hd.symm, State.core_onCore_ne _ _ _ _ hd.symm, core_issued_ne s t hd]

/-- R88, R117. A byte of the pond after a store. -/
theorem pondByte_stored (ha : scalarAddr ((s.core c).thread t) w = a) (b : Nat) : pondByte (stored s c t w) c b =
    if a ≤ b ∧ b < a + 8 then (leBytes 8 (((s.core c).thread t).reg (wSd w)).toNat).getD (b - a) 0 else pondByte s c b := by
  subst ha
  unfold pondByte
  rw [core_stored]
  refine (Table.byte_putBytes ..).trans ?_
  rw [length_leBytes]

end Access

end Sys2Proof.Machine

open Sys2Proof Sys2Proof.Machine Sys2Proof.Claims in
/-- Settles O5: the fault of the address decides whether a load or a store that nothing holds halts, and what it does else. -/
theorem loadsAndStoresReachThePond : Obligations.LoadsAndStoresReachThePond := by
  unfold Obligations.LoadsAndStoresReachThePond
  refine ⟨⟨fun c t w s hrun => ?load, fun c t s sd v => exec_pondLoadResult⟩, fun c t w s hrun => ?store⟩
  case load =>
    refine ⟨exec_ld_waits hrun, fun hfree => ⟨fun hpond halign => ?loads, fun hpond => ?outside, fun hpond halign => ?misaligned,
      fun hpond halign => ?uncorrectable⟩⟩
    case loads => exact exec_ld_loads hrun hfree rfl (scalarFault_eq_none hpond halign)
    case outside => exact exec_ld_faults hrun hfree rfl (scalarFault_outside hpond)
    case misaligned => exact exec_ld_faults hrun hfree rfl (scalarFault_misaligned hpond halign)
    case uncorrectable => exact exec_ld_uncorrectable hrun hfree rfl (scalarFault_eq_none hpond halign)
  case store =>
    refine ⟨exec_st_waits hrun, fun hfree => ⟨fun hpond halign => ?stores, fun hpond => ?outside, fun hpond halign => ?misaligned⟩⟩
    case outside => exact exec_st_faults hrun hfree rfl (scalarFault_outside hpond)
    case misaligned => exact exec_st_faults hrun hfree rfl (scalarFault_misaligned hpond halign)
    case stores =>
      refine ⟨_, exec_st_stores hrun hfree rfl (scalarFault_eq_none hpond halign), fun i hi => ?byte, fun b hb => ?rest,
        thread_stored s c t w, fun r => ?reg, ?preds, fun v => thread_stored_ne s c w, ?core⟩
      case byte => rw [pondByte_stored rfl, if_pos (by omega), Nat.add_sub_cancel_left, getD_leBytes_reg _ hi]
      case rest => rw [pondByte_stored rfl, if_neg (by omega)]
      case reg => rw [thread_stored, Thread.advance_reg]
      case preds => rw [thread_stored, Thread.advance_preds]
      case core =>
        rw [core_stored]
        exact ⟨rfl, rfl, rfl, rfl, rfl, rfl, fun d => core_stored_ne s t w, rfl⟩
end

section
/-! PROOFS. Branches and loops (R83, R94, R109, R111). -/

namespace Sys2Proof.Machine

open Sys2Proof.Claims

/-! ## Branches -/

section Branching

variable {c t : Nat} {w : U32} {s : State} {target : Int}

theorem nwords_issued (s : State) (c t : Nat) : ((issued s c t).core c).nwords = (s.core c).nwords := by rw [core_issued]

/-- R94. A target in the segment is taken. -/
theorem takeBranch_inside (hlow : 0 ≤ target) (hhigh : target < (s.core c).nwords) :
    takeBranch target c t w (issued s c t) = threadDoes s c t fun h => { h.jump target.toNat with st := .waiting .branchShadow } := by
  rw [takeBranch, nwords_issued]
  exact if_pos ⟨hlow, hhigh⟩

/-- R111. Any other target halts. -/
theorem takeBranch_outside (hout : target < 0 ∨ (s.core c).nwords ≤ target) :
    takeBranch target c t w (issued s c t) = haltsWith s c t w 0x05 0 := by
  rw [takeBranch, nwords_issued, if_neg (by omega), haltAt_issued]
  rfl

/-- R91. The offset of a branch is its low 22 bits, signed. -/
theorem wOff_eq (w : U32) : wOff w = (w.extractLsb' 0 22).toInt := by
  have hlow : (w.extractLsb' 0 22).toNat = w.toNat % 2 ^ 22 := BitVec.toNat_ofNat ..
  rw [wOff, sext, BitVec.toInt_eq_toNat_cond, hlow]
  split <;> split <;> omega

theorem exec_br (hrun : Runs (fun w => wOpc w = 0x10) s c t w)
    (htarget : target = ((s.core c).thread t).pc + (w.extractLsb' 0 22).toInt) :
    exec (.br c t w) s = .next (takeBranch target c t w (issued s c t)) := by
  change Host.Outcome.next (issue (isOp 0x10) brAct c t w s) = _
  rw [issue_of_runs hrun fun h => h]
  change Host.Outcome.next (brAct c t w (issued s c t)) = _
  rw [brAct, thread_issued, wOff_eq, htarget]

theorem exec_jr (hrun : Runs (fun w => wOpc w = 0x11) s c t w) (htarget : target = (((s.core c).thread t).reg (wSa w)).toNat) :
    exec (.jr c t w) s = .next (takeBranch target c t w (issued s c t)) := by
  change Host.Outcome.next (issue (isOp 0x11) jrAct c t w s) = _
  rw [issue_of_runs hrun fun h => h]
  change Host.Outcome.next (jrAct c t w (issued s c t)) = _
  rw [jrAct, thread_issued, htarget]

/-- R83. The shadow of a branch ends. -/
theorem exec_branchShadowEnd (hst : ((s.core c).thread t).st = .waiting .branchShadow) :
    exec (.branchShadowEnd c t) s = .next (s.onThread c t fun h => { h with st := .ready }) := by
  change execBranchShadowEnd c t s = _
  simp only [execBranchShadowEnd, hst]

end Branching

/-! ## Loops -/

section Looping

/-- R94. The body of a loop at the thread's next word ends inside the body around it. -/
def LoopFits (h : Thread) (len : Nat) : Prop := ∀ l, h.loops.getLast? = some l → h.pc + 1 + len ≤ l.first + l.len

variable {c t : Nat} {w : U32} {s : State} (hrun : Runs (fun w => wOpc w = 0x12) s c t w) (hclear : wbits w 7 0 = 0)
include hrun hclear

theorem exec_loop : exec (.loop c t w) s = .next (loopAct c t w (issued s c t)) := by
  change Host.Outcome.next (issue (isOp 0x12) (reserveChecked (fun w => wbits w 7 0 ≠ 0) loopAct) c t w s) = _
  rw [issue_of_runs hrun (fun h => h), reserveChecked_of_clear (by simp [hclear])]
  rfl

open Classical in
/-- R94, R109. The checks of a LOOP, and what it does that passes them. -/
theorem exec_loop_cases : exec (.loop c t w) s = .next (
    if wbits w 16 8 = 0 ∨ 4 ≤ ((s.core c).thread t).loops.length ∨ ¬LoopFits ((s.core c).thread t) (wbits w 16 8) then
      haltsWith s c t w 0x06 0
    else if (((s.core c).thread t).reg (wSd w)).toNat = 0 then
      threadDoes s c t fun h => h.goOn (((s.core c).thread t).pc + 1 + wbits w 16 8)
    else threadDoes s c t fun h => { h with
      pc := ((s.core c).thread t).pc + 1
      loops := h.loops ++ [{ first := ((s.core c).thread t).pc + 1, len := wbits w 16 8
                             left := (((s.core c).thread t).reg (wSd w)).toNat - 1, index := 0 }] }) := by
  rw [exec_loop hrun hclear, loopAct]
  simp only [thread_issued, haltAt_issued]
  refine congrArg _ (if_congr ?_ rfl rfl)
  unfold LoopFits
  cases ((s.core c).thread t).loops.getLast? <;> simp [or_assoc]

theorem exec_loop_halts
    (hbad : wbits w 16 8 = 0 ∨ 4 ≤ ((s.core c).thread t).loops.length ∨ ¬LoopFits ((s.core c).thread t) (wbits w 16 8)) :
    exec (.loop c t w) s = .next (haltsWith s c t w 0x06 0) := by
  rw [exec_loop_cases hrun hclear, if_pos hbad]

variable (hlen : 0 < wbits w 16 8) (hdepth : ((s.core c).thread t).loops.length < 4)
  (hfits : LoopFits ((s.core c).thread t) (wbits w 16 8))
include hlen hdepth hfits

/-- R94. A count of 0 skips the body. -/
theorem exec_loop_skips (hcount : (((s.core c).thread t).reg (wSd w)).toNat = 0) :
    exec (.loop c t w) s = .next (threadDoes s c t fun h => h.goOn (h.pc + 1 + wbits w 16 8)) := by
  rw [exec_loop_cases hrun hclear, if_neg (by simp [hlen.ne', hdepth.not_ge, hfits]), if_pos hcount]
  refine congrArg _ (State.onThread_congr ?_)
  rw [State.thread_onCore (by rfl)]

/-- R94. Any other count opens a level. -/
theorem exec_loop_opens (hcount : 0 < (((s.core c).thread t).reg (wSd w)).toNat) :
    exec (.loop c t w) s = .next (threadDoes s c t fun h => { h with
      pc := h.pc + 1
      loops := h.loops ++ [{ first := h.pc + 1, len := wbits w 16 8
                             left := (((s.core c).thread t).reg (wSd w)).toNat - 1, index := 0 }] }) := by
  rw [exec_loop_cases hrun hclear, if_neg (by simp [hlen.ne', hdepth.not_ge, hfits]), if_neg hcount.ne']
  refine congrArg _ (State.onThread_congr ?_)
  rw [State.thread_onCore (by rfl)]

end Looping

section GoingOn

variable {h : Thread} {outer : List Loop} {l : Loop} {n : Nat} (hloops : h.loops = outer ++ [l])
include hloops

/-- R94. At the end of the innermost body with iterations left, the thread goes back. -/
theorem Thread.goOn_repeats (hend : n = l.first + l.len) (hleft : 0 < l.left) :
    h.goOn n = { h with pc := l.first, loops := outer ++ [{ l with left := l.left - 1, index := l.index + 1 }] } := by
  simp [goOn, hloops, backEdge, hend, hleft.ne']

/-- With none left, the level is over and those around it say how it goes on. -/
theorem Thread.goOn_ends (hend : n = l.first + l.len) (hleft : l.left = 0) :
    h.goOn n = ({ h with loops := outer } : Thread).goOn n := by
  simp [goOn, hloops, backEdge, hend, hleft]

/-- Anywhere else it goes on at the word. -/
theorem Thread.goOn_inside (hinside : n ≠ l.first + l.len) : h.goOn n = { h with pc := n } := by
  simp [goOn, hloops, backEdge, hinside]

end GoingOn

end Sys2Proof.Machine

open Sys2Proof Sys2Proof.Machine Sys2Proof.Claims in
/-- Settles O6: BR and JR take their target where it lies among the segment's words, and halt where not. -/
theorem branchesJumpInsideTheSegment : Obligations.BranchesJumpInsideTheSegment := by
  unfold Obligations.BranchesJumpInsideTheSegment
  refine ⟨fun c t w s n => ⟨fun hrun htarget => ?br, fun hrun htarget => ?jr⟩, fun c t s => exec_branchShadowEnd⟩
  case br =>
    exact ⟨fun hlow hhigh => (exec_br hrun htarget).trans (congrArg _ (takeBranch_inside hlow hhigh)),
      fun hout => (exec_br hrun htarget).trans (congrArg _ (takeBranch_outside hout))⟩
  case jr =>
    exact ⟨fun hlow hhigh => (exec_jr hrun htarget).trans (congrArg _ (takeBranch_inside hlow hhigh)),
      fun hout => (exec_jr hrun htarget).trans (congrArg _ (takeBranch_outside hout))⟩

open Sys2Proof Sys2Proof.Machine Sys2Proof.Claims in
/-- Settles O7: a LOOP that passes its checks skips its body or opens a level, and the innermost level says where a thread goes on. -/
theorem loopsOpenAndRepeat : Obligations.LoopsOpenAndRepeat := by
  unfold Obligations.LoopsOpenAndRepeat
  refine ⟨fun c t w s hrun hclear => ⟨exec_loop_skips hrun hclear, exec_loop_opens hrun hclear, exec_loop_halts hrun hclear⟩,
    ?levels⟩
  case levels =>
    intro h outer l n hloops
    exact ⟨Thread.goOn_repeats hloops, Thread.goOn_ends hloops, Thread.goOn_inside hloops⟩
end

section
/-! PROOFS. System words, barriers, special registers and marks (R81, R87, R89, R98, R109). -/

namespace Sys2Proof

/-- A function on the values of a table that keeps the unlisted value acts on what a key reads. -/
theorem Table.get_map_snd {α : Type} {f : α → α} {d : α} (hd : f d = d) (m : Table α) (k : Nat) :
    Table.get (m.map fun e => (e.1, f e.2)) k d = f (m.get k d) := by
  induction m with
  | nil => exact hd.symm
  | cons e r ih =>
    rw [List.map_cons, Table.get_cons, Table.get_cons, ih]
    split <;> rfl

end Sys2Proof

namespace Sys2Proof.Machine

open Sys2Proof.Claims

/-! ## END, BAR, WAITQ -/

section SystemWords

variable {c t : Nat} {w : U32} {s : State}

/-- A function of SYS that runs acts. -/
theorem issue_sys {act : Nat → Nat → U32 → State → State} {fn : Nat} (hrun : Runs (fun w => wOpc w = 0x14 ∧ wFn w = fn) s c t w) :
    issue (isSys fn) act c t w s = act c t w (issued s c t) :=
  issue_of_runs hrun (by simp [isSys])

theorem exec_endThread (hrun : Runs (fun w => wOpc w = 0x14 ∧ wFn w = 0x00) s c t w) :
    exec (.endThread c t w) s = .next (threadDoes s c t fun h => { h with st := .idle }) :=
  congrArg Host.Outcome.next (issue_sys hrun)

theorem exec_bar (hrun : Runs (fun w => wOpc w = 0x14 ∧ wFn w = 0x02) s c t w) :
    exec (.bar c t w) s = .next (threadDoes s c t fun h =>
      { h.advance with st := .waiting (.bar ((h.reg (wSa w)).setWidth 8)) }) :=
  congrArg Host.Outcome.next (issue_sys hrun)

theorem exec_waitq (hrun : Runs (fun w => wOpc w = 0x14 ∧ wFn w = 0x03) s c t w) :
    exec (.waitq c t w) s = .next (threadDoes s c t fun h =>
      if h.outstanding = 0 then h.advance else { h.advance with st := .waiting .waitq }) :=
  congrArg Host.Outcome.next (issue_sys hrun)

/-! ## HALT and the reserved words -/

/-- A word of an existing opcode that runs on HALT's row halts by the row. -/
theorem exec_halt_of_runs {row : U32 → Bool} (hrun : Runs row s c t w) (hexists : opcExists w = true) (hhalts : isHaltRow w = true) :
    exec (.halt c t w) s = .next (haltAct c t w (issued s c t)) := by
  have hfetch : ((s.core c).fetch ((s.core c).thread t).pc).isNone = false := by
    obtain ⟨hissues, -⟩ := hrun
    rw [of_decide_eq_true (Bool.and_eq_true_iff.1 hissues).2]
    rfl
  change execHalt c t w s = _
  simp only [execHalt, hfetch, hexists, Bool.and_false, Bool.not_true, Bool.false_eq_true, if_false]
  exact congrArg Host.Outcome.next (issue_of_runs hrun fun _ => hhalts)

/-- R109. SYS HALT halts with 0x80 + SB. -/
theorem exec_halt (hrun : Runs (fun w => wOpc w = 0x14 ∧ wFn w = 0x01) s c t w) :
    exec (.halt c t w) s = .next (haltsWith s c t w (0x80 + wSb w) 0) := by
  have hsys : isSys 0x01 w = true := by
    obtain ⟨-, -, hw⟩ := hrun
    simpa [isSys] using hw
  have hopc : wOpc w = 0x14 := by
    simp only [isSys, Bool.and_eq_true, decide_eq_true_eq] at hsys
    exact hsys.1
  rw [exec_halt_of_runs hrun (by simp [opcExists, hopc]) (by simp [isHaltRow, hsys]), haltAct, if_pos hsys, haltAt_issued]

/-- The words that an existing opcode reserves (R91, R93). -/
def reservedFn (w : U32) : Bool :=
  (wOpc w = 0x00 ∧ wFn w ∉ aluFns) ∨ (wOpc w = 0x0C ∧ wFn w ∉ cmpFns) ∨ (wOpc w = 0x14 ∧ 0x05 < wFn w)

theorem reservedFn_spec (h : reservedFn w = true) : opcExists w = true ∧ isIllegal w = true ∧ isSys 0x01 w = false := by
  rcases of_decide_eq_true h with ⟨hopc, hfn⟩ | ⟨hopc, hfn⟩ | ⟨hopc, hfn⟩
  · simp [opcExists, isIllegal, isSys, hopc, hfn]
  · simp [opcExists, isIllegal, isSys, hopc, hfn]
  · have hhalt : wFn w ≠ 1 := by omega
    simp [opcExists, isIllegal, isSys, hopc, hfn, hhalt]

/-- R109. A reserved word halts with ILLEGAL_OP. -/
theorem exec_halt_reserved (hrun : Runs reservedFn s c t w) : exec (.halt c t w) s = .next (haltsWith s c t w 0x01 0) := by
  obtain ⟨hexists, hillegal, hsys⟩ := reservedFn_spec hrun.2.2
  rw [exec_halt_of_runs hrun hexists (by simp [isHaltRow, hillegal]), haltAct, hsys, if_neg (by simp), haltAt_issued]
  rfl

/-- R109. A PC outside the segment's words halts with PC_RANGE and the word 0. -/
theorem exec_halt_outside (hissue : canIssue s c t = true) (hpc : (s.core c).nwords ≤ ((s.core c).thread t).pc) :
    exec (.halt c t w) s = .next (haltsWith s c t 0 0x05 0) := by
  have hfetch : (s.core c).fetch ((s.core c).thread t).pc = none := if_neg hpc.not_gt
  change execHalt c t w s = _
  simp only [execHalt, hissue, hfetch, Option.isNone_none, Bool.and_self, if_true]
  rfl

/-! ## Barriers -/

/-- The state once the threads that wait in a BAR with the mask are released. -/
def barFreed (s : State) (c : Nat) (mask : Byte) : State :=
  s.setCore c { s.core c with threads := (s.core c).threads.map fun e => (e.1, e.2.barFree mask) }

theorem barReached_of_mem {mask : Byte} {h : Thread} (hmem : h.st ∈ [.idle, .halted, .waiting (.bar mask)]) :
    barReached mask h = true := by
  simp only [List.mem_cons, List.not_mem_nil, or_false] at hmem
  rcases hmem with hst | hst | hst <;> simp [barReached, hst]

/-- R89. A barrier that all its threads have reached is released. -/
theorem exec_barRelease {mask : Byte}
    (hall : ∀ i < 8, mask.getLsbD i = true → ((s.core c).thread i).st ∈ [.idle, .halted, .waiting (.bar mask)]) :
    exec (.barRelease c mask) s = .next (barFreed s c mask) := by
  refine (if_pos ?_ : execBarRelease c mask s = _)
  simp only [List.all_eq_true, List.mem_range, Bool.or_eq_true, Bool.not_eq_true']
  intro i hi
  cases hbit : mask.getLsbD i
  · exact Or.inl rfl
  · exact Or.inr (barReached_of_mem (hall i hi hbit))

theorem thread_barFreed (s : State) (c : Nat) (mask : Byte) (v : Nat) :
    ((barFreed s c mask).core c).thread v = ((s.core c).thread v).barFree mask := by
  unfold barFreed
  rw [State.core_setCore]
  exact Table.get_map_snd (f := Thread.barFree mask) (d := ({} : Thread)) rfl _ v

/-- R89. The last outstanding instruction of a thread in WAITQ is done. -/
theorem exec_waitqRelease (hst : ((s.core c).thread t).st = .waiting .waitq) (hdone : ((s.core c).thread t).outstanding = 0) :
    exec (.waitqRelease c t) s = .next (s.onThread c t fun h => { h with st := .ready }) :=
  (if_pos (by simp [hst, hdone]) : execWaitqRelease c t s = _)

end SystemWords

/-! ## Special registers -/

section Special

variable {c t : Nat} {w : U32} {s : State} {g : Segment}

/-- R87. A special register other than CYCLE. -/
theorem specialReg_eq (hseg : s.segOf c = some g) {n : Nat} (hn : n ≠ 3) :
    specialReg s c t n = specialValue g c t ((s.core c).thread t) n := by
  rcases Nat.lt_or_ge n 12 with hlow | hhigh
  · interval_cases n <;> simp [specialReg, hseg, specialValue] at hn ⊢
  · obtain ⟨m, rfl⟩ := Nat.exists_eq_add_of_le' hhigh
    simp [specialReg, hseg, specialValue]

theorem specialReg_cycle (hseg : s.segOf c = some g) : specialReg s c t 3 = BitVec.ofNat 64 (s.cycleOf c) := by
  simp only [specialReg, hseg]
  rfl

/-- The issue of a word does not count as a cycle of its own. -/
theorem cycleOf_issued (s : State) (c t : Nat) : (issued s c t).cycleOf c = s.cycleOf c := by
  unfold State.cycleOf
  rw [core_issued]
  rfl

variable (hrun : Runs (fun w => wOpc w = 0x14 ∧ wFn w = 0x04) s c t w) (hseg : s.segOf c = some g)
include hrun hseg

theorem exec_csrr (hsa : wSa w ≠ 3) :
    exec (.csrr c t w) s = .next (goesOn s c t fun h => h.setReg (wSd w) (specialValue g c t h (wSa w))) := by
  change Host.Outcome.next (issue (isSys 0x04) csrrAct c t w s) = _
  rw [issue_sys hrun, csrrAct, specialReg_eq ((segOf_issued s c t).trans hseg) hsa, if_neg hsa]
  exact congrArg _ (State.onThread_congr rfl)

theorem exec_csrr_cycle (hsa : wSa w = 3) :
    exec (.csrr c t w) s =
      .next (((issued s c t).fresh.onCore c fun k => { k with lastCycle := (BitVec.ofNat 64 (s.cycleOf c)).toNat + 1 }).onThread c t
        fun h => (h.setReg (wSd w) (BitVec.ofNat 64 (s.cycleOf c))).advance) := by
  change Host.Outcome.next (issue (isSys 0x04) csrrAct c t w s) = _
  rw [issue_sys hrun, csrrAct, hsa, specialReg_cycle ((segOf_issued s c t).trans hseg), cycleOf_issued]
  rfl

end Special

/-- R87. CYCLE lies in the current microsecond, unless the last reading lies behind it. -/
theorem State.cycleOf_lt (s : State) (c : Nat) (hclock : 0 < s.coreClock c)
    (hlast : (s.core c).lastCycle < s.coreCycles c - (s.core c).cycleBase + s.coreClock c) :
    s.cycleOf c < s.coreCycles c - (s.core c).cycleBase + s.coreClock c :=
  max_lt hlast (Nat.add_lt_add_left (Nat.mod_lt _ hclock) _)

theorem State.le_cycleOf (s : State) (c : Nat) : s.coreCycles c - (s.core c).cycleBase ≤ s.cycleOf c :=
  le_max_of_le_right (Nat.le_add_right ..)

/-! ## MWAIT -/

section Mark

variable {c t m : Nat} {w : U32} {s : State}

section Wait

variable (hrun : Runs (fun w => wOpc w = 0x1D) s c t w) (hclear : wbits w 9 0 = 0)
include hrun hclear

theorem exec_mwait : exec (.mwait c t w) s = .next (mwaitAct c t w (issued s c t)) := by
  change Host.Outcome.next (issue (isOp 0x1D) (reserveChecked (fun w => wbits w 9 0 ≠ 0) mwaitAct) c t w s) = _
  rw [issue_of_runs hrun (fun h => h), reserveChecked_of_clear (by simp [hclear])]
  rfl

variable (hm : (((s.core c).thread t).reg (wbits w 19 15)).toNat = m)
include hm

/-- R109. A mark number above 65,535 halts. -/
theorem exec_mwait_halts (hrange : 65535 < m) : exec (.mwait c t w) s = .next (haltsWith s c t w 0x0A m) := by
  rw [exec_mwait hrun hclear, mwaitAct]
  simp only [thread_issued, hm, haltAt_issued]
  exact congrArg _ (if_pos hrange)

variable {p f q : Nat} {target : U32} (hseg : (s.core c).seg = some (p, f, q))
  (htarget : (((s.core c).thread t).reg (wbits w 14 10)).setWidth 32 = target) (hrange : m ≤ 65535)
include hseg htarget hrange

theorem exec_mwait_cases : exec (.mwait c t w) s = .next (if (s.mark p m - target).toNat < 2 ^ 31 then goesOn s c t id
    else threadDoes s c t fun h => { h.advance with st := .waiting (.mark m target s.now false) }) := by
  have hseg' : ((issued s c t).core c).seg = some (p, f, q) := by rwa [core_issued]
  rw [exec_mwait hrun hclear, mwaitAct]
  simp only [thread_issued, hm, htarget, hseg', hrange.not_gt, if_false, markReached, decide_eq_true_eq]
  rfl

end Wait

/-- R136. A value of the mark has reached the target of a waiting thread. -/
theorem exec_mwaitRelease {v : U32} {since : Nat} (hst : ((s.core c).thread t).st = .waiting (.mark m v since true)) :
    exec (.mwaitRelease c t) s = .next ((s.endMwait c t).onThread c t fun h => { h with st := .ready }) := by
  change execMwaitRelease c t s = _
  simp only [execMwaitRelease, hst]

end Mark

end Sys2Proof.Machine

open Sys2Proof Sys2Proof.Machine Sys2Proof.Claims in
/-- Settles O8: each system word acts on its thread or halts it, and a release makes the threads READY that wait for it. -/
theorem systemWordsAndBarriers : Obligations.SystemWordsAndBarriers := by
  unfold Obligations.SystemWordsAndBarriers
  refine ⟨fun c t w s => ⟨exec_endThread, exec_halt, exec_halt_reserved, exec_halt_outside, exec_bar, exec_waitq⟩,
    fun c mask s hall => ?barrier, fun c t s => exec_waitqRelease⟩
  case barrier =>
    refine ⟨_, exec_barRelease hall, thread_barFreed s c mask, rfl, fun d hd => State.core_setCore_ne s c d _ hd.symm, ?_⟩
    unfold barFreed
    rw [State.core_setCore]

open Sys2Proof Sys2Proof.Machine Sys2Proof.Claims in
/-- Settles O9: CSRR reads the special register of its number, and CYCLE is the larger of the gallery's count and the last reading. -/
theorem csrrReadsSpecialRegisters : Obligations.CsrrReadsSpecialRegisters := by
  unfold Obligations.CsrrReadsSpecialRegisters
  intro c t w s g hrun hseg
  exact ⟨exec_csrr hrun hseg, fun hsa => ⟨exec_csrr_cycle hrun hseg hsa, le_max_left .., s.le_cycleOf c, s.cycleOf_lt c⟩⟩

open Sys2Proof Sys2Proof.Machine Sys2Proof.Claims in
/-- Settles O10: MWAIT halts, goes on or waits as its mark stands, and its release ends the wait. -/
theorem mwaitWaitsForItsMark : Obligations.MwaitWaitsForItsMark := by
  unfold Obligations.MwaitWaitsForItsMark
  refine ⟨fun c t w s p f q hrun hclear hseg => ⟨exec_mwait_halts hrun hclear rfl, fun hrange hreached => ?on,
    fun hrange hleft => ?waits⟩,
    fun c t s m v since => exec_mwaitRelease⟩
  case on => rw [exec_mwait_cases hrun hclear rfl hseg rfl hrange, if_pos hreached]
  case waits => rw [exec_mwait_cases hrun hclear rfl hseg rfl hrange, if_neg hleft.not_gt]
end

section
/-! PROOFS. The module after reset (R81, R321, R344, R443, R445). -/

namespace Sys2Proof.Machine

open Sys2Proof.Claims

theorem reset_partn_ne {p : Nat} (hp : p ≠ 0) : State.reset.partn p = {} := if_neg hp.symm

theorem reset_core (c : Nat) : State.reset.core c = {} := rfl

theorem reset_stream (p w : Nat) : State.reset.stream p w = {} := by
  by_cases hp : p = 0
  · subst hp
    rfl
  · rw [State.stream, reset_partn_ne hp]
    rfl

end Sys2Proof.Machine

open Sys2Proof Sys2Proof.Machine Sys2Proof.Claims in
/-- Settles O60: the state after reset holds no core, no stream and no partition but 0, and what it holds is as stated. -/
theorem resetLeavesAModuleThatRuns : Obligations.ResetLeavesAModuleThatRuns := by
  unfold Obligations.ResetLeavesAModuleThatRuns
  refine ⟨rfl, rfl, rfl, rfl, rfl, ?memory, ⟨rfl, rfl⟩, rfl, fun p hp => ?partitions, ?halls, ?debug, fun p w => ?streams,
    fun c t r => ?threads, fun c a => ?accumulators⟩
  case memory => exact Memory.wf_nil
  case partitions => rw [reset_partn_ne hp]
  case halls => decide
  case debug => decide
  case streams => rw [reset_stream]
  case threads =>
    rw [reset_core]
    exact ⟨rfl, rfl⟩
  case accumulators =>
    rw [reset_core]
    rfl
end

section
/-! PROOFS. The tally of a vector instruction that lies in no layer of its segment (R189, R191). As for an EPI, the segment of such an
instruction may work for a step that has been discarded since: then the model counts what the instruction writes as discarded, where the
statement has the tensor's slot take it. -/

namespace Sys2Proof.Machine

open Sys2Proof.Claims

/-! ## Completion of format V -/

section Completing

variable {s : State} {c p w q : Nat} {e : VecEntry} {rest : List VecEntry} {k : Core} {o : VecDone}
  (hopc : wOpc e.word = 0x1A) (hseg : k.seg = some (p, w, q)) (hquiet : o.flagged = false)
include hopc hseg hquiet

/-- R188, R189. What a quiet format V instruction at the front of its queue leaves: its tally goes to its segment, in a layer or in none. -/
theorem vecExec_formatV {op : Nat} (hqueue : (s.core c).vecQ = e :: rest) (hvop : vVop e.word = op)
    (hk : dequeued (s.core c) e rest = k) (ho : vopRun k e (s.rsBase c) = o) :
    vecExec op c s = (s.setCore c (addUnordered o.unordered o.core)).tally p (some (w, q, e.layer)) o.tensor o.tally := by
  have hseg' : ((s.core c).finish e.thread).seg = some (p, w, q) := by
    subst hk
    exact hseg
  unfold dequeued at hk
  simp only [vecExec, hqueue, hvop, hk, ho, hquiet, isOp, hopc, ne_eq, not_true_eq_false, decide_true, Bool.false_eq_true, if_true,
    if_false]
  rw [hseg']

/-- What the statement has it leave. -/
theorem reported_formatV : reported s c k e o =
    (s.setCore c (addUnordered o.unordered o.core)).tally p (e.layer.map fun i => (w, q, i)) o.tensor o.tally := by
  simp only [reported, hseg, hquiet, isOp, hopc, decide_true, Bool.false_eq_true, if_true, if_false]

end Completing

/-! ## The counterexample -/

/-- An IADD of tile register 0 to itself, at a word that no layer's span holds. -/
def unlayeredIadd : VecEntry := { thread := 0, pc := 0, word := 0x68380000, layer := none, scalar := 0, addr := 0 }

/-- The core that has the IADD at the front of its vector queue; its tile register 0 is of INT32. -/
def iaddCore : Core := { seg := some (0, 0, 0), tiles := [(0, { fmt := 8 })], vecQ := [unlayeredIadd] }

/-- The step of partition 0 has been discarded, and core 0 has the IADD at the front of its vector queue. -/
def discardedIadd : State := { discardedState with cores := [(0, iaddCore)] }

/-- What the IADD leaves. -/
def iaddDone : VecDone := vopRun (dequeued iaddCore unlayeredIadd []) unlayeredIadd (discardedIadd.rsBase 0)

/-- A slot takes the elements of a tally. -/
theorem Slot.take_elems (x : Slot) (t : Tally) : (x.take t).elems = x.elems + t.elems := rfl

/-- The 1024 elements that the IADD of the counterexample writes. -/
theorem iaddDone_elems : iaddDone.tally.elems = 1024 := by decide +kernel

theorem iaddDone_quiet : iaddDone.flagged = false := rfl

theorem iaddDone_tensor : iaddDone.tensor = 0 := rfl

/-- With the tally as the model has it, the slot of the output tensor stays empty: the step has been discarded (R191). -/
theorem discardedIadd_model : ∃ u, exec (.vecIadd 0) discardedIadd = .next u ∧ (u.partn 0).slots = [outputSlot] := by
  refine ⟨_, congrArg Host.Outcome.next (vecExec_formatV (c := 0) (o := iaddDone) rfl rfl iaddDone_quiet rfl rfl rfl rfl), ?_⟩
  rw [iaddDone_tensor, State.tally_discarded (i := 0) (g := steppedSegment) rfl rfl rfl (by simp [iaddDone_elems])]
  obtain ⟨x, hx⟩ :=
    (discardedIadd.setCore 0 (addUnordered iaddDone.unordered iaddDone.core)).partn_bumpP 0 0x8060 8 iaddDone.tally.nonfin 0
  rw [hx]
  rfl

/-- With the tally as the statement has it, the slot takes all elements. -/
theorem discardedIadd_statement :
    ((reported discardedIadd 0 (dequeued iaddCore unlayeredIadd []) unlayeredIadd iaddDone).partn 0).slots =
      [outputSlot.take iaddDone.tally] := by
  rw [reported_formatV (p := 0) (w := 0) (q := 0) rfl rfl iaddDone_quiet]
  change (((State.setCore ..).tally 0 none iaddDone.tensor _).partn 0).slots = _
  rw [iaddDone_tensor, State.tally_unlayered (i := 0) rfl (by simp [iaddDone_elems]), State.partn_onPartn]
  rfl

end Sys2Proof.Machine

open Sys2Proof Sys2Proof.Machine Sys2Proof.Claims in
/-- Refutes O12: where a vector instruction lies in no layer, the statement's tally names no segment, and the slot of the output tensor
takes it. The model names the segment, and counts the tally of a discarded step as discarded (R191). In `discardedIadd` the slot has 1024
elements by the statement and none in the model. -/
theorem not_vectorInstructionsExecute : ¬ Obligations.VectorInstructionsExecute := by
  unfold Obligations.VectorInstructionsExecute
  rintro ⟨-, hformatV, -⟩
  have hiadd : ((.vecIadd, 0x38) : (Nat → Instr) × Nat) ∈ vectorOps := by simp [vectorOps, integerOps]
  obtain ⟨hstated, -⟩ := hformatV _ hiadd (Or.inr le_rfl) 0 discardedIadd unlayeredIadd [] rfl rfl rfl
  obtain ⟨u, hmodel, hslots⟩ := discardedIadd_model
  have hu : u = reported discardedIadd 0 (dequeued iaddCore unlayeredIadd []) unlayeredIadd iaddDone :=
    Host.Outcome.next.inj (hmodel.symm.trans hstated)
  rw [hu, discardedIadd_statement] at hslots
  have htake := congrArg Slot.elems (List.singleton_inj.1 hslots)
  rw [Slot.take_elems, iaddDone_elems] at htake
  exact absurd htake (by decide)
end

section
/-! PROOFS. Tile registers (R60, R84, R90, R95 to R97, R109, R117, R118): TTAG, the acceptance of TLD and TST, and what the tile engine
does with the oldest of them. -/

namespace Sys2Proof.Machine

open Sys2Proof.Claims

@[simp] theorem Core.tile_setTile (k : Core) (r : Nat) (x : TileReg) : (k.setTile r x).tile r = x := Table.get_put_same ..

theorem Core.tile_setTile_ne (k : Core) {r q : Nat} (x : TileReg) (h : r ≠ q) : (k.setTile r x).tile q = k.tile q :=
  Table.get_put_ne _ _ _ h

/-! ## TTAG -/

/-- The core after a TTAG of thread t: the tags of its register, and its thread at its next word (R96). -/
def Core.ttagged (k : Core) (t : Nat) (w : U32) : Core :=
  (k.setTile (wSd w) { k.tile (wSd w) with
    tensor := ((k.thread t).reg (wSa w)).setWidth 32, base := (k.thread t).reg (wSa w + 1)
    stride := (k.thread t).reg (wSa w + 2) }).setThread t (k.thread t).advance

section Ttag

variable {c t : Nat} {w : U32} {s : State} (hrun : Runs (fun w => wOpc w = 0x14 ∧ wFn w = 0x05) s c t w)
include hrun

theorem exec_ttag : exec (.ttag c t w) s = .next (ttagChecked c t w (issued s c t)) :=
  congrArg Host.Outcome.next (issue_sys hrun)

theorem exec_ttag_illegal (hsa : 29 < wSa w) : exec (.ttag c t w) s = .next (haltsWith s c t w 0x01 0) := by
  rw [exec_ttag hrun, ttagChecked, if_pos hsa, haltAt_issued]
  rfl

variable (hsa : wSa w ≤ 29) (hsd : wSd w < 16)
include hsa hsd

theorem exec_ttag_checked : exec (.ttag c t w) s = .next (lockChecked ttagAct c t w (issued s c t)) := by
  rw [exec_ttag hrun, ttagChecked, if_neg hsa.not_gt, if_neg hsd.not_ge]

theorem exec_ttag_waits (hheld : ¬Unlocked s c t w) :
    exec (.ttag c t w) s = .next (threadDoes s c t fun h => { h with st := .waiting (.tileLock w) }) := by
  rw [exec_ttag_checked hrun hsa hsd, lockChecked_issued_waits hheld]

theorem exec_ttag_tags (hfree : Unlocked s c t w) :
    exec (.ttag c t w) s = .next ((issued s c t).onCore c fun k => k.ttagged t w) := by
  rw [exec_ttag_checked hrun hsa hsd, lockChecked_issued hfree, ttagAct, Nat.mod_eq_of_lt hsd]
  rfl

end Ttag

/-! ## TLD and TST -/

theorem frameFault_outside {a n : Nat} (hpond : 393216 < a + n) : frameFault a n = some 0x03 := by
  simp [frameFault, inPond, pondSize, haltPondRange, hpond.not_ge]

theorem frameFault_misaligned {a n : Nat} (hpond : a + n ≤ 393216) (halign : a % 64 ≠ 0) : frameFault a n = some 0x04 := by
  simp [frameFault, inPond, pondSize, haltAlign, hpond, halign]

section TileWords

variable {i : ThreadInstr} {op c t : Nat} {w : U32} {s : State}
  (hexec : exec (i c t w) s = .next (issue (isOp op) tileChecked c t w s)) (hrun : Runs (fun w => wOpc w = op) s c t w)
  (hclear : wbits w 12 0 = 0)
include hexec hrun hclear

theorem exec_tile : exec (i c t w) s = .next (lockChecked tileAct c t w (issued s c t)) := by
  rw [hexec, issue_of_runs hrun (fun h => h), tileChecked, reserveChecked_of_clear (by simp [tReserved, hclear])]
  rfl

theorem exec_tile_waits (hheld : ¬Unlocked s c t w) :
    exec (i c t w) s = .next (threadDoes s c t fun h => { h with st := .waiting (.tileLock w) }) := by
  rw [exec_tile hexec hrun hclear, lockChecked_issued_waits hheld]

variable (hfree : Unlocked s c t w) {a : Nat} (ha : (((s.core c).thread t).reg (wbits w 17 13)).toNat = a)
include hfree ha

theorem exec_tile_faults {code : Nat} (hfault : frameFault a frameBytes = some code) :
    exec (i c t w) s = .next (haltsWith s c t w code a) := by
  rw [exec_tile hexec hrun hclear, lockChecked_issued hfree]
  unfold tileAct tAddr
  simp only [thread_issued, ha, haltAt_issued]
  rw [hfault]

/-- R84. The tile engine takes over a word whose address is sound. -/
theorem exec_tile_accepts (hsound : frameFault a frameBytes = none) :
    exec (i c t w) s = .next (accepted s c t fun k =>
      { k with tileQ := k.tileQ ++ [{ thread := t, pc := ((s.core c).thread t).pc, word := w, addr := a }] }) := by
  rw [exec_tile hexec hrun hclear, lockChecked_issued hfree]
  unfold tileAct tAddr
  simp only [thread_issued, ha]
  rw [hsound]
  simp only [accepted, State.onCore, core_issued]
  rfl

end TileWords

/-! ## The tile engine -/

theorem State.core_bumpP (s : State) (p index sub n d : Nat) : (s.bumpP p index sub n).core d = s.core d := rfl

/-- The correction of a pond's errors changes, of the cores, the errors that the pond holds (R118). -/
theorem State.core_correctPond (s : State) (c a n : Nat) :
    ∃ l, (s.correctPond c a n).core c = { s.core c with pondSingle := l } := by
  unfold correctPond
  extract_lets met hits
  split
  · exact ⟨_, rfl⟩
  · rw [State.core_bumpP, State.core_onCore]
    exact ⟨_, rfl⟩

theorem State.core_correctPond_ne (s : State) {c d : Nat} (a n : Nat) (h : d ≠ c) : (s.correctPond c a n).core d = s.core d := by
  unfold correctPond
  extract_lets met hits
  split
  · rfl
  · rw [State.core_bumpP, State.core_onCore_ne _ _ _ _ h.symm]

theorem State.correctPond_of_none {s : State} {c : Nat} (a n : Nat) (h : (s.core c).pondSingle = []) : s.correctPond c a n = s := by
  simp [correctPond, h]

/-- The core once the tile instruction at the front of its queue has left it. -/
def tileTaken (k : Core) (e : TileEntry) (rest : List TileEntry) : Core := { k.finish e.thread with tileQ := rest }

/-- The state once the tile engine has read the bytes of its oldest instruction and acted on its core. -/
def tileActed (s : State) (c n : Nat) (e : TileEntry) (rest : List TileEntry) (act : Core → Core) : State :=
  ((s.onCore c fun k => tileTaken k e rest).correctPond c e.addr n).onCore c act

/-- What TLD does with the core: its register is loaded with the frame (R96). -/
def loadsTile (e : TileEntry) (k : Core) : Core := k.setTile (tReg e.word) ((k.tile (tReg e.word)).loaded (k.pond.bytes e.addr 4672))

/-- What TST does with the core: the frame of its register is written to the pond (R96). -/
def storesTile (e : TileEntry) (k : Core) : Core := k.pondWrite e.addr ((k.tile (tReg e.word)).stored (k.pond.bytes e.addr 64))

section Execution

variable {c : Nat} {s : State} {e : TileEntry} {rest : List TileEntry} (hqueue : (s.core c).tileQ = e :: rest)
include hqueue

/-- An instruction that its checks halt has left the queue. -/
theorem tileExec_uncorrectable {n : Nat} (hn : (if wOpc e.word = 0x18 then frameBytes else 64) = n)
    (hbad : (s.core c).pondBadAt e.addr n = true) :
    tileExec c s = (s.onCore c fun k => tileTaken k e rest).halt c e.thread e.pc e.word 0x09 e.addr := by
  subst hn
  simp only [tileExec, hqueue, hbad, if_true]
  rfl

theorem tileExec_tld_unchecked (hopc : wOpc e.word = 0x18) (hgood : (s.core c).pondBadAt e.addr 4672 = false)
    (hcheck : frameCheckOk ((s.core c).pond.bytes e.addr 4672) = false) :
    tileExec c s = (s.onCore c fun k => tileTaken k e rest).halt c e.thread e.pc e.word 0x07 e.addr := by
  simp only [tileExec, hqueue, hopc, frameBytes, hgood, hcheck, decide_true, if_true, Bool.false_eq_true, if_false, Bool.not_false,
    Bool.and_self]
  rfl

theorem tileExec_tld (hopc : wOpc e.word = 0x18) (hgood : (s.core c).pondBadAt e.addr 4672 = false)
    (hcheck : frameCheckOk ((s.core c).pond.bytes e.addr 4672) = true) :
    tileExec c s = tileActed s c 4672 e rest (loadsTile e) := by
  simp only [tileExec, hqueue, hopc, frameBytes, hgood, hcheck, decide_true, if_true, Bool.false_eq_true, if_false, Bool.not_true,
    Bool.and_false]
  rfl

theorem tileExec_tst (hopc : wOpc e.word = 0x19) (hgood : (s.core c).pondBadAt e.addr 64 = false) :
    tileExec c s = tileActed s c 64 e rest (storesTile e) := by
  have hload : ¬wOpc e.word = 0x18 := by simp [hopc]
  simp only [tileExec, hqueue, hload, hgood, decide_false, Bool.false_eq_true, if_false, Bool.false_and]
  rfl

end Execution

/-- R84. The engine executes in a module that works. -/
theorem exec_tileLockRelease {c : Nat} {s : State} (t : Nat) (hc : c < 6144) (hworks : s.working = true) :
    exec (.tileLockRelease c t) s =
      .next ((tileExec c s).retryWord c t (((tileExec c s).core c).thread t).lockWord) := by
  change execTileLockRelease c t s = _
  simp only [execTileLockRelease, hworks, hc, decide_true, Bool.and_self, if_true]

section Acted

variable (s : State) (c n : Nat) (e : TileEntry) (rest : List TileEntry) (act : Core → Core)

theorem core_tileActed :
    ∃ l, (tileActed s c n e rest act).core c = act { tileTaken (s.core c) e rest with pondSingle := l } := by
  obtain ⟨l, hl⟩ := (s.onCore c fun k => tileTaken k e rest).core_correctPond c e.addr n
  exact ⟨l, by rw [tileActed, State.core_onCore, hl, State.core_onCore]⟩

/-- What an executed tile instruction leaves beside its register or its frame (R84): it has left the queue, and its thread has one
outstanding instruction less. -/
def TileLeaves (u : State) : Prop :=
  (u.core c).tileQ = rest ∧
    (u.core c).thread e.thread = { (s.core c).thread e.thread with outstanding := ((s.core c).thread e.thread).outstanding - 1 } ∧
    (∀ v ≠ e.thread, (u.core c).thread v = (s.core c).thread v) ∧ (u.core c).accs = (s.core c).accs ∧
    (u.core c).matQ = (s.core c).matQ ∧ (u.core c).vecQ = (s.core c).vecQ ∧ (u.core c).springs = (s.core c).springs ∧
    (∀ d ≠ c, u.core d = s.core d) ∧ ((s.core c).pondSingle = [] → { u with cores := s.cores } = s)

/-- An action that changes only the tile registers and the pond. -/
structure ActsOnTiles (act : Core → Core) : Prop where
  tileQ : ∀ k, (act k).tileQ = k.tileQ
  threads : ∀ k, (act k).threads = k.threads
  accs : ∀ k, (act k).accs = k.accs
  matQ : ∀ k, (act k).matQ = k.matQ
  vecQ : ∀ k, (act k).vecQ = k.vecQ
  springs : ∀ k, (act k).springs = k.springs

theorem setTile_actsOnTiles (r : Nat) (f : Core → TileReg) : ActsOnTiles fun k => k.setTile r (f k) :=
  ⟨fun _ => rfl, fun _ => rfl, fun _ => rfl, fun _ => rfl, fun _ => rfl, fun _ => rfl⟩

theorem pondWrite_actsOnTiles (a : Nat) (f : Core → List Byte) : ActsOnTiles fun k => k.pondWrite a (f k) :=
  ⟨fun _ => rfl, fun _ => rfl, fun _ => rfl, fun _ => rfl, fun _ => rfl, fun _ => rfl⟩

theorem loadsTile_actsOnTiles : ActsOnTiles (loadsTile e) := setTile_actsOnTiles ..

theorem storesTile_actsOnTiles : ActsOnTiles (storesTile e) := pondWrite_actsOnTiles ..

theorem thread_tileTaken : (tileTaken (s.core c) e rest).thread e.thread = { (s.core c).thread e.thread with
    outstanding := ((s.core c).thread e.thread).outstanding - 1 } := Core.thread_setThread ..

theorem thread_tileTaken_ne {v : Nat} (hv : v ≠ e.thread) : (tileTaken (s.core c) e rest).thread v = (s.core c).thread v :=
  Core.thread_setThread_ne _ _ _ _ hv.symm

variable {act} in
theorem tileActed_leaves (hact : ActsOnTiles act) : TileLeaves s c e rest (tileActed s c n e rest act) := by
  obtain ⟨l, hcore⟩ := core_tileActed s c n e rest act
  have hthread (v : Nat) : ((tileActed s c n e rest act).core c).thread v = (tileTaken (s.core c) e rest).thread v := by
    rw [hcore, Core.thread, hact.threads]
    rfl
  unfold TileLeaves
  refine ⟨?tileQ, ?thread, fun v hv => ?threads, ?accs, ?matQ, ?vecQ, ?springs, fun d hd => ?cores, fun hsingle => ?rest⟩
  case tileQ => rw [hcore, hact.tileQ]; rfl
  case thread => rw [hthread, thread_tileTaken]
  case threads => rw [hthread, thread_tileTaken_ne s c e rest hv]
  case accs => rw [hcore, hact.accs]; rfl
  case matQ => rw [hcore, hact.matQ]; rfl
  case vecQ => rw [hcore, hact.vecQ]; rfl
  case springs => rw [hcore, hact.springs]; rfl
  case cores =>
    rw [tileActed, State.core_onCore_ne _ _ _ _ hd.symm, State.core_correctPond_ne _ _ _ hd, State.core_onCore_ne _ _ _ _ hd.symm]
  case rest =>
    rw [tileActed, State.correctPond_of_none _ _ (by rw [State.core_onCore]; exact hsingle)]
    rfl

end Acted

section Frames

theorem length_frameRetag (f : List Byte) (fmt blk : Nat) (h : 64 ≤ f.length) : (frameRetag f fmt blk).length = f.length := by
  simp [frameRetag]
  omega

/-- R96. TST writes a whole frame. -/
theorem length_stored (x : TileReg) {head : List Byte} (h : head.length = 64) : (x.stored head).length = 4672 := by
  have hframe : (head ++ x.sidecar.bytes 0 512 ++ x.payload.bytes 0 4096).length = 4672 := by simp [h]
  have hretag := length_frameRetag _ x.fmt x.blk (hframe.ge.trans' (by decide))
  rw [TileReg.stored, length_frameSeal _ (by omega), hretag, hframe]

end Frames

end Sys2Proof.Machine

open Sys2Proof Sys2Proof.Machine Sys2Proof.Claims in
/-- Settles O11: TTAG, TLD and TST act on a core that holds nothing they need, and the oldest TLD or TST of the tile engine halts or acts
on its core alone. -/
theorem tensorTagsAndTileMoves : Obligations.TensorTagsAndTileMoves := by
  unfold Obligations.TensorTagsAndTileMoves
  refine ⟨fun c t w s hrun => ⟨exec_ttag_illegal hrun, fun hsa hsd hfree => ?ttag, exec_ttag_waits hrun⟩, ?words,
    fun c t s e rest hc hworks hqueue => ⟨exec_tileLockRelease t hc hworks, ?tld, tileExec_tld_unchecked hqueue,
      fun hopc => tileExec_uncorrectable hqueue (if_pos hopc), ?tst,
      fun hopc => tileExec_uncorrectable hqueue (if_neg (by simp [hopc]))⟩⟩
  case ttag =>
    refine ⟨_, exec_ttag_tags hrun hsa hsd hfree, ?_⟩
    rw [State.core_onCore, core_issued]
    refine ⟨Core.tile_setTile .., fun r hr => Core.tile_setTile_ne _ _ hr.symm, Core.thread_setThread ..,
      fun v hv => Core.thread_setThread_ne _ _ _ _ hv.symm, rfl, rfl, fun d hd => ?_, rfl⟩
    rw [State.core_onCore_ne _ _ _ _ hd.symm, core_issued_ne s t hd]
  case words =>
    simp only [List.forall_mem_cons, List.not_mem_nil, false_imp_iff, implies_true, and_true]
    refine ⟨fun c t w s hrun hclear => ?_, fun c t w s hrun hclear => ?_⟩
    all_goals
      exact ⟨exec_tile_waits rfl hrun hclear, fun hfree =>
        ⟨fun hpond halign => exec_tile_accepts rfl hrun hclear hfree rfl (frameFault_eq_none hpond halign),
          fun hpond => exec_tile_faults rfl hrun hclear hfree rfl (frameFault_outside hpond),
          fun hpond halign => exec_tile_faults rfl hrun hclear hfree rfl (frameFault_misaligned hpond halign)⟩⟩
  case tld =>
    intro hopc hgood hcheck
    rw [tileExec_tld hqueue hopc hgood hcheck]
    have hleaves := tileActed_leaves s c 4672 e rest (loadsTile_actsOnTiles e)
    obtain ⟨l, hcore⟩ := core_tileActed s c 4672 e rest (loadsTile e)
    refine ⟨?_, fun q hq => ?_, ?_, hleaves⟩
    · rw [hcore]
      exact Core.tile_setTile ..
    · rw [hcore]
      exact Core.tile_setTile_ne _ _ hq.symm
    · rw [hcore]
      rfl
  case tst =>
    intro hopc hgood
    rw [tileExec_tst hqueue hopc hgood]
    have hleaves := tileActed_leaves s c 64 e rest (storesTile_actsOnTiles e)
    obtain ⟨l, hcore⟩ := core_tileActed s c 64 e rest (storesTile e)
    have hpond : ((tileActed s c 64 e rest (storesTile e)).core c).pond = (s.core c).pond.putBytes e.addr
        (((s.core c).tile (tReg e.word)).stored ((s.core c).pond.bytes e.addr 64)) := by
      rw [hcore]
      rfl
    refine ⟨hpond, fun b hb => ?_, ?_, hleaves⟩
    · rw [pondByte, hpond, Table.byte_putBytes, length_stored _ (Table.length_bytes ..), if_neg (by omega)]
      rfl
    · rw [hcore]
      rfl
end

section
/-! PROOFS. The life of a RUN (R80, R110, R131, R198, R305, R310): its start, its launch, its end and its stop. -/

namespace Sys2Proof.Machine

open Sys2Proof.Claims

/-! ## The start of a command -/

/-- R305, R227. A command that starts acts in the state that has it running. -/
theorem State.startCmd_of_starts {s : State} {p w q op : Nat} {k : Cmd} (h : Starts s p w q op k) (act : Cmd → State → State) :
    s.startCmd p w q op act = act k (begun s p w q) := by
  obtain ⟨hcmd, hop, hmay, hstep⟩ := h
  have hstarts : ¬(k.op ≠ op || !s.mayStart p w k) = true := by simp [hop, hmay]
  have hkept : ¬((s.partn p).step = .discarded && (s.partn p).stepOwner = w && op ≠ opStepOpen && op ≠ opStepDiscard) = true := by
    simp only [Bool.and_eq_true, decide_eq_true_eq]
    rintro ⟨⟨⟨hdiscarded, howner⟩, hopen⟩, hdiscard⟩
    exact (hstep hdiscarded howner).elim hopen hdiscard
  simp only [startCmd, startIf, hcmd]
  exact (if_neg hstarts).trans (if_neg hkept)

/-! ## RUN -/

section Life

variable {p w q : Nat} {s : State} {k : Cmd} {img : Image}

/-- R80, R187. A RUN that starts, that nothing refuses and whose image is installed waits for its launch. -/
theorem exec_run (hstarts : Starts s p w q 0x01 k) (hserve : k.serve = false)
    (hstep : ((begun s p w q).partn p).runStepBad w = false) (hsound : (begun s p w q).runRefused p w k img = none)
    (hinstalled : ((begun s p w q).install p img).2 = none) :
    exec (.run p w q img) s = .next (((begun s p w q).install p img).1.onCmd p w q fun k =>
      { k with phase := .accepted, started := 0, img := some img }) := by
  have hinstall : (begun s p w q).install p img = (((begun s p w q).install p img).1, none) := Prod.ext rfl hinstalled
  have hcmd : s.cmd p w q = some k := hstarts.1
  change Host.Outcome.next (s.startRun p w q img false) = _
  unfold State.startRun
  simp only [hcmd, hserve, ne_eq, not_true_eq_false, if_false]
  rw [State.startCmd_of_starts (op := opRun) hstarts]
  simp only [hstep, hsound, Bool.false_eq_true, if_false]
  rw [hinstall]

/-! ## Launch -/

/-- What holds a RUN's launch of a variant back (R305). -/
structure MayLaunch (s : State) (p w : Nat) (k : Cmd) (v : Variant) : Prop where
  serve : k.serve = false
  working : s.working = true
  held : (s.stream p w).held = []
  lease : (s.partn p).leaseAllows w = true
  settled : s.held p = false
  serves : s.hallsServe (coreHalls (s.variantCores p v)) compLaunch = true
  on : ∀ h ∈ coreHalls (s.variantCores p v), s.hallOn h = true
  free : s.coresFree (s.variantCores p v) = true
  first : s.launchBefore p w k (s.variantCores p v) = false

/-- R80, R201, R239. A RUN that may be launched starts the period, its schedule's records and its cores. -/
theorem exec_runLaunch {g : SegDecl} {i : Nat} {v : Variant} (hcmd : s.cmd p w q = some k) (hwaits : k.waiting = some img)
    (hvariant : runVariant k img = some (g, i, v)) (hmay : MayLaunch s p w k v) (hstep : (s.partn p).runStepBad w = false)
    (hperiod : (s.startPeriod p).2 = none) :
    let u := (s.startPeriod p).1
    let keys := (u.partn p).runKeys k
    exec (.runLaunch p w q) s = .next (((u.launchRecords p w q g keys).onCmd p w q fun k =>
      { k with phase := .running, started := u.now, img := none }).launch p w q g.num i 0 v keys) := by
  intro u keys
  have hstart : s.startPeriod p = (u, none) := Prod.ext rfl hperiod
  have hon : (coreHalls (s.variantCores p v)).all s.hallOn = true := List.all_eq_true.2 hmay.on
  have hheld : ((s.partn p).stream w).held = [] := hmay.held
  change execRunLaunch p w q s = _
  simp only [execRunLaunch, hcmd, hwaits, Option.bind_some, hvariant, hmay.serve, hheld, hmay.working, hmay.lease, hmay.settled,
    hmay.serves, hon, hmay.free, hmay.first, hstep, hstart, List.isEmpty_nil, Bool.not_true, Bool.or_self, Bool.false_eq_true, if_false]
  rfl

/-! ## End -/

/-- R131. A segment that is done ends, and its RUN completes OK. -/
theorem exec_segmentEnd {g : Segment} (hseg : s.segment p w q = some g) (hcmd : s.cmd p w q = some k)
    (hwatch : s.hallsServe (coreHalls g.cores) compWatch = true) (hserve : k.serve = false) (hstop : g.stop = none)
    (hdone : s.finishedCores g = true) (hschedule : (s.partn p).scheduleDone w q = true) (hworks : s.working = true)
    (hlaunch : s.hallsServe (coreHalls g.cores) compLaunch = true) :
    let u := ((s.releaseCores g).onPartn p fun x =>
      { x with xruns := x.xruns.filter fun r => !(r.s = w && r.q = q) }).complete p w q .ok
    exec (.segmentEnd p w q) s = .next (if g.inStep then u else u.runPeriodEnd p) := by
  change execSegmentEnd p w q s = _
  simp only [execSegmentEnd, hseg, hcmd, hserve, hstop, hdone, hschedule, hworks, hlaunch, hwatch, Option.isSome_none, Bool.not_true,
    Bool.or_self, Bool.false_eq_true, if_false]

/-- R110, R317. A segment that is stopped, and not for a layer, ends with its outcome once its cores have stopped. -/
theorem exec_segmentFaultStopped {g : Segment} (hseg : s.segment p w q = some g)
    (hwatch : s.hallsServe (coreHalls g.cores) compWatch = true) (hstop : g.stop ≠ none) (hlayer : ∀ i, g.stop ≠ some (.layer i))
    (hcores : s.stoppedCores g = true) (hrunning : s.phase = .running)
    (hfaults : s.hallsServe (coreHalls g.cores) compHallFaults = true) :
    let o := g.outcome
    let u := s.teardown g
    let u := if o.status = 0x04 ∧ g.inStep = true then u.stepFault p o.cause (some (w, q)) else u
    let u := (u.endServe p w q).complete p w q o
    let u := if o.cause = 0x0001 then u.raiseP 0x6120 p [g.haltVal / 2 ^ 64, g.haltVal % 2 ^ 64, g.halted, w, q] else u
    exec (.segmentFaultStopped p w q) s = .next (if g.inStep then u else u.runPeriodEnd p) := by
  change execSegmentFaultStopped p w q s = _
  simp only [execSegmentFaultStopped, hseg, hcores, hrunning, hfaults, hwatch]
  refine (if_neg ?stopped).trans ?outcome
  case stopped =>
    obtain ⟨kind, hkind⟩ := Option.ne_none_iff_exists'.1 hstop
    cases kind with
    | layer i => exact absurd hkind (hlayer i)
    | _ => simp [hkind]
  case outcome =>
    simp only [Bool.and_eq_true, decide_eq_true_eq]
    rfl

end Life

end Sys2Proof.Machine

open Sys2Proof Sys2Proof.Machine Sys2Proof.Claims in
/-- Settles O29: the outcome of each of the four commands once nothing holds it back. -/
theorem runsAreInstalledLaunchedAndEnded : Obligations.RunsAreInstalledLaunchedAndEnded := by
  unfold Obligations.RunsAreInstalledLaunchedAndEnded
  intro p w q s k
  refine ⟨fun img => exec_run, ?launch, fun g hseg hcmd hwatch =>
    ⟨exec_segmentEnd hseg hcmd hwatch, exec_segmentFaultStopped hseg hwatch⟩⟩
  case launch =>
    intro img g i v hcmd hwaits hvariant hserve hworks cores hheld hlease hchange hserves hon hfree hfirst hstep hperiod
    exact exec_runLaunch hcmd hwaits hvariant ⟨hserve, hworks, hheld, hlease, hchange, hserves, hon, hfree, hfirst⟩ hstep hperiod
end

section
/-! PROOFS. Springs and stair chains (R118, R125, R126, R130, R137, R140 to R142, R161, R181): what the command of each does once nothing
holds it back. -/

namespace Sys2Proof.Machine

/-! ## Reading a tile and placing it -/

section OnSource

variable {s : State} {m : MoverRef} {d : Desc} {t : Nat} (hplace : ∀ e, s.dstPlace m d t ≠ .fault e)
  (hrange : s.dstPlace m d t ≠ .range)
include hplace hrange

/-- R125. A frame that has been read and verified goes on to a destination that can be written. -/
theorem State.onSource_frame {f : List Byte} (again : ReadFailure → State → State) (hread : s.readSource m d t = .frame f) :
    s.onSource m d t again = s.placeTile m d t f := by
  unfold onSource
  rw [hread]
  cases hdst : s.dstPlace m d t with
  | fault e => exact absurd hdst (hplace e)
  | range => exact absurd hdst hrange
  | _ => rfl

/-- R126. A failed read is the caller's to act on. -/
theorem State.onSource_failed {why : ReadFailure} (again : ReadFailure → State → State) (hread : s.readSource m d t = .failed why) :
    s.onSource m d t again = again why s := by
  unfold onSource
  rw [hread]
  cases hdst : s.dstPlace m d t with
  | fault e => exact absurd hdst (hplace e)
  | range => exact absurd hdst hrange
  | _ => rfl

end OnSource

/-- R125. A tile that keeps its format and goes to a pond is written there, and its flight is done but for the delivery. -/
theorem State.placeTile_pond {s : State} {m : MoverRef} {d : Desc} {t c a : Nat} (f : List Byte) (hcvt : d.dcvt = 15)
    (hpond : (s.unstage m t).dstPlace m d t = .pond c a) :
    s.placeTile m d t f =
      ((s.unstage m t).onCore c fun k => k.pondWrite a f).changeDesc m d (d.fly t true none none) := by
  have hkept (u : State) : u.converted m d f = some { frame := f, tally := {}, flagged := false } := by simp [converted, hcvt]
  have huncounted (u : State) (tensor : U32) (o : Converted) : u.tallyTile m d t tensor o = (u, d) := by simp [tallyTile, hcvt]
  simp only [placeTile, hpond, hkept, huncounted]
  rfl

/-! ## The first read and the second -/

/-- R125. Nothing holds the next tile of the served descriptor back: its segment or MOVE runs, there is room for it in flight, no
descriptor of a higher level waits (R137), its landing has room (R17), and no recovery holds it (R181). -/
structure MovesNext (s : State) (m : MoverRef) (d : Desc) : Prop where
  active : s.activeDesc m = some d
  may : s.mayMove m d = true
  room : d.room = true
  first : s.outranked m d = false
  landing : s.heldBack m d = false
  unpinned : s.pinnedRecovery d d.next = none

theorem exec_springTileMove {s : State} {m : MoverRef} {d : Desc} (hnext : MovesNext s m d) :
    exec (.springTileMove m) s = .next ((s.readPond m d d.next).onSource m d d.next fun why s =>
      (s.noteFailure d.origin.1 why).changeDesc m d { d with st := .reread d.next why none s.now }) := by
  obtain ⟨hactive, hmay, hroom, hfirst, hlanding, hunpinned⟩ := hnext
  change execSpringTileMove m s = _
  simp [execSpringTileMove, hactive, hmay, hroom, hfirst, hlanding, hunpinned]

/-- Neither a tile from the host nor a repair is awaited. -/
theorem reread_notAwaited {s : State} {m : MoverRef} {d : Desc} {t since : Nat} {why : ReadFailure}
    (hready : why = .pondEcc ∨ s.readSource m d t ≠ .awaited) (hrepaired : s.repairAwaited d t since why = false) :
    ((why ≠ .pondEcc && s.readSource m d t = .awaited) || s.repairAwaited d t since why) = false := by
  rcases hready with rfl | harrived
  · simp [hrepaired]
  · simp [hrepaired, harrived]

section Reread

variable {s : State} {m : MoverRef} {d : Desc} {t since : Nat} {why : ReadFailure} {who : Option Nat}
  (hfind : ((s.queue m).find? fun d => d.st.rereads) = some d) (hst : d.st = .reread t why who since)
include hfind hst

/-- R126, R161. The second read waits for the repair of the copy's granule. -/
theorem exec_springSourceReread_waits (hrepair : s.repairAwaited d t since why = true) :
    exec (.springSourceReread m) s = .next s := by
  change execSpringSourceReread m s = _
  simp [execSpringSourceReread, hfind, hst, hrepair]

/-- R181. The second read waits for the recovery of an object that the stream pins. -/
theorem exec_springSourceReread_pinned (hready : why = .pondEcc ∨ s.readSource m d t ≠ .awaited)
    (hrepaired : s.repairAwaited d t since why = false) {x : Nat} (hpinned : s.pinnedRecovery d t = some x) :
    exec (.springSourceReread m) s = .next (s.awaitRecovery d.origin.1 x) := by
  have hgo := reread_notAwaited hready hrepaired
  change execSpringSourceReread m s = _
  simp only [execSpringSourceReread, hfind, hst, hgo, hpinned, Bool.false_eq_true, if_false]

end Reread

/-- R126. The second read by the mover itself: the retry is counted, and the descriptor is served on. -/
theorem exec_springSourceReread {s : State} {m : MoverRef} {d : Desc} {t since : Nat} {why : ReadFailure}
    (hfind : ((s.queue m).find? fun d => d.st.rereads) = some d) (hst : d.st = .reread t why none since)
    (hready : why = .pondEcc ∨ s.readSource m d t ≠ .awaited) (hrepaired : s.repairAwaited d t since why = false)
    (hunpinned : s.pinnedRecovery d t = none) :
    exec (.springSourceReread m) s =
      .next (((s.bumpP d.origin.1 0x8040 5 1).changeDesc m d { d with st := .active }).onSource m { d with st := .active } t
        fun why s => s.sourceFailed m { d with st := .active } t why) := by
  have hgo := reread_notAwaited hready hrepaired
  change execSpringSourceReread m s = _
  simp only [execSpringSourceReread, hfind, hst, hgo, hunpinned, Bool.false_eq_true, if_false]
  rfl

/-! ## Service and delivery -/

/-- The descriptors of a queue that may be served (R137). -/
def readyDescs (q : List Desc) : List Desc := q.filter fun e => (e.st = .queued || e.st = .active) && e.stopAt.isNone

/-- R137. The first descriptor of the highest level is served, where no second read is outstanding. -/
theorem exec_springDescriptorStart {s : State} {m : MoverRef} {d : Desc} (hreads : ∀ e ∈ s.queue m, e.st.rereads = false)
    (hfirst : (readyDescs (s.queue m)).find?
      (fun e => e.prio = (readyDescs (s.queue m)).foldl (fun n e => Min.min n e.prio) 8) = some d)
    (hmay : s.mayMove m d = true) :
    let waiting := (s.queue m).map fun e => if e.st = .active then { e with st := .queued } else e
    let d0 : Desc := { d with st := .queued }
    exec (.springDescriptorStart m) s = .next (s.setQueue m (waiting.set (waiting.idxOf d0) { d0 with st := .active })) := by
  have hany : (s.queue m).any (fun d => d.st.rereads) = false := by simpa using hreads
  unfold readyDescs at hfirst
  change execSpringDescriptorStart m s = _
  simp only [execSpringDescriptorStart, hany, hfirst, hmay, Bool.not_true, Bool.false_eq_true, if_false]

section Delivered

variable {s : State} {m : MoverRef} {d : Desc} (hfind : (s.queue m).find? Desc.deliverable = some d)
include hfind

/-- R130. A tile that stands at its destination is delivered. -/
theorem exec_springTileDelivered (hleaving : d.leaving = none) :
    exec (.springTileDelivered m) s = .next (s.deliverTile m d) := by
  change execSpringTileDelivered m s = _
  simp only [execSpringTileDelivered, hfind, hleaving]

/-- R17, R130. A frame for the host leaves the landing, and is delivered. -/
theorem exec_springTileDelivered_host {f : List Byte} {l : List (Target × Nat)} (hleaving : d.leaving = some f)
    (hparts : s.dstPlace m d d.cursor = .parts l) :
    exec (.springTileDelivered m) s = .next ((s.writePlace d (.parts l) f).deliverTile m d) := by
  change execSpringTileDelivered m s = _
  simp only [execSpringTileDelivered, hfind, hleaving, hparts]

end Delivered

/-! ## Stair chains -/

theorem State.correctPond_now (s : State) (c a n : Nat) : (s.correctPond c a n).now = s.now := by
  unfold correctPond
  extract_lets met hits
  split
  · rfl
  · rfl

/-- The correction of single-bit errors leaves the uncorrectable ones (R118). -/
theorem State.forwardBad_correctPond (s : State) (d : Desc) (x : StairMember) (f : SkidFrame) (a n : Nat) :
    (s.correctPond x.core a n).forwardBad d x f = s.forwardBad d x f := by
  obtain ⟨l, hcore⟩ := s.core_correctPond x.core a n
  rw [forwardBad, hcore]
  rfl

section Stair

variable {m : MoverRef} {k : Nat} {s : State} {d : Desc} {x : StairMember} {f : SkidFrame} {rest : List SkidFrame}

section Forward

variable (hdesc : s.stairDesc m k = some d) (hmember : d.stair[k]? = some x) (hattached : x.detached = false)
  (hskid : x.skid = f :: rest)
include hdesc hmember hattached hskid

/-- R140. A member writes its oldest frame, and passes it on where the next member has room. -/
theorem exec_stairForward_writes (hnew : f.written = false) :
    let y : StairMember := { x with skid := { f with written := true } :: rest, delivered := f.tile + 1 }
    let d' : Desc := { d with stair := d.stair.set k y }
    exec (.stairForward m k) s =
      .next (s.memberWrites m d k x f (if d.mayPass k then d'.pass s.now k y f else d'.settleStair s.now)) := by
  change execStairForward m k s = _
  simp only [execStairForward, hdesc, hmember, hattached, hskid, hnew, Bool.or_self, Bool.false_eq_true, if_false]

/-- R118, R140. A frame that a member has written is read in its pond and passed on. -/
theorem exec_stairForward_passes (hwritten : f.written = true) (hgood : s.forwardBad d x f = false) :
    exec (.stairForward m k) s =
      .next ((s.correctPond x.core (d.dst f.tile) 4672).changeDesc m d (d.pass s.now k x f)) := by
  have hread : s.forwardRead d x f = s.correctPond x.core (d.dst f.tile) 4672 := by
    simp [State.forwardRead, hwritten, hattached, frameBytes]
  change execStairForward m k s = _
  simp only [execStairForward, hdesc, hmember, hskid, hwritten, hread, State.forwardBad_correctPond, hgood, State.correctPond_now,
    Bool.or_true, if_true, Bool.false_and, Bool.false_eq_true, if_false]

end Forward

/-- R142. The blocking member is detached and counted. -/
theorem exec_stairDetach (hblocks : ((s.queue m).find? fun d => blockingMember d.stair = some k) = some d)
    (hmember : d.stair[k]? = some x) :
    exec (.stairDetach m k) s = .next ((s.changeDesc m d ({ d with
      stair := d.stair.set k { x with detached := true, blockingSince := none
                                      skid := if (nextMember d.stair k).isSome then x.skid else [] } }.settleStair s.now)).bumpP
        d.origin.1 0x8040 4 1) := by
  change execStairDetach m k s = _
  simp only [execStairDetach, hblocks, hmember]

end Stair

end Sys2Proof.Machine

open Sys2Proof Sys2Proof.Machine Sys2Proof.Claims in
/-- Settles O16: the outcomes of the first and the second read of a tile, of service and delivery, and of a stair's members. -/
theorem springsServeMoveAndDeliver : Obligations.SpringsServeMoveAndDeliver := by
  unfold Obligations.SpringsServeMoveAndDeliver
  refine ⟨⟨?move, fun m s d t c a f => State.placeTile_pond f, ?reread, ?waits⟩, ?start, ?deliver, ?forward,
    fun m k s d x => exec_stairDetach⟩
  case move =>
    intro m s d hactive hmay hroom hfirst hlanding hunpinned u hplace hrange
    have hexec := exec_springTileMove ⟨hactive, hmay, hroom, hfirst, hlanding, hunpinned⟩
    refine ⟨fun f hread => ?_, fun why hread => ?_⟩
    · rw [hexec, State.onSource_frame hplace hrange _ hread]
    · rw [hexec, State.onSource_failed hplace hrange _ hread]
  case reread =>
    intro m s d t since why hfind hst hready hrepaired hunpinned d' s' hplace hrange
    have hexec := exec_springSourceReread hfind hst hready hrepaired hunpinned
    refine ⟨fun f hread => ?_, fun why hread => ?_⟩
    · rw [hexec, State.onSource_frame hplace hrange _ hread]
    · rw [hexec, State.onSource_failed hplace hrange _ hread]
      rfl
  case waits =>
    intro m s d t since x why who hfind hst
    exact ⟨exec_springSourceReread_waits hfind hst, fun hrepaired hready => exec_springSourceReread_pinned hfind hst hready hrepaired⟩
  case start => exact fun m s d hreads hfirst hmay => exec_springDescriptorStart hreads hfirst hmay
  case deliver =>
    exact fun m s d hfind => ⟨exec_springTileDelivered hfind, fun f l => exec_springTileDelivered_host hfind⟩
  case forward =>
    exact fun m k s d x f rest hdesc hmember hattached hskid =>
      ⟨exec_stairForward_writes hdesc hmember hattached hskid, exec_stairForward_passes hdesc hmember hattached hskid⟩
end

section
/-! PROOFS. Page faults answered (R145, R146, R320). -/

namespace Sys2Proof.Machine

section Answers

variable {p : Nat} {r : U32} {s : State} {m : MoverRef} {d : Desc} (hparked : s.parkedDesc p r.toNat = some (m, d))
include hparked

/-- R145. RESUME. -/
theorem exec_faultRespResume : exec (.faultRespResume p r) s = .next (s.changeDesc m d { d with st := .queued }) := by
  change execFaultRespResume p r s = _
  simp only [execFaultRespResume, hparked]

/-- R145, R146. FATAL. -/
theorem exec_faultRespFatal : exec (.faultRespFatal p r) s = .next (s.endDesc m d 0x0C d.faultAddr) := by
  change execFaultRespFatal p r s = _
  simp only [execFaultRespFatal, hparked, spPartial]

/-- R146. The timeout of a parked descriptor. -/
theorem exec_springFaultTimeout : exec (.springFaultTimeout p r.toNat) s =
    .next (((s.bumpP p 0x8040 2 1).raiseP 0x6131 p [d.origin.2.1, d.origin.2.2, r.toNat]).endDesc m d 0x0C d.faultAddr) := by
  change execSpringFaultTimeout p r.toNat s = _
  simp only [execSpringFaultTimeout, hparked, spPartial]

end Answers

section Stale

variable {p : Nat} {r : U32} {s : State} (hnone : s.parkedDesc p r.toNat = none)
include hnone

theorem exec_faultRespResume_stale : exec (.faultRespResume p r) s = .next (s.bumpP p 0x8040 3 1) := by
  change execFaultRespResume p r s = _
  simp only [execFaultRespResume, hnone, State.stale]

theorem exec_faultRespFatal_stale : exec (.faultRespFatal p r) s = .next (s.bumpP p 0x8040 3 1) := by
  change execFaultRespFatal p r s = _
  simp only [execFaultRespFatal, hnone, State.stale]

end Stale

/-- A write to the lake or to the host changes no partition. -/
theorem State.parts_writeParts (s : State) (l : List (Target × Nat)) (bs : List Byte) : (s.writeParts l bs).parts = s.parts := by
  induction l generalizing s bs with
  | nil => rfl
  | cons e l ih =>
    obtain ⟨target, n⟩ := e
    cases target with
    | _ => exact ih ..

theorem State.partn_vwrite {s u : State} {p va : Nat} {bs : List Byte} (hwrite : s.vwrite p va bs = .ok u) (r : Nat) :
    u.partn r = s.partn r := by
  unfold vwrite at hwrite
  split at hwrite
  · cases hwrite
  · split at hwrite
    · cases hwrite
    · obtain rfl := Except.ok.inj hwrite
      rw [partn, parts_writeParts]
      rfl

/-- R320. The oldest waiting record goes into a fault queue that has room for it. -/
theorem exec_faultRecordPost {p : Nat} {s u : State} {r : FaultRec} {rest : List FaultRec}
    (hwaiting : (s.partn p).faultWaiting = r :: rest) (hroom : s.fqRoom p = true)
    (hwrite : s.vwrite p ((s.partn p).regs.fqBase.toNat + 32 * ((s.partn p).regs.fqTail % (s.partn p).regs.fqSize))
      (leBytes 32 (r.val p)) = .ok u) :
    exec (.faultRecordPost p) s = .next (((u.onPartn p fun x =>
      { x with faultWaiting := rest, regs := { x.regs with fqTail := (s.partn p).regs.fqTail + 1 } }).signal p
        (bits (s.partn p).regs.fqCtrl.toNat 26 16)).bumpP p 0x80B0 14 (u.now - r.queuedAt)) := by
  change Host.Outcome.next (s.postFault p) = _
  simp only [State.postFault, hwaiting, hroom, hwrite, Bool.not_true, Bool.false_eq_true, if_false,
    State.onPartn, State.partn_vwrite hwrite, State.setPartn_now]

end Sys2Proof.Machine

open Sys2Proof Sys2Proof.Machine Sys2Proof.Claims in
/-- Settles O17: the outcomes of a response, of a timeout and of the posting of a record. -/
theorem pageFaultsAreAnswered : Obligations.PageFaultsAreAnswered := by
  unfold Obligations.PageFaultsAreAnswered
  refine ⟨fun p r s => ⟨fun m d hparked => ?named, fun hnone => ?stale⟩, fun p s u r rest => exec_faultRecordPost⟩
  case named => exact ⟨exec_faultRespResume hparked, exec_faultRespFatal hparked, exec_springFaultTimeout hparked⟩
  case stale => exact ⟨exec_faultRespResume_stale hnone, exec_faultRespFatal_stale hnone⟩
end

section
/-! PROOFS. Reductions (R181, R245, R252, R253, R258): what the compression unit does with the next source tile of a record, and what the
owner of a tile does with the next rank's contribution. -/

namespace Sys2Proof.Machine

/-- A started reduction of a working module, and one of its source tiles. -/
structure Reducing (s : State) (p x tile : Nat) (r : XRun) : Prop where
  record : (s.partn p).xruns[x]? = some r
  reduces : r.reduces = true
  live : r.live = true
  working : s.working = true
  inside : tile < r.nt

/-- An update of a record is what it makes of that record. -/
theorem State.onX_congr {s : State} {p x : Nat} {r : XRun} {f g : XRun → XRun} (hrecord : (s.partn p).xruns[x]? = some r)
    (hsame : f r = g r) : s.onX p x f = s.onX p x g := by
  have hruns : (s.partn p).xruns.modify x f = (s.partn p).xruns.modify x g := by
    refine List.ext_getElem? fun i => ?_
    rw [List.getElem?_modify, List.getElem?_modify]
    by_cases hi : x = i
    · subst hi
      simp [hrecord, hsame]
    · simp [hi]
  simp only [onX, onPartn, hruns]

section Reduces

variable {s : State} {p x tile : Nat} {r : XRun}

/-! ## Compression -/

section Compress

variable (hrun : Reducing s p x tile r) (hnext : tile = r.compressed) (hroom : s.sendHeld p r = false)
include hrun hnext hroom

/-- R181. The next source tile waits for the recovery of an object that the record's stream pins. -/
theorem exec_exchangeTileCompress_pinned {o : Nat} (hpinned : s.xPinned p r tile = some o) :
    exec (.exchangeTileCompress p x tile) s = .next ((s.xAwait p r).notePeers p) := by
  obtain ⟨hrecord, hreduces, hlive, hworking, hinside⟩ := hrun
  change execExchangeTileCompress p x tile s = _
  simp [execExchangeTileCompress, hrecord, hreduces, hlive, hworking, ← hnext, hroom, hpinned, Nat.not_le.2 hinside]

/-- R245, R258. With room in its landing and no recovery that holds it, the next source tile is compressed. -/
theorem exec_exchangeTileCompress (hunpinned : s.xPinned p r tile = none) :
    exec (.exchangeTileCompress p x tile) s = .next ((s.compressTile p x r tile).notePeers p) := by
  obtain ⟨hrecord, hreduces, hlive, hworking, hinside⟩ := hrun
  change execExchangeTileCompress p x tile s = _
  simp [execExchangeTileCompress, hrecord, hreduces, hlive, hworking, ← hnext, hroom, hunpinned, Nat.not_le.2 hinside]

end Compress

/-- R245. A source tile that has been read is counted, in the record and for its partition. -/
def State.countSource (s : State) (p x : Nat) : State :=
  (s.onX p x fun r => { r with compressed := r.compressed + 1 }).bumpP p 0x80A0 1 frameBytes

/-- R245. What becomes of a frame that has been read and counted: without a mode it goes to its shard's owner or into this member's
contributions, with one it is encoded. -/
def State.passTile (s : State) (p x : Nat) (r : XRun) (tile : Nat) (f : List Byte) : State :=
  let els := r.els (tensorScale r.tScale) f
  let me := s.myRank p r
  let owner := r.ownerOf (s.ranks p r) tile
  if r.mode = xmNone then
    if owner ≠ me then s.sendFrame p x (s.memberAt p r owner) tile f
    else (pieces 1024 (els.length / 1024) els).zipIdx.foldl (fun s b =>
      s.addOwn p x (tile * blocksPerTile r.fs + b.2) me (b.1.map fun e => if e.valid then e.g else .zero false)
        (b.1.map fun e => e.valid && e.sat)) s
  else match s.residuals p r tile with
    | (s, none) => s.endPeer p x cauFrameCheck s.moduleNumber none
    | (s, some res) => s.encodeTile p x r tile els res

theorem State.compressTile_eq_passTile {u : State} {f : List Byte} (hread : s.xTile p r tile = (u, some f)) :
    s.compressTile p x r tile = (u.countSource p x).passTile p x r tile f := by
  rw [compressTile.eq_def, hread]
  rfl

theorem State.passTile_sent (f : List Byte) (hmode : r.mode = xmNone) (howner : r.ownerOf (s.ranks p r) tile ≠ s.myRank p r) :
    s.passTile p x r tile f = s.sendFrame p x (s.memberAt p r (r.ownerOf (s.ranks p r) tile)) tile f := by
  simp only [passTile, if_pos hmode, if_pos howner]

theorem State.passTile_own (f : List Byte) (hmode : r.mode = xmNone) (howner : r.ownerOf (s.ranks p r) tile = s.myRank p r) :
    let els := r.els (tensorScale r.tScale) f
    s.passTile p x r tile f = (pieces 1024 (els.length / 1024) els).zipIdx.foldl (fun s' b =>
      s'.addOwn p x (tile * blocksPerTile r.fs + b.2) (s.myRank p r) (b.1.map fun e => if e.valid then e.g else .zero false)
        (b.1.map fun e => e.valid && e.sat)) s := by
  simp only [passTile, if_pos hmode, if_neg (not_not_intro howner)]

theorem State.passTile_encoded {z : State} {res : List Val} (f : List Byte) (hmode : r.mode ≠ xmNone)
    (hres : s.residuals p r tile = (z, some res)) :
    s.passTile p x r tile f = z.encodeTile p x r tile (r.els (tensorScale r.tScale) f) res := by
  simp only [passTile, if_neg hmode, hres]

/-! ## Reduction -/

section Reduce

variable (hrun : Reducing s p x tile r) (howned : r.ownerOf (s.ranks p r) tile = s.myRank p r)
  (hopen : r.outD.find tile = none) (hready : r.ready tile = true)
include hrun howned hopen hready

/-- R253. A whole contribution of a rank before the last is added to the sums, and leaves the list. -/
theorem exec_reduceContribution_adds (hmore : (r.reduction tile).nextRank + 1 ≠ s.ranks p r) :
    let red := r.reduction tile
    let mine := r.nextParts tile
    let sum := addSums red.sums red.sats (mine.flatMap fun c => c.vals) (mine.flatMap fun c => c.sats)
    exec (.reduceContribution p x tile) s = .next ((s.onX p x fun r => { r with
      parts := r.parts.filter fun c => !(c.block / blocksPerTile r.fs = tile && c.rank = red.nextRank)
      sums := r.sums.filter (fun e => e.tile ≠ tile) ++
        [{ tile := tile, nextRank := red.nextRank + 1, sums := sum.1, sats := sum.2 }] }).notePeers p) := by
  obtain ⟨hrecord, hreduces, hlive, hworking, hinside⟩ := hrun
  change execReduceContribution p x tile s = _
  simp only [execReduceContribution, hrecord, hreduces, hlive, hworking, howned, hopen, hready, hmore, Nat.not_le.2 hinside,
    Option.isSome_none, Bool.not_true, ne_eq, not_true_eq_false, decide_false, Bool.false_and, Bool.or_self, Bool.false_eq_true, if_false]
  exact congrArg (fun u => Host.Outcome.next (State.notePeers u p)) (State.onX_congr hrecord rfl)

/-- R253. The last rank's contribution completes the sums, and the reduced tiles are written; a multicast needs room in the landing. -/
theorem exec_reduceContribution_completes (hlast : (r.reduction tile).nextRank + 1 = s.ranks p r)
    (hroom : r.kind = 3 → s.others p r = [] ∨ s.landingFull p 0 = false) (hunpinned : s.xPinned p r tile = none) :
    let red := r.reduction tile
    let mine := r.nextParts tile
    let sum := addSums red.sums red.sats (mine.flatMap fun c => c.vals) (mine.flatMap fun c => c.sats)
    exec (.reduceContribution p x tile) s = .next (((s.onX p x fun r => { r with
      parts := r.parts.filter fun c => !(c.block / blocksPerTile r.fs = tile && c.rank = red.nextRank)
      sums := r.sums.filter (fun e => e.tile ≠ tile) }).reduceTile p x r tile sum).notePeers p) := by
  obtain ⟨hrecord, hreduces, hlive, hworking, hinside⟩ := hrun
  have hfree : (r.kind = xkAllReduce && s.others p r ≠ [] && s.landingFull p 0) = false := by
    by_cases hall : r.kind = xkAllReduce
    · rcases hroom hall with hnone | hspace
      · simp [hnone]
      · simp [hspace]
    · simp [hall]
  change execReduceContribution p x tile s = _
  simp only [execReduceContribution, hrecord, hreduces, hlive, hworking, howned, hopen, hready, hlast, hfree, hunpinned,
    Nat.not_le.2 hinside, decide_true, Bool.true_and, Option.isSome_none, Bool.not_true, ne_eq, not_true_eq_false, decide_false,
    Bool.or_self, Bool.false_eq_true, if_false, if_true, List.append_nil]
  exact congrArg (fun u => Host.Outcome.next ((State.reduceTile u p x r tile _).notePeers p)) (State.onX_congr hrecord rfl)

end Reduce

end Reduces

end Sys2Proof.Machine

open Sys2Proof Sys2Proof.Machine Sys2Proof.Claims in
/-- Settles O28: the outcomes of the compression of a source tile, and of a contribution of the next rank and of the last. -/
theorem reductionsCompressAndAdd : Obligations.ReductionsCompressAndAdd := by
  unfold Obligations.ReductionsCompressAndAdd
  intro p x tile s r hrecord hreduces hstarted hcomplete hended hworking hinside
  have hlive : r.live = true := by simp [XRun.live, hstarted, hcomplete, hended]
  have hrun : Reducing s p x tile r := ⟨hrecord, hreduces, hlive, hworking, hinside⟩
  refine ⟨?compress, fun o hnext hroom => exec_exchangeTileCompress_pinned hrun hnext hroom, ?reduce⟩
  case compress =>
    intro u f hnext hroom hunpinned hread t y me owner
    have hpass : s.compressTile p x r tile = y.passTile p x r tile f := State.compressTile_eq_passTile hread
    rw [exec_exchangeTileCompress hrun hnext hroom hunpinned, hpass]
    refine ⟨fun hmode howner => ?_, fun hmode howner => ?_, fun z res hmode hres => ?_⟩
    · rw [State.passTile_sent f hmode howner]
    · rw [State.passTile_own f hmode howner]
    · rw [State.passTile_encoded f hmode hres]
  case reduce =>
    exact fun howned hopen hready =>
      ⟨exec_reduceContribution_adds hrun howned hopen hready, exec_reduceContribution_completes hrun howned hopen hready⟩
end

section
/-! PROOFS. The commands on Tier objects (R169 to R174): how one starts, and how a request arrives at its object. -/

namespace Sys2Proof.Machine

open Sys2Proof.Claims

/-! ## Objects after an update -/

@[simp] theorem State.obj_onObj (s : State) (p x : Nat) (f : TierObj → TierObj) : (s.onObj p x f).obj p x = f (s.obj p x) :=
  State.obj_setObj ..

theorem State.obj_onObj_ne (s : State) {p x y : Nat} (f : TierObj → TierObj) (hne : x ≠ y) :
    (s.onObj p x f).obj p y = s.obj p y := by
  unfold onObj setObj obj
  rw [partn_onPartn]
  exact Table.get_put_ne _ _ _ hne

/-! ## Starting -/

section StartTier

variable {s : State} {p w q op : Nat} {k : Cmd} (hserves : s.tierServing (k.f 447 416) = true) (hstarts : Starts s p w q op k)
  (act : Cmd → Nat → State → State)
include hserves hstarts

/-- R169 to R173. A TIER command on a created object acts on it. -/
theorem State.startTier_created (hcreated : ((begun s p w q).obj p (k.f 447 416)).created = true) :
    s.startTier p w q op act = act k (k.f 447 416) (begun s p w q) := by
  have hcmd : s.cmd p w q = some k := hstarts.1
  simp only [startTier, hcmd, hserves, Bool.not_true, Bool.false_eq_true, if_false, startCmd_of_starts hstarts, hcreated]

/-- R174. A TIER command on an object that does not exist is refused. -/
theorem State.startTier_missing (hmissing : ((begun s p w q).obj p (k.f 447 416)).created = false) :
    s.startTier p w q op act = (begun s p w q).complete p w q (.tier (k.f 447 416)) := by
  have hcmd : s.cmd p w q = some k := hstarts.1
  simp only [startTier, hcmd, hserves, Bool.not_true, Bool.not_false, Bool.false_eq_true, if_false, if_true,
    startCmd_of_starts hstarts, hmissing]

end StartTier

section Commands

variable (s : State) (p w q : Nat)

theorem exec_tierPromote : exec (.tierPromote p w q) s = .next (s.startTier p w q opPromote fun k x s =>
    s.tierArrive p x (.promote w q (k.f 415 368) k.tierMark (k.f 350 348))) := rfl

theorem exec_tierDemote : exec (.tierDemote p w q) s = .next (s.startTier p w q opDemote fun k x s =>
    s.tierArrive p x (.demote w q k.tierMark)) := rfl

theorem exec_tierPin : exec (.tierPin p w q) s = .next (s.startTier p w q opPin fun _ x s => s.applyPin p x w q true) := rfl

theorem exec_tierUnpin : exec (.tierUnpin p w q) s = .next (s.startTier p w q opUnpin fun _ x s => s.applyPin p x w q false) := rfl

end Commands

/-! ## Pins -/

/-- R171. A PIN adds a pin of its stream, up to 65,535. -/
theorem State.applyPin_pin (s : State) (p x w q : Nat) :
    s.applyPin p x w q true = if 65535 ≤ (s.obj p x).pins.get w 0 then s.complete p w q (.tier x) else
      ((s.onObj p x fun o => { o with pins := o.pins.put w ((s.obj p x).pins.get w 0 + 1) 0 }).settlePins p x).complete p w q .ok := by
  simp only [applyPin, if_true]

/-- R171. An UNPIN takes a pin of its stream away. -/
theorem State.applyPin_unpin (s : State) (p x w q : Nat) :
    s.applyPin p x w q false = if (s.obj p x).pins.get w 0 = 0 then s.complete p w q (.tier x) else
      ((s.onObj p x fun o => { o with pins := o.pins.put w ((s.obj p x).pins.get w 0 - 1) 0 }).settlePins p x).complete p w q .ok := by
  simp only [applyPin, Bool.false_eq_true, if_false]

/-! ## The arrival of a request -/

section Arrive

variable {s : State} {p x : Nat} {r : TierReq}

/-- R170, R173. A request that the object's state takes is applied; one that makes a DEMOTING object RESIDENT releases what waits for
that. -/
theorem State.tierArrive_of_ok {u : State} (happly : s.tierApply p x r = .ok u) :
    s.tierArrive p x r =
      if (s.obj p x).st = .demoting ∧ (u.obj p x).st = .resident then u.releasePass p x [.resident] else u := by
  simp only [tierArrive, tierOne, happly, Bool.and_eq_true, decide_eq_true_eq]

/-- R170. A request that the object's state does not take is held. -/
theorem State.tierArrive_of_error {awaits : TierWait} (happly : s.tierApply p x r = .error awaits) :
    s.tierArrive p x r = s.holdTier p x awaits r := by
  have hone : s.tierOne p x r = s.holdTier p x awaits r := by simp only [tierOne, happly]
  have hst : ((s.holdTier p x awaits r).obj p x).st = (s.obj p x).st := by rw [holdTier, obj_onObj]
  simp only [tierArrive, hone, hst, Bool.and_eq_true, decide_eq_true_eq]
  refine if_neg ?_
  rintro ⟨hdemoting, hresident⟩
  exact absurd (hdemoting.symm.trans hresident) (by decide)

theorem State.waiting_holdTier (s : State) (p x : Nat) (awaits : TierWait) (r : TierReq) :
    ((s.holdTier p x awaits r).obj p x).waiting = (s.obj p x).waiting ++ [(awaits, r)] := by
  rw [holdTier, obj_onObj]

end Arrive

end Sys2Proof.Machine

open Sys2Proof Sys2Proof.Machine Sys2Proof.Claims in
/-- Settles O21: the start of each command on a created object and on a missing one, and the arrival of a request. -/
theorem tierCommandsArriveAndWait : Obligations.TierCommandsArriveAndWait := by
  unfold Obligations.TierCommandsArriveAndWait
  refine ⟨fun p w q s k => ?commands, fun p x r s => ⟨fun u => State.tierArrive_of_ok, fun awaits happly => ?held⟩⟩
  case commands =>
    intro x b mark refused pins hserves
    refine ⟨fun hcreated => ⟨fun hstarts => ?_, fun hstarts => ?_, fun hstarts => ?_, fun hstarts => ?_⟩,
      fun hmissing => ⟨fun hstarts => ?_, fun hstarts => ?_, fun hstarts => ?_, fun hstarts => ?_⟩⟩
    · rw [exec_tierPromote, State.startTier_created (op := opPromote) hserves hstarts _ hcreated]
      rfl
    · rw [exec_tierDemote, State.startTier_created (op := opDemote) hserves hstarts _ hcreated]
      rfl
    · rw [exec_tierPin, State.startTier_created (op := opPin) hserves hstarts _ hcreated, State.applyPin_pin]
      rfl
    · rw [exec_tierUnpin, State.startTier_created (op := opUnpin) hserves hstarts _ hcreated, State.applyPin_unpin]
      rfl
    · rw [exec_tierPromote, State.startTier_missing (op := opPromote) hserves hstarts _ hmissing]
      rfl
    · rw [exec_tierDemote, State.startTier_missing (op := opDemote) hserves hstarts _ hmissing]
      rfl
    · rw [exec_tierPin, State.startTier_missing (op := opPin) hserves hstarts _ hmissing]
      rfl
    · rw [exec_tierUnpin, State.startTier_missing (op := opUnpin) hserves hstarts _ hmissing]
      rfl
  case held =>
    rw [State.tierArrive_of_error happly]
    exact ⟨State.waiting_holdTier .., fun y hy => State.obj_onObj_ne s _ hy.symm, State.onObj_lake .., State.onObj_log ..⟩
end

section
/-! PROOFS. Fills, releases and commits of Tier objects (R165 to R167, R172 to R177, R474): what each does while its Tier Manager serves. -/

namespace Sys2Proof.Machine

/-! ## Lake pages -/

/-- A part of a range lies in the lake. -/
def Target.inLake : Target → Bool
  | .lake _ => true
  | _ => false

theorem Target.inLake_iff (t : Target) : t.inLake = true ↔ ∃ pa, t = .lake pa := by
  cases t with
  | lake pa => exact iff_of_true rfl ⟨pa, rfl⟩
  | host addr => exact iff_of_false Bool.false_ne_true (by rintro ⟨pa, h⟩; cases h)
  | peer m va => exact iff_of_false Bool.false_ne_true (by rintro ⟨pa, h⟩; cases h)

theorem all_inLake_iff (l : List (Target × Nat)) : (l.all fun e => e.1.inLake) = true ↔ ∀ e ∈ l, ∃ pa, e.1 = .lake pa := by
  simp only [List.all_eq_true, Target.inLake_iff]

/-! ## Fills -/

theorem State.endBusy_part (s : State) (p x : Nat) : (s.endBusy p x).part = s.part := by
  unfold endBusy
  split
  · rfl
  · rfl

/-- R172. A frame that lands gains the mark of a PROMOTE that waits for the fill. -/
def State.gainPromote (p : Nat) (s : State) : TierReq → State
  | .promote _ _ _ mark _ => s.gain p mark 1
  | _ => s

/-- R173. The end of a fill completes a PROMOTE that waits for it. -/
def State.completePromote (p : Nat) (s : State) : TierReq → State
  | .promote w q _ _ _ => s.complete p w q .ok
  | _ => s

section Fills

variable {s : State} {p x : Nat} {f : Fill}

section Filling

variable (hst : (s.obj p x).st = .promoting) (hfill : (s.obj p x).fill = some f)
include hst hfill

/-- R177. A good read of the next extent is counted, and the channels go to the next fill. -/
theorem exec_flashReadComplete (hserves : s.tierServes x compTranslation = true) (hon : s.flashOn x = true)
    (hsound : (s.obj p x).recovery = none) (hcreated : (s.obj p x).created = true) (hext : f.extentsRead < (s.obj p x).extents) :
    exec (.flashReadComplete p x f.extentsRead false) s = .next (((s.endBusy p x).onObj p x fun o => { o with
      fill := o.fill.map fun g => { g with extentsRead := f.extentsRead + 1 } }).grantFlash (x % s.part.ioDies)) := by
  change execFlashReadComplete p x f.extentsRead false s = _
  simp only [execFlashReadComplete, hst, hfill, hserves, hon, hsound, hcreated, Nat.not_le.2 hext, Option.isSome_none, Bool.not_true,
    decide_false, Bool.or_self, Bool.false_eq_true, if_false, if_true, State.onObj_part, State.endBusy_part]

/-- R172. The next landed frame is written in lake pages and counted, on the fill and on the marks of its PROMOTEs. -/
theorem exec_fillFrameDelivered (hserves : s.tierServing x = true) (hsound : (s.obj p x).recovery = none) {fr : List Byte}
    {rest : List (List Byte)} {l : List (Target × Nat)} (hlanded : f.landed = fr :: rest)
    (hrange : s.translateRange p ((s.obj p x).addr + f.done * frameBytes) frameBytes { write := true } = .ok l)
    (hlake : ∀ e ∈ l, ∃ pa, e.1 = .lake pa) :
    exec (.fillFrameDelivered p x) s = .next (f.waiters.foldl (State.gainPromote p)
      ((s.writeParts l fr).onObj p x fun o => { o with fill := some { f with done := f.done + 1, landed := rest } })) := by
  change execFillFrameDelivered p x s = _
  simp only [execFillFrameDelivered, hst, hfill, hlanded, hserves, hsound, hrange, Option.isSome_none, Bool.not_true, Bool.or_self,
    Bool.false_eq_true, if_false]
  exact if_pos ((all_inLake_iff l).2 hlake)

/-- R173. A fill that holds every tile makes its object RESIDENT and completes its PROMOTEs. -/
theorem exec_fillDone (hserves : s.tierServing x = true) (hdone : f.done = (s.obj p x).tiles) :
    exec (.fillDone p x) s = .next (((f.waiters.foldl (State.completePromote p)
      ((s.endSpans p f.since f.waiters).onObj p x fun o => { o with st := .resident, fill := none })).settlePins p x).releaseHeld
        p x [.fill]) := by
  change execFillDone p x s = _
  simp only [execFillDone, hst, hfill, hserves, hdone, ne_eq, not_true_eq_false, decide_false, Bool.not_true, Bool.or_self,
    Bool.false_eq_true, if_false]
  rfl

end Filling

/-- R175. The end of a release makes its object ABSENT. -/
theorem exec_releaseDone (hserves : s.tierServing x = true) (hst : (s.obj p x).st = .demoting) :
    exec (.releaseDone p x) s = .next ((s.becomeAbsent p x).releaseHeld p x gone) := by
  change execReleaseDone p x s = _
  simp only [execReleaseDone, hst, hserves, ne_eq, not_true_eq_false, decide_false, Bool.not_true, Bool.or_self, Bool.false_eq_true,
    if_false]

end Fills

/-! ## Commits -/

/-- R166, R176. The new version and its frames are the object's, with or without a lake copy; its old extents retire, and the bytes are
counted. -/
def State.recordVersion (s : State) (p x : Nat) (v : Writing) (keep : Bool) : State :=
  let o := s.obj p x
  let ext := (v.frames.length + 63) / 64
  let u := (s.setObj p x { o with
    st := if keep then .resident else .absent
    version := v.version
    flashVersion := v.version
    frames := v.frames
    seqs := (List.range ext).map fun i => (s.partn p).flashSeq + i
    writing := none
    retiring := o.retiring + o.extents
    heldInLake := false
    poison := match v.req with | .importVersion _ _ _ => false | _ => o.poison }).onPartn p fun y =>
      { y with flashSeq := y.flashSeq + ext }
  { u with lake := { u.lake with
    bytesHost := u.lake.bytesHost + v.frames.length * frameBytes
    bytesFlash := u.lake.bytesFlash + ext * 299136 } }

/-- R172, R308. The request of a committed version is answered: an IMPORT completes, a write request's mark gains 1. -/
def State.answerWrite (s : State) (p : Nat) (v : Writing) : State :=
  match v.req with
  | .importVersion w q _ => s.complete p w q .ok
  | .sweepWrite _ mark => s.gain p mark 1
  | _ => s

theorem exec_tierCommit {s : State} {p x : Nat} {v : Writing} (hserves : s.tierServes x compTranslation = true)
    (hon : s.flashOn x = true) (hst : (s.obj p x).st = .writing) (hwriting : (s.obj p x).writing = some v) (hframes : v.frames ≠ []) :
    let keep := s.keepsCopy p (s.obj p x) v
    let u := (s.recordVersion p x v keep).answerWrite p v
    exec (.tierCommit p x) s = .next ((if keep then u.settlePins p x else u.endDemotes p x true).releaseHeld p x
      (if keep then [.commit] else gone)) := by
  have hsome : v.frames.isEmpty = false := List.isEmpty_eq_false_iff.2 hframes
  change execTierCommit p x s = _
  simp only [execTierCommit, hst, hwriting, hsome, hserves, hon, Bool.not_true, Bool.or_self, Bool.false_eq_true, if_false]
  rfl

/-- R176. Retiring extents are given back once no fill reads them. -/
theorem exec_extentRetire {s : State} {p x : Nat} (hserves : s.tierServes x compTranslation = true) (hon : s.flashOn x = true)
    (hst : (s.obj p x).st ≠ .promoting) (hretiring : (s.obj p x).retiring ≠ 0) :
    exec (.extentRetire p x) s = .next (s.onObj p x fun o => { o with retiring := 0 }) := by
  change execExtentRetire p x s = _
  simp only [execExtentRetire, hst, hretiring, hserves, hon, decide_false, Bool.not_true, Bool.or_self, Bool.false_eq_true, if_false]

/-! ## The lake copy that a commit keeps -/

theorem State.keepCopy_of_keepsCopy {s : State} {p : Nat} {o : TierObj} {v : Writing} (hkeeps : s.keepsCopy p o v = true) :
    v.keepCopy = true :=
  (Bool.and_eq_true_iff.1 hkeeps).1

/-- R474. A copy is sound where every tile has writable lake pages and reads. -/
theorem State.copySound_iff (s : State) (p : Nat) (o : TierObj) :
    s.copySound p o = true ↔ ∀ i < o.tiles, ∃ l, s.translateRange p (o.addr + i * frameBytes) frameBytes { write := true } = .ok l ∧
      (∀ e ∈ l, ∃ pa, e.1 = .lake pa) ∧ s.badPart l = none := by
  unfold copySound
  rw [List.all_eq_true]
  refine forall_congr' fun i => ?_
  rw [List.mem_range]
  refine imp_congr_right fun _ => ?_
  cases hrange : s.translateRange p (o.addr + i * frameBytes) frameBytes { write := true } with
  | error e => simp
  | ok l =>
    have hparts : ((l.all fun e => e.1.inLake) && (s.badPart l).isNone) = true ↔
        (∀ e ∈ l, ∃ pa, e.1 = .lake pa) ∧ s.badPart l = none := by
      rw [Bool.and_eq_true, all_inLake_iff, Option.isNone_iff_eq_none]
    simp only [Except.ok.injEq, exists_eq_left']
    exact hparts

/-- R474. An IMPORT's commit keeps the copy that was kept so far and is sound. -/
theorem State.keepsCopy_import {s : State} {p w q : Nat} {o : TierObj} {v : Writing} {fs : List (List Byte)}
    (hreq : v.req = .importVersion w q fs) (hkeep : v.keepCopy = true) : s.keepsCopy p o v = s.copySound p o := by
  simp only [keepsCopy, hreq, hkeep, Bool.true_and]

end Sys2Proof.Machine

open Sys2Proof Sys2Proof.Machine Sys2Proof.Claims in
/-- Settles O22: the outcome of each command while the Tier Manager serves, and when a commit keeps the lake copy. -/
theorem fillsReleasesAndCommits : Obligations.FillsReleasesAndCommits := by
  unfold Obligations.FillsReleasesAndCommits
  refine ⟨fun p x s hserving hserves hsound => ⟨?read, ?frame, ?done, exec_releaseDone hserving⟩, ?commit, ?keeps,
    fun p x s => exec_extentRetire⟩
  case read => exact fun f hst hfill hcreated hext hon => exec_flashReadComplete hst hfill hserves hon hsound hcreated hext
  case frame =>
    intro f fr rest l hst hfill hlanded hrange hlake
    rw [exec_fillFrameDelivered hst hfill hserving hsound hlanded hrange hlake]
    rfl
  case done =>
    intro f hst hfill hdone
    rw [exec_fillDone hst hfill hserving hdone]
    rfl
  case commit =>
    intro p x s v hserves hon hst hwriting hframes
    exact exec_tierCommit hserves hon hst hwriting hframes
  case keeps =>
    intro p s o v
    refine ⟨State.keepCopy_of_keepsCopy, fun w q fs hreq hkeep => ?_⟩
    rw [State.keepsCopy_import hreq hkeep]
    exact State.copySound_iff s p o
end

section
/-! PROOFS. The recovery ladder, the repair and the scrub of the lake, the flash's background work and the arrivals in a landing (R127,
R160, R161, R166, R167, R179 to R184): what each does once nothing stands in its way. -/

namespace Sys2Proof.Machine

/-! ## The recovery ladder -/

section Recovery

variable {s : State} {p x : Nat} {r : Recovery} (hserves : s.tierServes x compRecovery = true)
  (hrecovery : (s.obj p x).recovery = some r)
include hserves hrecovery

/-- R179. After a source that fails comes the next one. -/
theorem exec_recoverySourceTimeout_failed (hsource : r.source ≠ 4) :
    exec (.recoverySourceTimeout p x .failed) s = .next (s.nextSource p x r) := by
  change execRecoverySourceTimeout p x .failed s = _
  simp only [execRecoverySourceTimeout, hrecovery, hsource, hserves, decide_false, Bool.not_true, Bool.or_self, Bool.false_eq_true,
    if_false]

/-- R180. A source that delivers the extent's frames under a right header ends the recovery. -/
theorem exec_recoverySourceTimeout_delivered (hsource : r.source ≠ 4) {d : ExtentData}
    (hheader : extentHeaderOk (s.obj p x) x r.ext d.header = true)
    (hframes : framesBad (s.obj p x).version ((s.obj p x).extentFrames r.ext) d.frames 0 = none) :
    exec (.recoverySourceTimeout p x (.delivered d)) s = .next (s.recovered p x r d.frames (0x3200 + r.source)) := by
  change execRecoverySourceTimeout p x (.delivered d) s = _
  simp only [execRecoverySourceTimeout, hrecovery, hsource, hserves, hheader, hframes, decide_false, Bool.not_true, Bool.or_self,
    Bool.false_eq_true, if_false, Option.isNone_none, Bool.and_self, if_true]

/-- R181. Without an answer of the host the extent is unrecoverable. -/
theorem exec_hostRecoveryTimeout (hsource : r.source = 4) :
    exec (.hostRecoveryTimeout p x) s = .next (s.extentUnrecoverable p x r) := by
  change execHostRecoveryTimeout p x s = _
  simp only [execHostRecoveryTimeout, hrecovery, hsource, hserves, ne_eq, not_true_eq_false, decide_false, Bool.not_true, Bool.or_self,
    Bool.false_eq_true, if_false]

end Recovery

/-! ## The lake's repair and scrub -/

theorem TierObj.inLakeOnly_of_notWriting {o : TierObj} (hheld : o.heldInLake = false) (hwriting : o.writing = none) :
    o.inLakeOnly = false := by
  simp [inLakeOnly, hheld, hwriting]

/-- R161. An uncorrectable tile of a RESIDENT copy is written again from the object's version, unless the lake alone holds its state. -/
theorem State.repairCopy_resident {s : State} {p x tile pa : Nat} {l : List (Target × Nat)} (hserves : s.tierServing x = true)
    (hst : (s.obj p x).st = .resident) (hinside : tile < (s.obj p x).tiles)
    (hrange : s.translateRange p ((s.obj p x).addr + tile * frameBytes) frameBytes { write := true } = .ok l)
    (hbad : s.badPart l = some pa) (hcopied : (s.obj p x).inLakeOnly = false) :
    s.repairCopy p x tile = some ((s.writeParts l ((s.obj p x).frames.getD tile [])).tierEvent p x 0x3103 (tile / 64)) := by
  simp only [repairCopy, hst, hrange, hbad, hcopied, hserves, Nat.not_le.2 hinside, Option.isNone_some, decide_false, Bool.not_true,
    Bool.or_self, Bool.false_eq_true, if_false]

theorem exec_lakeCopyRepair {s u : State} {p x tile : Nat} (hrepair : s.repairCopy p x tile = some u) :
    exec (.lakeCopyRepair p x tile) s = .next u := by
  change execLakeCopyRepair p x tile s = _
  simp only [execLakeCopyRepair, hrepair]

/-- R162. The stack of a granule's address works, and so does its hall and the module. -/
structure Scrubs (s : State) (pa : Nat) : Prop where
  stack : s.part.hasStack (lakeStack pa) = true
  stackKept : s.sup.lostStacks.contains (lakeStack pa) = false
  hallKept : s.sup.lostHalls.contains (lakeStack pa / 4) = false
  working : s.working = true

theorem Scrubs.notHeld {s : State} {pa : Nat} (h : Scrubs s pa) :
    (!(s.part.hasStack (lakeStack pa)) || s.sup.lostStacks.contains (lakeStack pa) || s.sup.lostHalls.contains (lakeStack pa / 4) ||
      !s.working) = false := by
  rw [h.stack, h.stackKept, h.hallKept, h.working]
  rfl

section Scrub

variable {s : State} {g : Nat} (hscrubs : Scrubs s (g * 64)) (hgood : s.lakeBad (g * 64) 64 = none)
include hscrubs hgood

theorem exec_lakeScrub_clean : exec (.lakeScrub g .clean) s = .next s := by
  change execLakeScrub g .clean s = _
  simp only [execLakeScrub, hscrubs.notHeld, hgood, Option.isSome_none, Bool.false_eq_true, if_false]

/-- R160. An uncorrectable granule is poisoned, and told to the partition of its hall. -/
theorem exec_lakeScrub_uncorrectable : exec (.lakeScrub g .uncorrectable) s =
    .next ((s.poisonGranules [g]).lakeUncorrectable (s.hallOwner (lakeStack (g * 64) / 4)) (g * 64)) := by
  change execLakeScrub g .uncorrectable s = _
  simp only [execLakeScrub, hscrubs.notHeld, hgood, Option.isSome_none, Bool.false_eq_true, if_false]

/-- R158, R162. A correction on a channel without a failed device is noted. -/
theorem exec_lakeScrub_corrected (d : Nat)
    (hdevices : s.sup.failedDevices.get (lakeStack (g * 64) * 32 + lakeChannel (g * 64)) 0 = 0) :
    exec (.lakeScrub g (.corrected d)) s = .next (s.noteCorrection (s.hallOwner (lakeStack (g * 64) / 4)) (lakeStack (g * 64))
      (lakeChannel (g * 64)) d) := by
  change execLakeScrub g (.corrected d) s = _
  simp only [execLakeScrub, hscrubs.notHeld, hgood, hdevices, Option.isSome_none, Bool.false_eq_true, if_false,
    (Nat.succ_ne_zero d).symm, ne_eq, not_true_eq_false]

end Scrub

/-! ## Background work -/

/-- R166, R167. Background work is counted, and the events of the spare area are raised where it crosses their bounds. -/
theorem exec_flashBackgroundWork {s : State} {die : Nat} (w : FlashWork) (hdie : s.part.hasDie die = true)
    (hserves : s.compUp (6 + die) compTranslation = true) :
    let old := s.lake.sparePercent
    let new := Min.min old w.sparePercent
    let u := { s with lake := { s.lake with
      retiredBlocks := s.lake.retiredBlocks + w.retired
      relocations := s.lake.relocations + w.relocations
      bytesFlash := s.lake.bytesFlash + w.bytes
      sparePercent := new
      readOnly := s.lake.readOnly || decide (new < 2) } }
    let v := if new < 10 ∧ 10 ≤ old then u.raiseM 0x3301 die [] else u
    exec (.flashBackgroundWork die w) s = .next (if new < 2 ∧ 2 ≤ old then v.raiseM 0x3302 die [] else v) := by
  change execFlashBackgroundWork die w s = _
  simp only [execFlashBackgroundWork, hdie, hserves, Bool.not_true, Bool.or_self, Bool.false_eq_true, if_false, Bool.and_eq_true,
    decide_eq_true_eq]

/-! ## Arrivals in a landing -/

section Arrival

variable {s : State} {die : Nat} (hdie : s.part.hasDie die = true) (hworking : s.working = true) (p : Nat) (f : List Byte)
include hdie hworking

/-- R127. A frame that the flash sends to its die's landing. -/
theorem exec_landingFrameArrival_flash {x : Nat} (tile : Nat) (decodes headerOk : Bool) (hhome : die = x % s.part.ioDies)
    (hserves : s.tierServes x compTranslation = true) (hon : s.flashOn x = true) :
    exec (.landingFrameArrival die p (.flash x tile decodes headerOk) f) s =
      .next (s.flashArrival die p x tile (decodes && headerOk) f) := by
  change execLandingFrameArrival die p (.flash x tile decodes headerOk) f s = _
  simp only [execLandingFrameArrival, hdie, hworking, ← hhome, hserves, hon, ne_eq, not_true_eq_false, decide_false, Bool.not_true,
    Bool.or_self, Bool.false_eq_true, if_false]

/-- R127. A frame or a payload from the host is put in the landing of die 0. -/
theorem exec_landingFrameArrival_host (m : MoverRef) :
    exec (.landingFrameArrival die p (.host m) f) s = .next (if die = 0 then s.hostArrival m false f else s) ∧
    exec (.landingFrameArrival die p (.hostPayload m) f) s = .next (if die = 0 then s.hostArrival m true f else s) := by
  have hgo : (!s.part.hasDie die || !s.working) = false := by rw [hdie, hworking]; rfl
  exact ⟨if_neg (ne_true_of_eq_false hgo), if_neg (ne_true_of_eq_false hgo)⟩

/-- R127. A source frame of an IMPORT. -/
theorem exec_landingFrameArrival_import (w q tile : Nat) :
    exec (.landingFrameArrival die p (.importSource w q tile) f) s = .next (s.importArrival p w q tile f) := by
  have hgo : (!s.part.hasDie die || !s.working) = false := by rw [hdie, hworking]; rfl
  exact if_neg (ne_true_of_eq_false hgo)

end Arrival

end Sys2Proof.Machine

open Sys2Proof Sys2Proof.Machine Sys2Proof.Claims in
/-- Settles O23: the outcomes of the ladder's sources, of the lake's repair and scrub, of background work and of an arrival. -/
theorem recoveriesScrubsAndFlashWork : Obligations.RecoveriesScrubsAndFlashWork := by
  unfold Obligations.RecoveriesScrubsAndFlashWork
  refine ⟨fun p x s hserving hserves => ⟨?ladder, fun r => exec_hostRecoveryTimeout hserves, ?repair⟩, ?scrub,
    fun die w s => exec_flashBackgroundWork w, ?arrival⟩
  case ladder =>
    exact fun r hrecovery hsource => ⟨exec_recoverySourceTimeout_failed hserves hrecovery hsource,
      fun d => exec_recoverySourceTimeout_delivered hserves hrecovery hsource⟩
  case repair =>
    intro tile l pa hst hinside hrange hbad hheld hwriting
    have hcopied := TierObj.inLakeOnly_of_notWriting hheld hwriting
    exact exec_lakeCopyRepair (State.repairCopy_resident hserving hst hinside hrange hbad hcopied)
  case scrub =>
    intro g s pa hstack hstackKept hhallKept hworking hgood
    have hscrubs : Scrubs s (g * 64) := ⟨hstack, hstackKept, hhallKept, hworking⟩
    exact ⟨exec_lakeScrub_clean hscrubs hgood, exec_lakeScrub_uncorrectable hscrubs hgood,
      exec_lakeScrub_corrected hscrubs hgood⟩
  case arrival =>
    intro die p f s hdie hworking
    exact ⟨fun x tile => exec_landingFrameArrival_flash hdie hworking p f tile true true,
      fun m => (exec_landingFrameArrival_host hdie hworking p f m).1, fun m => (exec_landingFrameArrival_host hdie hworking p f m).2,
      exec_landingFrameArrival_import hdie hworking p f⟩
end

section
/-! PROOFS. The commands of a step (R191, R194, R198, R226 to R229): how one starts, and how STEP_OPEN, STEP_SEAL, STEP_COMMIT and
STEP_DISCARD move the step. -/

namespace Sys2Proof.Machine

open Sys2Proof.Claims

/-! ## Starting -/

/-- R226. A stream may command the step: none runs, or it owns the one that runs. -/
def Partition.commandedBy (x : Partition) (w : Nat) : Prop := x.step = .idle ∨ x.step = .discarded ∨ x.stepOwner = w

theorem Partition.commandedBy_of_fresh {x : Partition} (w : Nat) (hfresh : x.step = .idle ∨ x.step = .discarded) : x.commandedBy w :=
  hfresh.imp_right Or.inl

theorem Partition.commandedBy_of_owner {x : Partition} {w : Nat} (howner : x.stepOwner = w) : x.commandedBy w := .inr (.inr howner)

/-- R226. A step command that starts on a stream that may command the step acts in the state that has it running. -/
theorem State.startStep_of_starts {s : State} {p w q op : Nat} {k : Cmd} (hstarts : Starts s p w q op k) (act : Cmd → State → State)
    (hmay : ((begun s p w q).partn p).commandedBy w) : s.startStep p w q op act = act k (begun s p w q) := by
  have hcmd : s.cmd p w q = some k := hstarts.1
  simp only [startStep, hcmd, startCmd_of_starts hstarts, ne_eq, Bool.and_eq_true, decide_eq_true_eq]
  refine if_neg ?_
  rintro ⟨⟨hidle, hdiscarded⟩, howner⟩
  exact hmay.elim hidle fun hmay => hmay.elim hdiscarded howner

/-! ## The commands -/

theorem StepState.uncommitted_iff (x : StepState) : x.uncommitted = true ↔ x = .opened ∨ x = .sealed ∨ x = .exchanged := by
  cases x <;> decide

section Commands

variable {s : State} {p w q : Nat} {k : Cmd}

/-- R198, R226. STEP_OPEN of the next version, where no step runs and every entry is written, opens the step. -/
theorem exec_stepOpen (hstarts : Starts s p w q 0x10 k)
    (hfresh : ((begun s p w q).partn p).step = .idle ∨ ((begun s p w q).partn p).step = .discarded)
    (hnext : k.step = (((begun s p w q).partn p).version.toNat + 1) % 2 ^ 64)
    (hintact : ((begun s p w q).partn p).stateIntact = true) (hwritten : ((begun s p w q).startSlots p false).2 = none) :
    exec (.stepOpen p w q) s = .next ((((begun s p w q).startSlots p false).1.onPartn p fun x => { x.clearWatch with
      step := .opened
      stepNo := BitVec.ofNat 64 k.step
      stepSeed := BitVec.ofNat 64 (k.f 383 320)
      stepOwner := w
      ledger := []
      attempts := []
      periodStarted := false
      abortCommitted := false }).complete p w q .ok) := by
  have hstart : (begun s p w q).startSlots p false = (((begun s p w q).startSlots p false).1, none) := Prod.snd_eq_iff.1 hwritten
  have hopens : ((begun s p w q).partn p).step ≠ .idle → ((begun s p w q).partn p).step = .discarded := hfresh.resolve_left
  change Host.Outcome.next (s.startStep p w q opStepOpen _) = _
  rw [State.startStep_of_starts (op := opStepOpen) hstarts _ (Partition.commandedBy_of_fresh w hfresh)]
  dsimp only
  rw [if_neg (by simpa [hnext, hintact] using hopens), hstart]

section Seal

variable (hserving : s.hallsServing p = true) (hstarts : Starts s p w q 0x11 k) (howner : ((begun s p w q).partn p).stepOwner = w)
  (hnumber : k.step = ((begun s p w q).partn p).stepNo.toNat) (hopened : ((begun s p w q).partn p).step = .opened)
include hserving hstarts howner hnumber hopened

/-- R194, R227. STEP_SEAL of an open step tells its non-finite counts. Without a slot that stops it, the step is sealed; else the first
such slot is told, and the step is discarded. -/
theorem exec_stepSeal {stops : List (Nat × Slot)}
    (hstops : ((begun s p w q).sealEvents p ((begun s p w q).partn p).slots 0).stopSlots p = stops) :
    let e := (begun s p w q).sealEvents p ((begun s p w q).partn p).slots 0
    exec (.stepSeal p w q) s = .next (match stops with
      | [] => (e.onPartn p fun x => { x with step := .sealed }).complete p w q .ok
      | (i, d) :: rest =>
        ((e.raiseP 0x4102 p [i, d.decl.tensor.toNat, ((begun s p w q).partn p).stepNo.toNat, rest.length + 1]).enterDiscarded p
          cauNonfinite (some (w, q))).complete p w q (.fault cauNonfinite i (fld d.decl.tensor.toNat 96))) := by
  change execStepSeal p w q s = _
  simp only [execStepSeal, hserving, Bool.not_true, Bool.false_eq_true, if_false]
  rw [State.startStep_of_starts (op := opStepSeal) hstarts _ (Partition.commandedBy_of_owner howner)]
  simp only [hopened, hnumber, hstops, ne_eq, not_true_eq_false, decide_false, Bool.or_self, Bool.false_eq_true, if_false]
  cases stops with
  | nil => rfl
  | cons d rest => rfl

end Seal

/-- R229. STEP_COMMIT of a step whose sweep has ended commits it. -/
theorem exec_stepCommit (hserving : s.hallsServing p = true) (hstarts : Starts s p w q 0x13 k)
    (howner : ((begun s p w q).partn p).stepOwner = w) (hnumber : k.step = ((begun s p w q).partn p).stepNo.toNat)
    (hswept : ((begun s p w q).partn p).step = .swept) :
    exec (.stepCommit p w q) s = .next (((begun s p w q).commitStep p).complete p w q .ok) := by
  change execStepCommit p w q s = _
  simp only [execStepCommit, hserving, Bool.not_true, Bool.false_eq_true, if_false]
  rw [State.startStep_of_starts (op := opStepCommit) hstarts _ (Partition.commandedBy_of_owner howner)]
  exact congrArg Host.Outcome.next ((if_neg (by simp [hswept])).trans (if_neg (by simp [hswept, hnumber])))

/-- R226. STEP_DISCARD where no step runs does nothing. -/
theorem exec_stepDiscard_idle (hstarts : Starts s p w q 0x14 k) (hidle : ((begun s p w q).partn p).step = .idle) :
    exec (.stepDiscard p w q) s = .next ((begun s p w q).complete p w q .ok) := by
  change Host.Outcome.next (s.startStep p w q opStepDiscard _) = _
  rw [State.startStep_of_starts (op := opStepDiscard) hstarts _ (.inl hidle)]
  simp only [hidle, if_true]

/-- R226. STEP_DISCARD by the owner of a step before its commit point takes the step back to IDLE. -/
theorem exec_stepDiscard_uncommitted (hstarts : Starts s p w q 0x14 k)
    (hbefore : ((begun s p w q).partn p).step.uncommitted = true) (howner : ((begun s p w q).partn p).stepOwner = w)
    (hnumber : k.step = ((begun s p w q).partn p).stepNo.toNat) :
    exec (.stepDiscard p w q) s = .next (((begun s p w q).stepToIdle p).complete p w q .ok) := by
  change Host.Outcome.next (s.startStep p w q opStepDiscard _) = _
  rw [State.startStep_of_starts (op := opStepDiscard) hstarts _ (Partition.commandedBy_of_owner howner)]
  cases hstep : ((begun s p w q).partn p).step with
  | idle | discarded | sweeping | swept => rw [hstep] at hbefore; cases hbefore
  | opened | sealed | exchanged => simp [hstep, howner, hnumber]

end Commands

end Sys2Proof.Machine

open Sys2Proof Sys2Proof.Machine Sys2Proof.Claims in
/-- Settles O24: the outcome of each command of the stream that may command the step. -/
theorem stepCommandsMoveTheStep : Obligations.StepCommandsMoveTheStep := by
  unfold Obligations.StepCommandsMoveTheStep
  intro p w q s k b x n
  refine ⟨exec_stepOpen, fun y => rfl, fun howner hnumber hserving => ⟨fun hstarts hopened => ⟨?sealed, ?stopped⟩, ?commit⟩,
    fun hstarts => ⟨exec_stepDiscard_idle hstarts, ?discard⟩⟩
  case sealed => exact exec_stepSeal hserving hstarts howner hnumber hopened
  case stopped => exact fun i d rest => exec_stepSeal hserving hstarts howner hnumber hopened
  case commit => exact fun hstarts => exec_stepCommit hserving hstarts howner hnumber
  case discard => exact fun hbefore => exec_stepDiscard_uncommitted hstarts ((StepState.uncommitted_iff _).2 hbefore)
end

section
/-! PROOFS. The repeat of a layer and the periods of serving partitions (R191, R202 to R205, R355, R476): what a layer stop restores, the
attempt in which the layer begins again, and the end of a watch interval. -/

namespace Sys2Proof.Machine

/-! ## The layer stop -/

section Stop

variable {s : State} {p w q i : Nat} {g : Segment} {l : LayerRec}

/-- R202. A segment that stopped for a layer, whose cores have stopped: what LAYER_RESTART acts on. -/
structure StoppedFor (s : State) (p w q i : Nat) (g : Segment) (l : LayerRec) : Prop where
  segment : s.segment p w q = some g
  stop : g.stop = some (.layer i)
  layer : g.variant.layers[i]? = some l
  cores : s.stoppedCores g = true
  working : s.working = true

/-- R202. Steps 3 to 6 of a layer stop, once. -/
def State.restoreOnce (s : State) (p w q : Nat) (g : Segment) (l : LayerRec) : State :=
  if g.restored then s else s.restoreLayer p w q g l

/-- R202. The restore comes first, and the repeat with it where the Hall Schedulers serve. -/
theorem exec_layerRestart (hstopped : StoppedFor s p w q i g l) :
    exec (.layerRestart p w q) s = .next (if (s.restoreOnce p w q g l).hallsServe (coreHalls g.cores) compLaunch then
      (s.restoreOnce p w q g l).repeatLayer p w q g i l else s.restoreOnce p w q g l) := by
  obtain ⟨hsegment, hstop, hlayer, hcores, hworking⟩ := hstopped
  change execLayerRestart p w q s = _
  simp only [execLayerRestart, hsegment, hstop, hlayer, hcores, hworking, Bool.not_true, Bool.or_self, Bool.false_eq_true, if_false]
  exact (apply_ite Host.Outcome.next ..).symm

/-- R355. While a Hall Scheduler is out of service the stop is restored, and the repeat waits. -/
theorem exec_layerRestart_waits (hstopped : StoppedFor s p w q i g l)
    (hout : (s.restoreOnce p w q g l).hallsServe (coreHalls g.cores) compLaunch = false) :
    exec (.layerRestart p w q) s = .next (s.restoreOnce p w q g l) := by
  rw [exec_layerRestart hstopped, hout]
  rfl

/-- R202. Where the Hall Schedulers serve, the layer is repeated. -/
theorem exec_layerRestart_repeats (hstopped : StoppedFor s p w q i g l)
    (hserve : (s.restoreOnce p w q g l).hallsServe (coreHalls g.cores) compLaunch = true) :
    exec (.layerRestart p w q) s = .next ((s.restoreOnce p w q g l).repeatLayer p w q g i l) := by
  rw [exec_layerRestart hstopped, hserve]
  rfl

end Stop

/-! ## The repeat -/

section Repeat

variable {u : State} {p w q i : Nat} {g : Segment} {l : LayerRec}

/-- R203. The attempt in which a layer is repeated, and how it was chosen. -/
def State.nextAttempt (u : State) (p i : Nat) (g : Segment) (l : LayerRec) : Attempt × Nat :=
  ((u.partn p).attempts.get (attemptKey g i) {}).choose l.a16 (g.reports.any fun r => r.accumulator && l.a16)

/-- R203, R204. A slot as a layer's next attempt starts: an output of the layer takes the attempt's scale and format. -/
def State.nextSlot (u : State) (p i : Nat) (g : Segment) (l : LayerRec) (k : Slot) : Slot :=
  if l.outputs.contains k.decl.tensor then
    Slot.attempt (u.scaleRule p) (u.setting p 0x4000 3) k (u.nextAttempt p i g l).1 (u.nextAttempt p i g l).2
      (((g.reports.filter fun r => !r.accumulator).map fun r => r.tensor).contains k.decl.tensor)
  else k

/-- R198, R476. The scale entries written as a layer's next attempt starts, and the one that could not be written. -/
def State.writeAttempt (u : State) (p i : Nat) (g : Segment) (l : LayerRec) : State × Option (Nat × Nat) :=
  (u.onPartn p fun x => { x with slots := (u.partn p).slots.map (u.nextSlot p i g l) }).writeEntries p false

/-- R203. The entries of a layer at which an attempt of it starts. -/
def entriesFor (l : LayerRec) (a : Attempt) : List (Nat × Nat × Nat) :=
  match l.entries.find? fun e => e.level = a.level && e.a16 = (l.a16 && !a.a32) with
  | some e => e.entries
  | none => []

/-- R203, R205. A segment begins a layer again in an attempt: its counts leave their slots, the repeat is told, and its cores restart. -/
def State.beginAgain (t : State) (p w q i : Nat) (g : Segment) (l : LayerRec) (c : Attempt × Nat) : State :=
  let v := t.onPartn p fun x => { x with
    slots := x.slots.zipIdx.map fun e => g.lessAttempt i e.2 e.1
    attempts := x.attempts.put (attemptKey g i) c.1 {} }
  let v := (v.tellRepeat p c.2 i c.1).bumpP p 0x8060 7 (v.now - g.layerStarts.get i g.started)
  (v.onSegment p w q fun g => g.reenter i v.now).restartCores g (entriesFor l c.1)

/-- R476. A layer whose entry cannot be written stops its segment; the slots are what they were. -/
def State.stopForEntry (t : State) (p w q : Nat) (slots : List Slot) (slot a : Nat) : State :=
  (t.onPartn p fun y => { y with slots := slots }).onSegment p w q fun g => { g with
    stop := some .halt
    cause := cauScaleEntry
    causeArg := slot
    detail := BitVec.ofNat 128 (a % 2 ^ 48) }

/-- R203, R476. Whether each entry was written decides how a repeat goes on. -/
theorem State.repeatLayer_eq (u : State) (p w q i : Nat) (g : Segment) (l : LayerRec) :
    u.repeatLayer p w q g i l = match u.writeAttempt p i g l with
      | (t, some e) => t.stopForEntry p w q (u.partn p).slots e.1 e.2
      | (t, none) => t.beginAgain p w q i g l (u.nextAttempt p i g l) := rfl

/-- R203. With every entry written, the layer begins again. -/
theorem State.repeatLayer_of_written (hwritten : (u.writeAttempt p i g l).2 = none) :
    u.repeatLayer p w q g i l = (u.writeAttempt p i g l).1.beginAgain p w q i g l (u.nextAttempt p i g l) := by
  have hwrite : u.writeAttempt p i g l = ((u.writeAttempt p i g l).1, none) := Prod.snd_eq_iff.1 hwritten
  rw [repeatLayer_eq, hwrite]

/-- R476. An entry that cannot be written stops the segment. -/
theorem State.repeatLayer_of_lost {slot a : Nat} (hlost : (u.writeAttempt p i g l).2 = some (slot, a)) :
    u.repeatLayer p w q g i l = (u.writeAttempt p i g l).1.stopForEntry p w q (u.partn p).slots slot a := by
  have hwrite : u.writeAttempt p i g l = ((u.writeAttempt p i g l).1, some (slot, a)) := Prod.snd_eq_iff.1 hlost
  rw [repeatLayer_eq, hwrite]

end Repeat

/-! ## Periods -/

/-- R191. The end of a watch interval ends the period of a partition that serves requests outside steps, and starts the next. -/
theorem exec_watchPeriodEnd {s : State} {p : Nat} (hserves : (s.partn p).serves ≠ []) (houtside : (s.partn p).inStep = false)
    (hstarted : (s.partn p).periodStarted = true) (hserving : s.hallsServing p = true) (hworking : s.working = true) :
    exec (.watchPeriodEnd p) s = .next ((s.endPeriod p).startPeriod p).1 := by
  have hserves : (s.partn p).serving = true := by simpa [Partition.serving] using hserves
  change execWatchPeriodEnd p s = _
  simp only [execWatchPeriodEnd, hserves, houtside, hstarted, hserving, hworking, Bool.not_true, Bool.or_self, Bool.false_eq_true,
    if_false]

end Sys2Proof.Machine

open Sys2Proof Sys2Proof.Machine Sys2Proof.Claims in
/-- Settles O30: the restore of a layer stop, the two outcomes of the repeat, and the end of a period. -/
theorem layersAreRepeatedAndPeriodsEnd : Obligations.LayersAreRepeatedAndPeriodsEnd := by
  unfold Obligations.LayersAreRepeatedAndPeriodsEnd
  refine ⟨?layers, fun p s => exec_watchPeriodEnd⟩
  case layers =>
    intro p w q i s g l hsegment hstop hlayer hcores hworking flagged u c next y entries
    have hstopped : StoppedFor s p w q i g l := ⟨hsegment, hstop, hlayer, hcores, hworking⟩
    refine ⟨exec_layerRestart_waits hstopped, fun hserve hwritten => ?again, fun slot a hserve hlost => ?lost⟩
    case again =>
      exact (exec_layerRestart_repeats hstopped hserve).trans (congrArg _ (State.repeatLayer_of_written hwritten))
    case lost =>
      exact (exec_layerRestart_repeats hstopped hserve).trans (congrArg _ (State.repeatLayer_of_lost hlost))
end

section
/-! PROOFS. EXCHANGE and SWEEP (R219, R226, R241): how each starts in a step, and how a sweep ends. -/

namespace Sys2Proof.Machine

open Sys2Proof.Claims

section Lists

variable {s : State} {p w q : Nat} {k : Cmd} {raws : List U1024}

/-- R241. The records of an EXCHANGE's list before they are validated: those of a step, or of none. -/
def Partition.exchangeRecords (x : Partition) (w q : Nat) (inside : Bool) (raws : List U1024) : List XRun :=
  raws.zipIdx.map fun e => x.xrun w q e.2 e.1 false inside (if inside then x.stepSeed else 0)
    (if inside then x.stepNo else BitVec.ofNat 64 (2 ^ 63 + q))

/-- A list is not refused for a feature that it asks for and that is agreed, or does not ask for. -/
theorem State.feature_not_refused {asks : Bool} {i : Nat} (hagreed : asks = true → s.agreed p i = true) :
    (asks && !s.agreed p i) = false := by
  cases asks with
  | false => rfl
  | true => rw [hagreed rfl]; rfl

variable (hread : (begun s p w q).readList p (k.f 383 336) (k.f 335 320) = .ok raws)
include hread

/-- R241. EXCHANGE of valid records, by the owner of a SEALED step or where no step runs, reads their scale entries and adds them. -/
theorem exec_exchange {rs : List XRun} {inside : Bool} (hstarts : Starts s p w q 0x20 k)
    (hinside : inside = decide (((begun s p w q).partn p).step = .sealed))
    (hmay : ((begun s p w q).partn p).step = .idle ∨
      (((begun s p w q).partn p).step = .sealed ∧ ((begun s p w q).partn p).stepOwner = w))
    (hnumber : k.step = if inside then ((begun s p w q).partn p).stepNo.toNat else 0)
    (hvalid : (begun s p w q).checkXs p (((begun s p w q).partn p).exchangeRecords w q inside raws) = .ok rs)
    (hagreed : rs.any (fun r => r.mode = xmSign) = true → (begun s p w q).agreed p 2 = true) :
    exec (.exchange p w q) s = .next ((rs.foldl (fun s r => (s.readScale p (BitVec.ofNat 32 r.srcTensor)).1)
      (begun s p w q)).onPartn p fun x => { x with
        step := if inside then .exchanged else x.step
        xruns := x.xruns ++ rs
        lastXList := raws }) := by
  have hcommands : ((begun s p w q).partn p).commandedBy w := hmay.imp_right fun h => .inr h.2
  have hfeature := State.feature_not_refused hagreed
  change Host.Outcome.next (s.startStep p w q opExchange _) = _
  rw [State.startStep_of_starts (op := opExchange) hstarts _ hcommands]
  subst hinside
  simp only [Partition.exchangeRecords, decide_eq_true_eq] at hvalid hnumber
  have hopen : ((begun s p w q).partn p).step ≠ .idle → ((begun s p w q).partn p).step = .sealed :=
    fun h => (hmay.resolve_left h).1
  dsimp only
  rw [if_neg (by simpa [hnumber] using hopen), hread]
  simp only [hvalid, hfeature, Bool.false_eq_true, if_false, decide_eq_true_eq]

/-- R219, R226. SWEEP of valid records by the owner of a SEALED or EXCHANGED step makes it SWEEPING, each unit at its first block. -/
theorem exec_sweep {recs : List SweepRec} (hstarts : Starts s p w q 0x12 k)
    (hready : ((begun s p w q).partn p).step = .sealed ∨ ((begun s p w q).partn p).step = .exchanged)
    (howner : ((begun s p w q).partn p).stepOwner = w) (hnumber : k.step = ((begun s p w q).partn p).stepNo.toNat)
    (hintact : ((begun s p w q).partn p).stateIntact = true) (hvalid : (begun s p w q).checkSweeps p raws 0 = .ok recs)
    (hagreed : recs.any SweepRec.factored = true → (begun s p w q).agreed p 3 = true) :
    let x := (begun s p w q).partn p
    let run : SweepRun := { s := w, q := q, step := x.stepNo, recs := recs }
    exec (.sweep p w q) s = .next (run.units.foldl (fun s k =>
        let s := s.setCursor k { step := x.stepNo, slot := (s.cursor k).slot }
        (s.setStore k { s.sweepStore k with interrupted := false }).passRecords p k (run.unit k))
      (((recs.foldl (fun s r => (s.readScale p (BitVec.ofNat 32 r.gTensor)).1) (begun s p w q)).onCmd p w q fun k =>
        { k with phase := .completing }).onPartn p fun x => { x with step := .sweeping, sweep := some run, lastSweep := recs })) := by
  have hsweeps : ((begun s p w q).partn p).step ≠ .sealed → ((begun s p w q).partn p).step = .exchanged := hready.resolve_left
  have hfeature := State.feature_not_refused hagreed
  change Host.Outcome.next (s.startStep p w q opSweep _) = _
  rw [State.startStep_of_starts (op := opSweep) hstarts _ (Partition.commandedBy_of_owner howner)]
  dsimp only
  rw [if_neg (by simpa [hnumber, hintact] using hsweeps), hread]
  simp only [hvalid, hfeature, Bool.false_eq_true, if_false]

end Lists

/-- R226. Once every unit has finished, with no commit outstanding and no replica recovery, the step is SWEPT and SWEEP completes. -/
theorem exec_sweepEnd {s : State} {p : Nat} {run : SweepRun} (hsweep : (s.partn p).sweep = some run)
    (hstep : (s.partn p).step = .sweeping) (hdone : s.sweepDone p run = true) (hworking : s.working = true)
    (hkept : s.sup.recovering.contains p = false) :
    exec (.sweepEnd p) s = .next ((((s.takeDigests p run).onPartn p fun x => { x with step := .swept }).complete p run.s run.q
      run.outcome).settleOwed p) := by
  change execSweepEnd p s = _
  simp only [execSweepEnd, hsweep, hstep, hdone, hworking, hkept, ne_eq, not_true_eq_false, decide_false, Bool.not_true, Bool.or_self,
    Bool.false_eq_true, if_false]

end Sys2Proof.Machine

open Sys2Proof Sys2Proof.Machine Sys2Proof.Claims in
/-- Settles O25: the outcome of EXCHANGE and of SWEEP of a list that reads, and the end of a sweep. -/
theorem exchangeAndSweepMoveTheStep : Obligations.ExchangeAndSweepMoveTheStep := by
  unfold Obligations.ExchangeAndSweepMoveTheStep
  refine ⟨fun p w q s k raws => ?lists, fun p s run => exec_sweepEnd⟩
  case lists =>
    intro b x n hread
    exact ⟨fun rs inside => exec_exchange hread, fun recs => exec_sweep hread⟩
end

section
/-! PROOFS. The units of a sweep (R222, R224, R225) and the compare of the mirrors' digests after a step (R234). -/

namespace Sys2Proof.Machine

/-! ## A unit at a block -/

section Units

variable {s : State} {p n : Nat} {run : SweepRun} {r : SweepRec}

/-- R222. A unit of a sweep that nothing interrupts, whose cursor stands at a record. -/
structure UnitAt (s : State) (p n : Nat) (run : SweepRun) (r : SweepRec) : Prop where
  sweep : (s.partn p).sweep = some run
  step : (s.partn p).step = .sweeping
  working : s.working = true
  notRecovering : s.sup.recovering.contains p = false
  notInterrupted : (s.sweepStore n).interrupted = false
  record : (s.unitRest run n).head? = some r

theorem exec_sweepBlock (hunit : UnitAt s p n run r) : exec (.sweepBlock p n) s = .next (s.sweepStep p n run r) := by
  obtain ⟨hsweep, hstep, hworking, hrecovering, hinterrupted, hrecord⟩ := hunit
  change execSweepBlock p n s = _
  simp only [execSweepBlock, hsweep, hstep, hworking, hrecovering, hinterrupted, hrecord, ne_eq, not_true_eq_false, decide_false,
    Bool.not_true, Bool.or_self, Bool.false_eq_true, if_false]

/-- R225. A unit at a record that a mirror repair holds waits. -/
theorem State.sweepStep_waits (hrepair : (s.partn p).underRepair r = true) :
    s.sweepStep p n run r = s.onPartn p fun x => { x with repairWait := some (x.repairWait.getD s.now) } := by
  simp only [sweepStep, hrepair, if_true]

section Unrepaired

variable (hrepair : (s.partn p).underRepair r = false)
include hrepair

/-- R221, R222. A unit asks for the objects of a block none of which is poisoned unheld, and works on it once it holds them all. -/
theorem State.sweepStep_acquires
    (hsound : ((r.needs ((s.endRepairWait p).cursor n).block).find? fun o =>
      ((s.endRepairWait p).obj p o).poison && !((s.endRepairWait p).obj p o).heldBy n) = none)
    (hgranted : ((s.endRepairWait p).acquireAll p n r (r.needs ((s.endRepairWait p).cursor n).block)).2 = false) :
    let needs := r.needs ((s.endRepairWait p).cursor n).block
    let u := ((s.endRepairWait p).acquireAll p n r needs).1
    s.sweepStep p n run r = if needs.all fun o => (u.obj p o).heldBy n then u.sweepWork p n run r else u := by
  have hasked := Prod.snd_eq_iff.1 hgranted
  simp only [sweepStep, hrepair, Bool.false_eq_true, if_false, hsound]
  rw [hasked]

/-- R221. A unit skips a block that needs a poisoned object. -/
theorem State.sweepStep_skips {o : Nat}
    (hpoisoned : ((r.needs ((s.endRepairWait p).cursor n).block).find? fun o =>
      ((s.endRepairWait p).obj p o).poison && !((s.endRepairWait p).obj p o).heldBy n) = some o)
    (hdense : r.factored = false) : s.sweepStep p n run r = (s.endRepairWait p).skipPoisoned p n run r o := by
  simp only [sweepStep, hrepair, Bool.false_eq_true, if_false, hpoisoned, hdense]

end Unrepaired

/-! ## A unit that was interrupted -/

section Resume

variable (hsweep : (s.partn p).sweep = some run) (hstep : (s.partn p).step = .sweeping) (hworking : s.working = true)
  (hunit : run.units.contains n = true)
include hsweep hstep hworking hunit

/-- R224. A unit that reads its cursor and its shadow goes on from there. -/
theorem exec_sweepResume (hreads : s.unitBlind n = false) : exec (.sweepResume p n) s = .next (s.resumeUnit p n run) := by
  change execSweepResume p n s = _
  simp only [execSweepResume, hsweep, hstep, hworking, hunit, hreads, ne_eq, not_true_eq_false, decide_false, Bool.not_true,
    Bool.or_self, Bool.false_eq_true, if_false]

/-- R224. A unit that cannot read its cursor or its shadow treats its stack as lost. -/
theorem exec_sweepResume_blind (hblind : s.unitBlind n = true) : exec (.sweepResume p n) s = .next (s.stackGone n) := by
  change execSweepResume p n s = _
  simp only [execSweepResume, hsweep, hstep, hworking, hunit, hblind, ne_eq, not_true_eq_false, decide_false, Bool.not_true,
    Bool.or_self, Bool.false_eq_true, if_false, if_true]

end Resume

end Units

/-! ## The mirrors' digests -/

section Digests

variable {s : State} {p i : Nat} {mirrors : List MirrorCopy} {r : SweepRec}

/-- R234. The positions of the mirrors whose digest is not d. -/
def differing (mirrors : List MirrorCopy) (d : Option U64) : List Nat :=
  (mirrors.filter fun m => d ≠ some m.digest).map fun m => m.pos

/-- R234. A digest is read again only where some mirror's differs from the recorded one. -/
theorem State.digestOdd_eq (s : State) (p : Nat) (r : SweepRec) (mirrors : List MirrorCopy) :
    s.digestOdd p r mirrors = if differing mirrors ((s.partn p).digests.find r.idx) = [] then []
      else differing mirrors (s.recDigest p r) :=
  if_congr List.isEmpty_iff rfl rfl

/-- R234. The record still awaits its mirrors' digests, and no step is past its commit point. -/
structure AwaitsDigest (s : State) (p i : Nat) (r : SweepRec) : Prop where
  record : (s.partn p).digestRecs.find? (fun e => e.idx = i) = some r
  awaiting : (s.partn p).awaitingDigest.contains i = true
  notSweeping : (s.partn p).step ≠ .sweeping
  notSwept : (s.partn p).step ≠ .swept

theorem AwaitsDigest.idx_eq (h : AwaitsDigest s p i r) : r.idx = i :=
  of_decide_eq_true (List.find?_some (p := fun e : SweepRec => decide (e.idx = i)) h.record)

/-- R234. Record i no longer awaits the digests of its mirrors. -/
def State.stopAwaiting (s : State) (p i : Nat) : State :=
  s.onPartn p fun x => { x with awaitingDigest := x.awaitingDigest.filter (· ≠ i) }

/-- R234. The compare of a record's digests has been made and is counted. -/
def State.compared (s : State) (p i : Nat) : State := (s.stopAwaiting p i).bumpP p 0x8070 6 1

/-- R234. A mismatch of a record with these mirrors is told and counted, and its repair begins. -/
def State.mismatched (s : State) (p i : Nat) (version : U64) (r : SweepRec) (odd : List Nat) : State :=
  ((s.raiseP 0x4220 p [version.toNat, r.wTensor, r.firstBlk, positionMask odd]).bumpP p 0x8070 7 1).onPartn p fun x =>
    { x with repairs := x.repairs ++ [i] }

/-- R234. The repair runs at once where the mirrors' frames have come. -/
def State.repairIfCame (s : State) (p : Nat) (r : SweepRec) (mirrors : List MirrorCopy) : State :=
  if framesCame r mirrors then s.repairRecord p r mirrors else s

section Compare

variable (hawaits : AwaitsDigest s p i r) (hworking : s.working = true) (hunrepaired : (s.partn p).repairs.contains i = false)
include hawaits hworking hunrepaired

/-- R234. The digests that arrive are compared; a mismatch is told and repaired. -/
theorem exec_digestExchange : exec (.digestExchange p i mirrors) s = .next (
    if (s.compared p i).digestOdd p r mirrors = [] then s.compared p i
    else ((s.compared p i).mismatched p i (s.partn p).version r ((s.compared p i).digestOdd p r mirrors)).repairIfCame p r mirrors) := by
  obtain ⟨hrecord, hawaiting, hsweeping, hswept⟩ := hawaits
  change execDigestExchange p i mirrors s = _
  simp only [execDigestExchange, hrecord, hawaiting, hsweeping, hswept, hworking, hunrepaired, decide_false, Bool.not_true, Bool.or_self,
    Bool.false_eq_true, if_false, List.isEmpty_iff]
  exact (apply_ite Host.Outcome.next ..).symm

/-- R234. Where the mirrors agree with the recorded digest, or with one read again, the compare is all. -/
theorem exec_digestExchange_agree (hagree : differing mirrors (((s.compared p i).partn p).digests.find i) = [] ∨
      differing mirrors ((s.compared p i).recDigest p r) = []) :
    exec (.digestExchange p i mirrors) s = .next (s.compared p i) := by
  have hodd : (s.compared p i).digestOdd p r mirrors = [] := by
    rw [State.digestOdd_eq, hawaits.idx_eq, ite_eq_left_iff]
    exact hagree.resolve_left
  rw [exec_digestExchange hawaits hworking hunrepaired, if_pos hodd]

/-- R234. Where some differ from both, the mismatch is told, counted and repaired. -/
theorem exec_digestExchange_differ (hrecorded : differing mirrors (((s.compared p i).partn p).digests.find i) ≠ [])
    (hagain : differing mirrors ((s.compared p i).recDigest p r) ≠ []) :
    exec (.digestExchange p i mirrors) s = .next (((s.compared p i).mismatched p i (s.partn p).version r
      (differing mirrors ((s.compared p i).recDigest p r))).repairIfCame p r mirrors) := by
  have hodd : (s.compared p i).digestOdd p r mirrors = differing mirrors ((s.compared p i).recDigest p r) := by
    rw [State.digestOdd_eq, hawaits.idx_eq, if_neg hrecorded]
  rw [exec_digestExchange hawaits hworking hunrepaired, hodd, if_neg hagain]

end Compare

/-- R234. A digest that does not come is told, with the other members of the mirror set; nothing is repaired. -/
theorem exec_digestTimeout (hawaits : AwaitsDigest s p i r) :
    let set := (s.partn p).mirrorSet r
    exec (.digestTimeout p i) s = .next ((s.stopAwaiting p i).raiseP 0x4223 p [(s.partn p).version.toNat, r.wTensor, r.firstBlk,
      positionMask ((List.range set.length).filter fun j => set.getD j 0 ≠ s.moduleNumber)]) := by
  obtain ⟨hrecord, hawaiting, hsweeping, hswept⟩ := hawaits
  change execDigestTimeout p i s = _
  simp only [execDigestTimeout, hrecord, hawaiting, hsweeping, hswept, decide_false, Bool.not_true, Bool.or_self, Bool.false_eq_true,
    if_false]
  rfl

end Digests

end Sys2Proof.Machine

open Sys2Proof Sys2Proof.Machine Sys2Proof.Claims in
/-- Settles O26: a unit at a block, a unit that was interrupted, and the outcomes of the compare of a record's digests. -/
theorem sweepUnitsAndMirrors : Obligations.SweepUnitsAndMirrors := by
  unfold Obligations.SweepUnitsAndMirrors
  refine ⟨fun p n s run hsweep hstep hworking => ⟨?block, ?resume⟩, ?mirrors⟩
  case block =>
    intro r rest hrecovering hinterrupted hrest s0 needs poisoned
    have hunit : UnitAt s p n run r := ⟨hsweep, hstep, hworking, hrecovering, hinterrupted, by rw [hrest]; rfl⟩
    rw [exec_sweepBlock hunit]
    refine ⟨fun hrepair => ?_, fun hrepair hsound hgranted => ?_, fun o hrepair hpoisoned hdense => ?_⟩
    · rw [State.sweepStep_waits hrepair]
    · exact congrArg Host.Outcome.next (State.sweepStep_acquires hrepair hsound hgranted)
    · rw [State.sweepStep_skips hrepair hpoisoned hdense]
  case resume =>
    intro hunit st r u
    exact ⟨exec_sweepResume hsweep hstep hworking hunit, exec_sweepResume_blind hsweep hstep hworking hunit⟩
  case mirrors =>
    intro p i mirrors s r x u set hrecord hawaiting hsweeping hswept
    have hawaits : AwaitsDigest s p i r := ⟨hrecord, hawaiting, hsweeping, hswept⟩
    refine ⟨fun hworking hunrepaired => ⟨?_, ?_⟩, exec_digestTimeout hawaits⟩
    · exact exec_digestExchange_agree hawaits hworking hunrepaired
    · exact exec_digestExchange_differ hawaits hworking hunrepaired
end

section
/-! PROOFS. Exchange records run (R239, R256 to R260, R262): how one starts, completes and ends, how a blocking member is detached, and
how the gains of a stage queue reach its other end. -/

namespace Sys2Proof.Machine

section Records

variable {s : State} {p x : Nat} {r : XRun} (hrecord : (s.partn p).xruns[x]? = some r)

/-- R256. A record of the same list or schedule that comes before r. -/
def XRun.before (e r : XRun) : Bool := decide (e.s = r.s) && decide (e.q = r.q) && decide (e.idx < r.idx)

/-! ## Starting -/

section Start

variable (hworking : s.working = true) (hengines : s.enginesOn = true) (hunstarted : r.started = false)
include hrecord hworking hengines hunstarted

/-- R239, R256. A triggered record of a schedule starts once the triggered ones before it have started or ended. -/
theorem exec_exchangeRecordTrigger (hunended : r.ended = false) (hscheduled : r.scheduled = true) (htriggered : r.triggered = true)
    (hbefore : ∀ e ∈ (s.partn p).xruns, e.before r = true → e.triggered = true → e.started = true ∨ e.ended = true) :
    exec (.exchangeRecordTrigger p x) s = .next ((s.startX p x).notePeers p) := by
  have hnone : ((s.partn p).xruns.any fun e => e.before r && e.triggered && !e.started && !e.ended) = false := by
    refine List.any_eq_false.2 fun e he hwaits => ?_
    simp only [Bool.and_eq_true, Bool.not_eq_true'] at hwaits
    obtain ⟨⟨⟨hb, ht⟩, hs⟩, hend⟩ := hwaits
    exact (hbefore e he hb ht).elim (ne_true_of_eq_false hs) (ne_true_of_eq_false hend)
  change execExchangeRecordTrigger p x s = _
  simp only [execExchangeRecordTrigger, hrecord, hscheduled, htriggered, hunstarted, hunended, hworking, hengines, Bool.not_true,
    Bool.or_self, Bool.false_or]
  exact if_neg (ne_true_of_eq_false hnone)

/-- R256. A record of a list starts once every frame of the records before it has been sent. -/
theorem exec_exchangeRecordStart (hlisted : r.scheduled = false)
    (hbefore : ∀ e ∈ (s.partn p).xruns, e.before r = true → s.allSent p e = true) :
    exec (.exchangeRecordStart p x) s = .next ((s.startX p x).notePeers p) := by
  have hnone : ((s.partn p).xruns.any fun e => e.before r && !s.allSent p e) = false := by
    refine List.any_eq_false.2 fun e he hwaits => ?_
    obtain ⟨hb, hunsent⟩ := Bool.and_eq_true_iff.1 hwaits
    rw [hbefore e he hb] at hunsent
    cases hunsent
  change execExchangeRecordStart p x s = _
  simp only [execExchangeRecordStart, hrecord, hlisted, hunstarted, hworking, hengines, Bool.not_true, Bool.or_self, Bool.false_or]
  exact if_neg (ne_true_of_eq_false hnone)

end Start

/-! ## Completion -/

/-- R230, R231. The fingerprints of a gather of a step are checked before it completes, those of no other record. -/
def State.gatherCheck (s : State) (p : Nat) (r : XRun) : State × Option Nat :=
  if r.kind = 1 ∧ r.inStep = true then s.checkPrints p r (s.ranks p r) 0 (s.ranks p r) else (s, none)

theorem State.gatherCheck_eq (s : State) (p : Nat) (r : XRun) :
    (if r.kind = xkAllGather && r.inStep then s.checkPrints p r (s.ranks p r) 0 (s.ranks p r) else (s, none)) = s.gatherCheck p r :=
  if_congr (by rw [Bool.and_eq_true, decide_eq_true_eq]; rfl) rfl rfl

/-- R231, R257. What the check of its fingerprints makes of a record: it is complete, or ends with VERSION and event 0x4210 for the first
shard that differs. -/
def State.checkedX (s : State) (p x : Nat) (r : XRun) : Option Nat → State
  | none => (s.onX p x fun r => { r with complete := true }).settleX p r.s r.q
  | some i => ((s.bumpP p 0x8070 5 1).raiseP 0x4210 p [r.srcTensor, i, r.version.toNat]).endX p x cauVersion 0
      (fld r.srcTensor 96 + fld i 64)

include hrecord in
/-- R257. A record whose frames are acknowledged and whose tiles are written is checked. -/
theorem exec_exchangeRecordComplete (hunended : r.ended = false) (hworking : s.working = true) (hincomplete : r.complete = false)
    (hcomplete : s.xComplete p r = true) :
    exec (.exchangeRecordComplete p x) s =
      .next (((s.gatherCheck p r).1.checkedX p x r (s.gatherCheck p r).2).notePeers p) := by
  change execExchangeRecordComplete p x s = _
  simp only [execExchangeRecordComplete, hrecord, hincomplete, hunended, hworking, hcomplete, Bool.not_true, Bool.or_self,
    Bool.false_eq_true, if_false, State.gatherCheck_eq]
  obtain ⟨u, differing⟩ := s.gatherCheck p r
  cases differing with
  | none | some i => rfl

/-! ## Slow members -/

section Slow

variable {m : Nat}
include hrecord

/-- R259. A needed member that stays silent ends the record with PEER_TIMEOUT and event 0x5102. -/
theorem exec_exchangePeerTimeout (hstarted : r.started = true) (hincomplete : r.complete = false) (hunended : r.ended = false)
    (hneeds : s.xNeeds p r m = true) :
    exec (.exchangePeerTimeout p x m) s = .next ((s.endPeer p x cauPeerTimeout m (some 0x5102)).notePeers p) := by
  change execExchangePeerTimeout p x m s = _
  simp only [execExchangePeerTimeout, hrecord, hstarted, hincomplete, hunended, hneeds, Bool.not_true, Bool.or_self, Bool.false_eq_true,
    if_false]

/-- R260. The record's tree leaves out a member: the frames held for it alone are dropped, and it is counted and told. -/
def State.detachMember (s : State) (p x : Nat) (r : XRun) (m : Nat) : State :=
  (((s.dropHeld r.xid m).onX p x fun r => { r with detached := r.detached ++ [m] }).bumpP p 0x80A0 6 1).raiseP 0x5101 p
    [r.xid, r.version.toNat, r.group, m]

/-- R260. Member m, which is this module, asks the other sources for the tiles of a record that it has not written. -/
def State.fetchMissing (s : State) (p : Nat) (r : XRun) (m : Nat) : State :=
  ((s.xWanted p r).filter fun i => !r.written.contains i && decide (s.sourceOf p r i ≠ m)).foldl
    (fun s i => s.fetchX p r (s.sourceOf p r i) i) s

/-- R260. A blocking member is detached; if it is this module, it fetches its missing tiles. -/
theorem exec_multicastDetach (hp : p < 4) (hworking : s.working = true) (hgathers : r.kind ≠ xkReduceScatter) (hlive : r.live = true)
    (hattached : r.detached.contains m = false) (hmember : (s.groupMembers p r.group).contains m = true)
    (hblocks : m = s.moduleNumber ∨ s.blocksTree r m = true) :
    exec (.multicastDetach p x m) s = .next (if m = (s.detachMember p x r m).moduleNumber then (s.detachMember p x r m).fetchMissing p r m
      else s.detachMember p x r m) := by
  have hdetaches : (decide (m = s.moduleNumber) || s.blocksTree r m) = true := by simpa using hblocks
  change execMulticastDetach p x m s = _
  simp only [execMulticastDetach, if_neg (Nat.not_le.2 hp), hrecord, hgathers, hlive, hattached, hmember, hworking, hdetaches,
    decide_false, Bool.not_true, Bool.or_self, Bool.false_eq_true, if_false]
  exact (apply_ite Host.Outcome.next ..).symm

end Slow

end Records

/-! ## Stage queues -/

section Stage

variable {s : State} {p i : Nat} {q : StageQueue} (hqueue : (s.partn p).stageQueues[i]? = some q) (told : Option U32)
include hqueue

/-- R262. The gain of SENT goes to FULL where the end that receives is here. -/
theorem exec_stageQueueMarkForward_sent {sent : U32}
    (hsent : (if q.decl.producer then s.mark p q.decl.sent else told.getD q.sentForwarded) = sent) (hgains : sent ≠ q.sentForwarded) :
    let u := s.onPartn p fun x => { x with stageQueues := x.stageQueues.modify i fun e => { e with sentForwarded := sent } }
    exec (.stageQueueMarkForward p i ⟨false, told⟩) s =
      .next (if q.decl.consumer then u.forwardGain p q.decl.full q.sentForwarded sent else u) := by
  change execStageQueueMarkForward p i ⟨false, told⟩ s = _
  simp only [execStageQueueMarkForward, hqueue, Bool.false_eq_true, if_false, hsent, hgains]

/-- R262. The gain of DONE goes to FREE where the end that receives is here. -/
theorem exec_stageQueueMarkForward_done {done : U32}
    (hdone : (if q.decl.consumer then s.mark p q.decl.done else told.getD q.doneForwarded) = done) (hgains : done ≠ q.doneForwarded) :
    let v := s.onPartn p fun x => { x with stageQueues := x.stageQueues.modify i fun e => { e with doneForwarded := done } }
    exec (.stageQueueMarkForward p i ⟨true, told⟩) s =
      .next (if q.decl.producer then v.forwardGain p q.decl.free q.doneForwarded done else v) := by
  change execStageQueueMarkForward p i ⟨true, told⟩ s = _
  simp only [execStageQueueMarkForward, hqueue, if_true, hdone, hgains, if_false]

end Stage

end Sys2Proof.Machine

open Sys2Proof Sys2Proof.Machine Sys2Proof.Claims in
/-- Settles O27: the start of a record by its trigger and in its list, its completion and its two ends, a detachment, and the gains of
both marks of a stage queue. -/
theorem exchangeRecordsRun : Obligations.ExchangeRecordsRun := by
  unfold Obligations.ExchangeRecordsRun
  refine ⟨fun p x s r hrecord hunended => ⟨?start, ?complete, ?timeout, ?detach⟩, ?forward⟩
  case start =>
    exact fun hworking hengines hunstarted => ⟨exec_exchangeRecordTrigger hrecord hworking hengines hunstarted hunended,
      exec_exchangeRecordStart hrecord hworking hengines hunstarted⟩
  case complete =>
    intro hworking hincomplete hcomplete n check
    have hchecked : exec (.exchangeRecordComplete p x) s = .next ((check.1.checkedX p x r check.2).notePeers p) :=
      exec_exchangeRecordComplete hrecord hunended hworking hincomplete hcomplete
    refine ⟨fun hagree => ?_, fun i hdiffers => ?_⟩
    · rw [hchecked, hagree]
      rfl
    · rw [hchecked, hdiffers]
      rfl
  case timeout => exact fun m hstarted hincomplete => exec_exchangePeerTimeout hrecord hstarted hincomplete hunended
  case detach =>
    exact fun m hp hworking hgathers hlive hattached hmember hblocks =>
      exec_multicastDetach hrecord hp hworking hgathers hlive hattached hmember hblocks
  case forward =>
    intro p i told s q hqueue
    exact ⟨exec_stageQueueMarkForward_sent hqueue told rfl, exec_stageQueueMarkForward_done hqueue told rfl⟩
end

section
/-! PROOFS. Exchange frames arrive, and remote accesses stay without an answer (R252 to R254, R256, R258, R259, R276, R277). -/

namespace Sys2Proof.Machine

/-! ## A packet at its landing -/

section Arrivals

variable {s u : State} {die : Nat} {k : Packet}

/-- R277. In a working module a packet is taken out of a landing, which leaves u. -/
structure Taken (s u : State) (die : Nat) (k : Packet) : Prop where
  working : s.working = true
  arrived : s.takeArrived die k = some u

variable (htaken : Taken s u die k)
include htaken

/-- R277. A packet of its type whose PSN is new is taken as it is. -/
theorem State.receive_fresh (hfresh : u.psnIs k = .fresh) : s.receive die k k.ptype = some (u, .fresh) := by
  obtain ⟨hworking, harrived⟩ := htaken
  simp only [receive, hworking, harrived, hfresh, ne_eq, not_true_eq_false, decide_false, Bool.not_true, Bool.or_self,
    Bool.false_eq_true, if_false, if_true]

/-- R277. A packet whose PSN is not new is counted. -/
theorem State.receive_again (hagain : u.psnIs k ≠ .fresh) : s.receive die k k.ptype = some (u.bump 0x8080 1 1, u.psnIs k) := by
  obtain ⟨hworking, harrived⟩ := htaken
  simp only [receive, hworking, harrived, hagain, ne_eq, not_true_eq_false, decide_false, Bool.not_true, Bool.or_self,
    Bool.false_eq_true, if_false]

/-! ### Packets that are not new -/

/-- R277. An exchange frame, a tile or a cancel that is not new is dropped and counted, whatever its record. -/
theorem exec_exchangePacket_again (hagain : u.psnIs k ≠ .fresh) :
    (k.ptype = ptXframe → exec (.xframe die k) s = .next (u.bump 0x8080 1 1)) ∧
    (k.ptype = ptMcast → exec (.mcast die k) s = .next (u.bump 0x8080 1 1)) ∧
    (k.ptype = ptCancel → exec (.fabricCancel die k) s = .next (u.bump 0x8080 1 1)) := by
  have hreceived := State.receive_again htaken hagain
  cases hpsn : u.psnIs k with
  | fresh => exact absurd hpsn hagain
  | duplicate | old =>
    rw [hpsn] at hreceived
    refine ⟨fun htype => ?_, fun htype => ?_, fun htype => ?_⟩
    · change execXframe die k s = _
      rw [execXframe, ← htype, hreceived]
    · change execMcast die k s = _
      rw [execMcast, ← htype, hreceived]
    · change execFabricCancel die k s = _
      rw [execFabricCancel, ← htype, hreceived]

/-! ### New packets of a record -/

section Fresh

variable (hfresh : u.psnIs k = .fresh)
include hfresh

/-- R252, R256. A new exchange frame of a record that has started is checked and taken. -/
theorem exec_xframe {x : Nat} {r : XRun} (htype : k.ptype = ptXframe) (hrecord : s.recordOf k k.dstPart = some (x, r)) :
    exec (.xframe die k) s = .next ((u.takeXframe k.dstPart x r k).notePeers k.dstPart) := by
  have hreceived := State.receive_fresh htaken hfresh
  rw [htype] at hreceived
  change execXframe die k s = _
  rw [execXframe, hreceived, hrecord]

/-- R254, R256. A new tile of a record that has started is checked and written. -/
theorem exec_mcast {x : Nat} {r : XRun} (htype : k.ptype = ptMcast) (hrecord : s.recordOf k (s.endPart k) = some (x, r)) :
    exec (.mcast die k) s = .next ((u.takeMcast (s.endPart k) x r k).notePeers (s.endPart k)) := by
  have hreceived := State.receive_fresh htaken hfresh
  rw [htype] at hreceived
  change execMcast die k s = _
  simp only [execMcast, hreceived, hrecord]

/-- R259. A new cancel ends the record that it names. -/
theorem exec_fabricCancel (htype : k.ptype = ptCancel) :
    exec (.fabricCancel die k) s = .next (((u.enterPsn k).cancelled k.dstPart k.aux k.srcMod).notePeers k.dstPart) := by
  have hreceived := State.receive_fresh htaken hfresh
  rw [htype] at hreceived
  change execFabricCancel die k s = _
  rw [execFabricCancel, hreceived]

end Fresh

end Arrivals

/-! ## What a record takes -/

section Takes

variable {s : State} {p x : Nat} {r : XRun} {k : Packet}

/-- R252, R253. The contributions of a good frame of a group member are held, where the record lacks them, and it is acknowledged. -/
theorem State.takeXframe_good {parts : List Contribution} (hreduces : r.reduces = true)
    (hmember : (s.groupMembers p r.group).contains k.srcMod = true)
    (hgood : r.judge (s.expectedOrigin p r false k.addr) (s.ranks p r) (s.myRank p r) (s.rankOf p r k.srcMod) k.addr k.body =
      .good parts) :
    s.takeXframe p x r k =
      ((s.onX p x fun r => { r with parts := r.parts ++ parts.filter r.lacks }).enterPsn k).answer k ptAck 0 [] := by
  simp only [takeXframe, hreduces, hmember, hgood, Bool.not_true, Bool.or_self, Bool.false_eq_true, if_false]

/-- R254. What a gathered tile of a record shows where it is the one that the record wants from its source. -/
structure GoodTile (s : State) (p : Nat) (r : XRun) (k : Packet) : Prop where
  gathers : r.kind ≠ xkReduceScatter
  group : k.tree = true → k.mgroup = r.group
  member : (s.groupMembers p r.group).contains k.srcMod = true
  wanted : (s.xWanted p r).contains k.addr = true
  source : s.sourceOf p r k.addr = k.srcMod
  check : frameCheckOk k.body = true
  tensor : (frameHeader k.body).tensor = if r.kind = xkAllReduce then r.dstTensor else r.srcTensor
  origin : ∀ o, s.expectedOrigin p r true k.addr = some o → (frameHeader k.body).origin = o

/-- R254. The packet as the acknowledgement of a tile answers it: it ended in partition p. -/
def endedIn (k : Packet) (p : Nat) : Packet :=
  { k with route := BitVec.ofNat 256 (k.n - fld k.dstPart 242 + fld (p % 4) 242) }

/-- R254, R258. A tile is written unless it has been, and acknowledged either way. -/
theorem State.takeMcast_good (hgood : GoodTile s p r k) :
    s.takeMcast p x r k = (if r.written.contains k.addr then s.enterPsn k
      else (s.enterPsn k).putTile p x k.addr (s.rankOf p r k.srcMod) k.body).answer (endedIn k p) ptAck 0 [] := by
  obtain ⟨hgathers, hgroup, hmember, hwanted, hsource, hcheck, htensor, horigin⟩ := hgood
  have htree : (k.tree && decide (k.mgroup ≠ r.group)) = false := by simpa using hgroup
  have hexpected : ((s.expectedOrigin p r true k.addr).any fun o => decide (o ≠ (frameHeader k.body).origin)) = false := by
    cases hexpected : s.expectedOrigin p r true k.addr with
    | none => rfl
    | some o => rw [horigin o hexpected]; simp
  simp only [takeMcast, hgathers, htree, hmember, hwanted, hsource, hcheck, htensor, hexpected, ne_eq, not_true_eq_false,
    decide_false, Bool.not_true, Bool.or_self, Bool.false_eq_true, if_false]
  exact (apply_ite (fun v : State => v.answer (endedIn k p) ptAck 0 []) ..).symm

/-- R259. A cancel ends the record of its XID, if it is incomplete, with PEER_CANCELLED and event 0x5103. -/
theorem State.cancelled_incomplete {xid peer : Nat} (hplace : (s.partn p).xidAt xid = some x)
    (hrecord : (s.partn p).xruns[x]? = some r) (hincomplete : r.complete = false) :
    s.cancelled p xid peer = s.endPeer p x cauPeerCancelled peer (some 0x5103) := by
  simp only [cancelled, hplace, hrecord, hincomplete, Bool.false_eq_true, if_false]

end Takes

/-! ## Remote accesses without an answer -/

section Timeouts

variable {s : State} {r : Remote}

/-- Counting leaves the routes as they are. -/
theorem State.outPort_bump (s : State) (index sub n dst : Nat) : (s.bump index sub n).outPort dst = s.outPort dst := rfl

/-- An access of a tile in flight ends as its descriptor does. -/
theorem State.remoteEnds_tile {d : Desc} (act : Desc → State → State) (hload : r.load = none) (hmember : r.member = none)
    (hdesc : (s.dropRemote r).descOf r = some d) : s.remoteEnds r act = act d ((s.dropRemote r).changeDesc r.mover d d) := by
  simp only [remoteEnds, hload, hdesc, Desc.unfetch, hmember]

variable {p vl psn : Nat} (hremote : s.fabric.remotes.find? (fun r => r.p = p && r.vl = vl && r.psn = psn) = some r)
include hremote

/-- R276. The first time the request is sent once more. -/
theorem exec_packetTimeout_first (hfirst : r.attempts < 2) :
    exec (.packetTimeout p ⟨vl, psn⟩) s =
      .next (((s.bump 0x8080 6 1).setRemote r { r with attempts := 2, since := s.now }).send r.packet) := by
  change execPacketTimeout p ⟨vl, psn⟩ s = _
  simp only [execPacketTimeout, hremote, hfirst, if_true, State.sendAgain, State.bump_now]

/-- R276, R286. The second time the access ends: event 0x5206 is raised with the port, and what has not left does not leave any more. -/
theorem exec_packetTimeout_second (hsecond : 2 ≤ r.attempts) :
    let port := ((s.outPort r.packet.dstMod).map Prod.fst).getD 255
    exec (.packetTimeout p ⟨vl, psn⟩) s =
      .next ((((s.bump 0x8080 6 1).recall r).raise 0x5206 p port [port, r.packet.dstMod]).remoteEnds r fun d s =>
        s.stopDesc r.mover d r.tile (.fail spPeer)) := by
  change execPacketTimeout p ⟨vl, psn⟩ s = _
  simp only [execPacketTimeout, hremote, if_neg (Nat.not_lt.2 hsecond), State.outPort_bump]

end Timeouts

end Sys2Proof.Machine

open Sys2Proof Sys2Proof.Machine Sys2Proof.Claims in
/-- Settles O36: a frame, a tile and a cancel that are new, the three that are not, and the two timeouts of a remote access. -/
theorem exchangeFramesArrive : Obligations.ExchangeFramesArrive := by
  unfold Obligations.ExchangeFramesArrive
  refine ⟨?frame, ?tile, ?cancel, ?again, fun p vl psn s r hremote => exec_packetTimeout_first hremote, ?second⟩
  case frame =>
    intro die k s u x r parts p hworking harrived hfresh htype hrecord hreduces hmember hgood
    rw [exec_xframe ⟨hworking, harrived⟩ hfresh htype hrecord, State.takeXframe_good hreduces hmember hgood]
    rfl
  case tile =>
    intro die k s u x r p hworking harrived hfresh htype hrecord hgathers hgroup hmember hwanted hsource hcheck htensor horigin v
    rw [exec_mcast ⟨hworking, harrived⟩ hfresh htype hrecord,
      State.takeMcast_good ⟨hgathers, hgroup, hmember, hwanted, hsource, hcheck, htensor, horigin⟩]
    rfl
  case cancel =>
    intro die k s u x r v hworking harrived hfresh htype hplace hrecord hincomplete
    rw [exec_fabricCancel ⟨hworking, harrived⟩ hfresh htype, State.cancelled_incomplete hplace hrecord hincomplete]
    rfl
  case again =>
    intro die k s u hworking harrived hagain
    exact exec_exchangePacket_again ⟨hworking, harrived⟩ hagain
  case second =>
    intro p vl psn s r d hremote port v hsecond hload hmember hdesc
    rw [exec_packetTimeout_second hremote hsecond, State.remoteEnds_tile _ hload hmember hdesc]
end

section
/-! PROOFS. Links (R267, R268, R282, R285, R287, R455, R463): how a port trains, fails, is enabled and disabled, and its link tests. -/

namespace Sys2Proof.Machine

variable {s : State} {port : Nat}

/-! ## Failures and cables -/

/-- R285. A lane that the port uses fails: the port goes down into training. -/
theorem exec_laneSignalLoss {lane : Nat} (hlane : (s.port port).lanes.getLsbD lane = true) :
    exec (.laneSignalLoss port lane) s = .next (s.portDown port .training) := by
  change execLaneSignalLoss port lane s = _
  rw [execLaneSignalLoss, if_pos hlane]

/-- R463. Cable power follows presence. -/
theorem exec_cablePresenceChange (hport : port < s.part.ports) (present : Bool) :
    exec (.cablePresenceChange port present) s =
      .next (s.setPort port { s.port port with cable := present, shorted := present && (s.port port).shorted }) := by
  change execCablePresenceChange port present s = _
  rw [execCablePresenceChange, if_neg (Nat.not_le.2 hport)]

/-- R463. A short on a cable's contact takes the port DOWN. -/
theorem exec_cablePowerShort (hport : port < s.part.ports) (hcable : (s.port port).cable = true) :
    exec (.cablePowerShort port) s =
      .next ((s.portDown port .down).setPort port { (s.portDown port .down).port port with shorted := true, st := .down }) := by
  have hpresent : (decide (s.part.ports ≤ port) || !(s.port port).cable) = false := by simp [hport, hcable]
  change execCablePowerShort port s = _
  simp only [execCablePowerShort, hpresent, Bool.false_eq_true, if_false]

/-! ## Training -/

/-- R285, R287. Training of the port ends with a width that its lanes carry, in a module that runs and whose die serves the link. -/
structure Trains (s : State) (port : Nat) (r : TrainResult) : Prop where
  present : port < s.part.ports
  waiting : (s.port port).st = .down ∨ (s.port port).st = .training
  enabled : s.portEnabled port = true
  unshorted : (s.port port).shorted = false
  width : widestLanes r.lanes ≠ 0
  serving : s.linkServing port = true
  powered : s.fabricOn port = true
  running : s.phase = .running

/-- R282, R287. The port as it is after a training whose identities fit, in dimension d. -/
def Port.trained (x : Port) (now d : Nat) (r : TrainResult) : Port :=
  { x with st := .up, lanes := widestLanes r.lanes, peerModule := r.peerModule, peerPort := r.peerPort, dimension := d, inDim := d,
           txSeq := 4095, replay := [], sent := [], lastAck := 4095, ackAt := now, replays := 0, rxSeq := 4095,
           nakOwed := false, nakSent := false, lastTold := 4095, owed := [], idle := none, sending := [], stomps := [],
           credits := ((List.range 16).map fun k => (k, r.credits.getD k 0)).filter fun e => e.2 ≠ 0 }

/-- R268, R287. The port comes UP and is announced; a link narrower than four lanes is also told and counted. -/
def State.linkUp (s : State) (port : Nat) (r : TrainResult) (d : Nat) : State :=
  let n := laneCount (widestLanes r.lanes)
  let u : State := { s with fabric := { s.fabric with farDown := r.down } }
  let u := (u.setPort port ((s.port port).trained s.now d r)).raiseM 0x5202 port [port, r.peerModule, n]
  let u := if n < 4 then (u.raiseM 0x5203 port [port, r.peerModule, n]).bump (0x8100 + port) 6 1 else u
  (u.noteRoutes port).drive port

section Training

variable {r : TrainResult} (htrains : Trains s port r)
include htrains

/-- What ends a training is accepted: none of its refusals applies. -/
theorem Trains.accepted :
    (s.part.ports ≤ port || (s.port port).st = .up || (s.port port).st = .heldDown || !s.portEnabled port || (s.port port).shorted ||
      widestLanes r.lanes = 0 || !s.linkServing port || !s.fabricOn port || s.phase = .off || s.phase = .faulted ||
      s.phase = .recovery) = false := by
  obtain ⟨hpresent, hwaiting, henabled, hunshorted, hwidth, hserving, hpowered, hrunning⟩ := htrains
  rcases hwaiting with hst | hst <;> simpa [hpresent, hst, henabled, hunshorted, hserving, hpowered, hrunning] using hwidth

/-- R282. Where the identities do not fit, the port is HELD. -/
theorem exec_linkTrainingComplete_held (hdim : s.linkDim r = none) :
    exec (.linkTrainingComplete port r) s =
      .next ((s.setPort port { s.port port with st := .heldDown }).raiseM 0x5204 port [port, r.peerModule]) := by
  change execLinkTrainingComplete port r s = _
  simp only [execLinkTrainingComplete, htrains.accepted, Bool.false_eq_true, if_false, hdim]

/-- R287. Where they fit, the port is UP. -/
theorem exec_linkTrainingComplete_up {d : Nat} (hdim : s.linkDim r = some d) :
    exec (.linkTrainingComplete port r) s = .next (s.linkUp port r d) := by
  change execLinkTrainingComplete port r s = _
  simp only [execLinkTrainingComplete, htrains.accepted, Bool.false_eq_true, if_false, hdim]
  rfl

end Training

/-! ## Link tests -/

/-- Without a link test there is none to cut. -/
theorem State.cutLinkTest_none (hidle : (s.port port).testSince = none) : s.cutLinkTest port = s := by
  simp only [cutLinkTest, hidle]

/-- R455. A link test that is cut ends with no more errors than bits. -/
theorem State.cutLinkTest_some {t : Nat} (htest : (s.port port).testSince = some t) :
    ∃ n errors, errors ≤ n ∧ s.cutLinkTest port = s.fresh.endLinkTest port n errors := by
  refine ⟨testBitsIn (s.now - t), (Config.value64 s.freeUsed).toNat % (testBitsIn (s.now - t) + 1), ?_, ?_⟩
  · exact Nat.le_of_lt_succ (Nat.mod_lt _ (Nat.succ_pos _))
  · simp only [cutLinkTest, htest]

/-- R455. The end of a link test adds its bits and errors and is told. -/
theorem exec_linkTestEnd (nbits errors : Nat) (htest : (s.port port).testSince ≠ none) :
    exec (.linkTestEnd port nbits errors) s = .next (s.endLinkTest port nbits errors) := by
  change execLinkTestEnd port nbits errors s = _
  rw [execLinkTestEnd, if_neg (by simpa using htest)]

/-! ## Commands of the host -/

section Running

variable (hport : port < s.part.ports) (hrunning : s.phase = .running)
include hport hrunning

/-- R285. PORT_ENABLE starts training once it has ended the link test. -/
theorem exec_portEnable :
    let v := (s.setValue (okey (0x6100 + port) 1) [1]).cutLinkTest port
    (v.port port).st ≠ .up →
      exec (.portEnable port) s = .next (v.setPort port { (v.port port).train with downTimes := [] }) := by
  intro v hdown
  change execPortEnable port s = _
  rw [execPortEnable, if_pos hrunning, State.enablePort, if_neg (Nat.not_le.2 hport)]
  exact congrArg Host.Outcome.next (if_neg hdown)

/-- R285. PORT_DISABLE takes the port DOWN, whatever it was. -/
theorem exec_portDisable :
    let u := (s.setValue (okey (0x6100 + port) 1) [0]).portDown port .down
    exec (.portDisable port) s = .next (u.setPort port { u.port port with st := .down }) := by
  change execPortDisable port s = _
  rw [execPortDisable, if_pos hrunning, State.disablePort, if_neg (Nat.not_le.2 hport)]

/-- R455. A link test starts on a disabled port that runs none. -/
theorem exec_linkTestStart (hdisabled : s.portEnabled port = false) (hidle : (s.port port).testSince = none) :
    exec (.linkTestStart port) s = .next (s.setPort port { s.port port with testSince := some s.now }) := by
  have hallowed : (decide (s.part.ports ≤ port) || s.portEnabled port || (s.port port).testSince.isSome) = false := by
    simp [hport, hdisabled, hidle]
  change execLinkTestStart port s = _
  simp only [execLinkTestStart, hrunning, if_true, State.startLinkTest, hallowed, Bool.false_eq_true, if_false]

end Running

end Sys2Proof.Machine

open Sys2Proof Sys2Proof.Machine Sys2Proof.Claims in
/-- Settles O34: the failures of a port and of its cable, the two ends of a training, and the commands on a port and on its link test. -/
theorem linksTrainAndFail : Obligations.LinksTrainAndFail := by
  unfold Obligations.LinksTrainAndFail
  intro port s hport x
  refine ⟨fun lane hlane => exec_laneSignalLoss hlane, ?training, exec_cablePresenceChange hport, exec_cablePowerShort hport,
    fun hrunning => ⟨⟨State.cutLinkTest_none, fun t => State.cutLinkTest_some, exec_portEnable hport hrunning⟩,
      exec_portDisable hport hrunning, exec_linkTestStart hport hrunning⟩, exec_linkTestEnd⟩
  case training =>
    intro r n hwaiting henabled hunshorted hwidth hserving hpowered hrunning
    have htrains : Trains s port r := ⟨hport, hwaiting, henabled, hunshorted, hwidth, hserving, hpowered, hrunning⟩
    exact ⟨exec_linkTrainingComplete_held htrains, fun d hdim => exec_linkTrainingComplete_up htrains hdim⟩
end

section
/-! PROOFS. Links carry flits and packets (R269 to R271, R273, R278, R284, R285, R288): what a flit, a replay and a silent peer do to a
port that is UP, what the switch takes from an input, and which packets it drops. -/

namespace Sys2Proof.Machine

/-! ## Flits -/

/-- R288. The FEC's corrections of a flit are counted. -/
def State.countFec (s : State) (port : Nat) (fec : FecResult) : State :=
  (s.bump (0x8100 + port) 1 fec.corrected).bump (0x8100 + port) 2 fec.uncorrectable

@[simp] theorem State.countFec_now (s : State) (port : Nat) (fec : FecResult) : (s.countFec port fec).now = s.now := rfl

/-- R270, R271. The port once a flit in order is taken: what it tells is heard, and its data, or a stomp marker, joins its buffer. -/
def Port.taking (x : Port) (now : Nat) (f : Flit) : Port :=
  let y := x.heard now f
  let key := flitF f 52 50 * 2 + flitF f 49 49
  { y with
    rxSeq := flitF f 77 66
    nakOwed := false
    nakSent := false
    rxData := y.rxData.put key (y.rxData.get key [] ++ [if flitF f 79 78 = 0 then (flitF f 48 41, f.data) else (256, [])]) [] }

section Flits

variable {s : State} {port : Nat} (hup : (s.port port).st = .up)
include hup

section Receive

variable (fec : FecResult) {f : Flit} (hdata : f.data.length = 242)
include hdata

/-- A port that is UP takes a flit of full length. -/
theorem State.listens_guard : (decide ((s.port port).st ≠ .up) || decide (f.data.length ≠ flitData)) = false := by
  simp [hup, hdata, flitData]

/-- R270. A flit whose CRC fails is counted, and a NAK is owed. -/
theorem exec_flitReceive_badCrc (hcrc : flitCrc f.header f.data ≠ f.crc) :
    exec (.flitReceive port ⟨fec, f⟩) s =
      .next ((((s.countFec port fec).setPort port { s.port port with nakOwed := true }).bump (0x8100 + port) 3 1).drive port) := by
  change execFlitReceive port ⟨fec, f⟩ s = _
  simp only [execFlitReceive, State.listens_guard hup hdata, Bool.false_eq_true, if_false, if_pos hcrc]
  rfl

variable (hcrc : flitCrc f.header f.data = f.crc)
include hcrc

/-- R270. An idle flit is heard where its SEQ is the last one received; where not, a flit is missing. -/
theorem exec_flitReceive_idle (hidle : flitF f 79 78 = 1) :
    exec (.flitReceive port ⟨fec, f⟩) s = .next (((s.countFec port fec).setPort port
      (if flitF f 77 66 = (s.port port).rxSeq then (s.port port).heard s.now f else (s.port port).missed)).drive port) := by
  have hknown : ¬flitF f 79 78 = 3 := by omega
  change execFlitReceive port ⟨fec, f⟩ s = _
  simp only [execFlitReceive, State.listens_guard hup hdata, Bool.false_eq_true, if_false, hcrc, ne_eq, not_true_eq_false, hknown,
    if_pos hidle]
  rfl

/-- R270, R271. A data flit with room, or a stomp marker, that is next in sequence is taken. -/
theorem exec_flitReceive_next (hroom : flitF f 79 78 = 2 ∨
      (flitF f 79 78 = 0 ∧ (s.countFec port fec).rxRoom (s.port port) (flitF f 52 50 * 2 + flitF f 49 49) = true))
    (hseq : flitF f 77 66 = ((s.port port).rxSeq + 1) % 4096) :
    exec (.flitReceive port ⟨fec, f⟩) s =
      .next (((s.countFec port fec).setPort port ((s.port port).taking s.now f)).drive port) := by
  change execFlitReceive port ⟨fec, f⟩ s = _
  simp only [execFlitReceive, State.listens_guard hup hdata, Bool.false_eq_true, if_false, hcrc, ne_eq, not_true_eq_false]
  rcases hroom with hstomp | ⟨hdataFlit, hroom⟩
  · simp [hstomp, hseq, Port.taking, State.countFec]
  · simp only [State.countFec] at hroom
    simp [hdataFlit, hseq, hroom, Port.taking, State.countFec]

/-- R270, R271. Such a flit out of sequence, or data without room, is dropped, and a NAK is owed once. -/
theorem exec_flitReceive_missed (htype : flitF f 79 78 = 2 ∨ flitF f 79 78 = 0)
    (hdrops : flitF f 77 66 ≠ ((s.port port).rxSeq + 1) % 4096 ∨
      (flitF f 79 78 = 0 ∧ (s.countFec port fec).rxRoom (s.port port) (flitF f 52 50 * 2 + flitF f 49 49) = false)) :
    exec (.flitReceive port ⟨fec, f⟩) s = .next (((s.countFec port fec).setPort port (s.port port).missed).drive port) := by
  have hknown : ¬flitF f 79 78 = 3 := by omega
  have hdata' : ¬flitF f 79 78 = 1 := by omega
  change execFlitReceive port ⟨fec, f⟩ s = _
  simp only [execFlitReceive, State.listens_guard hup hdata, Bool.false_eq_true, if_false, hcrc, ne_eq, not_true_eq_false, hknown, hdata']
  exact if_pos (by simpa [State.countFec] using hdrops)

end Receive

/-! ## Replays -/

/-- R270. A NAK replays what is not acknowledged; the sixteenth replay of one SEQ takes the port down. -/
theorem exec_flitNakReplay (ack : Nat) :
    let y := (s.port port).acked s.now ack
    let u := ((s.setPort port { y with replays := y.replays + 1 }).bump (0x8100 + port) 4 1).bump (0x8100 + port) 7 y.replay.length
    y.replay ≠ [] → exec (.flitNakReplay port ack) s = .next (if 16 ≤ y.replays + 1 then u.portDown port .training else u) := by
  intro y u hreplay
  have hsome : y.replay.isEmpty = false := by simpa using hreplay
  change execFlitNakReplay port ack s = _
  rw [execFlitNakReplay, if_neg (not_not_intro hup)]
  exact if_neg (ne_true_of_eq_false hsome)

/-- R270. Without ACK progress for long the port goes down. -/
theorem exec_ackProgressTimeout (hreplay : (s.port port).replay ≠ []) :
    exec (.ackProgressTimeout port) s = .next (s.portDown port .training) := by
  change execAckProgressTimeout port s = _
  simp [execAckProgressTimeout, hup, hreplay]

end Flits

/-! ## Cut-through -/

/-- R285. The packet of an input, with k its head, is cut short: it is ended where a part of it has left, and counted. -/
def State.cutShort (s : State) (q key : Nat) (rx : Rx) (k : Packet) : State :=
  (((s.setRx q key rx []).stompOut k).setTaken (portInput q key) k []).bump 0x8080 3 1

/-- R278. What is here of a packet goes on, of which `old` had come before; once it is whole and has gone, the input is free for the
next. -/
def State.passOn (s : State) (q key : Nat) (old : List Byte) (got : List Byte × Rx) (k : Packet) : State :=
  let all := old ++ got.1
  let u := (s.setRx q key got.2 all).feedOut k (all.drop (Max.max 32 old.length))
  let f := u.forward (portInput q key) (some q) { k with body := all.drop 32 }
  if f.2 then f.1.setRx q key (alignRx got.2) [] else f.1

/-- R278, R285. The packet of an input once `got` is taken from its buffer. -/
def State.passGot (s : State) (q key : Nat) (old : List Byte) (got : List Byte × Rx) (k : Packet) : State :=
  if (old ++ got.1).length < packetLen k.n ∧ startsHere got.2 = true then s.cutShort q key got.2 k else s.passOn q key old got k

/-- R278. The bytes that a packet begun takes: none where another packet's start or a stomp marker follows what has come. -/
def moreBytes (old : List Byte) (rx : Rx) (n : Nat) : List Byte × Rx :=
  if old.length < n ∧ startsHere rx = true then ([], rx) else pullRx (n - old.length) rx

section Inputs

variable {s : State} {q key : Nat}

/-- R278. A packet begun takes what `moreBytes` finds for it. -/
theorem State.passMore_begun (rx : Rx) {old : List Byte} (k : Packet) (hbegun : old ≠ []) :
    s.passMore q key rx old k = s.passGot q key old (moreBytes old rx (packetLen k.n)) k := by
  have hold : old.isEmpty = false := by simpa using hbegun
  simp only [passMore, passGot, moreBytes, hold, Bool.not_false, Bool.true_and, Bool.and_eq_true, decide_eq_true_eq]
  rfl

/-- R278. A packet of which nothing was taken before takes as much of its length as is here. -/
theorem State.passMore_begins (rx : Rx) (k : Packet) :
    s.passMore q key rx [] k = s.passGot q key [] (pullRx (packetLen k.n) rx) k := by
  simp only [passMore, passGot, List.isEmpty_nil, Bool.not_true, Bool.false_and, Bool.false_eq_true, if_false, List.length_nil,
    Nat.sub_zero, Bool.and_eq_true, decide_eq_true_eq]
  rfl

/-- R278. The buffer of an input from its next packet on. -/
def State.inputRx (s : State) (q key : Nat) : Rx := alignRx ((s.port q).rxData.get key [])

/-- R278. The packet at the head of an input, as far as its route header is here. -/
def State.inputHead (s : State) (q key : Nat) : Packet := headOf (pullRx 32 (s.inputRx q key)).1

section Fresh

variable (hfresh : (s.port q).passing.get key [] = [])
include hfresh

/-- R278. What the switch does with an input of which it has not begun to take a packet. -/
theorem State.passPacket_fresh :
    s.passPacket q key =
      if ((pullRx 32 (s.inputRx q key)).1.length < 32 || s.partlyOut (s.inputHead q key)) = true then
        s.setRx q key (s.inputRx q key) []
      else if (!s.mayBegin (portInput q key) (some q) (s.inputHead q key)) = true then
        (s.openBranches (portInput q key) (s.inputHead q key)).2.foldl (fun s b => s.noteWait (some q) b)
          (s.setRx q key (s.inputRx q key) [])
      else s.passMore q key (s.inputRx q key) [] (s.inputHead q key) := by
  rw [passPacket, hfresh]
  rfl

/-- R278. A packet whose route header is not here, or of which a copy still leaves, stays. -/
theorem State.passPacket_stays
    (hstays : (pullRx 32 (s.inputRx q key)).1.length < 32 ∨ s.partlyOut (s.inputHead q key) = true) :
    s.passPacket q key = s.setRx q key (s.inputRx q key) [] := by
  rw [passPacket_fresh hfresh, if_pos (by simpa using hstays)]

variable (hhead : (pullRx 32 (s.inputRx q key)).1.length = 32) (halone : s.partlyOut (s.inputHead q key) = false)
include hhead halone

/-- R271, R278. A packet that no branch can take stays, and its branches wait for credit. -/
theorem State.passPacket_blocked (hblocked : s.mayBegin (portInput q key) (some q) (s.inputHead q key) = false) :
    s.passPacket q key = (s.openBranches (portInput q key) (s.inputHead q key)).2.foldl (fun s b => s.noteWait (some q) b)
      (s.setRx q key (s.inputRx q key) []) := by
  rw [passPacket_fresh hfresh, if_neg (by simp [hhead, halone]), if_pos (by simpa using hblocked)]

/-- R278. A packet that some branch can take is taken from its route header on. -/
theorem State.passPacket_begins (hbegins : s.mayBegin (portInput q key) (some q) (s.inputHead q key) = true) :
    s.passPacket q key = s.passGot q key ((s.port q).passing.get key [])
      (pullRx (packetLen (s.inputHead q key).n) (s.inputRx q key)) (s.inputHead q key) := by
  rw [passPacket_fresh hfresh, if_neg (by simp [hhead, halone]), if_neg (by simpa using hbegins), hfresh, passMore_begins]

end Fresh

/-- R278. A packet that the switch has begun takes what has come since. -/
theorem State.passPacket_goesOn {old : List Byte} (hold : (s.port q).passing.get key [] = old) (hbegun : old ≠ []) :
    s.passPacket q key =
      s.passGot q key old (moreBytes old ((s.port q).rxData.get key []) (packetLen (headOf old).n)) (headOf old) := by
  rw [← passMore_begun _ _ hbegun, passPacket, hold]
  exact if_neg (by simpa using hbegun)

end Inputs

/-! ## The switch -/

section Switch

variable {s : State} (hrunning : s.phase = .running) (hpower : s.power.powerFail = false)
include hrunning hpower

/-- A running module with power forwards. -/
theorem State.forwards_guard : (decide (s.phase ≠ .running) || s.power.powerFail) = false := by simp [hrunning, hpower]

/-- R278. The switch takes what an input's packet can give, and the port sends what it can. -/
theorem exec_packetForward_port (q vl : Nat) (cls : Bool) :
    exec (.packetForward (.port q vl cls)) s = .next ((s.passPacket q (vl * 2 + b2n cls)).drive q) := by
  change execPacketForward (.port q vl cls) s = _
  simp only [execPacketForward, State.forwards_guard hrunning hpower, Bool.false_eq_true, if_false]

/-- R278, R285. A packet of an input from which `got` is taken is cut short or goes on. -/
theorem exec_packetForward_got {q vl : Nat} {cls : Bool} {old : List Byte} {got : List Byte × Rx} {k : Packet}
    (hpass : s.passPacket q (vl * 2 + b2n cls) = s.passGot q (vl * 2 + b2n cls) old got k) :
    if (old ++ got.1).length < packetLen k.n ∧ startsHere got.2 = true then
      exec (.packetForward (.port q vl cls)) s = .next ((s.cutShort q (vl * 2 + b2n cls) got.2 k).drive q)
    else exec (.packetForward (.port q vl cls)) s = .next ((s.passOn q (vl * 2 + b2n cls) old got k).drive q) := by
  rw [exec_packetForward_port hrunning hpower, hpass, State.passGot]
  split
  · rfl
  · rfl

/-- R278. The first whole packet of a landing that may go is forwarded, and leaves the landing once all its branches have it. -/
theorem exec_packetForward_landing {d : Nat} {k : Packet}
    (hfirst : ((s.landing d).leaving.filter Packet.whole).find? (s.mayBegin (landingInput d) none) = some k) :
    let f := s.forward (landingInput d) none k
    exec (.packetForward (.landing d)) s = .next (if f.2 then
      f.1.setLanding d { f.1.landing d with leaving := (f.1.landing d).leaving.erase k } else f.1) := by
  change execPacketForward (.landing d) s = _
  simp only [execPacketForward, State.forwards_guard hrunning hpower, Bool.false_eq_true, if_false, hfirst]

end Switch

/-! ## Packets that the switch drops -/

/-- R273. The route header of a packet says that it goes nowhere in a domain of n modules. -/
def Misrouted (k : Packet) (n : Nat) : Prop := k.hcheckOk = false ∨ k.ptype = 0 ∨ 8 < k.ptype ∨ n ≤ k.dstMod

/-- The end of cuts leaves the domain as it is. -/
@[simp] theorem State.domainSize_endCuts (s : State) (k : Packet) : (s.endCuts k).domainSize = s.domainSize := by
  dsimp only [endCuts]
  split
  · rfl
  · rfl

section Drops

variable {s : State} {k : Packet} (inPort : Option Nat) (hmisrouted : Misrouted k s.domainSize)
include hmisrouted

/-- R273. A misrouted packet is dropped and counted, whatever its body. -/
theorem State.dropped_misrouted : s.dropped inPort k = some (s.bump 0x8080 4 1) :=
  if_pos (by simpa [Misrouted, or_assoc] using hmisrouted)

/-- R273. The switch drops a misrouted packet that no branch has taken once it is whole, and holds it until then. -/
theorem State.forward_misrouted (input : Nat) :
    let u := s.endCuts k
    let name := if inPort.isSome then k.head else k
    u.takenBy input name = [] →
      s.forward input inPort k = if k.whole then ((u.bump 0x8080 4 1).setTaken input name [], true) else (u, false) := by
  intro u name huntaken
  have hdropped : (s.endCuts k).dropped inPort k = some ((s.endCuts k).bump 0x8080 4 1) :=
    dropped_misrouted inPort (by rwa [domainSize_endCuts])
  have hnone : ((s.endCuts k).takenBy input (if inPort.isSome then k.head else k)).isEmpty = true := by simpa using huntaken
  simp only [forward, hnone, if_true, hdropped]
  rfl

end Drops

end Sys2Proof.Machine

open Sys2Proof Sys2Proof.Machine Sys2Proof.Claims in
/-- Settles O55: the outcomes of a flit, of a replay and of a silent peer, what the switch does with the packet of an input and of a
landing, and the packets that it drops. -/
theorem linksCarryFlitsAndPackets : Obligations.LinksCarryFlitsAndPackets := by
  unfold Obligations.LinksCarryFlitsAndPackets
  refine ⟨⟨?links, ?switch⟩, ?drops⟩
  case links =>
    intro port s hup x
    refine ⟨fun fec f hdata => ?flit, exec_flitNakReplay hup, exec_ackProgressTimeout hup⟩
    exact ⟨exec_flitReceive_badCrc hup fec hdata, exec_flitReceive_idle hup fec hdata, exec_flitReceive_next hup fec hdata,
      exec_flitReceive_missed hup fec hdata⟩
  case switch =>
    intro s hrunning hpower
    refine ⟨fun q vl cls => ⟨fun hfresh => ⟨?stays, fun hhead halone => ⟨?blocked, ?begins⟩⟩, ?goesOn⟩,
      fun d k => exec_packetForward_landing hrunning hpower⟩
    case stays =>
      intro hstays
      rw [exec_packetForward_port hrunning hpower, b2n, State.passPacket_stays hfresh hstays]
      rfl
    case blocked =>
      intro hblocked
      rw [exec_packetForward_port hrunning hpower, b2n, State.passPacket_blocked hfresh hhead halone hblocked]
      rfl
    case begins =>
      exact fun hbegins => exec_packetForward_got hrunning hpower (State.passPacket_begins hfresh hhead halone hbegins)
    case goesOn =>
      exact fun hbegun => exec_packetForward_got hrunning hpower (State.passPacket_goesOn rfl hbegun)
  case drops =>
    intro input k inPort s hmisrouted u name huntaken
    have hforward := State.forward_misrouted inPort hmisrouted input huntaken
    exact ⟨fun hwhole => hforward.trans (if_pos hwhole), fun hpart => hforward.trans (if_neg (ne_true_of_eq_false hpart))⟩
end

section
/-! PROOFS. What a completion leaves (R309, R310, R318): the operations behind a record move no command into or out of a journal. -/

namespace Sys2Proof.Machine

/-! ## Streams after an update -/

@[simp] theorem Partition.stream_onStream (x : Partition) (w : Nat) (f : Stream → Stream) :
    (x.onStream w f).stream w = f (x.stream w) := Table.get_put_same ..

theorem Partition.stream_onStream_ne (x : Partition) {w v : Nat} (f : Stream → Stream) (hne : w ≠ v) :
    (x.onStream w f).stream v = x.stream v := Table.get_put_ne _ _ _ hne

@[simp] theorem State.stream_onStream (s : State) (p w : Nat) (f : Stream → Stream) :
    (s.onStream p w f).stream p w = f (s.stream p w) := by
  unfold stream onStream
  rw [partn_onPartn, Partition.stream_onStream]

theorem State.stream_onStream_ne (s : State) (p : Nat) {w v : Nat} (f : Stream → Stream) (hne : w ≠ v) :
    (s.onStream p w f).stream p v = s.stream p v := by
  unfold stream onStream
  rw [partn_onPartn, Partition.stream_onStream_ne _ _ hne]

theorem Stream.cmd_of_journal_filter {m n : Stream} {q : Nat} (hjournal : m.journal = n.journal.filter fun j => j.seq ≠ q) :
    m.cmd q = none := by
  unfold cmd
  rw [hjournal, List.find?_eq_none]
  intro j hj
  simpa using (List.mem_filter.1 hj).2

/-! ## Updates that leave the journals -/

/-- From `s` to `t` every stream of partition `p` has the commands it had, and the other partitions, the cores, the log and the fabric
are as they were. -/
structure KeepsJournals (p : Nat) (s t : State) : Prop where
  journals : ∀ w, (t.stream p w).journal = (s.stream p w).journal
  others : ∀ r ≠ p, t.partn r = s.partn r
  cores : t.cores = s.cores
  log : t.log = s.log
  fabric : t.fabric = s.fabric

namespace KeepsJournals

variable {p : Nat} {s t u : State}

theorem refl (p : Nat) (s : State) : KeepsJournals p s s := ⟨fun _ => rfl, fun _ _ => rfl, rfl, rfl, rfl⟩

theorem trans (hst : KeepsJournals p s t) (htu : KeepsJournals p t u) : KeepsJournals p s u where
  journals w := (htu.journals w).trans (hst.journals w)
  others r hr := (htu.others r hr).trans (hst.others r hr)
  cores := htu.cores.trans hst.cores
  log := htu.log.trans hst.log
  fabric := htu.fabric.trans hst.fabric

/-- An update beside the partitions, the cores, the log and the fabric. -/
theorem of_parts (hparts : t.parts = s.parts) (hcores : t.cores = s.cores) (hlog : t.log = s.log) (hfabric : t.fabric = s.fabric) :
    KeepsJournals p s t := by
  have hpartn (r : Nat) : t.partn r = s.partn r := by unfold State.partn; rw [hparts]
  refine ⟨fun w => ?_, fun r _ => hpartn r, hcores, hlog, hfabric⟩
  unfold State.stream
  rw [hpartn]

/-- An update of the partition beside its streams. -/
theorem onPartn {f : Partition → Partition} (hf : (f (s.partn p)).streams = (s.partn p).streams) :
    KeepsJournals p s (s.onPartn p f) where
  journals w := by
    unfold State.stream Partition.stream
    rw [State.partn_onPartn, hf]
  others r hr := State.partn_onPartn_ne _ _ _ _ hr.symm
  cores := rfl
  log := rfl
  fabric := rfl

/-- An update of a stream beside its journal. -/
theorem onStream {w : Nat} {f : Stream → Stream} (hf : (f (s.stream p w)).journal = (s.stream p w).journal) :
    KeepsJournals p s (s.onStream p w f) where
  journals v := by
    by_cases hv : w = v
    · subst hv
      rw [State.stream_onStream, hf]
    · rw [State.stream_onStream_ne _ _ _ hv]
  others r hr := State.partn_onPartn_ne _ _ _ _ hr.symm
  cores := rfl
  log := rfl
  fabric := rfl

theorem foldl {α : Type} {f : State → α → State} (hf : ∀ s e, KeepsJournals p s (f s e)) (l : List α) (s : State) :
    KeepsJournals p s (l.foldl f s) := by
  induction l generalizing s with
  | nil => exact refl p s
  | cons e l ih => exact (hf s e).trans (ih (f s e))

theorem bumpP (s : State) (index sub n : Nat) : KeepsJournals p s (s.bumpP p index sub n) := onPartn rfl

theorem bump (s : State) (index sub n : Nat) : KeepsJournals p s (s.bump index sub n) := of_parts rfl rfl rfl rfl

theorem signal (s : State) (vector : Nat) : KeepsJournals p s (s.signal p vector) :=
  (onPartn (f := fun x => { x with regs := x.regs.pend vector }) rfl).trans (of_parts rfl rfl rfl rfl)

end KeepsJournals

/-! ## The writes behind a record -/

theorem State.cores_log_fabric_writeParts (s : State) (l : List (Target × Nat)) (bs : List Byte) :
    (s.writeParts l bs).cores = s.cores ∧ (s.writeParts l bs).log = s.log ∧ (s.writeParts l bs).fabric = s.fabric := by
  induction l generalizing s bs with
  | nil => exact ⟨rfl, rfl, rfl⟩
  | cons e l ih =>
    obtain ⟨target, n⟩ := e
    cases target with
    | _ => exact ih ..

theorem State.vwrite_eq_writeParts {s u : State} {p va : Nat} {bs : List Byte} (hwrite : s.vwrite p va bs = .ok u) :
    ∃ l, u = s.writeParts l bs := by
  unfold vwrite at hwrite
  split at hwrite
  · cases hwrite
  next l _ =>
    split at hwrite
    · cases hwrite
    · exact ⟨l, (Except.ok.inj hwrite).symm⟩

theorem KeepsJournals.vwrite {p r va : Nat} {s u : State} {bs : List Byte} (hwrite : s.vwrite r va bs = .ok u) :
    KeepsJournals p s u := by
  obtain ⟨l, rfl⟩ := State.vwrite_eq_writeParts hwrite
  obtain ⟨hcores, hlog, hfabric⟩ := s.cores_log_fabric_writeParts l bs
  exact .of_parts (s.parts_writeParts l bs) hcores hlog hfabric

/-! ## Records, counts and abort records -/

section Completing

variable {p : Nat}

/-- R309, R310. A record that is written moves the tail of its stream's ring. -/
theorem State.tryRecord_keepsJournals {s t : State} {c : Cpl} (hrecord : s.tryRecord p c = some t) : KeepsJournals p s t := by
  rw [tryRecord.eq_def] at hrecord
  extract_lets m k at hrecord
  split at hrecord
  · cases hrecord
  · split at hrecord
    · cases hrecord
    next u hwrite =>
      have hmoved : KeepsJournals p s (u.onStream p c.stream fun m => { m with cplTail := m.cplTail + 1 }) :=
        (KeepsJournals.vwrite hwrite).trans (.onStream rfl)
      obtain rfl := Option.some.inj hrecord
      split
      · exact hmoved.trans (.signal _ _)
      · exact hmoved

/-- R310. A record is written, or held. -/
theorem State.putRecord_keepsJournals (s : State) (c : Cpl) : KeepsJournals p s (s.putRecord p c) := by
  unfold putRecord
  dsimp only
  split
  · cases hrecord : s.tryRecord p c with
    | none => exact .onStream rfl
    | some t => exact tryRecord_keepsJournals hrecord
  · exact .onStream rfl

/-- R333, R376. -/
theorem State.countStatus_keepsJournals (s : State) (status : Nat) : KeepsJournals p s (s.countStatus p status) := by
  unfold countStatus
  split_ifs
  · exact .bumpP ..
  · exact .bumpP ..
  · exact .bump ..
  · exact .bump ..
  · exact .refl ..

/-- R263. -/
theorem State.countStageWait_keepsJournals (s : State) (m since : Nat) : KeepsJournals p s (s.countStageWait p m since) := by
  have hcount (s : State) (index sub n : Nat) (counts : Bool) :
      KeepsJournals p s (if counts then s.bumpP p index sub n else s) := by
    split
    · exact .bumpP ..
    · exact .refl ..
  exact .foldl (fun s e => (hcount s ..).trans (hcount _ ..)) _ s

theorem State.endMarkWait_keepsJournals (s : State) (k : Cmd) : KeepsJournals p s (s.endMarkWait p k) := by
  unfold endMarkWait
  split
  · exact s.countStageWait_keepsJournals ..
  · exact .refl ..

/-- R318. Abort records are written as other records are. -/
theorem State.writeAborts_keepsJournals (s : State) (w : Nat) (l : List AbortRec) : KeepsJournals p s (s.writeAborts p w l) := by
  induction l generalizing s with
  | nil => exact .refl ..
  | cons a l ih =>
    unfold writeAborts
    split
    · have hdropped : KeepsJournals p s (s.onStream p w fun m => { m with aborts := m.aborts.filter fun b => b ≠ a }) := .onStream rfl
      have hrest (t : State) : KeepsJournals p t ((if a.count = 0 then t.bumpP p 0x80B0 4 1 else t).writeAborts p w l) := by
        split
        · exact (KeepsJournals.bumpP ..).trans (ih _)
        · exact ih t
      exact (hdropped.trans (putRecord_keepsJournals _ _)).trans (hrest _)
    · exact ih s

/-! ## The completion -/

/-- R309, R318. The command leaves its journal, and no abort waits for it. -/
def Stream.without (q : Nat) (m : Stream) : Stream :=
  { m with
    journal := m.journal.filter fun j => j.seq ≠ q
    aborts := m.aborts.map fun a => { a with waiting := a.waiting.filter (· ≠ q) } }

/-- R309. Once its command has left the journal, a completion moves no command. -/
theorem State.complete_keepsJournals {s : State} {w q : Nat} {k : Cmd} (hcmd : s.cmd p w q = some k) (o : Outcome) :
    KeepsJournals p ((s.endMarkWait p k).onStream p w (Stream.without q)) (s.complete p w q o) := by
  unfold complete
  rw [hcmd]
  exact ((countStatus_keepsJournals _ _).trans (putRecord_keepsJournals _ _)).trans (writeAborts_keepsJournals _ _ _)

end Completing

end Sys2Proof.Machine

open Sys2Proof Sys2Proof.Machine Sys2Proof.Claims in
/-- Settles O19: the command leaves the journal in one update of its stream; what comes before and after it keeps every journal. -/
theorem completionLeavesTheJournal : Obligations.CompletionLeavesTheJournal := by
  unfold Obligations.CompletionLeavesTheJournal
  intro p w q o s k hcmd
  have hbefore : KeepsJournals p s (s.endMarkWait p k) := s.endMarkWait_keepsJournals k
  have hafter := State.complete_keepsJournals hcmd o
  have hleft : ((s.complete p w q o).stream p w).journal = (s.stream p w).journal.filter fun j => j.seq ≠ q := by
    rw [hafter.journals, State.stream_onStream, ← hbefore.journals]
    rfl
  refine ⟨hleft, Stream.cmd_of_journal_filter hleft, fun v hv => ?streams, fun r hr => ?parts, hafter.cores.trans hbefore.cores,
    hafter.log.trans hbefore.log, hafter.fabric.trans hbefore.fabric⟩
  case streams => rw [hafter.journals, State.stream_onStream_ne _ _ _ hv.symm, hbefore.journals]
  case parts => rw [hafter.others r hr, State.onStream, State.partn_onPartn_ne _ _ _ _ hr.symm, hbefore.others r hr]
end

section
/-! PROOFS. The streams of the host (R297 to R301, R310, R316 to R318, R437): contexts, doorbells, acceptance and aborts. -/

namespace Sys2Proof.Machine

/-! ## Contexts -/

section Contexts

variable {p w : Nat} {s : State}

/-- R297. Setting EN of a disabled stream. -/
theorem exec_streamEnable (hexists : s.streamExists p w = true) (hwrites : s.hostWrites = true) (hen : (s.stream p w).en = false) :
    exec (.streamEnable p w) s = .next (s.onStream p w fun m =>
      { m with en := true, accept := m.startSeq, doorbell := m.startSeq, cplTail := 0, cplHead := 0 }) := by
  have henable : (s.stream p w).enable = { s.stream p w with
      en := true, accept := (s.stream p w).startSeq, doorbell := (s.stream p w).startSeq, cplTail := 0, cplHead := 0 } := by
    simp only [Stream.enable, hen, Bool.false_eq_true, if_false]
  change execStreamEnable p w s = _
  simp only [execStreamEnable, State.enableStream, hwrites, hexists, if_true]
  exact congrArg (fun m => Host.Outcome.next (s.onStream p w fun _ => m)) henable

/-- R171, R297. Clearing EN of a stream with nothing uncompleted or held takes its pins with it. -/
theorem exec_streamDisable (hexists : s.streamExists p w = true) (hwrites : s.hostWrites = true) (hen : (s.stream p w).en = true)
    (hjournal : (s.stream p w).journal = []) (hheld : (s.stream p w).held = []) :
    exec (.streamDisable p w) s = .next ((s.onStream p w fun m => { m with en := false }).unpinAll p w) := by
  change execStreamDisable p w s = _
  simp only [execStreamDisable, State.disableStream, hwrites, hexists, hen, hjournal, hheld, List.isEmpty_nil, Bool.not_true, Bool.or_self,
    Bool.false_eq_true, if_true, if_false]

end Contexts

/-! ## Doorbells -/

/-- R359, R446. What a write to a doorbell page needs to act at once. -/
structure TakesPages (s : State) : Prop where
  running : s.phase = .running
  serving : s.sup.failover = false
  powered : s.power.powerFail = false
  perst : s.power.perstN = true

section Doorbells

variable {p w : Nat} {s : State}

theorem State.pageWriteOrLatch_of_takes (htakes : TakesPages s) (kind : Nat) (v : U64) :
    s.pageWriteOrLatch kind p w v = s.pageWrite kind p w v := by
  simp only [pageWriteOrLatch, htakes.running, htakes.serving, htakes.powered, htakes.perst, decide_true, Bool.not_true, Bool.not_false,
    Bool.or_self, Bool.and_self, Bool.false_eq_true, if_false, if_true]

/-- R299. The host's stores come before its doorbell. -/
theorem exec_cmdDoorbell_stored (d : U64) (l : List (Nat × List Byte)) (s : State) :
    exec (.cmdDoorbell p w d l) s =
      exec (.cmdDoorbell p w d []) (l.foldl (fun s e => { s with host := s.host.putBytes e.1 e.2 }) s) := rfl

/-- R316. -/
theorem exec_abortDoorbell (htakes : TakesPages s) (a : U64) : exec (.abortDoorbell p w a) s = .next (s.abortStream p w (a.setWidth 48)) := by
  change Host.Outcome.next (s.pageWriteOrLatch 1 p w a) = _
  rw [State.pageWriteOrLatch_of_takes htakes]
  rfl

variable (hexists : s.streamExists p w = true) (hen : (s.stream p w).en = true) (htakes : TakesPages s)
include hexists hen htakes

/-- R299. A doorbell within the ring, not behind the last one, moves it. -/
theorem exec_cmdDoorbell {d : U64} (hafter : seqLe (s.stream p w).doorbell (d.setWidth 48) = true)
    (hwithin : (d.setWidth 48 - (s.stream p w).accept).toNat ≤ (s.stream p w).cmdEntries) :
    exec (.cmdDoorbell p w d []) s = .next (s.onStream p w fun m => { m with doorbell := d.setWidth 48 }) := by
  change Host.Outcome.next (s.pageWriteOrLatch 0 p w d) = _
  rw [State.pageWriteOrLatch_of_takes htakes]
  simp only [State.pageWrite, State.ringDoorbell, hexists, hen, hafter, Nat.not_lt.2 hwithin, decide_false, Bool.not_true, Bool.or_self,
    Bool.false_eq_true, if_false, if_true]

/-- R299. Any other doorbell is counted and told. -/
theorem exec_cmdDoorbell_bad {d : U64} (hbad : seqLe (s.stream p w).doorbell (d.setWidth 48) = false ∨
      (s.stream p w).cmdEntries < (d.setWidth 48 - (s.stream p w).accept).toNat) :
    exec (.cmdDoorbell p w d []) s =
      .next ((s.bumpP p 0x80B0 7 1).raiseP 0x6110 p [w, ((d.setWidth 48 : U48)).toNat]) := by
  have hrefused : (!seqLe (s.stream p w).doorbell (d.setWidth 48) ||
      decide ((s.stream p w).cmdEntries < (d.setWidth 48 - (s.stream p w).accept).toNat)) = true := by
    simpa using hbad
  change Host.Outcome.next (s.pageWriteOrLatch 0 p w d) = _
  rw [State.pageWriteOrLatch_of_takes htakes]
  simp only [State.pageWrite, State.ringDoorbell, hexists, hen, hrefused, Bool.not_true, Bool.or_self, Bool.false_eq_true, if_false,
    if_true]

/-- R310. -/
theorem exec_cplHead (h : U64) :
    exec (.cplHead p w h) s = .next ((s.onStream p w fun m => { m with cplHead := h.setWidth 48 }).flushHeld p w) := by
  change Host.Outcome.next (s.pageWriteOrLatch 2 p w h) = _
  rw [State.pageWriteOrLatch_of_takes htakes]
  simp only [State.pageWrite, State.setCplHead, hexists, hen, Bool.not_true, Bool.or_self, Bool.false_eq_true, if_false,
    OfNat.ofNat_ne_zero, OfNat.ofNat_ne_one]

end Doorbells

/-! ## Acceptance -/

section Acceptance

variable {p w : Nat} {s : State}

/-- R300. The next covered command of a stream is accepted. -/
theorem exec_commandAccept (hexists : s.streamExists p w = true) (hcovered : (s.stream p w).covered = true) (hup : s.up = true)
    (hgoesOn : s.acceptPaused p w = false) (henergy : 524288 ≤ s.power.sensors.holdupTail) :
    exec (.commandAccept p w) s = .next (s.acceptOne p w) := by
  change execCommandAccept p w s = _
  simp only [execCommandAccept, hexists, hcovered, hup, hgoesOn, henergy, Bool.not_true, Bool.or_self, Bool.false_eq_true, if_false,
    if_true]

/-- R437. With less hold-up energy it waits for its journal record, unless it waits already. -/
theorem exec_commandAccept_waits (hexists : s.streamExists p w = true) (hcovered : (s.stream p w).covered = true) (hup : s.up = true)
    (hgoesOn : s.acceptPaused p w = false) (henergy : s.power.sensors.holdupTail < 524288)
    (hfirst : ∀ e ∈ s.sup.acceptWaits, ¬(e.1 = p ∧ e.2.1 = w)) :
    exec (.commandAccept p w) s = .next { s with sup := { s.sup with
      acceptWaits := s.sup.acceptWaits ++ [(p, w, s.sup.unmirrored + 64)]
      unmirrored := s.sup.unmirrored + 64 } } := by
  have hnone : (s.sup.acceptWaits.any fun e => e.1 = p && e.2.1 = w) = false :=
    List.any_eq_false.2 fun e he => by simpa using hfirst e he
  change execCommandAccept p w s = _
  simp only [execCommandAccept, hexists, hcovered, hup, hgoesOn, Nat.not_le.2 henergy, hnone, Bool.not_true, Bool.or_self,
    Bool.false_eq_true, if_false]

/-- R301. A pause that goes on is noted from its begin. -/
theorem State.settlePause_paused (hen : (s.stream p w).en = true) (hpaused : s.acceptPaused p w = true) :
    s.settlePause p w = s.onStream p w fun m => { m with pausedSince := some (m.pausedSince.getD s.now) } := by
  simp only [settlePause, hen, hpaused, Bool.and_self, if_true]

/-- R301. Where acceptance is not paused, a pause that was noted ends. -/
theorem State.settlePause_of_not_paused (hgoesOn : (s.stream p w).en = false ∨ s.acceptPaused p w = false) :
    s.settlePause p w = s.endPause p w := by
  have hnot : ((s.stream p w).en && s.acceptPaused p w) = false := Bool.and_eq_false_iff.2 hgoesOn
  simp only [settlePause, hnot, Bool.false_eq_true, if_false]

theorem State.endPause_of_paused {t : Nat} (hsince : (s.stream p w).pausedSince = some t) :
    s.endPause p w = (s.onStream p w fun m => { m with pausedSince := none }).bumpP p 0x80B0 6 (s.now - t) := by
  simp only [endPause, hsince]

theorem State.endPause_of_none (hsince : (s.stream p w).pausedSince = none) : s.endPause p w = s := by
  simp only [endPause, hsince]

/-- R301, R437. The acceptances whose records have been mirrored are made, in their order. -/
theorem exec_journalTailMirrored (n : Nat) (hup : s.up = true) (hserving : s.sup.failover = false) :
    let waits := s.sup.acceptWaits.map fun e => (e.1, e.2.1, e.2.2 - n)
    exec (.journalTailMirrored n) s = .next ((waits.filter fun e => e.2.2 = 0).foldl (fun s e => s.acceptMirrored e.1 e.2.1)
      { s with sup := { s.sup with unmirrored := s.sup.unmirrored - n, acceptWaits := waits.filter fun e => e.2.2 ≠ 0 } }) := by
  intro waits
  have htakes : ¬(!s.up || s.sup.failover) = true := by simp [hup, hserving]
  change execJournalTailMirrored n s = _
  unfold execJournalTailMirrored
  exact if_neg htakes

/-- R437. Its record is part of the mirrored tail already. -/
theorem State.acceptMirrored_covered (hcovered : (s.stream p w).covered = true) (hgoesOn : s.acceptPaused p w = false) :
    s.acceptMirrored p w = { s.acceptOne p w with sup := { (s.acceptOne p w).sup with unmirrored := s.sup.unmirrored } } := by
  simp only [acceptMirrored, hcovered, hgoesOn, Bool.not_false, Bool.and_self, if_true]

theorem State.acceptMirrored_left (hleft : (s.stream p w).covered = false ∨ s.acceptPaused p w = true) :
    s.acceptMirrored p w = s := by
  have hnot : ((s.stream p w).covered && !s.acceptPaused p w) = false := by
    simpa only [Bool.and_eq_false_iff, Bool.not_eq_false'] using hleft
  simp only [acceptMirrored, hnot, Bool.false_eq_true, if_false]

end Acceptance

/-! ## Aborts -/

/-- R317. An abort takes the stream's step with it where the step is past its commit point or the abort wins against a command. -/
theorem Partition.abortsStep_iff (x : Partition) (w : Nat) (hits : List Cmd) :
    (x.step ≠ .idle && x.stepOwner = w && ((x.step = .sweeping || x.step = .swept) || !hits.isEmpty)) = true ↔
      x.step ≠ .idle ∧ x.stepOwner = w ∧ (x.step = .sweeping ∨ x.step = .swept ∨ hits ≠ []) := by
  simp only [Bool.and_eq_true, Bool.or_eq_true, decide_eq_true_eq, Bool.not_eq_true', List.isEmpty_eq_false_iff, and_assoc, or_assoc]

/-- R316 to R318. An abort of an enabled stream: the covered commands up to A are accepted, the commands it wins against are noted, the
pins go, the step may go, and those commands are dealt with one by one before the abort records that are due. -/
theorem State.abortStream_of_enabled {p w : Nat} {s : State} (a : U48) (hexists : s.streamExists p w = true)
    (hen : (s.stream p w).en = true) :
    let u := s.acceptTo p w a ((s.stream p w).doorbell - (s.stream p w).accept).toNat
    let x := u.partn p
    let hits := (x.stream w).journal.filter (x.abortWins a)
    let v := (u.onStream p w fun m => { m with
      aborts := m.aborts ++ [{ upTo := a, count := hits.length, waiting := hits.map fun k => k.seq }] }).unpinAll p w
    let v := if x.step ≠ .idle ∧ x.stepOwner = w ∧ (x.step = .sweeping ∨ x.step = .swept ∨ hits ≠ []) then v.abortStep p w else v
    let v := ((hits.foldl (fun s k => s.abortOne p w k) v).settleOwed p).settleFeeds p w (x.serviceOf w)
    s.abortStream p w a = v.writeAborts p w (v.stream p w).aborts := by
  have hacts : ¬(!s.streamExists p w || !(s.stream p w).en) = true := by simp [hexists, hen]
  unfold abortStream
  refine (if_neg hacts).trans ?_
  simp only [Partition.abortsStep_iff]

end Sys2Proof.Machine

open Sys2Proof Sys2Proof.Machine Sys2Proof.Claims in
/-- Settles O37: the outcome of each write to a context and to a doorbell page, of an acceptance, a pause and a mirrored tail. -/
theorem streamsAcceptCommands : Obligations.StreamsAcceptCommands := by
  unfold Obligations.StreamsAcceptCommands
  refine ⟨fun p w s hexists => ⟨fun hwrites hen => ?enable, fun hwrites hen hjournal hheld => ?disable, ?pages, ?accept⟩,
    fun p w d l s => ?stored, fun p w s => ⟨?paused, ?ends, ?still⟩, fun n s hup hserving => ?mirrored, fun p w s => ⟨?due, ?left⟩, ?waits⟩
  case enable => exact exec_streamEnable hexists hwrites hen
  case disable => exact exec_streamDisable hexists hwrites hen hjournal hheld
  case pages =>
    intro hen hrunning hserving hpowered hperst
    have htakes : TakesPages s := ⟨hrunning, hserving, hpowered, hperst⟩
    exact ⟨fun d => ⟨exec_cmdDoorbell hexists hen htakes, exec_cmdDoorbell_bad hexists hen htakes⟩, exec_cplHead hexists hen htakes,
      exec_abortDoorbell htakes⟩
  case accept => exact exec_commandAccept hexists
  case stored => exact exec_cmdDoorbell_stored d l s
  case paused => exact State.settlePause_paused
  case ends =>
    intro hgoesOn t hsince
    rw [State.settlePause_of_not_paused hgoesOn, State.endPause_of_paused hsince]
  case still =>
    intro hsince hgoesOn
    rw [State.settlePause_of_not_paused hgoesOn, State.endPause_of_none hsince]
  case mirrored => exact exec_journalTailMirrored n hup hserving
  case due => exact State.acceptMirrored_covered
  case left => exact State.acceptMirrored_left
  case waits => exact fun p w s => exec_commandAccept_waits

open Sys2Proof Sys2Proof.Machine Sys2Proof.Claims in
/-- Settles O38: an abort of an enabled stream, with the commands it wins against written out. -/
theorem abortsWinBeforeCommitPoints : Obligations.AbortsWinBeforeCommitPoints := by
  unfold Obligations.AbortsWinBeforeCommitPoints
  exact fun p w a s hexists hen => State.abortStream_of_enabled a hexists hen
end

section
/-! PROOFS. Serving (R328 to R332): a serving RUN starts, takes its batches and ends its passes, and the requests of its streams. -/

namespace Sys2Proof.Machine

open Sys2Proof.Claims

/-! ## The serving RUN -/

section Serves

variable {p w q : Nat} {s : State} {k : Cmd} {img : Image}

/-- A RUN that has been checked and installed waits with its image. -/
def Cmd.installed (img : Image) (k : Cmd) : Cmd := { k with phase := .accepted, started := 0, img := some img }

/-- R328. A serving RUN that starts and that nothing refuses is installed. -/
theorem State.startRun_serving (hstarts : Starts s p w q 0x01 k) (hserve : k.serve = true)
    (hstep : ((begun s p w q).partn p).runStepBad w = false) (hsound : (begun s p w q).runRefused p w k img = none)
    (hserving : (begun s p w q).serveRefused p k img = none) (hinstalled : ((begun s p w q).install p img).2 = none) :
    s.startRun p w q img true = ((begun s p w q).install p img).1.onCmd p w q (Cmd.installed img) := by
  have hinstall : (begun s p w q).install p img = (((begun s p w q).install p img).1, none) := Prod.ext rfl hinstalled
  have hcmd : s.cmd p w q = some k := hstarts.1
  unfold startRun
  simp only [hcmd, hserve, ne_eq, not_true_eq_false, if_false]
  rw [startCmd_of_starts (op := opRun) hstarts]
  simp only [hstep, hsound, hserving, Bool.false_eq_true, if_false, if_true]
  rw [hinstall]
  rfl

/-- R328. A serving RUN that is installed on a stream that serves nothing yet runs, without a request. -/
theorem exec_runServe_of_startRun (hfirst : (s.partn p).serves.all (fun v => v.s ≠ w) = true) (hserve : k.serve = true)
    (hstart : s.startRun p w q img true = ((begun s p w q).install p img).1.onCmd p w q (Cmd.installed img))
    (hinstalled : (((begun s p w q).install p img).1.onCmd p w q (Cmd.installed img)).cmd p w q = some (k.installed img)) :
    let u := ((begun s p w q).install p img).1.onCmd p w q (Cmd.installed img)
    exec (.runServe p w q img) s = .next ((u.onCmd p w q fun k => { k with phase := .running, started := u.now, img := none }).onPartn p
      fun x => { x with serves := x.serves ++
        [{ s := w, q := q, segNum := k.f 399 368, seed := BitVec.ofNat 64 (k.f 367 304), img := img }] }) := by
  intro u
  have hnone : (s.partn p).serves.any (fun v => v.s = w) = false := by simpa using hfirst
  have hop : k.op = opRun := by
    unfold Cmd.serve at hserve
    simp only [Bool.and_eq_true, decide_eq_true_eq] at hserve
    exact hserve.1
  have hwaiting : (k.installed img).waiting = some img := if_pos (by simp [Cmd.installed, Cmd.op, Cmd.n, ← hop])
  have hserves : (k.installed img).serve = true := hserve
  change execRunServe p w q img s = _
  simp only [execRunServe, hnone, hstart, hinstalled, hwaiting, hserves, Option.isNone_some, Bool.not_true, Bool.or_self,
    Bool.false_eq_true, if_false]
  rfl

/-! ## Passes -/

/-- What holds a pass of a serving RUN back at its boundary, for the cores of its variant (R323, R331, R354). -/
structure MayPass (s : State) (p w : Nat) (k : Cmd) (v : Serve) (cores : List Nat) : Prop where
  between : v.batch = none
  goesOn : v.stopping = false
  running : k.phase = .running
  working : s.working = true
  lease : (s.partn p).passesGoOn = true
  settled : s.held p = false
  kept : s.sup.recovering.contains p = false
  serves : s.hallsServe ((s.halls p).take 1 ++ coreHalls cores) compLaunch = true
  batches : s.hallsServe ((s.halls p).take 1) compBatching = true
  on : ∀ h ∈ (s.halls p).take 1 ++ coreHalls cores, s.hallOn h = true
  free : s.coresFree cores = true
  first : s.launchBefore p w k cores = false

/-- R330, R331. At a pass boundary the batch that is chosen is written and launched. -/
theorem exec_servePassStart {v : Serve} {d : ServeDecl} {g : SegDecl} {c : Choice} {t : State}
    (hserves : (s.partn p).serves.find? (fun v => v.s = w) = some v) (hdecl : v.img.serve = some d)
    (hsegment : v.img.segments.find? (fun g => g.num = v.segNum) = some g) (hcmd : s.cmd p w v.q = some k)
    (hchoice : (s.partn p).chooseBatch v d (s.setting p (0x3040 + p) 3) = some c)
    (hmay : MayPass s p w k v (((g.variants[d.variantFor c.feed c.batch.length]?).map fun va => s.variantCores p va).getD []))
    (hperiod : (s.startPeriod p).2 = none) (hwrite : (s.startPeriod p).1.writeBatch p d c = .ok t) :
    exec (.servePassStart p w) s = .next (t.launchPass p v d g c) := by
  have hstart : s.startPeriod p = ((s.startPeriod p).1, none) := Prod.ext rfl hperiod
  have hon := List.all_eq_true.2 hmay.on
  change execServePassStart p w s = _
  simp only [execServePassStart, hserves, hdecl, hsegment, hcmd, hchoice, hmay.between, hmay.goesOn, hmay.running, hmay.working,
    hmay.lease, hmay.settled, hmay.kept, hmay.serves, hmay.batches, hon, hmay.free, hmay.first, ne_eq, not_true_eq_false, decide_false,
    Option.isSome_none, Bool.not_true, Bool.or_self, Bool.false_eq_true, if_false]
  rw [hstart]
  simp only [hwrite]

/-- R313, R354. A serving RUN that was told to stop completes OK between its passes, while the Hall Schedulers serve. -/
theorem State.endStopped_of_serves {v : Serve} (hserves : (s.partn p).serves.find? (fun v => v.s = w) = some v) :
    s.endStopped p w = if v.stopping ∧ v.batch = none ∧ s.working = true ∧ s.hallsServe (s.halls p) compLaunch = true ∧
        s.hallsServe (s.halls p) compWatch = true then ((s.endServe p w v.q).complete p w v.q .ok).runPeriodEnd p else s := by
  simp only [endStopped, hserves, Bool.and_eq_true, Option.isNone_iff_eq_none, and_assoc]

/-- R332. The slots of a pass that is done are freed, each consumes its tokens or gets its token record, and the RUN ends if it was told to
stop. -/
theorem exec_servePassEnd {v : Serve} {d : ServeDecl} {g : Segment} {b : Batch}
    (hserves : (s.partn p).serves.find? (fun v => v.s = w) = some v) (hdecl : v.img.serve = some d)
    (hsegment : s.segment p w v.q = some g) (hbatch : v.batch = some b) (hstop : g.stop = none) (hdone : s.finishedCores g = true)
    (hschedule : (s.partn p).scheduleDone w v.q = true) (hworking : s.working = true) :
    let u := (s.releaseCores g).onPartn p fun x => { x with xruns := x.xruns.filter fun r => !(r.s = w && r.q = v.q) }
    let u := u.onPartn p fun x => x.onServes fun e => if e.s = w && e.q = v.q then { e with batch := none } else e
    let u := if b.feed then b.slots.foldl (fun s b => s.endFeedSlot p b) u else b.slots.zipIdx.foldl (fun s e => s.endTokenSlot p d e) u
    exec (.servePassEnd p w) s = .next (u.endStopped p w) := by
  change execServePassEnd p w s = _
  simp only [execServePassEnd, hserves, hdecl, hsegment, hbatch, hstop, hdone, hschedule, hworking, Option.isSome_none, Bool.not_true,
    Bool.or_self, Bool.false_eq_true, if_false]

end Serves

/-! ## Requests -/

/-- R227, R305. A command that may start acts in the state that has it running, unless its stream's step was discarded. -/
theorem State.startIf_of_may {s : State} {p w q op : Nat} {k : Cmd} {may : Cmd → Bool} (hcmd : s.cmd p w q = some k) (hop : k.op = op)
    (hmay : may k = true) (hkept : (s.partn p).step = .discarded → (s.partn p).stepOwner ≠ w) (act : Cmd → State → State) :
    s.startIf p w q op may act = act k (begun s p w q) := by
  have hstarts : ¬(k.op ≠ op || !may k) = true := by simp [hop, hmay]
  have hacts : ¬((s.partn p).step = .discarded && (s.partn p).stepOwner = w && op ≠ opStepOpen && op ≠ opStepDiscard) = true := by
    simp only [Bool.and_eq_true, decide_eq_true_eq]
    rintro ⟨⟨⟨hdiscarded, howner⟩, -⟩, -⟩
    exact hkept hdiscarded howner
  simp only [startIf, hcmd]
  exact (if_neg hstarts).trans (if_neg hacts)

/-- R329. A command that starts opens and ends no serving RUN. -/
theorem serves_begun (s : State) (p w q : Nat) : ((begun s p w q).partn p).serves = (s.partn p).serves := by
  unfold begun State.onCmd State.onStream
  rw [State.partn_onPartn]
  rfl

/-- An update of a partition is one of the partition as it stands. -/
theorem State.onPartn_congr {s : State} {p : Nat} {f g : Partition → Partition} (h : f (s.partn p) = g (s.partn p)) :
    s.onPartn p f = s.onPartn p g := congrArg (s.setPartn p) h

section Requests

variable {p w q : Nat} {s : State} {k : Cmd} (hcmd : s.cmd p w q = some k) (hallowed : s.startAllowed p w k = true)
  (hkept : (s.partn p).step = .discarded → (s.partn p).stepOwner ≠ w)
include hcmd hallowed hkept

/-- R329. A REQUEST_OPEN takes the lowest free context slot of its serving RUN. -/
theorem exec_requestOpen {v : Serve} {c : Nat} (hop : k.op = 0x50) (hopen : ((s.partn p).stream w).openBefore k = none)
    (hrequest : (s.partn p).openRequest w = none) (hserves : (s.partn p).serveOf (k.f 447 434) = some v)
    (hslot : v.freeSlot = some c) :
    exec (.requestOpen p w q) s = .next ((begun s p w q).onPartn p fun y => y.onServes fun e =>
      if e = v then { e with requests := e.requests ++
        [{ stream := w, openSeq := q, irq := k.irq, ctx := c, maxTokens := k.f 433 418,
           endToken := BitVec.ofNat 32 (k.f 417 386), seed := BitVec.ofNat 64 (k.f 385 322),
           order := k.order }] } else e) := by
  change execRequestOpen p w q s = _
  unfold execRequestOpen
  dsimp only
  rw [State.startIf_of_may (op := opReqOpen) hcmd hop (by simp [hallowed, hopen, hrequest, hserves, hslot]) hkept]
  have hbegun : ((begun s p w q).partn p).serveOf (k.f 447 434) = some v := by
    unfold Partition.serveOf at hserves ⊢
    rw [serves_begun, hserves]
  simp only [hserves, hslot, Option.bind_some]
  exact congrArg Host.Outcome.next (State.onPartn_congr (by simp only [hbegun, Option.some.injEq]))

/-- R329. The tokens of a FEED that translate are fed to the request of its open. -/
theorem exec_requestFeed {j : Cmd} (hop : k.op = 0x51) (hfirst : ∀ e ∈ ((s.partn p).stream w).before k, e.op ≠ 0x51)
    (hopen : ((s.partn p).stream w).openBefore k = some j) (hruns : j.phase = .running)
    (htokens : (begun s p w q).vcheck p (k.f 447 400) (4 * k.f 399 384) false = none) :
    exec (.requestFeed p w q) s = .next ((begun s p w q).onPartn p fun y => y.onRequest w j.seq fun r =>
      { r with feeds := [{ seq := q, addr := k.f 447 400, ntok := k.f 399 384, used := 0, last := bit k.n 383 }] }) := by
  have hearlier : (((s.partn p).stream w).before k).all (fun e => e.op ≠ opReqFeed) = true :=
    List.all_eq_true.2 fun e he => decide_eq_true (hfirst e he)
  change execRequestFeed p w q s = _
  unfold execRequestFeed
  dsimp only
  rw [State.startIf_of_may (op := opReqFeed) hcmd hop (by simp only [hallowed, hearlier, hopen, hruns, decide_true, Bool.and_self]) hkept]
  simp only [hopen, htokens]

/-- R329. A CLOSE frees the context slots of its stream's ended requests. -/
theorem exec_requestClose (hop : k.op = 0x52) (hclosed : ((s.partn p).stream w).openBefore k = none) :
    exec (.requestClose p w q) s = .next (((begun s p w q).onPartn p fun y => y.onServes fun v =>
      { v with requests := v.requests.filter fun r => !(r.stream = w && r.ended) }).complete p w q .ok) := by
  have hnone : (s.stream p w).openBefore k = none := hclosed
  change execRequestClose p w q s = _
  unfold execRequestClose
  dsimp only
  rw [State.startIf_of_may (op := opReqClose) hcmd hop (by simp only [hallowed, hnone, Option.isNone_none, Bool.and_self]) hkept]

end Requests

end Sys2Proof.Machine

open Sys2Proof Sys2Proof.Machine Sys2Proof.Claims in
/-- Settles O31: the start of a serving RUN, the start and the end of its passes, and its own end. -/
theorem servingRunsPass : Obligations.ServingRunsPass := by
  unfold Obligations.ServingRunsPass
  intro p w q s k
  refine ⟨?starts, ?passes, fun v t => State.endStopped_of_serves, fun v d g b => exec_servePassEnd⟩
  case starts =>
    intro img b u hinstalled hfirst hstarts hserve hstep hsound hserving hcmd
    exact exec_runServe_of_startRun hfirst hserve (State.startRun_serving hstarts hserve hstep hsound hserving hinstalled) hcmd
  case passes =>
    intro v d g c t hserves hdecl hsegment hcmd hchoice hbetween hgoesOn hrunning hworking hlease hsettled hkept cores hlaunch hbatches
      hon hfree hfirst
    exact exec_servePassStart hserves hdecl hsegment hcmd hchoice
      ⟨hbetween, hgoesOn, hrunning, hworking, hlease, hsettled, hkept, hlaunch, hbatches, hon, hfree, hfirst⟩

open Sys2Proof Sys2Proof.Machine Sys2Proof.Claims in
/-- Settles O32: the outcome of each of the three commands once it may start. -/
theorem requestsOpenFeedAndClose : Obligations.RequestsOpenFeedAndClose := by
  unfold Obligations.RequestsOpenFeedAndClose
  intro p w q s k x b hcmd hallowed hkept
  exact ⟨fun v c => exec_requestOpen hcmd hallowed hkept, fun j => exec_requestFeed hcmd hallowed hkept,
    exec_requestClose hcmd hallowed hkept⟩
end

section
/-! PROOFS. IMPORT and EXPORT (R168, R180, R235, R308, R336, R369): an object or a recovery takes the frames that the host gives, and the
training state goes out and comes back as shard records. -/

namespace Sys2Proof.Machine

open Sys2Proof.Claims

/-! ## IMPORT of an object, and of a recovery's extent -/

section Import

variable {p w q : Nat} {s : State} {k : Cmd} {fs : List (List Byte)}

/-- R168, R336. An object may take a version of n tiles: it has that many, or it is new and the partition has room for it. -/
structure RoomFor (s : State) (p x n : Nat) : Prop where
  same : (s.obj p x).created = true → (s.obj p x).tiles = n
  fits : (s.obj p x).created = false → s.namespaceFull p n = false ∧
    ((s.partn p).objects.filter fun e => e.2.created).length < 2097152

/-- R308. An IMPORT of good frames for an object that may take them arrives at the object. -/
theorem exec_importObject (hstarts : Starts s p w q 0x41 k) (hmode : k.f 447 446 = 0) (hserves : s.tierServing (k.f 397 366) = true)
    (hwritable : (begun s p w q).lake.readOnly = false) (hroom : RoomFor (begun s p w q) p (k.f 397 366) (k.f 365 334))
    (hsource : (begun s p w q).vcheck p (k.f 445 398) (k.f 365 334 * frameBytes) false = none)
    (hframes : (begun s p w q).readFrames p (k.f 445 398) (k.f 365 334) = .ok fs) :
    exec (.importObject p w q) s = .next ((begun s p w q).tierArrive p (k.f 397 366) (.importVersion w q fs)) := by
  have hcmd : s.cmd p w q = some k := hstarts.1
  change execImportObject p w q s = _
  simp only [execImportObject, hcmd, hmode, hserves, ne_eq, not_true_eq_false, decide_false, Bool.not_true, Bool.or_self,
    Bool.false_eq_true, if_false]
  rw [State.startCmd_of_starts (op := opImport) hstarts]
  cases hcreated : ((begun s p w q).obj p (k.f 397 366)).created with
  | true =>
    have htiles := hroom.same hcreated
    simp only [hwritable, htiles, hsource, hframes, not_true_eq_false, decide_false, Bool.and_false, Bool.not_true,
      Bool.false_and, Bool.false_eq_true, if_false]
  | false =>
    obtain ⟨hspace, hcount⟩ := hroom.fits hcreated
    have hfew : ¬2097152 ≤ (((begun s p w q).partn p).objects.filter fun e => e.2.created).length := Nat.not_le.2 hcount
    simp only [hwritable, hspace, hfew, hsource, hframes, decide_false, Bool.and_false, Bool.false_and, Bool.false_eq_true,
      if_false]

/-- R179, R180. The frames that a recovery has asked the host for end it. -/
theorem exec_importRepair {r : Recovery} (hstarts : Starts s p w q 0x41 k) (hwritable : (begun s p w q).lake.readOnly = false)
    (hmode : k.f 447 446 = 1) (hserves : s.tierServes (k.f 397 366) compRecovery = true)
    (hrecovery : ((begun s p w q).obj p (k.f 397 366)).recovery = some r) (hasked : r.source = 4 ∨ r.asked = true)
    (hextent : r.ext = k.f 333 314) (hversion : ((begun s p w q).obj p (k.f 397 366)).version.toNat = k.f 313 250)
    (hsource : (begun s p w q).vcheck p (k.f 445 398)
      ((((begun s p w q).obj p (k.f 397 366)).extentFrames r.ext).length * frameBytes) false = none)
    (hframes : (begun s p w q).readFrames p (k.f 445 398) (((begun s p w q).obj p (k.f 397 366)).extentFrames r.ext).length = .ok fs)
    (hgood : framesBad ((begun s p w q).obj p (k.f 397 366)).version (((begun s p w q).obj p (k.f 397 366)).extentFrames r.ext) fs 0 =
      none) :
    exec (.importRepair p w q) s = .next (((begun s p w q).complete p w q .ok).recovered p (k.f 397 366) r fs 0x3204) := by
  have hcmd : s.cmd p w q = some k := hstarts.1
  have hnamed : (r.source ≠ 4 && !r.asked || r.ext ≠ k.f 333 314 ||
      ((begun s p w q).obj p (k.f 397 366)).version.toNat ≠ k.f 313 250) = false := by
    simpa [hextent, hversion, or_iff_not_imp_left] using hasked
  change execImportRepair p w q s = _
  simp only [execImportRepair, hcmd, hmode, hserves, ne_eq, not_true_eq_false, decide_false, Bool.not_true, Bool.or_self,
    Bool.false_eq_true, if_false]
  rw [State.startCmd_of_starts (op := opImport) hstarts]
  simp only [hrecovery]
  rw [if_neg (ne_true_of_eq_false hnamed)]
  simp only [hwritable, hsource, hframes, hgood, Bool.false_eq_true, if_false]

end Import

/-! ## EXPORT -/

section Export

variable {p w q : Nat} {s : State} {k : Cmd} {recs xrecs : List U1024} (hstarts : Starts s p w q 0x40 k)
  (hidle : ((begun s p w q).partn p).step = .idle) (hintact : ((begun s p w q).partn p).stateIntact = true)
  (hlists : (begun s p w q).readLists p (k.f 447 400) (k.f 399 384) (k.f 383 336) (k.f 335 320) = .ok (recs, xrecs))
include hstarts hidle hintact hlists

/-- R235, R308. The records of the named parts go to the destination, and the EXPORT completes with what came of it. -/
theorem exec_exportState {l : List (ShardPart × Nat × Nat × Nat)} (hsound : (begun s p w q).poisonedPart p (k.f 231 227) recs = none)
    (hshapes : (begun s p w q).shapes p (((begun s p w q).partn p).shardParts (k.f 231 227) recs xrecs ((begun s p w q).sourceFmt p)) =
      (l, none))
    (hfits : shardBytes l ≤ k.f 271 232) (hwritable : (begun s p w q).vcheck p (k.f 319 272) (shardBytes l) true = none) :
    exec (.exportState p w q) s = .next (((begun s p w q).writeShards p (k.f 319 272) l).1.complete p w q
      ((begun s p w q).writeShards p (k.f 319 272) l).2) := by
  change execExportState p w q s = _
  unfold execExportState
  rw [State.startCmd_of_starts (op := opExport) hstarts]
  simp only [hidle, hintact, hlists, hshapes, hsound, hwritable, Nat.not_lt.2 hfits, ne_eq, not_true_eq_false, decide_false,
    Bool.not_true, Bool.or_self, Bool.false_eq_true, if_false]

/-- R174, R308. An EXPORT of a poisoned object completes POISONED. -/
theorem exec_exportState_poisoned {o : Nat} (hpoison : (begun s p w q).poisonedPart p (k.f 231 227) recs = some o) :
    exec (.exportState p w q) s = .next ((begun s p w q).complete p w q (.poisoned o)) := by
  change execExportState p w q s = _
  unfold execExportState
  rw [State.startCmd_of_starts (op := opExport) hstarts]
  simp only [hidle, hintact, hlists, hpoison, ne_eq, not_true_eq_false, decide_false, Bool.not_true, Bool.or_self, Bool.false_eq_true,
    if_false]

end Export

/-! ## IMPORT of shard records -/

section Restore

variable {p w q : Nat} {s : State} {k : Cmd}

/-- R308, R451. An IMPORT of shard records starts in IDLE, notes a source that lies in a peer, and goes on. -/
theorem exec_importShard (hstarts : Starts s p w q 0x41 k) (hmode : k.f 447 446 = 2) (hworking : s.working = true)
    (hidle : ((begun s p w q).partn p).step = .idle) :
    exec (.importShard p w q) s = .next ((if (begun s p w q).peerSource p (k.f 445 398) then
      (begun s p w q).onLoads p fun l => l ++ [{ s := w, q := q }] else begun s p w q).continueImport p w q) := by
  have hcmd : s.cmd p w q = some k := hstarts.1
  change execImportShard p w q s = _
  simp only [execImportShard, hcmd, hmode, hworking, ne_eq, not_true_eq_false, decide_false, Bool.not_true, Bool.or_self,
    Bool.false_eq_true, if_false]
  rw [State.startCmd_of_starts (op := opImport) hstarts]
  simp only [hidle, not_true_eq_false, if_false]

/-- R308. The verified frames of one part go to its places in the lake. -/
def State.restorePart (s : State) (p : Nat) (e : Nat × List (List Byte)) : State :=
  e.2.zipIdx.foldl (fun s f => match s.vwrite p (e.1 + f.2 * frameBytes) f.1 with
    | .ok t => t
    | .error _ => s) s

/-- R308, R369. Once every record has been verified, the frames of every part are written, the state is intact and the IMPORT completes. -/
theorem State.continueImport_of_plan {recs xrecs : List U1024} {l : List (Nat × List (List Byte))} (hcmd : s.cmd p w q = some k)
    (hop : k.op = 0x41) (hruns : k.phase = .running)
    (hlists : s.readLists p (k.f 397 350) (k.f 349 334) (k.f 333 286) (k.f 285 270) = .ok (recs, xrecs))
    (hplan : s.planImport p (k.f 445 398) ((s.partn p).loads.find? fun l => l.s = w && l.q = q) recs xrecs = .ok l) :
    let t := l.foldl (fun s e => s.restorePart p e) (s.dropLoad p w q)
    s.continueImport p w q = (t.onPartn p fun x => { x with
      stateIntact := true, imported := true, importRecs := t.importedRecs p recs }).complete p w q .ok := by
  intro t
  have hrunning : s.runningCmd p w q opImport = some k := by
    unfold runningCmd
    rw [hcmd]
    exact if_pos (by simp [hop, hruns, opImport])
  unfold continueImport
  rw [hrunning]
  dsimp only
  rw [hlists]
  dsimp only
  rw [hplan]
  rfl

end Restore

end Sys2Proof.Machine

open Sys2Proof Sys2Proof.Machine Sys2Proof.Claims in
/-- Settles O33: the outcome of each IMPORT and of EXPORT once nothing refuses it, and of an EXPORT of a poisoned object. -/
theorem importsAndShards : Obligations.ImportsAndShards := by
  unfold Obligations.ImportsAndShards
  refine ⟨?objects, ?shards⟩
  case objects =>
    intro p w q s k fs b x n a hstarts hwritable
    refine ⟨fun hmode hserves hsame hfits => exec_importObject hstarts hmode hserves hwritable ⟨hsame, hfits⟩, ?repair⟩
    exact fun r => exec_importRepair hstarts hwritable
  case shards =>
    intro p w q s k b n
    refine ⟨?exports, ?poisoned, exec_importShard, fun recs xrecs l => State.continueImport_of_plan⟩
    case exports =>
      intro recs xrecs l hstarts hidle hintact hlists hsound
      exact exec_exportState hstarts hidle hintact hlists hsound
    case poisoned =>
      intro recs xrecs o hstarts hidle hintact hlists
      exact exec_exportState_poisoned hstarts hidle hintact hlists
end

section
/-! PROOFS. Sessions, leases and registers (R291 to R294, R320 to R327, R392, R393, R440): what the host's writes to a function's BARs do,
and how a session begins, resumes and ends. -/

namespace Sys2Proof.Machine

/-! ## Sessions -/

section Sessions

variable {p : Nat} {s : State}

theorem exec_attach (hwrites : s.hostWrites = true) (v : U64) : exec (.attach p v) s = .next (s.attach p v).startWake := by
  change execAttach p v s = _
  simp only [execAttach, hwrites, if_true]

/-- R321. ATTACH with 0 begins a session of a DETACHED partition whose host sets feature 0. -/
theorem State.attach_new (hst : (s.partn p).st = .detached) (hfeature : (s.partn p).regs.featHost.getLsbD 0 = true) :
    s.attach p 0 = s.fresh.beginSession p (newToken (s.partn p).tokens (Config.token s.freeUsed)) := by
  simp [attach, hst, hfeature]

/-- R324. ATTACH with the current token resumes a session whose lease had expired. -/
theorem State.attach_resumes {v : U64} (hnonzero : v ≠ 0) (htoken : v = (s.partn p).regs.session)
    (hst : (s.partn p).st = .orphan ∨ (s.partn p).st = .parked ∨ (s.partn p).st = .exported)
    (hfeature : (s.partn p).regs.featHost.getLsbD 0 = true) :
    s.attach p v = ((s.beginSession p v).raiseP 0x6102 p []).flushAll p := by
  have hnone : (s.partn p).st ≠ .none := by rcases hst with h | h | h <;> simp [h]
  have hexpired : (s.partn p).st ≠ .attached := by rcases hst with h | h | h <;> simp [h]
  have hmay : ((s.partn p).st = .orphan || (s.partn p).st = .parked || (s.partn p).st = .exported) = true := by
    simpa only [Bool.or_eq_true, decide_eq_true_eq, or_assoc] using hst
  subst htoken
  simp only [attach, hnone, hexpired, hmay, hnonzero, hfeature, ne_eq, not_false_eq_true, decide_true, decide_false, Bool.and_true,
    Bool.and_false, Bool.false_and, Bool.not_true, Bool.not_false, Bool.or_self, Bool.false_eq_true, if_false]

/-- R322. ATTACH with the current token renews the lease of an attached session. -/
theorem State.attach_renews {v : U64} (hnonzero : v ≠ 0) (htoken : v = (s.partn p).regs.session) (hst : (s.partn p).st = .attached) :
    s.attach p v = s.onPartn p fun x => { x with leaseFrom := s.now } := by
  subst htoken
  simp only [attach, hst, hnonzero, ne_eq, not_false_eq_true, reduceCtorEq, decide_true, Bool.and_self, if_true, if_false]

/-! ## Leases -/

theorem exec_lease (hwrites : s.hostWrites = true) (v : U64) : exec (.lease p v) s = .next (s.renewLease p v) := by
  change execLease p v s = _
  simp only [execLease, hwrites, if_true]

/-- R322. LEASE with the current token renews the lease. -/
theorem State.renewLease_renews {v : U64} (hnonzero : v ≠ 0) (htoken : v = (s.partn p).regs.session)
    (hst : (s.partn p).st = .attached) (hruns : (s.partn p).leaseExpired = false) :
    s.renewLease p v = s.onPartn p fun x => { x with leaseFrom := s.now } := by
  subst htoken
  simp only [renewLease, hst, hnonzero, hruns, ne_eq, not_true_eq_false, reduceCtorEq, decide_true, decide_false, Bool.not_false,
    Bool.or_self, Bool.and_self, Bool.false_eq_true, if_true, if_false]

/-- R322. Any other value is counted. -/
theorem State.renewLease_counted {v : U64} (hst : (s.partn p).st ≠ .none) (hother : v = 0 ∨ v ≠ (s.partn p).regs.session) :
    s.renewLease p v = s.bumpP p 0x80B0 15 1 := by
  have hcounted : (v = 0 || v ≠ (s.partn p).regs.session) = true := by
    simpa only [Bool.or_eq_true, decide_eq_true_eq] using hother
  unfold renewLease
  exact (if_neg hst).trans (if_pos hcounted)

theorem exec_leaseExpiry (hup : s.up = true) : exec (.leaseExpiry p) s = .next (s.expireLease p) := by
  change execLeaseExpiry p s = _
  simp only [execLeaseExpiry, hup, if_true]

/-- R359. A lease that expires in a failover is latched. -/
theorem State.expireLease_latched (hst : (s.partn p).st = .attached) (hfailover : s.sup.failover = true) :
    s.expireLease p = s.onPartn p fun x => { x with leaseExpired := true } := by
  simp only [expireLease, hst, hfailover, ne_eq, not_true_eq_false, if_false, if_true]

/-- R323. A lease that expires makes its partition ORPHAN. -/
theorem State.expireLease_orphan (hst : (s.partn p).st = .attached) (hserving : s.sup.failover = false) :
    s.expireLease p = s.enterOrphan p := by
  simp only [expireLease, hst, hserving, ne_eq, not_true_eq_false, Bool.false_eq_true, if_false]

/-- R323. An ORPHAN partition without work becomes PARKED. -/
theorem exec_partitionPark (hup : s.up = true) (hst : (s.partn p).st = .orphan) (hidle : s.orphanWork p = false)
    (hhold : (s.partn p).holdElapsed = false) :
    exec (.partitionPark p) s = .next ((s.onPartn p fun x => { x with st := .parked }).raiseP 0x6103 p []) := by
  change execPartitionPark p s = _
  simp only [execPartitionPark, hup, hst, hidle, hhold, ne_eq, not_true_eq_false, decide_false, Bool.not_true, Bool.or_self,
    Bool.false_eq_true, if_false]

/-- R325. The orphan hold elapses: a PARKED partition is exported, an ORPHAN one once it has become PARKED. -/
theorem exec_orphanHoldExpiry (hup : s.up = true) (hsince : (s.partn p).orphanSince ≠ none) :
    let u := s.onPartn p fun x => { x with orphanSince := none }
    exec (.orphanHoldExpiry p) s = .next (if (s.partn p).st = .parked then u.orphanExport p
      else if (s.partn p).st = .orphan then u.onPartn p fun x => { x with holdElapsed := true } else u) := by
  have hacts : ¬((s.partn p).orphanSince.isNone || !s.up) = true := by simpa [hup] using hsince
  exact if_neg hacts

/-- R327. A reset of a function beside PF0, which alone has a mailbox. -/
theorem exec_functionLevelReset (hpos : 0 < p) (hlt : p < 4) (hwrites : s.hostWrites = true) :
    exec (.functionLevelReset p) s = .next ((s.onPartn p fun x => x.onRegs FnRegs.msixClear).expireLease p) := by
  have hacts : ¬(decide (4 ≤ p) || !s.hostWrites) = true := by simpa [hwrites] using hlt
  change execFunctionLevelReset p s = _
  unfold execFunctionLevelReset
  refine (if_neg hacts).trans ?_
  simp only [hpos.ne', if_false]

end Sessions

/-! ## Registers of a partition -/

section Registers

variable {p : Nat} {s : State}

/-- R294. -/
theorem exec_ptRoot (hwrites : s.hostWrites = true) (hexists : (s.partn p).st ≠ .none) (v : U64) :
    exec (.ptRoot p v) s = .next (s.onPartn p fun x => x.onRegs fun r => { r with ptRoot := v &&& ptRootMask }) := by
  change execPtRoot p v s = _
  simp only [execPtRoot, State.setPtRoot, hwrites, hexists, if_true, if_false]

/-- R320. -/
theorem exec_fqHead (hwrites : s.hostWrites = true) (hexists : (s.partn p).st ≠ .none) (v : U64) :
    let u := s.onPartn p fun x => x.onRegs fun r => { r with fqHead := v }
    exec (.fqHead p v) s = .next (u.postFaults p (u.partn p).faultWaiting.length) := by
  change execFqHead p v s = _
  simp only [execFqHead, State.setFqHead, hwrites, hexists, if_true, if_false]

/-- R291, R393. -/
theorem exec_mbCtrl (hwrites : s.hostWrites = true) (hexists : (s.partn 0).st ≠ .none) (v : U64) :
    exec (.mbCtrl v) s = .next (s.mailboxCtrl v) := by
  change execMbCtrl v s = _
  simp only [execMbCtrl, hwrites, hexists, ne_eq, not_false_eq_true, decide_true, Bool.and_self, if_true]

/-- R291. Without partition 0 there is no mailbox. -/
theorem exec_mbCtrl_absent (habsent : (s.partn 0).st = .none) (v : U64) : exec (.mbCtrl v) s = .next s := by
  change execMbCtrl v s = _
  simp only [execMbCtrl, habsent, ne_eq, not_true_eq_false, decide_false, Bool.and_false, Bool.false_eq_true, if_false]

/-- R392, R393. -/
theorem State.mailboxCtrl_idle (hidle : s.mgmt.mbBusy = false) (v : U64) :
    s.mailboxCtrl v = { s with mgmt := { s.mgmt with mbBusy := true, mbReady := false, mbCtrl := v } } := by
  simp only [mailboxCtrl, hidle, Bool.false_eq_true, if_false]

theorem State.mailboxCtrl_busy (hbusy : s.mgmt.mbBusy = true) (v : U64) : s.mailboxCtrl v = s.badAccess 0 := by
  simp only [mailboxCtrl, hbusy, if_true]

end Registers

/-! ## BAR0 and BAR4 -/

section Bars

variable {p offset size : Nat} {s : State} {v : U64} (hwrites : s.hostWrites = true) (hp : p < 4)
include hwrites hp

/-- R293. -/
theorem exec_registerWrite_bar0 (hsize : size = 8) (haligned : offset % 8 = 0) :
    exec (.registerWrite p 0 offset size v) s = .next (s.bar0Write p offset v) := by
  change execRegisterWrite p 0 offset size v s = _
  simp [execRegisterWrite, hwrites, Nat.not_le.2 hp, hsize, haligned]

/-- R293. -/
theorem exec_registerWrite_bad (hbad : size ≠ 8 ∨ offset % 8 ≠ 0) :
    exec (.registerWrite p 0 offset size v) s = .next (s.badAccess p) := by
  change execRegisterWrite p 0 offset size v s = _
  simp [execRegisterWrite, hwrites, Nat.not_le.2 hp, hbad]

/-- R292. -/
theorem exec_registerWrite_bar4 : exec (.registerWrite p 4 offset size v) s = .next (s.msixWrite p offset size v) := by
  change execRegisterWrite p 4 offset size v s = _
  simp [execRegisterWrite, hwrites, Nat.not_le.2 hp]

end Bars

/-! ## The MSI-X table (R292) -/

/-- Byte i of a number, the least significant first. -/
theorem leBytes_getD {n i : Nat} (hi : i < n) (v : Nat) : (leBytes n v).getD i 0 = BitVec.ofNat 8 (v / 256 ^ i) := by
  induction n generalizing i v with
  | zero => exact absurd hi (Nat.not_lt_zero i)
  | succ n ih =>
    cases i with
    | zero => simp [leBytes]
    | succ i => rw [leBytes, List.getD_cons_succ, ih (Nat.lt_of_succ_lt_succ hi), Nat.div_div_eq_div_mul, Nat.pow_succ']

/-- The bytes that a write of n bytes at an offset keeps: each differs from its reset value where the written byte does. -/
def msixBytes (offset n v : Nat) : List Byte := (leBytes n v).zipIdx.map fun e => e.1 ^^^ msixReset (offset + e.2)

theorem msixBytes_getD {n i : Nat} (hi : i < n) (offset v : Nat) :
    (msixBytes offset n v).getD i 0 = BitVec.ofNat 8 (v / 256 ^ i) ^^^ msixReset (offset + i) := by
  have hbyte := leBytes_getD hi v
  unfold msixBytes
  simp only [List.getD_eq_getElem?_getD, List.getElem?_map, List.getElem?_zipIdx] at hbyte ⊢
  rw [List.getElem?_eq_getElem (by simpa using hi)] at hbyte ⊢
  simp only [Option.map_some, Option.getD_some, Nat.zero_add] at hbyte ⊢
  rw [hbyte]

/-- A table that a write has reached reads as written there, and as before elsewhere. -/
theorem FnRegs.msixByte_of_write {r old : FnRegs} {offset n v : Nat}
    (htable : r.msixTable = old.msixTable.putBytes offset (msixBytes offset n v)) (i : Nat) :
    r.msixByte i = if offset ≤ i ∧ i < offset + n then BitVec.ofNat 8 (v / 256 ^ (i - offset)) else old.msixByte i := by
  have hlength : (msixBytes offset n v).length = n := by simp [msixBytes]
  have hread := Table.byte_putBytes old.msixTable offset (msixBytes offset n v) i
  rw [hlength, ← htable] at hread
  change r.msixTable.byte i ^^^ msixReset i = _
  rw [hread]
  split
  next hin =>
    obtain ⟨hfrom, hto⟩ := hin
    rw [msixBytes_getD (by omega), Nat.add_sub_cancel' hfrom, BitVec.xor_assoc, BitVec.xor_self, BitVec.xor_zero]
  next => rfl

/-- R292. A write within the table of a function that has a partition. -/
theorem State.msixWrite_table {p offset size : Nat} {s : State} {v : U64} (hfits : offset + size ≤ 0x8000)
    (hexists : (s.partn p).st ≠ .none) :
    s.msixWrite p offset size v = (s.onPartn p fun x => x.onRegs fun r => { r with
      msixTable := (s.partn p).regs.msixTable.putBytes offset (msixBytes offset (Min.min size 8) v.toNat) }).sendPending p := by
  have hacts : ¬((s.partn p).st = .none || decide (0x8000 < offset + size)) = true := by simp [hexists, hfits]
  exact if_neg hacts

/-- R292. A function without a partition has no table. -/
theorem State.msixWrite_absent {p offset size : Nat} {s : State} {v : U64} (habsent : (s.partn p).st = .none) :
    s.msixWrite p offset size v = s := by
  simp only [msixWrite, habsent, decide_true, Bool.true_or, if_true]

section Signal

variable {p vector : Nat} {s : State}

/-- R292. The message of a vector that is not masked is sent. -/
theorem State.signal_unmasked (hunmasked : (s.partn p).regs.masked vector = false) :
    (s.signal p vector).msix = s.msix ++ [(p, vector)] ∧ (s.signal p vector).parts = (s.onPartn p id).parts := by
  have hpend : (s.partn p).regs.pend vector = (s.partn p).regs := by
    simp only [FnRegs.pend, hunmasked, Bool.false_and, Bool.false_eq_true, if_false]
  rw [signal_msix, signal_parts, onPartn, hpend]
  exact ⟨if_neg (by simp [hunmasked]), rfl⟩

/-- R292. The message of a masked vector becomes pending. -/
theorem State.signal_masked (hmasked : (s.partn p).regs.masked vector = true) :
    (s.signal p vector).msix = s.msix ∧ vector ∈ ((s.signal p vector).partn p).regs.msixPending := by
  have hregs : ((s.signal p vector).partn p).regs = (s.partn p).regs.pend vector :=
    congrArg Partition.regs (s.partn_onPartn p fun x => { x with regs := x.regs.pend vector })
  rw [signal_msix, hregs]
  refine ⟨if_pos hmasked, ?_⟩
  unfold FnRegs.pend
  by_cases hpending : vector ∈ (s.partn p).regs.msixPending
  · simp [hmasked, hpending]
  · simp [hmasked, hpending]

end Signal

end Sys2Proof.Machine

open Sys2Proof Sys2Proof.Machine Sys2Proof.Claims in
/-- Settles O39: the outcome of ATTACH, LEASE, a lease's expiry, parking, the orphan hold and a function's reset. -/
theorem sessionsAndLeases : Obligations.SessionsAndLeases := by
  unfold Obligations.SessionsAndLeases
  intro p s x
  refine ⟨fun hwrites hexists => ⟨?new, fun v hnonzero htoken => ⟨?resumes, ?renews, ?lease⟩, ?counted⟩,
    fun hup hst => ⟨?latched, ?orphan⟩, exec_partitionPark, fun hup hsince => ?hold, exec_functionLevelReset⟩
  case new =>
    intro hst hfeature
    rw [exec_attach hwrites, State.attach_new hst hfeature]
  case resumes =>
    intro hst hfeature
    rw [exec_attach hwrites, State.attach_resumes hnonzero htoken hst hfeature]
  case renews =>
    intro hst
    rw [exec_attach hwrites, State.attach_renews hnonzero htoken hst]
  case lease =>
    intro hst hruns
    rw [exec_lease hwrites, State.renewLease_renews hnonzero htoken hst hruns]
  case counted =>
    intro v hother
    rw [exec_lease hwrites, State.renewLease_counted hexists hother]
  case latched =>
    intro hfailover
    rw [exec_leaseExpiry hup, State.expireLease_latched hst hfailover]
  case orphan =>
    intro hserving
    rw [exec_leaseExpiry hup, State.expireLease_orphan hst hserving]
    rfl
  case hold =>
    refine ⟨fun hst => ?exported, fun hst => ?noted⟩
    case exported => exact (exec_orphanHoldExpiry hup hsince).trans (congrArg _ (if_pos hst))
    case noted =>
      have hnot : ¬x.st = .parked := by simp [hst]
      exact (exec_orphanHoldExpiry hup hsince).trans (congrArg _ ((if_neg hnot).trans (if_pos hst)))

open Sys2Proof Sys2Proof.Machine Sys2Proof.Claims in
/-- Settles O40: the writes to a partition's registers, to BAR0 and to the MSI-X table, and the message of a vector. -/
theorem registerWritesActByAddress : Obligations.RegisterWritesActByAddress := by
  unfold Obligations.RegisterWritesActByAddress
  intro s hwrites
  refine ⟨fun p v hexists => ⟨exec_ptRoot hwrites hexists v, exec_fqHead hwrites hexists v⟩, fun v habsent => exec_mbCtrl_absent habsent v,
    fun v hexists => ⟨?starts, ?discarded⟩, fun p offset size v hp => ⟨exec_registerWrite_bar0 hwrites hp,
      exec_registerWrite_bad hwrites hp, ?table, ?absent, fun vector => ⟨Iff.rfl, State.signal_unmasked, State.signal_masked⟩⟩⟩
  case starts =>
    intro hidle
    rw [exec_mbCtrl hwrites hexists, State.mailboxCtrl_idle hidle]
  case discarded =>
    intro hbusy
    rw [exec_mbCtrl hwrites hexists, State.mailboxCtrl_busy hbusy]
  case table =>
    intro hfits hexists
    refine ⟨_, (exec_registerWrite_bar4 hwrites hp).trans (congrArg _ (State.msixWrite_table hfits hexists)), ?_⟩
    exact fun r htable => FnRegs.msixByte_of_write htable
  case absent =>
    intro habsent
    rw [exec_registerWrite_bar4 hwrites hp, State.msixWrite_absent habsent]
end

section
/-! PROOFS. What every step keeps (O56 to O59). Every command keeps what `Keeps` says (Laws/Keeps.lean and the files after it, one lemma a
command); a step is a command on the queue's rest or a microsecond; `Ages` is what of it a run of any length keeps. -/

namespace Sys2Proof.Machine

/-! ## A step -/

theorem step_cons (c : Instr) (rest : List Instr) (s : State) :
    step { s with pending := c :: rest } = exec c { s with pending := rest } := rfl

theorem step_idle {s : State} (hidle : s.pending = []) : step s = .next { s.settlePauses with now := s.now + 1 } := by
  unfold step
  rw [hidle]
  rfl

/-- A step that answers a next state ran the command at the front of the queue, or let a microsecond pass. -/
theorem step_cases {s t : State} (h : step s = .next t) :
    (∃ c rest, s.pending = c :: rest ∧ exec c { s with pending := rest } = .next t) ∨
      s.pending = [] ∧ t = { s.settlePauses with now := s.now + 1 } := by
  cases hq : s.pending with
  | nil =>
    rw [step_idle hq] at h
    injection h with ht
    exact .inr ⟨rfl, ht.symm⟩
  | cons c rest =>
    unfold step at h
    rw [hq] at h
    exact .inl ⟨c, rest, rfl, h⟩

/-! ## What every command keeps -/

theorem rkeeps_exec (s : State) (c : Instr) : RKeeps s (exec c s) :=
  match c with
  | .aluAdd _ _ _ => keeps_execAluAdd _ _ _ s (.refl s)
  | .aluSub _ _ _ => keeps_execAluSub _ _ _ s (.refl s)
  | .aluAnd _ _ _ => keeps_execAluAnd _ _ _ s (.refl s)
  | .aluOr _ _ _ => keeps_execAluOr _ _ _ s (.refl s)
  | .aluXor _ _ _ => keeps_execAluXor _ _ _ s (.refl s)
  | .aluShl _ _ _ => keeps_execAluShl _ _ _ s (.refl s)
  | .aluShr _ _ _ => keeps_execAluShr _ _ _ s (.refl s)
  | .aluSra _ _ _ => keeps_execAluSra _ _ _ s (.refl s)
  | .aluMul _ _ _ => keeps_execAluMul _ _ _ s (.refl s)
  | .aluMulhu _ _ _ => keeps_execAluMulhu _ _ _ s (.refl s)
  | .aluDivu _ _ _ => keeps_execAluDivu _ _ _ s (.refl s)
  | .aluRemu _ _ _ => keeps_execAluRemu _ _ _ s (.refl s)
  | .aluMin _ _ _ => keeps_execAluMin _ _ _ s (.refl s)
  | .aluMax _ _ _ => keeps_execAluMax _ _ _ s (.refl s)
  | .aluFadd _ _ _ => keeps_execAluFadd _ _ _ s (.refl s)
  | .aluFsub _ _ _ => keeps_execAluFsub _ _ _ s (.refl s)
  | .aluFmul _ _ _ => keeps_execAluFmul _ _ _ s (.refl s)
  | .aluFdiv _ _ _ => keeps_execAluFdiv _ _ _ s (.refl s)
  | .aluFmin _ _ _ => keeps_execAluFmin _ _ _ s (.refl s)
  | .aluFmax _ _ _ => keeps_execAluFmax _ _ _ s (.refl s)
  | .addi _ _ _ => keeps_execAddi _ _ _ s (.refl s)
  | .andi _ _ _ => keeps_execAndi _ _ _ s (.refl s)
  | .ori _ _ _ => keeps_execOri _ _ _ s (.refl s)
  | .xori _ _ _ => keeps_execXori _ _ _ s (.refl s)
  | .shli _ _ _ => keeps_execShli _ _ _ s (.refl s)
  | .shri _ _ _ => keeps_execShri _ _ _ s (.refl s)
  | .srai _ _ _ => keeps_execSrai _ _ _ s (.refl s)
  | .lis _ _ _ => keeps_execLis _ _ _ s (.refl s)
  | .ld _ _ _ => keeps_execLd _ _ _ s (.refl s)
  | .pondLoadResult _ _ => keeps_execPondLoadResult _ _ s (.refl s)
  | .st _ _ _ => keeps_execSt _ _ _ s (.refl s)
  | .cmpEq _ _ _ => keeps_execCmpEq _ _ _ s (.refl s)
  | .cmpNe _ _ _ => keeps_execCmpNe _ _ _ s (.refl s)
  | .cmpLt _ _ _ => keeps_execCmpLt _ _ _ s (.refl s)
  | .cmpLtu _ _ _ => keeps_execCmpLtu _ _ _ s (.refl s)
  | .cmpGe _ _ _ => keeps_execCmpGe _ _ _ s (.refl s)
  | .cmpGeu _ _ _ => keeps_execCmpGeu _ _ _ s (.refl s)
  | .cmpFeq _ _ _ => keeps_execCmpFeq _ _ _ s (.refl s)
  | .cmpFne _ _ _ => keeps_execCmpFne _ _ _ s (.refl s)
  | .cmpFlt _ _ _ => keeps_execCmpFlt _ _ _ s (.refl s)
  | .cmpFle _ _ _ => keeps_execCmpFle _ _ _ s (.refl s)
  | .cmpFgt _ _ _ => keeps_execCmpFgt _ _ _ s (.refl s)
  | .cmpFge _ _ _ => keeps_execCmpFge _ _ _ s (.refl s)
  | .br _ _ _ => keeps_execBr _ _ _ s (.refl s)
  | .branchShadowEnd _ _ => keeps_execBranchShadowEnd _ _ s (.refl s)
  | .jr _ _ _ => keeps_execJr _ _ _ s (.refl s)
  | .loop _ _ _ => keeps_execLoop _ _ _ s (.refl s)
  | .endThread _ _ _ => keeps_execEndThread _ _ _ s (.refl s)
  | .halt _ _ _ => keeps_execHalt _ _ _ s (.refl s)
  | .bar _ _ _ => keeps_execBar _ _ _ s (.refl s)
  | .barRelease _ _ => keeps_execBarRelease _ _ s (.refl s)
  | .waitq _ _ _ => keeps_execWaitq _ _ _ s (.refl s)
  | .waitqRelease _ _ => keeps_execWaitqRelease _ _ s (.refl s)
  | .csrr _ _ _ => keeps_execCsrr _ _ _ s (.refl s)
  | .ttag _ _ _ => keeps_execTtag _ _ _ s (.refl s)
  | .tld _ _ _ => keeps_execTld _ _ _ s (.refl s)
  | .tst _ _ _ => keeps_execTst _ _ _ s (.refl s)
  | .vop _ _ _ => keeps_execVop _ _ _ s (.refl s)
  | .vdesc _ _ _ => keeps_execVdesc _ _ _ s (.refl s)
  | .spr _ _ _ => keeps_execSpr _ _ _ s (.refl s)
  | .mwait _ _ _ => keeps_execMwait _ _ _ s (.refl s)
  | .mwaitRelease _ _ => keeps_execMwaitRelease _ _ s (.refl s)
  | .mma _ _ _ => keeps_execMma _ _ _ s (.refl s)
  | .mmaExecute _ => keeps_execMmaExecute _ s (.refl s)
  | .epi _ _ _ => keeps_execEpi _ _ _ s (.refl s)
  | .epiExecute _ => keeps_execEpiExecute _ s (.refl s)
  | .accParityError _ _ => keeps_execAccParityError _ _ s (.refl s)
  | .engineQueueAccept _ _ => keeps_execEngineQueueAccept _ _ s (.refl s)
  | .tileLockRelease _ _ => keeps_execTileLockRelease _ _ s (.refl s)
  | .vecAdd _ => keeps_execVecAdd _ s (.refl s)
  | .vecSub _ => keeps_execVecSub _ s (.refl s)
  | .vecMul _ => keeps_execVecMul _ s (.refl s)
  | .vecFma _ => keeps_execVecFma _ s (.refl s)
  | .vecDiv _ => keeps_execVecDiv _ s (.refl s)
  | .vecMax _ => keeps_execVecMax _ s (.refl s)
  | .vecMin _ => keeps_execVecMin _ s (.refl s)
  | .vecAbs _ => keeps_execVecAbs _ s (.refl s)
  | .vecNeg _ => keeps_execVecNeg _ s (.refl s)
  | .vecSqrt _ => keeps_execVecSqrt _ s (.refl s)
  | .vecRsqrt _ => keeps_execVecRsqrt _ s (.refl s)
  | .vecRecip _ => keeps_execVecRecip _ s (.refl s)
  | .vecExp _ => keeps_execVecExp _ s (.refl s)
  | .vecExp2 _ => keeps_execVecExp2 _ s (.refl s)
  | .vecLog _ => keeps_execVecLog _ s (.refl s)
  | .vecLog2 _ => keeps_execVecLog2 _ s (.refl s)
  | .vecTanh _ => keeps_execVecTanh _ s (.refl s)
  | .vecSigmoid _ => keeps_execVecSigmoid _ s (.refl s)
  | .vecSilu _ => keeps_execVecSilu _ s (.refl s)
  | .vecGeluTanh _ => keeps_execVecGeluTanh _ s (.refl s)
  | .vecRelu _ => keeps_execVecRelu _ s (.refl s)
  | .vecCmpeq _ => keeps_execVecCmpeq _ s (.refl s)
  | .vecCmpne _ => keeps_execVecCmpne _ s (.refl s)
  | .vecCmplt _ => keeps_execVecCmplt _ s (.refl s)
  | .vecCmple _ => keeps_execVecCmple _ s (.refl s)
  | .vecCmpgt _ => keeps_execVecCmpgt _ s (.refl s)
  | .vecCmpge _ => keeps_execVecCmpge _ s (.refl s)
  | .vecSel _ => keeps_execVecSel _ s (.refl s)
  | .vecCvt _ => keeps_execVecCvt _ s (.refl s)
  | .vecRsum _ => keeps_execVecRsum _ s (.refl s)
  | .vecRmax _ => keeps_execVecRmax _ s (.refl s)
  | .vecRmin _ => keeps_execVecRmin _ s (.refl s)
  | .vecAblk _ => keeps_execVecAblk _ s (.refl s)
  | .vecAblkFinal _ => keeps_execVecAblkFinal _ s (.refl s)
  | .vecIadd _ => keeps_execVecIadd _ s (.refl s)
  | .vecIsub _ => keeps_execVecIsub _ s (.refl s)
  | .vecImul _ => keeps_execVecImul _ s (.refl s)
  | .vecImax _ => keeps_execVecImax _ s (.refl s)
  | .vecImin _ => keeps_execVecImin _ s (.refl s)
  | .runLaunch _ _ _ => keeps_execRunLaunch _ _ _ s (.refl s)
  | .segmentEnd _ _ _ => keeps_execSegmentEnd _ _ _ s (.refl s)
  | .segmentFaultStopped _ _ _ => keeps_execSegmentFaultStopped _ _ _ s (.refl s)
  | .pondScrub _ _ => keeps_execPondScrub _ _ s (.refl s)
  | .springDescriptorStart _ => keeps_execSpringDescriptorStart _ s (.refl s)
  | .springTileMove _ => keeps_execSpringTileMove _ s (.refl s)
  | .springSourceReread _ => keeps_execSpringSourceReread _ s (.refl s)
  | .springTileDelivered _ => keeps_execSpringTileDelivered _ s (.refl s)
  | .springFaultTimeout _ _ => keeps_execSpringFaultTimeout _ _ s (.refl s)
  | .faultRecordPost _ => keeps_execFaultRecordPost _ s (.refl s)
  | .landingFrameArrival _ _ _ _ => keeps_execLandingFrameArrival _ _ _ _ s (.refl s)
  | .arbiterGrant _ _ _ => keeps_execArbiterGrant _ _ _ s (.refl s)
  | .stairForward _ _ => keeps_execStairForward _ _ s (.refl s)
  | .stairDetach _ _ => keeps_execStairDetach _ _ s (.refl s)
  | .lakeCopyRepair _ _ _ => keeps_execLakeCopyRepair _ _ _ s (.refl s)
  | .lakeScrub _ _ => keeps_execLakeScrub _ _ s (.refl s)
  | .flashBackgroundWork _ _ => keeps_execFlashBackgroundWork _ _ s (.refl s)
  | .flashReadComplete _ _ _ _ => keeps_execFlashReadComplete _ _ _ _ s (.refl s)
  | .fillFrameDelivered _ _ => keeps_execFillFrameDelivered _ _ s (.refl s)
  | .fillDone _ _ => keeps_execFillDone _ _ s (.refl s)
  | .releaseDone _ _ => keeps_execReleaseDone _ _ s (.refl s)
  | .tierCommit _ _ => keeps_execTierCommit _ _ s (.refl s)
  | .extentRetire _ _ => keeps_execExtentRetire _ _ s (.refl s)
  | .recoverySourceTimeout _ _ _ => keeps_execRecoverySourceTimeout _ _ _ s (.refl s)
  | .hostRecoveryTimeout _ _ => keeps_execHostRecoveryTimeout _ _ s (.refl s)
  | .watchPeriodEnd _ => keeps_execWatchPeriodEnd _ s (.refl s)
  | .layerRestart _ _ _ => keeps_execLayerRestart _ _ _ s (.refl s)
  | .sweepBlock _ _ => keeps_execSweepBlock _ _ s (.refl s)
  | .sweepResume _ _ => keeps_execSweepResume _ _ s (.refl s)
  | .sweepEnd _ => keeps_execSweepEnd _ s (.refl s)
  | .digestExchange _ _ _ => keeps_execDigestExchange _ _ _ s (.refl s)
  | .digestTimeout _ _ => keeps_execDigestTimeout _ _ s (.refl s)
  | .exchangeRecordTrigger _ _ => keeps_execExchangeRecordTrigger _ _ s (.refl s)
  | .exchangeRecordStart _ _ => keeps_execExchangeRecordStart _ _ s (.refl s)
  | .exchangeTileCompress _ _ _ => keeps_execExchangeTileCompress _ _ _ s (.refl s)
  | .reduceContribution _ _ _ => keeps_execReduceContribution _ _ _ s (.refl s)
  | .exchangeRecordComplete _ _ => keeps_execExchangeRecordComplete _ _ s (.refl s)
  | .exchangePeerTimeout _ _ _ => keeps_execExchangePeerTimeout _ _ _ s (.refl s)
  | .multicastDetach _ _ _ => keeps_execMulticastDetach _ _ _ s (.refl s)
  | .stageQueueMarkForward _ _ _ => keeps_execStageQueueMarkForward _ _ _ s (.refl s)
  | .flitReceive _ _ => keeps_execFlitReceive _ _ s (.refl s)
  | .flitNakReplay _ _ => keeps_execFlitNakReplay _ _ s (.refl s)
  | .ackProgressTimeout _ => keeps_execAckProgressTimeout _ s (.refl s)
  | .packetForward _ => keeps_execPacketForward _ s (.refl s)
  | .fabricWrite _ _ => keeps_execFabricWrite _ _ s (.refl s)
  | .readReq _ _ => keeps_execReadReq _ _ s (.refl s)
  | .readData _ _ => keeps_execReadData _ _ s (.refl s)
  | .fabricAck _ _ => keeps_execFabricAck _ _ s (.refl s)
  | .xframe _ _ => keeps_execXframe _ _ s (.refl s)
  | .mcast _ _ => keeps_execMcast _ _ s (.refl s)
  | .fabricCancel _ _ => keeps_execFabricCancel _ _ s (.refl s)
  | .nakFault _ _ => keeps_execNakFault _ _ s (.refl s)
  | .packetTimeout _ _ => keeps_execPacketTimeout _ _ s (.refl s)
  | .laneSignalLoss _ _ => keeps_execLaneSignalLoss _ _ s (.refl s)
  | .linkTrainingComplete _ _ => keeps_execLinkTrainingComplete _ _ s (.refl s)
  | .cablePresenceChange _ _ => keeps_execCablePresenceChange _ _ s (.refl s)
  | .cablePowerShort _ => keeps_execCablePowerShort _ s (.refl s)
  | .cmdDoorbell _ _ _ _ => keeps_execCmdDoorbell _ _ _ _ s (.refl s)
  | .abortDoorbell _ _ _ => keeps_execAbortDoorbell _ _ _ s (.refl s)
  | .cplHead _ _ _ => keeps_execCplHead _ _ _ s (.refl s)
  | .ptRoot _ _ => keeps_execPtRoot _ _ s (.refl s)
  | .attach _ _ => keeps_execAttach _ _ s (.refl s)
  | .lease _ _ => keeps_execLease _ _ s (.refl s)
  | .fqHead _ _ => keeps_execFqHead _ _ s (.refl s)
  | .faultRespResume _ _ => keeps_execFaultRespResume _ _ s (.refl s)
  | .faultRespFatal _ _ => keeps_execFaultRespFatal _ _ s (.refl s)
  | .streamEnable _ _ => keeps_execStreamEnable _ _ s (.refl s)
  | .streamDisable _ _ => keeps_execStreamDisable _ _ s (.refl s)
  | .mbCtrl _ => keeps_execMbCtrl _ s (.refl s)
  | .registerWrite _ _ _ _ _ => keeps_execRegisterWrite _ _ _ _ _ s (.refl s)
  | .commandAccept _ _ => keeps_execCommandAccept _ _ s (.refl s)
  | .run _ _ _ _ => keeps_execRun _ _ _ _ s (.refl s)
  | .runServe _ _ _ _ => keeps_execRunServe _ _ _ _ s (.refl s)
  | .servePassStart _ _ => keeps_execServePassStart _ _ s (.refl s)
  | .servePassEnd _ _ => keeps_execServePassEnd _ _ s (.refl s)
  | .move _ _ _ => keeps_execMove _ _ _ s (.refl s)
  | .markSet _ _ _ => keeps_execMarkSet _ _ _ s (.refl s)
  | .markWait _ _ _ => keeps_execMarkWait _ _ _ s (.refl s)
  | .markWaitTimeout _ _ _ => keeps_execMarkWaitTimeout _ _ _ s (.refl s)
  | .stepOpen _ _ _ => keeps_execStepOpen _ _ _ s (.refl s)
  | .stepSeal _ _ _ => keeps_execStepSeal _ _ _ s (.refl s)
  | .sweep _ _ _ => keeps_execSweep _ _ _ s (.refl s)
  | .stepCommit _ _ _ => keeps_execStepCommit _ _ _ s (.refl s)
  | .stepDiscard _ _ _ => keeps_execStepDiscard _ _ _ s (.refl s)
  | .exchange _ _ _ => keeps_execExchange _ _ _ s (.refl s)
  | .tierPromote _ _ _ => keeps_execTierPromote _ _ _ s (.refl s)
  | .tierDemote _ _ _ => keeps_execTierDemote _ _ _ s (.refl s)
  | .tierPin _ _ _ => keeps_execTierPin _ _ _ s (.refl s)
  | .tierUnpin _ _ _ => keeps_execTierUnpin _ _ _ s (.refl s)
  | .exportState _ _ _ => keeps_execExportState _ _ _ s (.refl s)
  | .importObject _ _ _ => keeps_execImportObject _ _ _ s (.refl s)
  | .importRepair _ _ _ => keeps_execImportRepair _ _ _ s (.refl s)
  | .importShard _ _ _ => keeps_execImportShard _ _ _ s (.refl s)
  | .requestOpen _ _ _ => keeps_execRequestOpen _ _ _ s (.refl s)
  | .requestFeed _ _ _ => keeps_execRequestFeed _ _ _ s (.refl s)
  | .requestClose _ _ _ => keeps_execRequestClose _ _ _ s (.refl s)
  | .fenceWait _ _ _ => keeps_execFenceWait _ _ _ s (.refl s)
  | .fenceStop _ _ _ => keeps_execFenceStop _ _ _ s (.refl s)
  | .leaseExpiry _ => keeps_execLeaseExpiry _ s (.refl s)
  | .partitionPark _ => keeps_execPartitionPark _ s (.refl s)
  | .orphanHoldExpiry _ => keeps_execOrphanHoldExpiry _ s (.refl s)
  | .functionLevelReset _ => keeps_execFunctionLevelReset _ s (.refl s)
  | .protectionWindowExpiry => keeps_execProtectionWindowExpiry s (.refl s)
  | .protectionLockoutExpiry => keeps_execProtectionLockoutExpiry s (.refl s)
  | .watchdogExpiry _ _ => keeps_execWatchdogExpiry _ _ s (.refl s)
  | .protectionBreach _ _ => keeps_execProtectionBreach _ _ s (.refl s)
  | .processorRestartComplete _ => keeps_execProcessorRestartComplete _ s (.refl s)
  | .supervisorFailover => keeps_execSupervisorFailover s (.refl s)
  | .journalCopyRebuild => keeps_execJournalCopyRebuild s (.refl s)
  | .channelLoss _ _ => keeps_execChannelLoss _ _ s (.refl s)
  | .stackLoss _ => keeps_execStackLoss _ s (.refl s)
  | .hallLoss _ => keeps_execHallLoss _ s (.refl s)
  | .replicaRecoveryComplete _ _ => keeps_execReplicaRecoveryComplete _ _ s (.refl s)
  | .powerFail _ => keeps_execPowerFail _ s (.refl s)
  | .fatalError _ _ => keeps_execFatalError _ _ s (.refl s)
  | .dtlsHandshake _ _ => keeps_execDtlsHandshake _ _ s (.refl s)
  | .sessionHeartbeatTimeout _ => keeps_execSessionHeartbeatTimeout _ s (.refl s)
  | .ndoitRead _ _ => keeps_execNdoitRead _ _ s (.refl s)
  | .ndoitWrite _ _ => keeps_execNdoitWrite _ _ s (.refl s)
  | .readBlock _ _ => keeps_execReadBlock _ _ s (.refl s)
  | .writeBlock _ _ => keeps_execWriteBlock _ _ s (.refl s)
  | .blockSnapshotExpiry _ => keeps_execBlockSnapshotExpiry _ s (.refl s)
  | .changesetOpen _ _ => keeps_execChangesetOpen _ _ s (.refl s)
  | .changesetAdd _ _ => keeps_execChangesetAdd _ _ s (.refl s)
  | .changesetCommit _ _ => keeps_execChangesetCommit _ _ s (.refl s)
  | .changesetAbort _ _ => keeps_execChangesetAbort _ _ s (.refl s)
  | .changesetDecision _ => keeps_execChangesetDecision _ s (.refl s)
  | .changesetTimeout _ => keeps_execChangesetTimeout _ s (.refl s)
  | .subscribe _ _ => keeps_execSubscribe _ _ s (.refl s)
  | .heartbeat _ _ => keeps_execHeartbeat _ _ s (.refl s)
  | .subscriberHeartbeatTick _ => keeps_execSubscriberHeartbeatTick _ s (.refl s)
  | .servicePortConnect _ _ => keeps_execServicePortConnect _ _ s (.refl s)
  | .servicePortDataTimeout => keeps_execServicePortDataTimeout s (.refl s)
  | .packageStagingComplete _ => keeps_execPackageStagingComplete _ s (.refl s)
  | .fwActivate _ _ => keeps_execFwActivate _ _ s (.refl s)
  | .handoverProcessor _ _ => keeps_execHandoverProcessor _ _ s (.refl s)
  | .activateRestart _ => keeps_execActivateRestart _ s (.refl s)
  | .updateAbandon => keeps_execUpdateAbandon s (.refl s)
  | .confirmTimeout => keeps_execConfirmTimeout s (.refl s)
  | .fwConfirm => keeps_execFwConfirm s (.refl s)
  | .fwRollback => keeps_execFwRollback s (.refl s)
  | .dumpRelease => keeps_execDumpRelease s (.refl s)
  | .inputVoltageLow _ => keeps_execInputVoltageLow _ s (.refl s)
  | .inputVoltageHigh _ => keeps_execInputVoltageHigh _ s (.refl s)
  | .inputOvervoltage _ => keeps_execInputOvervoltage _ s (.refl s)
  | .domainFault _ => keeps_execDomainFault _ s (.refl s)
  | .domainRetry _ _ => keeps_execDomainRetry _ _ s (.refl s)
  | .domainRestored _ => keeps_execDomainRestored _ s (.refl s)
  | .clockRaiseStep _ _ _ => keeps_execClockRaiseStep _ _ _ s (.refl s)
  | .powerCapTick _ => keeps_execPowerCapTick _ s (.refl s)
  | .fallbackGovernorTick _ _ => keeps_execFallbackGovernorTick _ _ s (.refl s)
  | .thermalSample _ => keeps_execThermalSample _ s (.refl s)
  | .thermalTrip _ => keeps_execThermalTrip _ s (.refl s)
  | .holdupCheck _ => keeps_execHoldupCheck _ s (.refl s)
  | .powerSleepEnter => keeps_execPowerSleepEnter s (.refl s)
  | .sleepIdleTimeout => keeps_execSleepIdleTimeout s (.refl s)
  | .sleepWaitTimeout => keeps_execSleepWaitTimeout s (.refl s)
  | .wake _ => keeps_execWake _ s (.refl s)
  | .wakeComplete => keeps_execWakeComplete s (.refl s)
  | .coldStart _ => keeps_execColdStart _ s (.refl s)
  | .perstN _ => keeps_execPerstN _ s (.refl s)
  | .deviceWarmReset => keeps_execDeviceWarmReset s (.refl s)
  | .modResetN => keeps_execModResetN s (.refl s)
  | .warmResetComplete _ => keeps_execWarmResetComplete _ s (.refl s)
  | .extest => keeps_execExtest s (.refl s)
  | .idcode => keeps_execIdcode s (.refl s)
  | .samplePreload => keeps_execSamplePreload s (.refl s)
  | .extestPulse => keeps_execExtestPulse s (.refl s)
  | .extestTrain => keeps_execExtestTrain s (.refl s)
  | .clamp => keeps_execClamp s (.refl s)
  | .highz => keeps_execHighz s (.refl s)
  | .bypass _ => keeps_execBypass _ s (.refl s)
  | .sarolberPrivate _ => keeps_execSarolberPrivate _ s (.refl s)
  | .tapTestLogicReset => keeps_execTapTestLogicReset s (.refl s)
  | .lakeTestStart => keeps_execLakeTestStart s (.refl s)
  | .lakeTestStackDone _ => keeps_execLakeTestStackDone _ s (.refl s)
  | .linkTestStart _ => keeps_execLinkTestStart _ s (.refl s)
  | .linkTestEnd _ _ _ => keeps_execLinkTestEnd _ _ _ s (.refl s)
  | .portEnable _ => keeps_execPortEnable _ s (.refl s)
  | .portDisable _ => keeps_execPortDisable _ s (.refl s)
  | .sleepEntered => keeps_execSleepEntered s (.refl s)
  | .moduleRunning => keeps_execModuleRunning s (.refl s)
  | .modResetNRelease => keeps_execModResetNRelease s (.refl s)
  | .journalTailMirrored _ => keeps_execJournalTailMirrored _ s (.refl s)
  | .processorMemoryUncorrectable _ => keeps_execProcessorMemoryUncorrectable _ s (.refl s)
  | .lakeTestHoldTimeout => keeps_execLakeTestHoldTimeout s (.refl s)
  | .debugUnlocked => keeps_execDebugUnlocked s (.refl s)
  | .inputVoltageInRange _ => keeps_execInputVoltageInRange _ s (.refl s)

theorem keeps_of_exec {c : Instr} {s t : State} (h : exec c s = .next t) : Keeps s t := (rkeeps_exec s c).use h

/-! ## What every run keeps -/

/-- What no run may do, however long: change the part, let time or the number of the next event go back, let Prot.Sequence or the security
floor fall, break the lake's canonical form or the log. -/
structure Ages (s t : State) : Prop where
  part : t.part = s.part
  now : s.now ≤ t.now
  events : s.nextEvent ≤ t.nextEvent
  protSeq : s.mgmt.protSeq ≤ t.mgmt.protSeq
  floor : s.update.floor ≤ t.update.floor
  mem : MemOk s → MemOk t
  log : LogOk s → LogOk t

theorem Ages.refl (s : State) : Ages s s :=
  ⟨rfl, Nat.le_refl _, Nat.le_refl _, Nat.le_refl _, BitVec.le_refl _, id, id⟩

theorem Ages.trans {s t u : State} (h : Ages s t) (k : Ages t u) : Ages s u :=
  ⟨k.part.trans h.part, h.now.trans k.now, h.events.trans k.events, h.protSeq.trans k.protSeq, BitVec.le_trans h.floor k.floor,
    k.mem ∘ h.mem, k.log ∘ h.log⟩

theorem Keeps.ages {s t : State} (h : Keeps s t) : Ages s t :=
  ⟨h.part, h.now.ge, h.events, h.protSeq, h.floor, h.mem, h.log⟩

/-- Taking the front command off the queue. -/
theorem ages_dequeue (s : State) (rest : List Instr) : Ages s { s with pending := rest } :=
  ⟨rfl, Nat.le_refl _, Nat.le_refl _, Nat.le_refl _, BitVec.le_refl _, id, id⟩

theorem ages_tick (s : State) : Ages s { s.settlePauses with now := s.now + 1 } :=
  have h : Keeps s s.settlePauses := keeps_State_settlePauses s (.refl s)
  ⟨h.part, Nat.le_succ _, h.events, h.protSeq, h.floor, h.mem, h.log⟩

theorem ages_of_step {s t : State} (h : step s = .next t) : Ages s t := by
  rcases step_cases h with ⟨c, rest, -, hc⟩ | ⟨-, rfl⟩
  · exact (ages_dequeue s rest).trans (keeps_of_exec hc).ages
  · exact ages_tick s

/-- A run that answers a next state after its first step went on from the state which that step answered. -/
theorem run_succ_cases {M : Host.Core} {n : Nat} {s t : M.State} (h : M.run (n + 1) s = .next t) :
    ∃ u, M.step s = .next u ∧ M.run n u = .next t := by
  unfold Host.Core.run at h
  cases hstep : M.step s with
  | next u => exact ⟨u, rfl, by rwa [hstep] at h⟩
  | fault r => rw [hstep] at h; cases h
  | refused r => rw [hstep] at h; cases h

theorem ages_of_run {n : Nat} {s t : State} (h : Host.Core.run core n s = .next t) : Ages s t := by
  induction n generalizing s with
  | zero =>
    injection h with ht
    exact ht ▸ .refl s
  | succ n ih =>
    obtain ⟨u, hstep, hrest⟩ := run_succ_cases h
    exact (ages_of_step hstep).trans (ih hrest)

end Sys2Proof.Machine

open Sys2Proof Sys2Proof.Machine Sys2Proof.Claims in
/-- Settles O58: by induction on the steps of the run, each of which is a command or an idle microsecond. -/
theorem runsNeverTakeBack : Obligations.RunsNeverTakeBack := by
  unfold Obligations.RunsNeverTakeBack
  intro n s t hrun
  obtain ⟨hpart, hnow, hevents, hseq, hfloor, hmem, hlog⟩ := ages_of_run hrun
  exact ⟨hpart, hnow, hevents, hseq, hfloor, hmem, hlog⟩

open Sys2Proof Sys2Proof.Machine Sys2Proof.Claims in
/-- Settles O57: the two invariants of a step, from what every command and every idle microsecond keeps. -/
theorem everyStepKeepsTheLakeAndTheLog : Obligations.EveryStepKeepsTheLakeAndTheLog := by
  unfold Obligations.EveryStepKeepsTheLakeAndTheLog
  intro s t hstep
  exact ⟨(ages_of_step hstep).mem, (ages_of_step hstep).log⟩

open Sys2Proof Sys2Proof.Machine Sys2Proof.Claims in
/-- Settles O59: no command touches what waits behind it, the part number or the time. -/
theorem theQueueIsFirstInFirstOut : Obligations.TheQueueIsFirstInFirstOut := by
  unfold Obligations.TheQueueIsFirstInFirstOut
  intro c rest s t hstep
  have hkeeps := keeps_of_exec ((step_cons c rest s).symm.trans hstep)
  exact ⟨hkeeps.pending, hkeeps.part, hkeeps.now⟩

open Sys2Proof Sys2Proof.Machine Sys2Proof.Claims in
/-- Settles O56: the two branches of a step. -/
theorem stepRunsTheFrontCommand : Obligations.StepRunsTheFrontCommand := by
  unfold Obligations.StepRunsTheFrontCommand
  exact ⟨step_cons, fun _ hidle => step_idle hidle⟩
end

section
/-! PROOFS. Restarts of processors and of their components (R350 to R357, R417). Which components of a report count as faults is `newFaults`;
one restarts alone, several restart the processor, and what a restart does is the ladder of R352 and R353. -/

namespace Sys2Proof.Machine

section Restarts

variable {n c : Nat} {s : State}

/-! ## Reports of faults -/

/-- The components of a report that processor n runs and that are not restarting already. -/
def State.newFaults (s : State) (n : Nat) (hung : List Nat) : List Nat :=
  hung.eraseDups.filter fun c => decide (c < procComps n) && !(s.proc n).comps.any fun e => e.1 = c

/-- Processor n is of the part, and runs in a running module. -/
structure State.Watched (s : State) (n : Nat) : Prop where
  present : s.hasProc n = true
  phase : s.phase = .running
  runs : (s.proc n).st = .running

theorem State.Watched.not_idle (h : s.Watched n) : ¬(!s.hasProc n || s.phase ≠ .running || (s.proc n).st ≠ .running) = true := by
  simp [h.present, h.phase, h.runs]

theorem State.componentsFault_none (h : s.Watched n) {hung : List Nat} (hnew : s.newFaults n hung = []) : s.componentsFault n hung = s := by
  unfold componentsFault
  refine (if_neg h.not_idle).trans ?_
  unfold newFaults at hnew
  rw [hnew]

/-- R352. -/
theorem State.componentsFault_one (h : s.Watched n) (hn : 2 ≤ n) (hactive : n ≠ s.sup.activeSup) {hung : List Nat}
    (hnew : s.newFaults n hung = [c]) : s.componentsFault n hung = s.restartComponent n c := by
  have halone : ¬(n = s.sup.activeSup || (s.sup.failover && n ≤ 1)) = true := by
    simp [hactive, show ¬n ≤ 1 by omega]
  unfold componentsFault
  refine (if_neg h.not_idle).trans ?_
  unfold newFaults at hnew
  rw [hnew]
  exact if_neg halone

theorem State.restartProc_of_two_le (hn : 2 ≤ n) : s.restartProc n = s.restartWhole n := if_neg (by omega)

/-- R352. -/
theorem State.componentsFault_several (h : s.Watched n) (hn : 2 ≤ n) {hung : List Nat} {a b : Nat} {l : List Nat}
    (hnew : s.newFaults n hung = a :: b :: l) : s.componentsFault n hung = s.restartWhole n := by
  unfold componentsFault
  refine (if_neg h.not_idle).trans ?_
  unfold newFaults at hnew
  rw [hnew]
  exact State.restartProc_of_two_le hn

theorem State.newFaults_own (hc : c < procComps n) (hserves : ∀ e ∈ (s.proc n).comps, e.1 ≠ c) : s.newFaults n [c] = [c] := by
  have hidle : ((s.proc n).comps.any fun e => e.1 = c) = false := by simpa using hserves
  simp [newFaults, List.eraseDups, List.eraseDupsBy, List.eraseDupsBy.loop, hc, hidle]

theorem State.newFaults_absent (hc : procComps n ≤ c) : s.newFaults n [c] = [] := by
  simp [newFaults, List.eraseDups, List.eraseDupsBy, List.eraseDupsBy.loop, Nat.not_lt.2 hc]

theorem State.newFaults_two {a b : Nat} (ha : a < procComps n) (hb : b < procComps n) (hab : a ≠ b)
    (hserve : ∀ e ∈ (s.proc n).comps, e.1 ≠ a ∧ e.1 ≠ b) : s.newFaults n [a, b] = [a, b] := by
  have hidle : ((s.proc n).comps.any fun e => e.1 = a) = false := by simpa using fun e he => (hserve e he).1
  have hidle' : ((s.proc n).comps.any fun e => e.1 = b) = false := by simpa using fun e he => (hserve e he).2
  have hdistinct : (b == a) = false := by simpa using hab.symm
  simp [newFaults, List.eraseDups, List.eraseDupsBy, List.eraseDupsBy.loop, hdistinct, ha, hb, hidle, hidle']

theorem exec_watchdogExpiry (hung : List Nat) : exec (.watchdogExpiry n hung) s = .next (s.componentsFault n hung) := rfl

/-- R350, R417. A breach of code that a handover brought undoes the handover. -/
theorem exec_protectionBreach (h : s.Watched n) :
    exec (.protectionBreach n c) s =
      .next (if s.handedOver n = true then (s.componentsFault n [c]).handoverBack else s.componentsFault n [c]) := by
  change execProtectionBreach n c s = _
  simp [execProtectionBreach, h.present, h.phase]

theorem exec_processorMemoryUncorrectable (h : s.Watched n) (hn : 2 ≤ n) :
    exec (.processorMemoryUncorrectable n) s = .next (s.restartWhole n) :=
  (if_neg h.not_idle).trans (congrArg _ (State.restartProc_of_two_le hn))

/-! ## The end of a restart -/

theorem State.afterRestart_eq (d : Nat) (ladder : Bool) :
    s.afterRestart n d ladder = (let u := if s.waitsOn n then s.bump 0x8010 6 d else s
      if ladder = true ∧ 6 ≤ n ∧ n < 10 then u.restartRecoveries (n - 6) else u) := by
  unfold afterRestart
  simp only [Bool.and_eq_true, decide_eq_true_eq, and_assoc]

section Ends

variable (hhas : s.hasProc n = true) (hphase : s.phase = .running)
include hhas hphase

/-- R352. A whole restart ends. -/
theorem exec_processorRestartComplete_whole (hn : 2 ≤ n) (hst : (s.proc n).st = .restarting) :
    let x := s.proc n
    let d := s.now - x.since
    exec (.processorRestartComplete n) s = .next (((((s.setProc n { x with
      st := .running, whole := false, restarts := x.restarts + 1, lastMicros := d }).afterRestart n d true).bump 0x8010 1 1).raiseM
        0x1002 n [])) := by
  have hacts : ¬(!s.hasProc n || s.phase ≠ .running) = true := by simp [hhas, hphase]
  have hother : ¬(n ≤ 1) := by omega
  refine (if_neg hacts).trans ?_
  simp only [hst, hother, decide_false, Bool.false_and, Bool.false_eq_true, if_false]

/-- R352. The restart of the component that has been restarting longest ends. -/
theorem exec_processorRestartComplete_component {since : Nat} {rest : List (Nat × Nat)} (hst : (s.proc n).st = .running)
    (hcomps : (s.proc n).comps = (c, since) :: rest) :
    let x := s.proc n
    let d := s.now - since
    exec (.processorRestartComplete n) s = .next (((((s.setProc n { x with
      comps := rest, lastMicros := d }).afterRestart n d (c = compRecovery)).bump 0x8010 2 1).raiseM 0x1001 n [c])) := by
  have hacts : ¬(!s.hasProc n || s.phase ≠ .running) = true := by simp [hhas, hphase]
  refine (if_neg hacts).trans ?_
  simp only [hst, hcomps]

end Ends

/-- A component serves when its processor runs and it is not restarting. -/
theorem State.compUp_iff : s.compUp n c = true ↔ (s.proc n).st = .running ∧ ∀ e ∈ (s.proc n).comps, e.1 ≠ c := by
  simp [compUp, proc]

/-! ## The ladder of restarts (R352, R353) -/

@[simp] theorem State.failUpdate_now (reason : Nat) : (s.failUpdate reason).now = s.now := by
  unfold failUpdate
  split <;> rfl

/-- Restarts of components within the last ten minutes. -/
def State.recentComps (s : State) (n : Nat) : List (Nat × Nat) := (s.proc n).compTimes.filter fun e => s.now < e.1 + 600000000

/-- Whole restarts within the last ten minutes. -/
def State.recentWholes (s : State) (n : Nat) : List Nat := (s.proc n).wholeTimes.filter fun t => s.now < t + 600000000

theorem State.restartComponent_alone (hfew : ((s.recentComps n).filter fun e => e.2 = c).length < 2) :
    s.restartComponent n c = s.setProc n { s.proc n with
      comps := (s.proc n).comps ++ [(c, s.now)]
      compTimes := s.recentComps n ++ [(s.now, c)] } :=
  if_neg (Nat.not_le.2 hfew)

theorem State.restartComponent_whole (hn : 2 ≤ n) (hmany : 2 ≤ ((s.recentComps n).filter fun e => e.2 = c).length) :
    s.restartComponent n c = (s.setProc n { s.proc n with compTimes := s.recentComps n }).restartWhole n :=
  (if_pos hmany).trans (State.restartProc_of_two_le hn)

theorem State.restartWhole_again (hfew : (s.recentWholes n).length < 3) :
    s.restartWhole n = (s.failUpdate 2).setProc n { s.proc n with
      st := .restarting
      whole := true
      comps := []
      since := s.now
      wholeTimes := s.recentWholes n ++ [s.now] } := by
  refine (if_neg (Nat.not_le.2 hfew)).trans ?_
  simp only [failUpdate_now]
  rfl

theorem State.restartWhole_fatal (hn : 2 ≤ n) (hpower : n ≠ 14) (hmany : 3 ≤ (s.recentWholes n).length) :
    s.restartWhole n = (((s.failUpdate 2).setProc n { s.proc n with
      st := .failed
      comps := []
      wholeTimes := s.recentWholes n }).raiseM 0x1006 n []).fatalNow 2 n := by
  have hother : ¬n ≤ 1 := by omega
  exact (if_pos hmany).trans ((if_neg hother).trans (if_neg hpower))

end Restarts

end Sys2Proof.Machine

open Sys2Proof Sys2Proof.Machine Sys2Proof.Claims in
/-- Settles O44: the reports of faults by the components that they name, the two ends of a restart, and the ladder of restarts. -/
theorem processorRestartsEscalate : Obligations.ProcessorRestartsEscalate := by
  unfold Obligations.ProcessorRestartsEscalate
  refine ⟨?reports, ?ladder⟩
  case reports =>
    intro n s hn hactive hhas hphase x
    refine ⟨fun hst => ?faults, ?whole, ?component, fun c => State.compUp_iff⟩
    case faults =>
      have hwatched : s.Watched n := ⟨hhas, hphase, hst⟩
      refine ⟨fun c hc hserves => ?own, fun c hc => ?absent, fun a b ha hb hab hserve => ?several,
        exec_processorMemoryUncorrectable hwatched hn⟩
      case own =>
        have hone := State.componentsFault_one hwatched hn hactive (State.newFaults_own hc hserves)
        refine ⟨(exec_watchdogExpiry [c]).trans (congrArg _ hone), fun hold => ?_, fun hnew => ?_⟩
        · rw [exec_protectionBreach hwatched, hone, if_neg (by simp [hold])]
        · rw [exec_protectionBreach hwatched, hone, if_pos hnew]
      case absent =>
        rw [exec_watchdogExpiry, State.componentsFault_none hwatched (State.newFaults_absent hc)]
      case several =>
        rw [exec_watchdogExpiry, State.componentsFault_several hwatched hn (State.newFaults_two ha hb hab hserve)]
    case whole =>
      intro hst
      have hends := exec_processorRestartComplete_whole hhas hphase hn hst
      simpa only [State.afterRestart_eq, true_and] using hends
    case component =>
      intro c since rest hst hcomps
      have hends := exec_processorRestartComplete_component hhas hphase hst hcomps
      simpa only [State.afterRestart_eq, decide_eq_true_eq] using hends
  case ladder =>
    intro n c s hn hpower
    exact ⟨State.restartComponent_alone, State.restartComponent_whole hn, State.restartWhole_again, State.restartWhole_fatal hn hpower⟩
end

section
/-! PROOFS. Fatal errors, failover and the journal's copies (R359, R360, R362, R372, R376). -/

namespace Sys2Proof.Machine

section Supervisors

variable {s : State}

section Running

variable (hphase : s.phase = .running)
include hphase

/-- R372. -/
theorem exec_fatalError_running (cause proc : Nat) : exec (.fatalError cause proc) s = .next (s.fatalStop cause proc) := by
  change Host.Outcome.next (s.fatalNow cause proc) = _
  simp only [State.fatalNow, hphase]

/-- R376. -/
theorem exec_dumpRelease_running : exec .dumpRelease s = .next { s with sup := { s.sup with dumps := [] } } :=
  congrArg Host.Outcome.next (if_pos hphase)

/-- R359, R360. The takeover by the other Supervisor. -/
theorem exec_supervisorFailover (hfailover : s.sup.failover = true) :
    let new := 1 - s.sup.activeSup
    let u := { s with sup := { s.sup with activeSup := new, failover := false } }
    let u := ((u.bump 0x8010 3 1).bump 0x8010 6 (if u.waitsOn 0 then u.now - (s.proc s.sup.activeSup).since else 0)).raiseM 0x1003 new []
    let u := if (u.proc (1 - new)).st = .running then
        ({ u with sup := { u.sup with standby := true } }).raiseM 0x1005 (1 - new) []
      else u.raiseM 0x1004 new []
    let u := (u.rollbackUndecided 3).endWindow 3
    let u := u.existing.foldl (fun s p => if (s.partn p).leaseExpired then s.enterOrphan p else s) u
    exec .supervisorFailover s = .next (u.existing.foldl (fun s p => s.flushAll p) u).releaseLatched.answerHeld := by
  have hacts : ¬(!s.sup.failover || s.phase ≠ .running) = true := by simp [hfailover, hphase]
  exact if_neg hacts

/-- R362. -/
theorem exec_journalCopyRebuild {k : Nat} (hlone : s.sup.journalCopies.length = 1) (hplace : s.copyPlace = some k) :
    exec .journalCopyRebuild s =
      .next (({ s with sup := { s.sup with journalCopies := s.sup.journalCopies ++ [k] } }).raiseM 0x1101 k []) := by
  have hacts : ¬(s.sup.journalCopies.length ≠ 1 || s.phase ≠ .running) = true := by simp [hlone, hphase]
  refine (if_neg hacts).trans ?_
  rw [hplace]

end Running

/-- A request reaches a session: the mailbox holds it, or the session is open. -/
def State.reached (s : State) (n : Nat) (frame : List Byte) : Prop :=
  if n = 0 then s.mailboxHolds frame = true else (s.session n).alive = true

theorem State.reached_iff {n : Nat} {frame : List Byte} :
    (if n = 0 then s.mailboxHolds frame else (s.session n).alive) = true ↔ s.reached n frame := by
  unfold reached
  split <;> rfl

/-- R359. A request that arrives in a failover waits for the takeover. -/
theorem State.onRequest_held {n : Nat} {frame : List Byte} (act : State → State × Answer) (hreached : s.reached n frame)
    (hlistens : s.listens = true) (hfailover : s.sup.failover = true) :
    s.onRequest n frame true act = { s with mgmt := { s.mgmt with held := s.mgmt.held ++ [(n, frame)] } } := by
  have hacts : ¬(!(if n = 0 then s.mailboxHolds frame else (s.session n).alive) || !true || !s.listens) = true := by
    simp only [State.reached_iff.2 hreached, hlistens, Bool.not_true, Bool.or_self, Bool.false_eq_true, not_false_eq_true]
  exact (if_neg hacts).trans (if_pos hfailover)

theorem State.listens_of_running (hphase : s.phase = .running) (hpower : s.power.powerFail = false) : s.listens = true := by
  simp [listens, hphase, hpower]

end Supervisors

end Sys2Proof.Machine

open Sys2Proof Sys2Proof.Machine Sys2Proof.Claims in
/-- Settles O45: the outcome of a fatal error, of a release, of a takeover, of a frame before it, and of a copy's rebuild. -/
theorem supervisionGoesOn : Obligations.SupervisionGoesOn := by
  unfold Obligations.SupervisionGoesOn
  intro s hphase
  refine ⟨exec_fatalError_running hphase, exec_dumpRelease_running hphase, fun hfailover =>
    ⟨exec_supervisorFailover hphase hfailover, fun n frame hpower hreached hop => ?held⟩, fun k => exec_journalCopyRebuild hphase⟩
  change Host.Outcome.next (s.onRequest n frame (ndOp frame = 0x02) _) = _
  rw [decide_eq_true hop]
  exact congrArg _ (State.onRequest_held _ hreached (State.listens_of_running hphase hpower) hfailover)
end

section
/-! PROOFS. Hard losses, the end of a replica recovery, and input power (R364 to R368, R370, R375). -/

namespace Sys2Proof.Machine

section Losses

variable {s : State}

section Running

variable (hphase : s.phase = .running)
include hphase

/-- R364, R366. -/
theorem exec_stackLoss {k : Nat} (hworks : s.stackWorks k = true) : exec (.stackLoss k) s = .next (s.stackGone k) := by
  change Host.Outcome.next _ = _
  simp only [hworks, hphase, decide_true, Bool.and_self, if_true]

/-- R364, R365. -/
theorem exec_channelLoss {k ch : Nat} (hworks : s.stackWorks k = true) (hch : ch < 32) :
    exec (.channelLoss k ch) s = .next (s.channelGone k ch) := by
  change Host.Outcome.next _ = _
  simp only [hworks, hphase, hch, decide_true, Bool.and_self, if_true]

/-- R364, R366. -/
theorem exec_hallLoss {h : Nat} (hh : h < 4) (hworks : s.sup.lostHalls.contains h = false) :
    exec (.hallLoss h) s = .next (s.hallGone h) := by
  change Host.Outcome.next _ = _
  simp only [hh, hworks, hphase, decide_true, Bool.not_false, Bool.and_self, if_true]

end Running

/-- R365. The second channel of a stack, told as well, loses the stack. -/
theorem State.channelGone_second {k c ch : Nat} (hlost : s.sup.lostChannels.find k = some c) (hother : c ≠ ch) :
    s.channelGone k ch = (s.raise 0x1201 (if s.hallOwner (k / 4) < 4 then s.hallOwner (k / 4) else 15) k [ch]).stackGone k := by
  simp only [channelGone, hlost, hother, if_false]

/-- R232. -/
theorem State.digestsSound_of {p : Nat} {fs : ReplicaFrames}
    (h : ∀ r ∈ (s.partn p).stateRecs, (∃ e ∈ fs.tiles, (r.tileAt e.1).isSome = true) → ∃ d,
      (fs.digests.find? fun e => e.1 = r.idx) = some (r.idx, d) ∧ s.recDigest p r = some d) : s.digestsSound p fs = true := by
  refine List.all_eq_true.2 fun r hr => ?_
  cases hwritten : fs.tiles.any fun e => (r.tileAt e.1).isSome with
  | false => rfl
  | true =>
    obtain ⟨d, hsent, hdigest⟩ := h r hr (List.any_eq_true.1 hwritten)
    simp [hsent, hdigest]

/-- R367. The mirrors' frames are written home, and no tile of a record reads as lost. -/
theorem exec_replicaRecoveryComplete {p : Nat} {fs : ReplicaFrames} (hrecovering : s.sup.recovering.contains p = true)
    (hworks : s.working = true) (hsound : ∀ e ∈ fs.tiles, ∃ r ∈ (s.partn p).stateRecs, r.tileSound e.1 e.2 = true)
    (hdigests : (s.writeHome p fs.tiles).digestsSound p fs = true)
    (hwhole : ∀ r ∈ ((s.writeHome p fs.tiles).partn p).stateRecs, ∀ va ∈ r.digestTiles,
      ∃ f, (s.writeHome p fs.tiles).vread p va frameBytes = .ok f) :
    let u := s.writeHome p fs.tiles
    exec (.replicaRecoveryComplete p fs) s = .next (((({ u with sup := { u.sup with
      recovering := u.sup.recovering.filter (· ≠ p) } }).bump 0x8010 8 1).raise 0x1211 p (u.sup.recoveryPos.get p 0) []).finishSweep p) := by
  have hframes : (fs.tiles.all fun e => (s.partn p).stateRecs.any fun r => r.tileSound e.1 e.2) = true := by
    simpa only [List.all_eq_true, List.any_eq_true] using hsound
  have hacts : ¬(!s.sup.recovering.contains p || !s.working ||
      !(fs.tiles.all fun e => (s.partn p).stateRecs.any fun r => r.tileSound e.1 e.2) ||
      !(s.writeHome p fs.tiles).digestsSound p fs) = true := by
    rw [hrecovering, hworks, hframes, hdigests]
    decide
  refine (if_neg hacts).trans (if_neg ?_)
  simp only [Bool.not_eq_true', Bool.not_eq_false, List.all_eq_true]
  intro r hr va hva
  obtain ⟨f, hread⟩ := hwhole r hr va hva
  simp only [hread]

/-- R370, R375. -/
theorem State.losePower_powered (flushed : Bool) (hon : s.phase ≠ .off) (hpower : s.power.powerFail = false) :
    let u := s.haltWork
    s.losePower flushed = { u with
      phase := .off
      power := { u.power with powerFail := true, hostWidth := 0, hostGts := 0 }
      fabric := { u.fabric with
        ports := u.fabric.ports.map fun e => (e.1, e.2.unpowered)
        landings := [] }
      sup := { u.sup with
        flushLost := !flushed
        lostAt := some u.now
        dumps := u.sup.dumps.map fun d => { d with complete := d.complete && !u.dumpWriting d, lake := false } } } := by
  have hacts : ¬(s.phase = .off || s.power.powerFail) = true := by simp [hon, hpower]
  exact if_neg hacts

end Losses

end Sys2Proof.Machine

open Sys2Proof Sys2Proof.Machine Sys2Proof.Claims in
/-- Settles O46: the losses of a channel, a stack and a hall, the end of a recovery, and the failure of the power. -/
theorem lossesAndPowerFailure : Obligations.LossesAndPowerFailure := by
  unfold Obligations.LossesAndPowerFailure
  refine ⟨fun s hphase => ⟨fun k hworks => ⟨exec_stackLoss hphase hworks, fun ch => exec_channelLoss hphase hworks, fun c ch =>
      State.channelGone_second⟩, fun h => exec_hallLoss hphase⟩, ?recovery, fun flushed s hon hpower =>
    congrArg Host.Outcome.next (State.losePower_powered flushed hon hpower)⟩
  intro p fs s hrecovering hworks hsound u hdigests hwhole
  exact exec_replicaRecoveryComplete hrecovering hworks hsound (State.digestsSound_of hdigests) hwhole
end

section
/-! PROOFS. Requests of the Ndoit protocol (R379, R381 to R386, R391, R396). What a request that is to be executed does is said once, in
`onRequest_executes`: it is counted, its meaning acts on the state that has counted it, and the answer is sent and kept. -/

namespace Sys2Proof.Claims

open Sys2Proof.Machine

variable {n op : Nat} {frame : List Byte} {s : State}

theorem Requests.op_eq (h : Requests s n frame op) : ndOp frame = op := h.2.1

theorem Requests.here (h : Requests s n frame op) : decide (ndOp frame = op) = true := decide_eq_true h.op_eq

theorem Requests.reached (h : Requests s n frame op) : s.reached n frame := h.1

theorem Requests.serves (h : Requests s n frame op) : s.serves = true := h.2.2.1

end Sys2Proof.Claims

namespace Sys2Proof.Machine

open Sys2Proof.Claims

section Request

variable {n op : Nat} {frame : List Byte} {s v : State} {a : Answer} {act : State → State × Answer} {here : Bool}

/-! ## A request that is to be executed -/

/-- R386. It has no kept answer, is in order and well formed, and nothing closes its gate. -/
theorem State.request_executes (h : Requests s n frame op) (hact : act (seen s n) = (v, a)) :
    s.request n frame act = v.answerNd n frame a := by
  obtain ⟨-, hop, -, hrate, hlength, hid, hnew, horder, hformat, hgate⟩ := h
  subst hop
  have hshort : ¬(frame.length < 16 || ndReq frame = 0) = true := by simp [hid, hlength]
  have hstale : ¬((s.session n).lastReq ≠ 0 && !((0 < (ndReq frame + 2 ^ 32 - (s.session n).lastReq) % 2 ^ 32 : Bool) &&
      ((ndReq frame + 2 ^ 32 - (s.session n).lastReq) % 2 ^ 32 < 2 ^ 31 : Bool))) = true := by
    rcases horder with hfirst | ⟨hahead, hnear⟩
    · simp [hfirst]
    · simp only [hahead, hnear, decide_true, Bool.and_self, Bool.not_true, Bool.and_false, Bool.false_eq_true, not_false_eq_true]
  have hwell : ¬(!ndFormatOk frame) = true := by simp [hformat]
  unfold request
  refine (if_neg (Nat.not_le.2 hrate)).trans ((if_neg hshort).trans ?_)
  rw [hnew]
  refine (if_neg hstale).trans ((if_neg hwell).trans ((if_neg (not_not.2 hgate)).trans ?_))
  change (act (seen s n)).1.answerNd n frame (act (seen s n)).2 = _
  rw [hact]

theorem State.onRequest_executes (h : Requests s n frame op) (hhere : here = true) (hact : act (seen s n) = (v, a)) :
    s.onRequest n frame here act = v.answerNd n frame a := by
  obtain ⟨hlistens, hactive⟩ := Bool.and_eq_true_iff.1 h.serves
  have hacts : ¬(!(if n = 0 then s.mailboxHolds frame else (s.session n).alive) || !here || !s.listens) = true := by
    simp only [State.reached_iff.2 h.reached, hhere, hlistens, Bool.not_true, Bool.or_self, Bool.false_eq_true, not_false_eq_true]
  refine (if_neg hacts).trans ((if_neg ?_).trans (State.request_executes h hact))
  simpa using hactive

/-! ## READ and WRITE (R379, R398) -/

/-- R379. -/
theorem exec_ndoitRead (h : Requests s n frame 0x01) (hlength : (frame.drop 16).length = 4) (hpad : fieldOf (frame.drop 16) 3 1 = 0) :
    exec (.ndoitRead n frame) s = .next ((seen s n).answerNd n frame
      ((seen s n).readObject (okey (fieldOf (frame.drop 16) 0 2) (fieldOf (frame.drop 16) 2 1)))) := by
  have hgood : ¬(ndOp frame ≠ 1 || (frame.drop 16).length ≠ 4 || fieldOf (frame.drop 16) 3 1 ≠ 0) = true := by
    simp only [h.op_eq, hlength, hpad, ne_eq, not_true_eq_false, decide_false, Bool.or_self, Bool.false_eq_true, not_false_eq_true]
  change Host.Outcome.next (s.onRequest n frame _ _) = _
  refine congrArg _ (State.onRequest_executes h ?_ (if_neg hgood))
  simp [h.op_eq]

/-- R398. A WRITE is a set of one entry. -/
theorem exec_ndoitWrite {e : Entry} (h : Requests s n frame 0x02) (hentry : entryAt (frame.drop 16) = some (e, [])) :
    exec (.ndoitWrite n frame) s = .next (((seen s n).writeOne n e).1.answerNd n frame ((seen s n).writeOne n e).2) := by
  change Host.Outcome.next (s.onRequest n frame _ _) = _
  refine congrArg _ (State.onRequest_executes h h.here ?_)
  simp only [ndBody, hentry]

/-! ## Blocks (R385) -/

/-- R385. -/
theorem exec_readBlock {r : ObjRow} (h : Requests s n frame 0x03) (hlength : (frame.drop 16).length = 12)
    (hpad : fieldOf (frame.drop 16) 3 1 = 0) (hpad' : fieldOf (frame.drop 16) 10 2 = 0) (hsome : 0 < fieldOf (frame.drop 16) 8 2)
    (hfits : fieldOf (frame.drop 16) 8 2 ≤ 992) (hrow : objRow (okey (fieldOf (frame.drop 16) 0 2) (fieldOf (frame.drop 16) 2 1)) = some r)
    (haccess : r.access ≠ .wo) (hpresent : (seen s n).absentKey (okey (fieldOf (frame.drop 16) 0 2) (fieldOf (frame.drop 16) 2 1)) = false)
    (htype : r.type = 8) :
    let x := (seen s n).readSegment n (okey (fieldOf (frame.drop 16) 0 2) (fieldOf (frame.drop 16) 2 1)) (fieldOf (frame.drop 16) 4 4)
      (fieldOf (frame.drop 16) 8 2)
    exec (.readBlock n frame) s = .next (x.1.answerNd n frame x.2) := by
  have hgood : ¬((frame.drop 16).length ≠ 12 || fieldOf (frame.drop 16) 3 1 ≠ 0 || fieldOf (frame.drop 16) 10 2 ≠ 0 ||
      fieldOf (frame.drop 16) 8 2 = 0 || 992 < fieldOf (frame.drop 16) 8 2) = true := by
    simp only [hlength, hpad, hpad', hsome.ne', Nat.not_lt.2 hfits, ne_eq, not_true_eq_false, decide_false, Bool.or_self,
      Bool.false_eq_true, not_false_eq_true]
  change Host.Outcome.next (s.onRequest n frame _ _) = _
  refine congrArg _ (State.onRequest_executes h h.here ((if_neg hgood).trans ?_))
  simp only [ndBody, hrow, hpresent, haccess, htype, Bool.false_and, Bool.false_eq_true, ne_eq, not_true_eq_false, if_false]

/-- What a WRITE_BLOCK of a segment stages: the bytes before it, where there are any, and its own. -/
def State.stagedBy (u : State) (n : Nat) (b : List Byte) : List Byte :=
  (if fieldOf b 4 4 = 0 then [] else (u.session n).staging) ++ b.drop 12

/-- A segment is taken: the last one is a WRITE of the whole, another is staged. -/
def State.takeSegment (u : State) (n : Nat) (b : List Byte) : State × Answer :=
  let key := okey (fieldOf b 0 2) (fieldOf b 2 1)
  if fieldOf b 10 1 = 1 then
    (u.onSession n fun x => { x with staging := [], stagingOn := false }).writeOne n { key := key, type := 8, value := u.stagedBy n b }
  else (u.onSession n fun x => { x with staging := u.stagedBy n b, stagingKey := key, stagingOn := true }, { status := ndOk })

/-- A WRITE_BLOCK of a BLOB that is not absent, whose segment follows those before it (R385). -/
structure GoodSegment (u : State) (n : Nat) (b : List Byte) : Prop where
  length : b.length = 12 + fieldOf b 8 2
  notEmpty : 0 < fieldOf b 8 2
  fits : fieldOf b 8 2 ≤ 992
  pad : fieldOf b 11 1 = 0
  row : ∃ r, objRow (okey (fieldOf b 0 2) (fieldOf b 2 1)) = some r ∧ r.type = 8
  present : u.absentKey (okey (fieldOf b 0 2) (fieldOf b 2 1)) = false
  type : fieldOf b 3 1 = 8
  follows : (u.session n).stagingOn = false ∧ fieldOf b 4 4 = 0 ∨
    (u.session n).stagingOn = true ∧ (u.session n).stagingKey = okey (fieldOf b 0 2) (fieldOf b 2 1) ∧
      fieldOf b 4 4 = (u.session n).staging.length

theorem Session.expects_of_follows {x : Session} {key off : Nat}
    (h : x.stagingOn = false ∧ off = 0 ∨ x.stagingOn = true ∧ x.stagingKey = key ∧ off = x.staging.length) : x.expects key = some off := by
  rcases h with ⟨hnone, hoff⟩ | ⟨hon, hkey, hoff⟩
  · simp [expects, hnone, hoff]
  · simp [expects, hon, hkey, hoff]

/-- R385. -/
theorem exec_writeBlock (h : Requests s n frame 0x04) (hsegment : GoodSegment (seen s n) n (frame.drop 16))
    (hflags : fieldOf (frame.drop 16) 10 1 ≤ 1) :
    let x := (seen s n).takeSegment n (frame.drop 16)
    exec (.writeBlock n frame) s = .next (x.1.answerNd n frame x.2) := by
  obtain ⟨hlength, hsome, hfits, hpad, ⟨r, hrow, hblob⟩, hpresent, htype, hfollows⟩ := hsegment
  have hgood : ¬((frame.drop 16).length < 12 || (frame.drop 16).length ≠ 12 + fieldOf (frame.drop 16) 8 2 ||
      fieldOf (frame.drop 16) 8 2 = 0 || 992 < fieldOf (frame.drop 16) 8 2 || 1 < fieldOf (frame.drop 16) 10 1 ||
      fieldOf (frame.drop 16) 11 1 ≠ 0 || fieldOf (frame.drop 16) 3 1 ≠ 8) = true := by
    have hheader : ¬12 + fieldOf (frame.drop 16) 8 2 < 12 := by omega
    simp only [hlength, hheader, hsome.ne', Nat.not_lt.2 hfits, Nat.not_lt.2 hflags, hpad, htype, ne_eq, not_true_eq_false, decide_false,
      Bool.or_self, Bool.false_eq_true, not_false_eq_true]
  change Host.Outcome.next (s.onRequest n frame _ _) = _
  refine congrArg _ (State.onRequest_executes h h.here ((if_neg hgood).trans ?_))
  simp only [ndBody, hrow, hpresent, hblob, Session.expects_of_follows hfollows, Bool.false_eq_true, ne_eq, not_true_eq_false, if_false]
  rfl

/-- R385. -/
theorem exec_blockSnapshotExpiry : exec (.blockSnapshotExpiry n) s = .next (s.onSession n fun x => { x with snapshot := none }) := rfl

end Request

end Sys2Proof.Machine

open Sys2Proof Sys2Proof.Machine Sys2Proof.Claims in
/-- Settles O41: the meaning of each request that is to be executed, on the state that has counted it. -/
theorem objectsAreReadAndWritten : Obligations.ObjectsAreReadAndWritten := by
  unfold Obligations.ObjectsAreReadAndWritten
  intro n frame s b u key
  refine ⟨exec_ndoitRead, fun e => exec_ndoitWrite, fun r h hlength hpad hpad' hsome hfits hrow haccess hpresent htype =>
    exec_readBlock h hlength hpad hpad' hsome hfits hrow haccess hpresent htype, ?blocks, exec_blockSnapshotExpiry⟩
  intro r h hlength hsome hfits hpad hrow hpresent hblob htype hfollows data
  have hsegment : GoodSegment u n b := ⟨hlength, hsome, hfits, hpad, ⟨r, hrow, hblob⟩, hpresent, htype, hfollows⟩
  refine ⟨fun hmore => ?staged, fun hlast => ?last⟩
  case staged =>
    have htake : u.takeSegment n b = _ := if_neg (by omega)
    refine (exec_writeBlock h hsegment (hmore.le.trans (Nat.zero_le 1))).trans ?_
    rw [htake]
    rfl
  case last =>
    have htake : u.takeSegment n b = _ := if_pos hlast
    refine (exec_writeBlock h hsegment hlast.le).trans ?_
    rw [htake]
    rfl
end

section
/-! PROOFS. Sessions of the management port: their handshake, subscription, heartbeats and end (R381, R382, R391, R396). -/

namespace Sys2Proof.Machine

open Sys2Proof.Claims

/-- R396. The first HEARTBEAT of a session fixes its agreed features. -/
def State.agree (u : State) (n : Nat) (b : List Byte) : State :=
  if (u.session n).agreed = none then
    u.onSession n fun x => { x with agreed := some (BitVec.ofNat 128 (leNat b) &&& BitVec.ofNat 128 u.features) }
  else u

section Sessions

variable {n : Nat} {frame : List Byte} {s : State} (hn : n ≠ 0)
include hn

/-- R381. -/
theorem exec_dtlsHandshake (hserves : s.serves = true) (hnew : (s.session n).alive = false) (chains : Bool) :
    exec (.dtlsHandshake n chains) s = .next (if chains = true ∧ s.value s.viewPart (okey 0x1110 1) ≠ [] ∧
        (s.mgmt.sessions.filter fun e => e.2.alive && e.1 ≠ 0).length < Min.min 8 (s.moduleSetting 0x1100 6) then
      (s.onSession n fun x => { alive := true, sent := x.sent }).raiseM 0x1503 255 []
    else (s.bump 0x8020 5 1).raiseM 0x1505 255 []) := by
  have hacts : ¬(!s.serves || n = 0 || (s.session n).alive) = true := by simp [hserves, hn, hnew]
  refine (if_neg hacts).trans ?_
  rw [← apply_ite Host.Outcome.next]
  refine congrArg _ (if_congr ?_ rfl rfl)
  simp only [Bool.and_eq_true, Bool.not_eq_true', List.isEmpty_eq_false_iff, decide_eq_true_eq, and_assoc]

/-- R391. -/
theorem exec_subscriberHeartbeatTick (hserves : s.serves = true) (hsubscribed : (s.session n).subscribed = true) :
    exec (.subscriberHeartbeatTick n) s = .next (s.respond n (ndoitFrame 0x30 0 0 0 (s.heartbeatBody n))) :=
  congrArg Host.Outcome.next (if_pos (by simp [hserves, hsubscribed, hn]))

/-- R382. -/
theorem exec_sessionHeartbeatTimeout (hserves : s.serves = true) : exec (.sessionHeartbeatTimeout n) s = .next (s.endSession n) :=
  congrArg Host.Outcome.next (if_pos (by simp [hserves, hn]))

/-- R391. -/
theorem exec_subscribe (h : Requests s n frame 0x20) (hlength : (frame.drop 16).length = 12) (hpad : fieldOf (frame.drop 16) 2 2 = 0)
    (hmask : fieldOf (frame.drop 16) 0 2 < 256) (hbit : bit (fieldOf (frame.drop 16) 0 2) 0 = false) :
    let b := frame.drop 16
    let u := seen s n
    exec (.subscribe n frame) s = .next (((u.onSession n fun x =>
      { x with subMask := fieldOf b 0 2, nextEvent := if fieldOf b 4 8 = 2 ^ 64 - 1 then u.nextEvent else fieldOf b 4 8 }).answerNd n frame
        { status := ndOk, body := leBytes 8 u.nextEvent }).deliver n) := by
  have hgood : ¬(n = 0 || (frame.drop 16).length ≠ 12 || fieldOf (frame.drop 16) 2 2 ≠ 0 || 256 ≤ fieldOf (frame.drop 16) 0 2 ||
      bit (fieldOf (frame.drop 16) 0 2) 0) = true := by
    simp only [hn, hlength, hpad, Nat.not_le.2 hmask, hbit, ne_eq, not_true_eq_false, decide_false, Bool.or_self, Bool.false_eq_true,
      not_false_eq_true]
  refine congrArg Host.Outcome.next ((if_neg hn).trans ?_)
  exact congrArg (fun t => State.deliver t n) (State.onRequest_executes h h.here (if_neg hgood))

/-- R396. -/
theorem exec_heartbeat (h : Requests s n frame 0x30) (hlength : (frame.drop 16).length = 16) :
    let v := (seen s n).agree n (frame.drop 16)
    exec (.heartbeat n frame) s = .next (v.answerNd n frame { status := ndOk, body := v.heartbeatBody n }) := by
  have hgood : ¬(n = 0 || (frame.drop 16).length ≠ 16) = true := by simp [hn, hlength]
  change Host.Outcome.next (s.onRequest n frame _ _) = _
  refine congrArg _ (State.onRequest_executes h h.here ((if_neg hgood).trans ?_))
  simp only [State.agree, Option.isNone_iff_eq_none, ndBody]

end Sessions

end Sys2Proof.Machine

open Sys2Proof Sys2Proof.Machine Sys2Proof.Claims in
/-- Settles O42: the outcome of a handshake, of a subscription, of a heartbeat and of the end of a session. -/
theorem sessionsOpenSubscribeAndEnd : Obligations.SessionsOpenSubscribeAndEnd := by
  unfold Obligations.SessionsOpenSubscribeAndEnd
  intro n frame s hn b u
  exact ⟨fun hserves => ⟨fun chains hnew => exec_dtlsHandshake hn hserves hnew chains, exec_subscriberHeartbeatTick hn hserves,
    exec_sessionHeartbeatTimeout hn hserves⟩, exec_subscribe hn, exec_heartbeat hn⟩
end

section
/-! PROOFS. CHANGESET_ADD (R398), and the counterexample to O43. The command writes the list of the named set with the new entries after it
to every set of its CSID; the statement adds the new entries to each such set's own list. They differ where a second set has the CSID. -/

namespace Sys2Proof.Machine

open Sys2Proof.Claims

section Add

variable {n : Nat} {frame : List Byte} {s : State} {c : ChangeSet} (hown : (seen s n).ownSet n (ndCsid frame) = some c)
include hown

/-- R398. Entries that pass are added while the set has room. -/
theorem exec_changesetAdd {es : List Entry} (h : Requests s n frame 0x11) (hkind : c.kind ≠ 2) (hlength : 4 ≤ (frame.drop 16).length)
    (hpad : fieldOf (frame.drop 16) 2 2 = 0) (hsome : fieldOf (frame.drop 16) 0 2 ≠ 0) (hfew : fieldOf (frame.drop 16) 0 2 ≤ 64)
    (hentries : entriesOf (fieldOf (frame.drop 16) 0 2) ((frame.drop 16).drop 4) = some es)
    (hpass : (seen s n).addStatus n c.kind c.entries es = ndOk) (hroom : (c.entries ++ es).length ≤ 256)
    (hbytes : ((c.entries ++ es).map fun e => e.value.length).sum ≤ 16384) :
    exec (.changesetAdd n frame) s = .next (((seen s n).onSet c.csid fun c' => { c' with entries := c.entries ++ es }).answerNd n frame
      { status := ndOk, csid := c.csid }) := by
  have hgood : ¬((frame.drop 16).length < 4 || fieldOf (frame.drop 16) 2 2 ≠ 0 || fieldOf (frame.drop 16) 0 2 = 0 ||
      64 < fieldOf (frame.drop 16) 0 2) = true := by
    simp only [Nat.not_lt.2 hlength, hpad, hsome, Nat.not_lt.2 hfew, ne_eq, not_true_eq_false, decide_false, Bool.or_self,
      Bool.false_eq_true, not_false_eq_true]
  have hfits : ¬(256 < (c.entries ++ es).length || 16384 < ((c.entries ++ es).map fun e => e.value.length).sum) = true := by
    simp only [Nat.not_lt.2 hroom, Nat.not_lt.2 hbytes, decide_false, Bool.or_self, Bool.false_eq_true, not_false_eq_true]
  change Host.Outcome.next (s.onRequest n frame _ _) = _
  refine congrArg _ (State.onRequest_executes h h.here ((if_neg hgood).trans ?_))
  simp only [ndBody, hentries, hown]
  exact (if_neg hkind).trans ((if_neg (not_not.2 hpass)).trans (if_neg hfits))

end Add

/-! ## Two sets of one CSID -/

/-- Comm.MaxSessions becomes 3. -/
def threeSessions : Entry := { key := okey 0x1100 6, type := 1, value := [3] }

/-- The open set 5 of session 1, which holds nothing yet. -/
def emptySet : ChangeSet := { csid := 5, sess := 1, kind := 0, entries := [] }

/-- A set 5 of session 2, which holds an entry. -/
def filledSet : ChangeSet := { csid := 5, sess := 2, kind := 0, entries := [threeSessions] }

/-- Session 1 is open, has its open set 5, and session 2 has a set 5 too. -/
def twinState : State :=
  { State.reset with mgmt := {
      sessions := [(1, { alive := true, agreed := some 127, openSet := some 5 })], sets := [emptySet, filledSet], lastCsid := 5 } }

/-- CHANGESET_ADD of one entry to set 5, as request 7. -/
def addFrame : List Byte :=
  leBytes 16 (fld 1 120 + fld 0x11 112 + fld 7 64 + fld 13 48 + fld 5 32) ++
    (leBytes 2 1 ++ leBytes 2 0 ++ leBytes 2 0x1100 ++ [6, 1] ++ leBytes 2 1 ++ leBytes 2 0 ++ [3])

theorem twinState_requests : Requests twinState 1 addFrame 0x11 := by
  unfold Requests
  decide +kernel

theorem twinState_own : (seen twinState 1).ownSet 1 (ndCsid addFrame) = some emptySet := by decide +kernel

theorem addFrame_entries : entriesOf (fieldOf (addFrame.drop 16) 0 2) ((addFrame.drop 16).drop 4) = some [threeSessions] := by
  decide +kernel

theorem twinState_passes : (seen twinState 1).addStatus 1 emptySet.kind emptySet.entries [threeSessions] = ndOk := by decide +kernel

/-- How many entries each set of a state holds. -/
def State.setSizes (u : State) : List Nat := u.mgmt.sets.map fun c => c.entries.length

end Sys2Proof.Machine

open Sys2Proof Sys2Proof.Machine Sys2Proof.Claims in
/-- Refutes O43: where two sets have the CSID of a CHANGESET_ADD, the statement adds the entries to the second one's own, and the model
gives it the list of the first one. -/
theorem not_changeSetsAreBuiltAndDecided : ¬ Obligations.ChangeSetsAreBuiltAndDecided := by
  unfold Obligations.ChangeSetsAreBuiltAndDecided
  intro h
  obtain ⟨hbuilt, -⟩ := h
  obtain ⟨-, hown⟩ := hbuilt 1 addFrame twinState
  obtain ⟨hadd, -⟩ := hown emptySet twinState_own
  have hstated := hadd [threeSessions] twinState_requests (by decide) (by decide +kernel) (by decide +kernel) (by decide +kernel)
    (by decide +kernel) addFrame_entries twinState_passes (by decide) (by decide)
  have hmodel := exec_changesetAdd twinState_own twinState_requests (by decide) (by decide +kernel) (by decide +kernel)
    (by decide +kernel) (by decide +kernel) addFrame_entries twinState_passes (by decide) (by decide)
  have hequal := congrArg State.setSizes (Host.Outcome.next.inj (hmodel.symm.trans hstated))
  have hsizes : [1, 1] = [1, 2] := hequal
  exact absurd hsizes (by decide)
end

section
/-! PROOFS. The service port and the activation of firmware (R408 to R422, R440, R444). -/

namespace Sys2Proof.Machine

/-! ## An event leaves the phase as it is -/

theorem State.deliver_phase (s : State) (n : Nat) : (s.deliver n).phase = s.phase := by
  simp only [deliver, apply_ite State.phase, bump_phase, ite_self]

theorem State.phase_foldl_deliver (s : State) (l : Table Session) : (l.foldl (fun s e => s.deliver e.1) s).phase = s.phase := by
  induction l generalizing s with
  | nil => rfl
  | cons e l ih => exact (ih _).trans (s.deliver_phase e.1)

@[simp] theorem State.raise_phase (s : State) (code p pos : Nat) (args : List Nat) : (s.raise code p pos args).phase = s.phase := by
  simp only [raise, apply_ite State.phase, signal_phase, phase_foldl_deliver, ite_self]

@[simp] theorem State.raiseFw_phase (s : State) (code a0 a1 : Nat) (v : U32) : (s.raiseFw code a0 a1 v).phase = s.phase :=
  s.raise_phase ..

@[simp] theorem State.closePort_phase (s : State) (status : Nat) (v : U32) : (s.closePort status v).phase = s.phase := rfl

/-! ## The service port -/

section Staging

variable {req pkg : List Byte} {s : State}

/-- R410. A well-formed request on an enabled, free port of a module whose update is idle. -/
theorem exec_servicePortConnect (hphase : s.phase = .running) (hpower : s.power.powerFail = false) (henabled : s.moduleSetting 0xA010 2 = 1)
    (hfree : s.update.connection = none) (hidle : s.update.st = .idle) (hlength : req.length = 16)
    (hmagic : leNat (req.take 4) = 0x4B534E46) (hpad : leNat (req.drop 12) = 0) :
    let u := (s.setSlot s.targetSlot { st := .invalid }).onUpdate fun u => { u with st := .staging, connection := some (req, pkg) }
    exec (.servicePortConnect req pkg) s = .next (if requestLength req < pkg.length then u.refuseImage 0x09 pkg else u) := by
  have hopen : ¬((s.phase ≠ .running && s.phase ≠ .recovery) || s.power.powerFail || s.moduleSetting 0xA010 2 ≠ 1 ||
      s.update.connection.isSome) = true := by simp [hphase, hpower, henabled, hfree]
  have hgood : ¬(req.length ≠ 16 || leNat (req.take 4) ≠ 0x4B534E46 || leNat (req.drop 12) ≠ 0) = true := by simp [hlength, hmagic, hpad]
  exact (if_neg hopen).trans ((if_neg hgood).trans (if_neg (not_not.2 hidle)))

section Connected

variable (hconnected : s.update.connection = some (req, pkg))
include hconnected

/-- R410. -/
theorem exec_servicePortDataTimeout (hshort : pkg.length < requestLength req) :
    exec .servicePortDataTimeout s = .next (s.refuseImage 0x09 pkg) := by
  change execServicePortDataTimeout s = _
  unfold execServicePortDataTimeout
  rw [hconnected]
  exact if_neg (Nat.not_le.2 hshort)

section Whole

variable (hwhole : requestLength req = pkg.length) (hpower : s.power.powerFail = false)
include hwhole hpower

/-- R411. -/
theorem exec_packageStagingComplete_unwritten : exec (.packageStagingComplete false) s = .next (s.refuseImage 0x0A pkg) := by
  change execPackageStagingComplete false s = _
  unfold execPackageStagingComplete
  rw [hconnected]
  exact if_neg (by simp [hwhole, hpower])

/-- R409. -/
theorem exec_packageStagingComplete_bad (hbad : s.packageStatus pkg ≠ 0) :
    exec (.packageStagingComplete true) s = .next (s.refuseImage (s.packageStatus pkg) pkg) := by
  change execPackageStagingComplete true s = _
  unfold execPackageStagingComplete
  rw [hconnected]
  exact (if_neg (by simp [hwhole, hpower])).trans (if_pos hbad)

/-- R409, R411. -/
theorem exec_packageStagingComplete_good (hgood : s.packageStatus pkg = 0) (hphase : s.phase ≠ .recovery) :
    exec (.packageStagingComplete true) s =
      .next (((s.setSlot s.targetSlot { st := .staged, package := pkg }).raiseFw 0x1601 0 0 (pkgVersion pkg)).closePort 0
        (pkgVersion pkg)) := by
  change execPackageStagingComplete true s = _
  unfold execPackageStagingComplete
  rw [hconnected]
  exact (if_neg (by simp [hwhole, hpower])).trans ((if_neg (not_not.2 hgood)).trans (if_pos (by simpa using hphase)))

end Whole

end Connected

end Staging

section Activation

variable {s : State} (hup : s.up = true)
include hup

/-- R413, R414. The chosen slot becomes PROVISIONAL. -/
theorem exec_fwActivate {n i : Nat} {v : U32} (hmay : s.activateStatus n v = 0) (hslot : s.slotOf v = some i) :
    let u := ((s.setSlot i { s.slot i with st := .provisional }).writeBoot (some i) s.runningSlot).onUpdate fun u => { u with
      slotWas := (s.slot i).st
      supDone := none
      st := if s.moduleSetting 0xB000 2 = 0 then .handover else .holding
      newSlot := i
      handoverAt := 0
      saved := s.mgmt.values
      setsApplied := 0
      rollback := none
      maxPause := 0
      since := s.now }
    exec (.fwActivate n v) s = .next (u.raiseFw 0x1603 0 0 v).startWake := by
  refine congrArg Host.Outcome.next ((if_pos hup).trans ((if_neg (not_not.2 hmay)).trans ?_))
  rw [hslot]
  rfl

/-- R418, R422. -/
theorem exec_activateRestart (pause : Nat) (hheld : s.notHeld = []) (hawake : s.power.sleep = .awake)
    (hst : s.update.st = .holding ∨ s.update.st = .rollingBack) :
    let u := (s.restartAll.endSessions.endWindow 5).onUpdate fun u => { u with maxPause := pause }
    exec (.activateRestart pause) s = .next (if u.boot.2 then u.boot.1 else u.boot.1.enterRecovery) := by
  have hacts : ¬((s.update.st ≠ .holding && s.update.st ≠ .rollingBack) || !s.notHeld.isEmpty || !s.up || s.power.sleep ≠ .awake) = true := by
    rcases hst with h | h <;> simp [h, hheld, hup, hawake]
  exact if_neg hacts

/-- R419. -/
theorem exec_updateAbandon {p : Nat} {l : List Nat} (hst : s.update.st = .holding) (hheld : s.notHeld = p :: l) :
    let new := s.update.newSlot
    let u := (s.setSlot new { s.slot new with st := s.update.slotWas }).writeBoot none (1 - new)
    exec .updateAbandon s = .next ((u.onUpdate fun u => { u with st := .idle, saved := [] }).raise 0x1608 p 255
      [p, 0, (pkgVersion (s.slot new).package).toNat]) := by
  change execUpdateAbandon s = _
  unfold execUpdateAbandon
  rw [hst, hheld]
  exact if_neg (by simp [hup])

/-- R421. -/
theorem exec_confirmTimeout : exec .confirmTimeout s = .next s.confirmImage := congrArg Host.Outcome.next (if_pos hup)

/-- R421. -/
theorem exec_fwConfirm : exec .fwConfirm s = .next s.confirmImage := congrArg Host.Outcome.next (if_pos hup)

/-- R422. -/
theorem exec_fwRollback (hst : s.update.st = .provisional) :
    exec .fwRollback s = .next { s with update := { s.update with st := .rollingBack, rollback := some 5 } } :=
  congrArg Host.Outcome.next ((if_pos hup).trans (if_pos hst))

end Activation

/-! ## The sequence of a handover (R415 to R417) -/

section Handover

variable {n : Nat} {s : State}

theorem State.handoverDone_inOrder (hplace : s.handoverPlace < s.handoverOrder.length) : s.handoverDone n = s := if_pos hplace

section Supervisors

variable (hplace : s.handoverOrder.length ≤ s.handoverPlace)
include hplace

/-- The second Supervisor, or the only one, is the last. -/
theorem State.handoverDone_last (hlast : n = s.sup.activeSup ∨ ∃ u, s.update.supDone = some u ∧ u ≠ n) :
    s.handoverDone n = s.becomeProvisional := by
  refine (if_neg (Nat.not_lt.2 hplace)).trans (if_pos ?_)
  rcases hlast with hactive | ⟨u, hdone, hother⟩
  · simp [hactive]
  · simp [hdone, hother]

/-- The first Supervisor takes control. -/
theorem State.handoverDone_first (hstandby : n ≠ s.sup.activeSup) (hfirst : ∀ u, s.update.supDone = some u → u = n) :
    s.handoverDone n = ({ s with sup := { s.sup with activeSup := n } }).onUpdate fun u => { u with supDone := some n } := by
  refine (if_neg (Nat.not_lt.2 hplace)).trans (if_neg ?_)
  cases hdone : s.update.supDone with
  | none => simp [hstandby]
  | some u => simp [hstandby, hfirst u hdone]

theorem State.handoverNext_first (hnone : s.update.supDone = none) :
    s.handoverNext = if s.noStandby then s.sup.activeSup else 1 - s.sup.activeSup := by
  unfold handoverNext
  rw [List.getD_eq_default _ _ hplace]
  unfold handoverSup
  rw [hnone]

end Supervisors

section Step

variable (hup : s.up = true) (hst : s.update.st = .handover) (hawake : s.power.sleep = .awake)
include hup hst hawake

theorem State.handover_acts : ¬(s.update.st ≠ .handover || !s.up || s.power.sleep ≠ .awake) = true := by simp [hup, hst, hawake]

theorem exec_handoverProcessor_failed (ok : Bool) (pause : Nat) (hfailed : (s.proc s.handoverNext).st = .failed) :
    exec (.handoverProcessor ok pause) s = .next (s.handoverDone s.handoverNext) :=
  (if_neg (State.handover_acts hup hst hawake)).trans (if_pos hfailed)

section Runs

variable (hruns : (s.proc s.handoverNext).st = .running) (hcomps : (s.proc s.handoverNext).comps = []) (hserves : s.sup.failover = false)
include hruns hcomps hserves

/-- R415. -/
theorem exec_handoverProcessor {pause : Nat} (hpause : pause ≤ 1000) :
    exec (.handoverProcessor true pause) s = .next ((s.handoverDone s.handoverNext).onUpdate fun u => { u with
      handoverAt := s.handoverPlace + 1
      maxPause := Max.max u.maxPause pause
      lastPause := if u.st = .provisional then Max.max u.maxPause pause else u.lastPause }) := by
  refine (if_neg (State.handover_acts hup hst hawake)).trans ((if_neg (by simp [hruns])).trans ((if_neg ?_).trans (if_neg ?_)))
  · simp [hruns, hcomps, hserves]
  · simp [hpause]

/-- R417. A successor that rejects, or a pause above 1 ms. -/
theorem exec_handoverProcessor_undone {ok : Bool} {pause : Nat} (hmiss : ok = false ∨ 1000 < pause) :
    exec (.handoverProcessor ok pause) s = .next s.handoverBack := by
  refine (if_neg (State.handover_acts hup hst hawake)).trans ((if_neg (by simp [hruns])).trans ((if_neg ?_).trans (if_pos ?_)))
  · simp [hruns, hcomps, hserves]
  · simpa using hmiss

end Runs

end Step

end Handover

end Sys2Proof.Machine

open Sys2Proof Sys2Proof.Machine Sys2Proof.Claims in
/-- Settles O47: the connection to the service port, and the ends of its staging. -/
theorem packagesAreStaged : Obligations.PackagesAreStaged := by
  unfold Obligations.PackagesAreStaged
  refine ⟨fun req pkg s => exec_servicePortConnect, fun req pkg s hconnected => ⟨exec_servicePortDataTimeout hconnected,
    fun hwhole hpower => ⟨exec_packageStagingComplete_unwritten hconnected hwhole hpower,
      exec_packageStagingComplete_bad hconnected hwhole hpower, exec_packageStagingComplete_good hconnected hwhole hpower⟩⟩⟩

open Sys2Proof Sys2Proof.Machine Sys2Proof.Claims in
/-- Settles O48: the start of an activation, the sequence of a handover, and the ends of a hold and of a confirmation. -/
theorem firmwareActivates : Obligations.FirmwareActivates := by
  unfold Obligations.FirmwareActivates
  intro s hup
  refine ⟨fun n v i => exec_fwActivate hup, ?handover, fun pause => exec_activateRestart hup pause,
    fun p l => exec_updateAbandon hup, fun hst => ⟨exec_confirmTimeout hup, exec_fwConfirm hup, exec_fwRollback hup hst⟩⟩
  intro hst hawake l place n x
  refine ⟨State.handoverDone_inOrder, State.handoverDone_last, State.handoverDone_first, State.handoverNext_first, fun pause =>
    ⟨fun ok => exec_handoverProcessor_failed hup hst hawake ok pause, fun hruns hcomps hserves => ⟨?_, ?_, ?_⟩⟩⟩
  · exact exec_handoverProcessor hup hst hawake hruns hcomps hserves
  · exact exec_handoverProcessor_undone hup hst hawake hruns hcomps hserves (.inl rfl)
  · exact fun hlong => exec_handoverProcessor_undone hup hst hawake hruns hcomps hserves (.inr hlong)
end

section
/-! PROOFS. Resets and starts (R443 to R450): the reset pins, the choice of a slot by the boot, the end of a warm reset and a cold start. -/

namespace Sys2Proof.Machine

section Pins

variable {s : State}

/-- R447, R450. -/
theorem exec_deviceWarmReset (hup : s.up = true) (hidle : s.updating = false) :
    exec .deviceWarmReset s = .next (s.enterWarmReset 2 false) :=
  congrArg Host.Outcome.next (if_pos (by simp [hup, hidle]))

/-- R446. PERST_N rises: the host link trains. -/
theorem exec_perstN_high : exec (.perstN false) s = .next { s.fresh with power := { s.power with
    perstN := true
    hostWidth := [16, 8, 4, 2, 1].getD (Config.hostLanes s.freeUsed) 16
    hostGts := [64, 32, 16, 8, 5, 2].getD (Config.hostRate s.freeUsed) 64 } } := rfl

/-- R447. PERST_N falls. -/
theorem exec_perstN_low (hperst : s.power.perstN = true) (hon : s.phase ≠ .off) :
    let u := (List.range 4).foldl (fun s p => s.onPartn p fun x => x.onRegs FnRegs.msixClear)
      { s with power := { s.power with perstN := false, hostWidth := 0, hostGts := 0 } }
    exec (.perstN true) s = .next (u.existing.foldl (fun s p => s.expireLease p) u) := by
  have hacts : ¬(!s.power.perstN || s.phase = .off) = true := by simp [hperst, hon]
  exact if_neg hacts

end Pins

/-! ## The choice of a slot (R444) -/

section Boot

variable {s : State} (hst : s.update.st ≠ .staging)
include hst

theorem State.boot_unreadable (hrecord : s.bootRecord = none) : s.boot = (s, false) := by
  simp only [boot, hst, if_false, hrecord]

section Record

variable {c : BootCopy} (hrecord : s.bootRecord = some c)
include hrecord

section Provisional

variable {new : Nat} (hprov : c.prov = some new)
include hprov

omit hst in
/-- R422. A rollback takes the fallback. -/
theorem State.boot_rollsBack (hrolls : s.update.st = .rollingBack) :
    s.boot = (s.completeRollback (s.update.rollback.getD 5), s.slotBoots (1 - new)) := by
  simp only [boot, hrolls, reduceCtorEq, if_false, hrecord, hprov, if_true]

/-- A PROVISIONAL slot that fails is rolled back with reason 4. -/
theorem State.boot_provisionalFails (hrolls : s.update.st ≠ .rollingBack) (hfails : s.slotBoots new = false) :
    s.boot = (s.completeRollback 4, s.slotBoots (1 - new)) := by
  simp only [boot, hst, if_false, hrecord, hprov, hrolls, hfails, Bool.false_eq_true]

theorem State.boot_provisional (hrolls : s.update.st ≠ .rollingBack) (hboots : s.slotBoots new = true) :
    s.boot = (if s.update.st = .holding ∨ s.update.st = .activating then s.resetFormats.becomeProvisional
      else if s.update.st = .handover then s.becomeProvisional else s, true) := by
  simp only [boot, hst, if_false, hrecord, hprov, hrolls, hboots, if_true, Bool.or_eq_true, decide_eq_true_eq]

end Provisional

section Active

variable (hprov : c.prov = none)
include hprov

theorem State.boot_active (hboots : s.slotBoots c.active = true) : s.boot = (s, true) := by
  simp only [boot, hst, if_false, hrecord, hprov, hboots, if_true]

/-- An ACTIVE slot that fails leaves it to a PREVIOUS one that passes. -/
theorem State.boot_previous (hfails : s.slotBoots c.active = false) (hprevious : (s.slot (1 - c.active)).st = .previous)
    (hboots : s.slotBoots (1 - c.active) = true) :
    s.boot = (((s.setSlot c.active { s.slot c.active with st := .invalid }).setSlot (1 - c.active)
      { s.slot (1 - c.active) with st := .active }).writeBoot none (1 - c.active), true) := by
  simp only [boot, hst, if_false, hrecord, hprov, hfails, hprevious, hboots, decide_true, Bool.and_self, if_true, Bool.false_eq_true]

theorem State.boot_none (hfails : s.slotBoots c.active = false)
    (hother : (s.slot (1 - c.active)).st ≠ .previous ∨ s.slotBoots (1 - c.active) = false) : s.boot = (s, false) := by
  have hno : (decide ((s.slot (1 - c.active)).st = .previous) && s.slotBoots (1 - c.active)) = false := by
    rcases hother with h | h <;> simp [h]
  simp only [boot, hst, if_false, hrecord, hprov, hfails, hno, Bool.false_eq_true]

end Active

end Record

end Boot

/-! ## The ends of a warm reset and of a start -/

section Ends

variable {s : State}

/-- R448. -/
theorem exec_warmResetComplete {cause since : Nat} (lost : List Nat) (hphase : s.phase = .warmReset cause since false) :
    exec (.warmResetComplete lost) s = .next (if s.boot.2 = true then
        s.boot.1.finishWarm cause since lost (s.moduleNumber, s.extents)
      else ({ s.boot.1 with power := { s.boot.1.power with lastReset := cause } }).enterRecovery) := by
  change execWarmResetComplete lost s = _
  unfold execWarmResetComplete
  rw [hphase]

/-- R443, R444. -/
theorem exec_coldStart (r : StartReading) (hphase : s.phase = .off) (hcool : r.cool = true) :
    let u := (({ s with phase := .starting }).tellLoss.losePowered).powerUp
    let b := ({ u with power := { u.power with lastStartMicros := r.micros } }).boot
    let v := b.1.measureHoldup r.holdupBytes
    exec (.coldStart r) s = .next (if b.2 then v.startUp r.failedHalls else { v with phase := .recovery }) := by
  have hacts : ¬(s.phase ≠ .off || !r.cool) = true := by simp [hphase, hcool]
  exact if_neg hacts

/-- R443, R446. -/
theorem exec_moduleRunning (hphase : s.phase = .starting) :
    exec .moduleRunning s = .next (s.started s.power.lastReset s.power.lastStartMicros).releaseLatched :=
  if_neg (not_not.2 hphase)

end Ends

/-! ## The TAP (R452, R453, R467) -/

section Tap

variable {s : State}

/-- The instruction register takes a code, which may let a warm reset end. -/
def State.loadIr (s : State) (v : Byte) : State := ({ s with power := { s.power with tapIr := v } } : State).releaseReset

theorem State.releaseReset_power : s.releaseReset.power = s.power := by
  unfold releaseReset
  split
  · split <;> rfl
  · rfl

theorem State.sampled_tapIr : s.sampled.power.tapIr = s.power.tapIr := by
  unfold sampled
  split <;> rfl

section On

variable (hon : s.phase ≠ .off) (htrst : s.power.trstN = true)
include hon htrst

theorem State.setIr_on (v : Byte) : s.setIr v = s.loadIr v := by
  have hacts : ¬(s.phase = .off || !s.power.trstN) = true := by simp [hon, htrst]
  exact if_neg hacts

theorem State.scan_on (v : Byte) : s.scan v = s.loadIr (if s.power.modResetN then 0xFF else v) := State.setIr_on hon htrst _

theorem exec_extest : exec .extest s = .next (s.loadIr (if s.power.modResetN then 0xFF else 0x00)).sampled :=
  congrArg (fun u => Host.Outcome.next (State.sampled u)) (State.scan_on hon htrst _)

theorem exec_extestPulse : exec .extestPulse s = .next (s.loadIr (if s.power.modResetN then 0xFF else 0x03)).sampled :=
  congrArg (fun u => Host.Outcome.next (State.sampled u)) (State.scan_on hon htrst _)

theorem exec_extestTrain : exec .extestTrain s = .next (s.loadIr (if s.power.modResetN then 0xFF else 0x04)).sampled :=
  congrArg (fun u => Host.Outcome.next (State.sampled u)) (State.scan_on hon htrst _)

theorem exec_clamp : exec .clamp s = .next (s.loadIr (if s.power.modResetN then 0xFF else 0x05)) :=
  congrArg Host.Outcome.next (State.scan_on hon htrst _)

theorem exec_highz : exec .highz s = .next (s.loadIr (if s.power.modResetN then 0xFF else 0x06)) :=
  congrArg Host.Outcome.next (State.scan_on hon htrst _)

theorem exec_idcode : exec .idcode s = .next (s.loadIr 0x01) := congrArg Host.Outcome.next (State.setIr_on hon htrst _)

/-- R452. SAMPLE/PRELOAD captures, then shifts in. -/
theorem exec_samplePreload : exec .samplePreload s = .next (s.loadIr 0x02).sampled.preloadBoundary := by
  have hloaded : (s.loadIr 0x02).sampled.power.tapIr = 2 := by
    rw [State.sampled_tapIr, State.loadIr, State.releaseReset_power]
  change Host.Outcome.next (if (s.setIr 0x02).sampled.power.tapIr = 2 then _ else _) = _
  rw [State.setIr_on hon htrst, if_pos hloaded]

theorem exec_bypass {code : Byte} (hfrom : 7 ≤ code.toNat) (hcode : code.toNat < 0x80 ∨ code.toNat = 0xFF) :
    exec (.bypass code) s = .next (s.loadIr code) := by
  have hfree : ¬tapOther code = true := by
    simp only [tapOther, Bool.or_eq_true, Bool.and_eq_true, decide_eq_true_eq]
    omega
  exact congrArg Host.Outcome.next ((if_neg hfree).trans (State.setIr_on hon htrst _))

section Reserved

variable {code : Byte} (hfrom : 0x80 ≤ code.toNat) (hto : code.toNat ≤ 0xFE)
include hfrom hto

theorem State.reserved_acts : ¬(!(0x80 ≤ code.toNat && code.toNat ≤ 0xFE) || s.phase = .off || !s.power.trstN) = true := by
  simp [hfrom, hto, hon, htrst]

theorem exec_reserved_bypass (hlocked : s.moduleSetting 0xA010 3 ≠ 1) : exec (.sarolberPrivate code) s = .next (s.loadIr 0xFF) :=
  (if_neg (State.reserved_acts hon htrst hfrom hto)).trans ((if_neg hlocked).trans (congrArg _ (State.setIr_on hon htrst _)))

theorem exec_reserved_refused (hunlocked : s.moduleSetting 0xA010 3 = 1) :
    exec (.sarolberPrivate code) s = .refused .privateTapInstruction :=
  (if_neg (State.reserved_acts hon htrst hfrom hto)).trans (if_pos hunlocked)

end Reserved

theorem exec_tapTestLogicReset_plain (hplain : extestClass s.power.tapIr = false) :
    exec .tapTestLogicReset s = .next (s.loadIr 0x01) := by
  change execTapTestLogicReset s = _
  unfold execTapTestLogicReset
  simp only [hplain, Bool.false_eq_true, if_false]
  rw [← State.setIr_on hon htrst]
  split <;> rfl

end On

/-- R453. After an instruction of the EXTEST class the warm reset that held gets the cause TAP. -/
theorem exec_tapTestLogicReset_extest {cause t : Nat} {h : Bool} (htrst : s.power.trstN = true)
    (hextest : extestClass s.power.tapIr = true) (hphase : s.phase = .warmReset cause t h) :
    exec .tapTestLogicReset s = .next (({ s with
      phase := .warmReset 5 t h
      power := { s.power with tapIr := 0x01 } } : State).releaseReset) := by
  change execTapTestLogicReset s = _
  unfold execTapTestLogicReset
  simp only [hphase, hextest, if_true]
  exact congrArg Host.Outcome.next (State.setIr_on (s := { s with phase := .warmReset 5 t h }) (by simp) htrst _)

/-- R467. TRST_N low holds the TAP. -/
theorem State.setIr_held (htrst : s.power.trstN = false) (v : Byte) : s.setIr v = s := by
  have hheld : (s.phase = .off || !s.power.trstN) = true := by simp [htrst]
  exact if_pos hheld

theorem State.releaseReset_held {cause t : Nat} (hphase : s.phase = .warmReset cause t true) :
    s.releaseReset = if s.resetHeld then s else { s with phase := .warmReset cause t false } := by
  unfold releaseReset
  rw [hphase]

/-- R452. An instruction that selects the boundary register captures the pins. -/
theorem State.sampled_selected (h : s.power.tapIr = 2 ∨ extestClass s.power.tapIr = true) :
    s.sampled = { s.fresh with power := { s.power with boundary :=
      (List.range (Config.boundaryCells s.part.text)).map fun i => s.pinAt s.freeUsed (Config.boundaryPin s.part.text i) } } :=
  if_pos (by simpa using h)

theorem State.sampled_other (h : s.power.tapIr ≠ 2) (hplain : extestClass s.power.tapIr = false) : s.sampled = s :=
  if_neg (by rw [decide_eq_false h, hplain]; decide)

theorem State.driven_eq (i : Nat) : s.driven i = if s.power.tapIr = 6 then none
    else if extestClass s.power.tapIr = true ∨ s.power.tapIr = 5 then some (s.power.preload.getD i false)
    else some (s.pinAt s.freeUsed (Config.boundaryPin s.part.text i)) := by
  simp only [driven, Bool.or_eq_true, decide_eq_true_eq]

end Tap

end Sys2Proof.Machine

open Sys2Proof Sys2Proof.Machine Sys2Proof.Claims in
/-- Settles O49: the reset pins, the ends of a warm reset and of a start, and the boot by what the boot record names. -/
theorem resetsAndStarts : Obligations.ResetsAndStarts := by
  unfold Obligations.ResetsAndStarts
  refine ⟨fun s => exec_deviceWarmReset, fun s => ⟨rfl, rfl, exec_perstN_high, fun hperst hon => exec_perstN_low hperst hon⟩, ?warm,
    fun s => rfl, ?boot, fun r s hphase hcool => exec_coldStart r hphase hcool, fun l s => ⟨fun h => if_pos h, fun h => if_neg h⟩, fun s => rfl,
    fun s => exec_moduleRunning⟩
  case warm =>
    intro lost s cause since hphase
    refine ⟨fun hboots => ?_, fun hfails => ?_⟩
    · rw [exec_warmResetComplete lost hphase, if_pos hboots]
    · rw [exec_warmResetComplete lost hphase, if_neg (by simp [hfails])]
  case boot =>
    intro s hst
    refine ⟨State.boot_unreadable hst, fun c hrecord => ⟨fun new hprov => ⟨State.boot_rollsBack hrecord hprov,
      State.boot_provisionalFails hst hrecord hprov, State.boot_provisional hst hrecord hprov⟩, State.boot_active hst hrecord,
      State.boot_previous hst hrecord, State.boot_none hst hrecord⟩⟩

open Sys2Proof Sys2Proof.Machine Sys2Proof.Claims in
/-- Settles O50: the instructions that load, those that TRST_N holds, what the boundary register captures, and the end of a hold. -/
theorem tapInstructionsLoad : Obligations.TapInstructionsLoad := by
  unfold Obligations.TapInstructionsLoad
  refine ⟨?loads, ?held, fun s => ⟨State.sampled_selected, State.sampled_other, State.driven_eq⟩, fun cause t s => State.releaseReset_held⟩
  case loads =>
    intro s hon htrst ir scan
    refine ⟨exec_extest hon htrst, exec_idcode hon htrst, exec_samplePreload hon htrst, exec_extestPulse hon htrst,
      exec_extestTrain hon htrst, exec_clamp hon htrst, exec_highz hon htrst, fun code => exec_bypass hon htrst, fun code hfrom hto =>
      ⟨exec_reserved_bypass hon htrst hfrom hto, exec_reserved_refused hon htrst hfrom hto⟩, exec_tapTestLogicReset_plain hon htrst,
      fun cause t h => exec_tapTestLogicReset_extest htrst⟩
  case held =>
    intro s hon htrst
    exact ⟨congrArg _ (State.setIr_held htrst _), congrArg _ (State.setIr_held htrst _), congrArg _ (State.setIr_held htrst _)⟩
end

section
/-! PROOFS. The input, the power domains and the clocks (R357, R423 to R432). -/

namespace Sys2Proof.Machine

section Input

variable {mv : Nat} {s : State}

/-- R423. -/
theorem exec_inputVoltageLow (hon : s.phase ≠ .off) (hfrom : 43000 ≤ mv) (hto : mv < 45000) :
    exec (.inputVoltageLow mv) s = .next ((s.onSensors fun x => { x with millivolts := mv, low := true }).raiseM 0x2001 255 [mv]) :=
  if_neg (by simp [hon, hfrom, hto])

/-- R423. -/
theorem exec_inputVoltageInRange (hfrom : 45000 ≤ mv) :
    exec (.inputVoltageInRange mv) s = .next (s.onSensors fun x => { x with millivolts := mv, low := false }) :=
  if_neg (Nat.not_lt.2 hfrom)

/-- R423. -/
theorem exec_inputVoltageHigh (hon : s.phase ≠ .off) (hfrom : 57000 < mv) :
    exec (.inputVoltageHigh mv) s = .next ((s.onSensors fun x => { x with millivolts := mv }).raiseM 0x2002 255 [0]) :=
  if_neg (by simp [hon, hfrom])

/-- R423. -/
theorem exec_inputOvervoltage (hon : s.phase ≠ .off) (hpower : s.power.powerFail = false) (hfrom : 58500 < mv) :
    exec (.inputOvervoltage mv) s =
      .next ((s.onSensors fun x => { x with millivolts := mv, overvoltage := true }).losePower true) :=
  if_neg (by simp [hon, hpower, hfrom])

end Input

/-! ## Domains (R425, R426) -/

section Domains

variable {d : Nat} {s : State} (hphase : s.phase = .running)
include hphase

/-- The faults of a domain within the last hour. -/
def State.recentFaults (s : State) (d : Nat) : List Nat := (s.power.domains.get d {}).faults.filter fun t => s.now < t + 3600000000

/-- R426. -/
theorem exec_domainFault (hon : s.domainState d = 1) :
    let beyond := !(s.recentFaults d).isEmpty
    exec (.domainFault d) s = .next (((s.setDomain d { s.power.domains.get d {} with
      st := .faulted
      faults := s.recentFaults d ++ [s.now]
      retriedAt := if beyond then some s.now else none }).raiseM 0x2201 (domKind d).pos [d]).domainFaulted d beyond) :=
  if_neg (by simp [hon, hphase])

section Retry

variable (hst : (s.power.domains.get d {}).st = .faulted) (hfirst : (s.power.domains.get d {}).retriedAt = none)
  (hserves : s.compUp 14 compClocks = true)
include hst hfirst hserves

theorem State.domainRetry_acts : ¬((s.power.domains.get d {}).st ≠ .faulted || (s.power.domains.get d {}).retriedAt.isSome ||
    !s.compUp 14 compClocks || s.phase ≠ .running) = true := by simp [hst, hfirst, hserves, hphase]

/-- R426. The attempt succeeds. -/
theorem exec_domainRetry_regulates (hkind : ∀ die, domKind d ≠ .flash die) :
    exec (.domainRetry d true) s =
      .next (s.setDomain d { s.power.domains.get d {} with st := .on, retriedAt := some s.now }) := by
  refine (if_neg (State.domainRetry_acts hphase hst hfirst hserves)).trans ((if_pos rfl).trans (congrArg _ ?_))
  split
  next die hdie => exact absurd hdie (hkind die)
  next => rfl

/-- R426. The attempt fails. -/
theorem exec_domainRetry_fails : exec (.domainRetry d false) s =
    .next ((s.setDomain d { s.power.domains.get d {} with retriedAt := some s.now }).domainFaulted d true) :=
  (if_neg (State.domainRetry_acts hphase hst hfirst hserves)).trans (if_neg Bool.false_ne_true)

end Retry

/-- R426. -/
theorem exec_domainRestored (hst : (s.power.domains.get d {}).st = .on) (hretried : (s.power.domains.get d {}).retriedAt ≠ none) :
    exec (.domainRestored d) s =
      .next ((s.setDomain d { s.power.domains.get d {} with retriedAt := none }).raiseM 0x2202 (domKind d).pos [d]) :=
  if_neg (by simp [hst, hretried, hphase])

end Domains

/-! ## Clocks and caps (R357, R429, R431, R432) -/

section Clocks

variable {s : State} (hworks : s.working = true)
include hworks

theorem State.phase_of_working : s.phase = .running := by
  simp only [working, Bool.and_eq_true, decide_eq_true_eq] at hworks
  obtain ⟨⟨hphase, -⟩, -⟩ := hworks
  exact hphase

theorem State.up_of_working : s.up = true := by
  simp only [working, Bool.and_eq_true] at hworks
  obtain ⟨⟨hphase, -⟩, hpower⟩ := hworks
  exact Bool.and_eq_true_iff.2 ⟨hphase, hpower⟩

/-- R429. -/
theorem exec_clockRaiseStep {h g mhz : Nat} (hserves : s.compUp 14 compClocks = true) (hh : h < 4) (hg : g < 96) (hstep : mhz % 25 = 0)
    (habove : s.galleryClock h g < mhz) (hnear : mhz ≤ s.galleryClock h g + 100) (htarget : mhz ≤ s.clockTarget h g) :
    exec (.clockRaiseStep h g mhz) s = .next (s.setClock h g mhz) :=
  if_neg (by simp [hserves, hh, hg, hworks, hstep, habove, hnear, htarget])

/-- The state with what the input measures (R431). -/
def State.measured (s : State) (r : PowerReading) : State :=
  s.onSensors fun x => { x with millivolts := r.millivolts, milliamps := r.milliamps, watts := r.inputWatts }

/-- R431, R432. -/
theorem exec_powerCapTick (r : PowerReading) :
    let v := if s.compUp 14 compCapping = true then
        ((s.measured r).existing.foldl (fun s p => s.capOne r.domainWatts p) (s.measured r)).lowerClocks
      else s.measured r
    exec (.powerCapTick r) s = .next (v.existing.foldl (fun s p => s.countCapped p) v) := by
  have hon : ¬s.phase = .off := by simp [State.phase_of_working hworks]
  have hup : ¬(!(s.measured r).up) = true := by
    have h : (s.measured r).up = true := State.up_of_working hworks
    simp [h]
  exact (if_neg hon).trans (if_neg hup)

/-- R357. -/
theorem exec_fallbackGovernorTick {watts : Nat} {junctions : List Int} (hexcess : (s.compUp 14 compCapping = false ∧ s.effectiveCap < watts) ∨
    (s.compUp 14 compThermal = false ∧ ∃ t ∈ junctions, 100 * (s.moduleSetting 0x7010 1 : Int) < t)) :
    exec (.fallbackGovernorTick watts junctions) s =
      .next (galleries.foldl (fun s e => s.setClock e.1 e.2 (Max.max 400 (s.galleryClock e.1 e.2 - 25))) (s.governThermal junctions)) := by
  refine if_neg ?_
  rcases hexcess with ⟨hcapping, hcap⟩ | ⟨hthermal, hhot⟩
  · simp [hworks, hcapping, hcap]
  · have hany : (junctions.any fun t => decide (100 * (s.moduleSetting 0x7010 1 : Int) < t)) = true := by simpa using hhot
    simp only [hworks, hthermal, hany, Bool.not_true, Bool.not_false, Bool.and_self, Bool.or_true, Bool.or_self, Bool.false_eq_true,
      not_false_eq_true]

end Clocks

end Sys2Proof.Machine

open Sys2Proof Sys2Proof.Machine Sys2Proof.Claims in
/-- Settles O51: the readings of the input, the fault of a domain and the ends of its retry, and the rules of the clocks. -/
theorem inputsDomainsAndClocks : Obligations.InputsDomainsAndClocks := by
  unfold Obligations.InputsDomainsAndClocks
  refine ⟨fun mv s => ⟨exec_inputVoltageLow, exec_inputVoltageInRange, exec_inputVoltageHigh, exec_inputOvervoltage⟩, ?domains, ?clocks⟩
  case domains =>
    intro d s hphase x past
    refine ⟨fun hon => ⟨fun hfirst => ?first, fun hagain => ?again⟩, fun hst hfirst hserves =>
      ⟨exec_domainRetry_regulates hphase hst hfirst hserves, exec_domainRetry_fails hphase hst hfirst hserves⟩, exec_domainRestored hphase⟩
    case first =>
      have hnone : s.recentFaults d = [] := hfirst
      have hfault := exec_domainFault hphase hon
      rw [hnone] at hfault
      exact hfault
    case again =>
      have hpast : s.recentFaults d ≠ [] := hagain
      have hsome : (!(s.recentFaults d).isEmpty) = true := by simpa using hpast
      have hfault := exec_domainFault hphase hon
      rw [hsome] at hfault
      exact hfault
  case clocks =>
    intro s hworks
    refine ⟨⟨fun h g mhz => exec_clockRaiseStep hworks, fun r hserves => ?caps⟩, fun r hstopped => ?measures, fun watts junctions =>
      exec_fallbackGovernorTick hworks⟩
    case caps =>
      have htick := exec_powerCapTick hworks r
      rw [if_pos hserves] at htick
      exact htick
    case measures =>
      have hnot : ¬s.compUp 14 compCapping = true := by simp [hstopped]
      have htick := exec_powerCapTick hworks r
      rw [if_neg hnot] at htick
      exact htick
end

section
/-! PROOFS. Thermal samples, SLEEP and lake tests (R433 to R441, R454). -/

namespace Sys2Proof.Machine

/-! ## Thermal rules and the hold-up energy (R433 to R437) -/

section Thermal

variable {s : State}

/-- R433 to R436. The Power Manager's thermal component serves. -/
theorem exec_thermalSample (r : ThermalReading) (hworks : s.working = true) (hserves : s.compUp 14 compThermal = true) :
    let u := (List.range 4).foldl (fun s h => s.thermalHall r h) s
    let u := (List.range 4).foldl (fun s h => s.sampleHall r h) u
    let u := u.part.stackList.foldl (fun s k => s.thermalStack r k) u
    exec (.thermalSample r) s = .next ((u.onSensors fun x => { x with dies := r.dies }).coolantCheck r).lowerClocks := by
  have hon : ¬(s.phase = .off || s.phase = .recovery) = true := by simp [State.phase_of_working hworks]
  have hrules : (s.working && s.compUp 14 compThermal) = true := by simp [hworks, hserves]
  refine (if_neg hon).trans ?_
  simp only [hrules, if_true]

/-- R435. -/
theorem exec_thermalTrip {i : Nat} (hon : s.phase ≠ .off) (hpower : s.power.powerFail = false) (hi : i < 48)
    (hpart : i < 32 ∨ s.part.hasStack (i - 32) = true) :
    exec (.thermalTrip i) s = .next ((s.onSensors fun x => { x with trip := some i }).losePower true) := by
  refine if_neg ?_
  rcases hpart with hjunction | hstack
  · simp [hon, hpower, hi, hjunction]
  · simp [hon, hpower, hi, hstack]

/-- R437. -/
theorem exec_holdupCheck (hphase : s.phase = .running) (n : Nat) : exec (.holdupCheck n) s = .next (s.measureHoldup n) :=
  congrArg Host.Outcome.next (if_pos hphase)

end Thermal

/-! ## SLEEP (R438 to R441) -/

section Sleep

variable {s : State}

theorem State.beginSleep_may (hmay : s.canSleep = true) : s.beginSleep = { s with power := { s.power with sleep := .entering } } :=
  if_pos hmay

/-- R438. -/
theorem exec_sleepIdleTimeout (hmay : s.canSleep = true) (henabled : s.moduleSetting 0x7020 2 ≠ 0) :
    exec .sleepIdleTimeout s = .next { s with power := { s.power with sleep := .entering } } :=
  congrArg Host.Outcome.next ((if_pos henabled).trans (State.beginSleep_may hmay))

/-- A set that waits for SLEEP writes 1 to Power.Sleep. -/
theorem State.asksSleep_of_sleepSets {c : ChangeSet} {rest : List ChangeSet} (hsets : s.sleepSets = c :: rest) : c.asksSleep = true := by
  have hmem : c ∈ s.sleepSets := hsets ▸ List.mem_cons_self
  obtain ⟨-, hwaits⟩ := List.mem_filter.1 hmem
  exact (Bool.and_eq_true_iff.1 hwaits).2

/-- R438. A write whose conditions stay unmet is rolled back. -/
theorem exec_sleepWaitTimeout {c : ChangeSet} {rest : List ChangeSet} {p : Nat} {l : List Nat} (hup : s.up = true)
    (hserves : s.sup.failover = false) (hsets : s.sleepSets = c :: rest) (hbusy : s.notIdle = p :: l) :
    let late := (c.affected.filter fun p => !c.reached.contains p).head?
    exec .sleepWaitTimeout s = .next ((s.rollbackSet c.csid 1 (some (late.getD p))).raiseP 0x2403 p [p]) := by
  have hacts : ¬(!s.up || s.sup.failover || s.notIdle.isEmpty) = true := by simp [hup, hserves, hbusy]
  refine (if_neg hacts).trans ?_
  rw [hsets]
  change Host.Outcome.next (s.timeOut c) = _
  unfold State.timeOut
  rw [State.asksSleep_of_sleepSets hsets, hbusy]

section Entering

variable (hphase : s.phase = .running) (hst : s.power.sleep = .entering)
include hphase hst

/-- A partition is no longer idle: the entry is given up. -/
theorem exec_sleepEntered_busy (hbusy : s.notIdle ≠ []) :
    exec .sleepEntered s = .next { s with power := { s.power with sleep := .awake } } :=
  (if_neg (by simp [hphase, hst])).trans (if_pos (by simpa using hbusy))

/-- R439. -/
theorem exec_sleepEntered_idle (hidle : s.notIdle = []) :
    let u := if s.moduleSetting 0x7020 3 = 0 then s.sleepPorts else s
    exec .sleepEntered s = .next (({ u with
      cores := []
      power := { u.power with sleep := .asleep, sleepEntries := u.power.sleepEntries + 1 } } : State).raiseM 0x2401 255 []) :=
  (if_neg (by simp [hphase, hst])).trans (if_neg (by simp [hidle]))

end Entering

section Wake

variable (hst : s.power.sleep = .asleep)
include hst

theorem State.startWake_asleep : s.startWake = { s with power := { s.power with sleep := .waking } } := if_pos hst

/-- R440. The acceptance of a command finds an accepted command. -/
theorem exec_wake_command (hbusy : s.notIdle ≠ []) :
    exec (.wake .commandAccepted) s = .next { s with power := { s.power with sleep := .waking } } :=
  congrArg Host.Outcome.next ((if_pos (by simpa using hbusy)).trans (State.startWake_asleep hst))

/-- R440. The fabric's triggers need its domains. -/
theorem exec_wake_fabric {t : WakeTrigger} (ht : t = .lakePacket ∨ t = .exchangeFrame) (hfabric : s.moduleSetting 0x7020 3 = 1) :
    exec (.wake t) s = .next { s with power := { s.power with sleep := .waking } } := by
  rcases ht with rfl | rfl
  · exact congrArg Host.Outcome.next ((if_pos (decide_eq_true hfabric)).trans (State.startWake_asleep hst))
  · exact congrArg Host.Outcome.next ((if_pos (decide_eq_true hfabric)).trans (State.startWake_asleep hst))

/-- R440. Any other trigger wakes the module. -/
theorem exec_wake {t : WakeTrigger} (hcommand : t ≠ .commandAccepted) (hlake : t ≠ .lakePacket) (hexchange : t ≠ .exchangeFrame) :
    exec (.wake t) s = .next { s with power := { s.power with sleep := .waking } } := by
  refine congrArg Host.Outcome.next ((if_pos ?_).trans (State.startWake_asleep hst))
  split
  · exact absurd rfl hcommand
  · exact absurd rfl hlake
  · exact absurd rfl hexchange
  · rfl

end Wake

/-- R441. -/
theorem exec_wakeComplete (hphase : s.phase = .running) (hst : s.power.sleep = .waking) (hserves : s.compUp 14 compClocks = true) :
    let u := { s with power := { s.power with sleep := .awake } }
    let v := if s.moduleSetting 0x7020 3 = 0 then u.trainPorts else u
    exec .wakeComplete s = .next (v.lockClocks.raiseM 0x2402 255 []) := by
  have hacts : ¬(s.power.sleep ≠ .waking || !s.compUp 14 compClocks || s.phase ≠ .running) = true := by simp [hst, hserves, hphase]
  exact if_neg hacts

end Sleep

/-! ## Lake tests (R454) -/

/-- The granules of stack k that fail its test. -/
def granulesFailing (r : LakeTestResult) (k : Nat) : List (Nat × Nat) := r.failing.filter fun e => lakeStack (e.1 * 64) = k

/-- Stack k has been tested: a journal copy on it is moved, what failed is told, and its contents are back or gone. -/
def State.stackTested (s : State) (r : LakeTestResult) (k : Nat) : State :=
  let park := s.power.lakeTest.park
  let u := s.moveCopy k
  let u := if park = true ∧ s.power.lakeTest.st = .holding then
      u.raise 0x3401 (if u.hallOwner (k / 4) < 4 then u.hallOwner (k / 4) else 15) k [] else u
  let u := (granulesFailing r k).foldl (fun s e => s.deviceFails k e) u
  if park then (if r.parkedBack then u.parkReturned k r.changed else u.lendLost k) else u.stackEmptied k

/-- The test goes on with the stacks that are left. -/
def State.stackCounted (u : State) (r : LakeTestResult) (k : Nat) (rest : List Nat) : State :=
  u.onLakeTest fun t => { t with
    stacksLeft := rest
    st := if t.park then .parking else .testing
    failing := t.failing + ((granulesFailing r k).map fun e => e.1).dedup.length
    total := t.total + ((granulesFailing r k).map fun e => e.1).dedup.length
    since := u.now }

section LakeTests

variable {s : State}

/-- R454. -/
theorem exec_lakeTestStart (hworks : s.working = true) (hmay : s.lakeTestAllowed = true) :
    exec .lakeTestStart s = .next ((s.onLakeTest fun t => {
      st := .holding
      stacksLeft := s.testStacks
      owners := s.existing.filter fun p => s.testStacks.any fun k => s.hallOwner (k / 4) = p
      park := s.moduleSetting 0xF110 2 = 1
      total := t.total
      since := s.now }).raiseM 0x1703 255 []) :=
  congrArg Host.Outcome.next (if_neg (by simp [hworks, hmay]))

variable (hup : s.up = true)
include hup

/-- R454. The hold has not come: the test is refused with CONSTRAINT. -/
theorem exec_lakeTestHoldTimeout (hst : s.power.lakeTest.st = .holding) (hheld : s.lakeTestHeld = false) :
    exec .lakeTestHoldTimeout s = .next (s.endLakeTest .idle 0x25) :=
  congrArg Host.Outcome.next (if_pos (by simp [hst, hheld, hup]))

section Stack

variable (hbusy : s.power.lakeTest.busy = true) (hheld : s.lakeTestHeld = true)
include hbusy hheld

theorem State.lakeTest_acts : ¬(!s.power.lakeTest.busy || !s.lakeTestHeld || !s.up) = true := by simp [hbusy, hheld, hup]

variable {r : LakeTestResult} {k : Nat} {rest : List Nat} (hleft : s.power.lakeTest.stacksLeft = k :: rest)
include hleft

/-- R454. The park module refuses. -/
theorem exec_lakeTestStackDone_refused (hpark : s.power.lakeTest.park = true) (hrefused : r.refused = true) :
    exec (.lakeTestStackDone r) s = .next (s.endLakeTest .idle 0x25) := by
  change execLakeTestStackDone r s = _
  unfold execLakeTestStackDone
  simp only [hleft]
  exact (if_neg (State.lakeTest_acts hup hbusy hheld)).trans (if_pos (by simp [hpark, hrefused]))

/-- R454. The last stack ends the test. -/
theorem exec_lakeTestStackDone (hgoes : s.power.lakeTest.park = false ∨ r.refused = false) :
    let u := (s.stackTested r k).stackCounted r k rest
    exec (.lakeTestStackDone r) s = .next (if rest = [] then
        (if u.power.lakeTest.failing = 0 then u.endLakeTest .passed 5 else u.endLakeTest .failed 6)
      else u) := by
  have hparks : ¬(s.power.lakeTest.park && r.refused) = true := by
    rcases hgoes with h | h <;> simp [h]
  change execLakeTestStackDone r s = _
  unfold execLakeTestStackDone
  simp only [hleft]
  refine (if_neg (State.lakeTest_acts hup hbusy hheld)).trans ((if_neg hparks).trans ?_)
  simp only [List.isEmpty_iff, Bool.and_eq_true, decide_eq_true_eq]
  rfl

end Stack

end LakeTests

end Sys2Proof.Machine

open Sys2Proof Sys2Proof.Machine Sys2Proof.Claims in
/-- Settles O52: the thermal sample and trip, the way into SLEEP and out of it, and the course of a lake test. -/
theorem thermalsSleepAndLakeTests : Obligations.ThermalsSleepAndLakeTests := by
  unfold Obligations.ThermalsSleepAndLakeTests
  refine ⟨?running, fun s => exec_lakeTestStart, ?test⟩
  case running =>
    intro s hphase
    have hon : s.phase ≠ .off := by simp [hphase]
    refine ⟨fun r => exec_thermalSample r, fun i => exec_thermalTrip hon, exec_holdupCheck hphase, rfl,
      fun hmay => ⟨State.beginSleep_may hmay, exec_sleepIdleTimeout hmay⟩, fun c rest p l => exec_sleepWaitTimeout, ?entering, ?wakes,
      exec_wakeComplete hphase⟩
    case entering =>
      intro hst
      exact ⟨exec_sleepEntered_busy hphase hst, exec_sleepEntered_idle hphase hst⟩
    case wakes =>
      intro hst
      exact ⟨exec_wake_command hst, fun t => exec_wake hst, fun hfabric => ⟨exec_wake_fabric hst (.inl rfl) hfabric,
        exec_wake_fabric hst (.inr rfl) hfabric⟩⟩
  case test =>
    intro s hup
    refine ⟨exec_lakeTestHoldTimeout hup, fun r k rest hbusy hheld hleft => ⟨exec_lakeTestStackDone_refused hup hbusy hheld hleft,
      exec_lakeTestStackDone hup hbusy hheld hleft⟩⟩
end
